-- ==== Sys2Proof/Word.lean ====
section
/-! DEFINITION. The word types of the DX-9416 and their plainest arithmetic. -/

namespace Sys2Proof

/-- A byte of memory. -/
abbrev Byte := BitVec 8

/-- A 32-bit register (R9). -/
abbrev Word := BitVec 32

/-- A UID as the number its 12 bits spell (R2). -/
abbrev Uid := Nat

/-- The UID with these fields: die [11:9], region [8:7], cluster [6:4], unit [3:0] (R2). -/
def mkUid (die region cluster unit : Nat) : Uid :=
  die * 512 + region * 128 + cluster * 16 + unit

end Sys2Proof
end

