-- ==== Sys2Proof/Syntax.lean ====
section
/-! DEFINITION. The commands of the block: one constructor of Instr for each row of
spec/opcode_table.json, with the row's operands. -/

namespace Sys2Proof

/-- A core: 0 to 383 the compute cores by device-wide index (R4), 384 to 387 the hub cores. -/
abbrev CoreIx := Fin 388
/-- A register field of an instruction. -/
abbrev Reg := BitVec 5
/-- A predicate field. -/
abbrev PReg := BitVec 3
/-- An accumulator field. -/
abbrev AReg := BitVec 3

/-- The part every instruction of an AK core has: the core that issues it, its end-of-bundle bit E,
and its guard (R118). For V-class and VMEM instructions `pg` is the mask field pm (R162). -/
structure Hd where
  k : CoreIx
  last : Bool
  pg : PReg
  gn : Bool
  deriving DecidableEq, Repr

/-- The head of an instruction whose format has no GN bit (R118). -/
def Hd.noGn (h : Hd) : Hd := { h with gn := false }

/-- The M format's fields (R118): size, zero-extend, post-increment, circular window, offset. -/
structure MForm where
  sz : BitVec 2
  u : Bool
  pi : Bool
  cwe : Bool
  cw : BitVec 3
  imm : BitVec 5
  deriving DecidableEq, Repr

/-- The fields of a unit-stride vector access (R188). -/
structure VForm where
  sz : BitVec 2
  pi : Bool
  cwe : Bool
  cw : BitVec 3
  deriving DecidableEq, Repr

/-- The scalar forms of major 0x13, minors 0x10 to 0x17 (R159). -/
inductive FOp where
  | add | sub | mul | fma | min | max | cmpeq | cmplt
  deriving DecidableEq, Repr


/-- The UID, Gust channel and privilege code of a requester; `dbg` an access of the debug port. -/
structure Req where
  uid : BitVec 12
  ch : BitVec 6
  lvl : BitVec 2
  dbg : Bool
  deriving DecidableEq, Repr

/-- An access as it arrives: entry `i` of a core's write buffer or port A queue, or a read or write of
another unit, at a device address. -/
inductive MemAcc where
  | queued (k : CoreIx) (portA : Bool) (i : Fin 8)
  | read (q : Req) (a : BitVec 42) (n : BitVec 7)
  | write (q : Req) (a : BitVec 42) (data : List Byte)
  deriving DecidableEq, Repr

/-- The source of a fault: a unit, a Gust channel, or a package fault by its source code (R598). -/
inductive FaultSrc where
  | unit (uid : BitVec 12)
  | chan (e : Fin 17) (n : Fin 64)
  | pkg (src : BitVec 4)
  deriving DecidableEq, Repr

/-- The memory words that have gone bad since the last command that names any: an address in each, and whether its
check bits can no longer correct it (R231; log entry 5). -/
abbrev Ecc := List (BitVec 42 × Bool)

/-- The memory whose window or word Wash tests: a bank's window, a core memory's word, a hub SRAM word. -/
inductive WashTgt where
  | bank (r : Fin 16) (n : Fin 52) (w : BitVec 13)
  | core (k : CoreIx) (imem : Bool) (w : BitVec 15)
  | sram (w : BitVec 20)
  deriving DecidableEq, Repr

/-- The header of a Euril frame as it arrives, with the port it arrives on (R560). -/
structure EurHdr where
  port : Fin 16
  src : BitVec 14
  dst : BitVec 14
  seq : BitVec 16
  ack : BitVec 16
  credit : BitVec 16
  tag : BitVec 16
  deriving DecidableEq, Repr

/-- A host request to the PCI Express configuration space of a function (R63): a read, or a write of a setting
the device acts on, or of any other word. -/
inductive CfgOp where
  | read (off : BitVec 12)
  | msix (en mask : Bool)
  | power (d3 : Bool)
  | sriov (vfs : BitVec 5)
  | other (off : BitVec 12) (v : Word)
  deriving DecidableEq, Repr

/-- A window access of a device unit: a read or a write. -/
inductive WinOp where
  | read (n : BitVec 13)
  | write (data : List Byte)
  deriving DecidableEq, Repr

/-- An application a module advertises (R582): its code, and its host interface: the rate in Gb/s and the lanes. -/
structure ModApp where
  code : BitVec 8
  rate : BitVec 10
  lanes : BitVec 3
  deriving DecidableEq, Repr

/-- The commands, one for each row of spec/opcode_table.json. -/
inductive Instr where
  /-- REG_WRITE (R11): A write to a register that has no behaviour of its own updates its fields according to their access codes. -/
  | regWrite (q : Req) (a : BitVec 42) (v : Word)
  /-- RCL_READ (R12): A read of an RCL field returns its value and then clears it, with any same-cycle hardware updates applied afterwards. -/
  | rclRead (q : Req) (a : BitVec 42)
  /-- READ_LOW_WORD (R10): A read of the low word of a 64-bit register pair latches the high word for the following read. -/
  | readLowWord (q : Req) (a : BitVec 42)
  /-- UNIT_FAULT (R23): A faulting unit fails its task and is quarantined. `more`: faults detected in the same cycle (R29). -/
  | unitFault (uid : BitVec 12) (more : List FaultSrc)
  /-- CLUSTER_QUARANTINE (R25): A cluster whose interrupt controller or clock faults is quarantined, and its ready tasks go elsewhere or complete FAULT. -/
  | clusterQuarantine (c : Fin 96)
  /-- DIE_FENCE (R26): A die-level fault fences the die, stops its clocks and fails every task in flight on it. -/
  | dieFence (d : Fin 4)
  /-- PACKAGE_FAULT (R28): A package-level fault stops all functions and leaves only the BAR0 recovery window answering. -/
  | packageFault (src : BitVec 4)
  /-- PKG_FAULT_RESET_TIMER (R87): One second after a package fault with PKG_FAULT_RESET set, a full reset starts. -/
  | pkgFaultResetTimer
  /-- POWER_GOOD (R607): All rails have been within range for 1 ms with RESET_N high, and the boot begins. -/
  | powerGood (latch key : Bool)
  /-- RESET_N_RELEASE (R607): Deassertion of RESET_N after power-up starts the boot. -/
  | resetNRelease
  /-- RESET_N_ASSERT (R607): Assertion of RESET_N after power good starts a full reset. -/
  | resetNAssert
  /-- CANDIDATE_LOAD (R56): The loader streams a candidate image, checks it in order, writes its segments and verifies its signature. -/
  | candidateLoad (err : Option (BitVec 32))
  /-- LAYER_APPLY (R61): The factory and then user layer records set the start values of Img Y fields. -/
  | layerApply
  /-- DORMANT_REACHED (R65): Hub firmware completes bring-up, MODE reads DORMANT, boot time is recorded and EV_GSO_DORMANT is raised. -/
  | dormantReached
  /-- AUTO_START (R66): Once the timebase is LOCKED or HOLDOVER after boot, the device enters COMMISSION or RUN_MODE by itself. -/
  | autoStart
  /-- MODE_REQUEST (R69): A mode change request enters a running mode from DORMANT, starts or retargets a drain, or is refused. -/
  | modeRequest
  /-- TARGET_WRITE (R624): A write of GSO_MODE.TARGET by M-level firmware acts as a MODE_REQUEST naming that value. -/
  | targetWrite (q : Req) (v : Word)
  /-- DRAIN_COMPLETE (R72): When every traffic function is STOPPED or WEDGED, the device enters TARGET and starts functions with RESUME set. -/
  | drainComplete
  /-- DRAIN_TIMEOUT (R71): When drain exceeds TIMEOUT_MS, remaining tasks are killed, functions set STOPPED and EV_GSO_DRAIN_TIMEOUT raised. -/
  | drainTimeout
  /-- FUNCTION_START (R79): A FUNCTION_START command moves a STOPPED function to STARTING after its start checks. -/
  | functionStart
  /-- FUNCTION_STOP (R84): A FUNCTION_STOP command moves a function to STOPPING or clears its RESUME. -/
  | functionStop
  /-- FUNCTION_CONFIG (R552): A FUNCTION_CONFIG command checks then applies configuration records, or removes the function. -/
  | functionConfig (recs : List Byte) (fail : Bool)
  /-- WATCHDOG_EXPIRE (R82): A function without progress for three watchdog intervals becomes WEDGED and EV_GSO_WEDGED is raised. -/
  | watchdogExpire (n : Fin 134)
  /-- STAGE_IMAGE (R555): A STAGE_IMAGE command programs a chunk of a new image into the inactive slot. -/
  | stageImage (chunk : List Byte) (fail : Bool)
  /-- COMMIT_IMAGE (R85): A COMMIT_IMAGE command verifies the staged image and writes a marker naming its slot. -/
  | commitImage (busy : Bool) (err : Option (BitVec 32))
  /-- FULL_RESET (R553): A FULL_RESET command writes OK, sends its vector and schedules the reset 1 ms later. -/
  | fullReset
  /-- FULL_RESET_DELAY_EXPIRE (R553): One millisecond after FULL_RESET the reset of R87 starts. -/
  | fullResetDelayExpire
  /-- FULL_RESET_EXECUTE (R88): After any flash program completes, everything outside the AON is reset and the device boots again. -/
  | fullResetExecute
  /-- PWRFAIL_FALL (R91): PWRFAIL_N falling freezes the event log and starts its flush into the next flush slot. -/
  | pwrfailFall
  /-- LOG_FLUSH_COMPLETE (R625): The flush finishes its entries and programs DONE to 0x00. -/
  | logFlushComplete
  /-- PWRFAIL_RISE (R92): PWRFAIL_N rising before power loss sets RECOVERED and the device continues. -/
  | pwrfailRise
  /-- CORE_RUN (R108): Setting CORE_CTRL.RUN starts a halted core at CORE_BOOT_PC at M level with IE 0. -/
  | coreRun (k : CoreIx)
  /-- ADD (R120): Adds two registers modulo 2^32. -/
  | add (h : Hd) (rd rs1 rs2 : Reg)
  /-- SUB (R120): Subtracts two registers modulo 2^32. -/
  | sub (h : Hd) (rd rs1 rs2 : Reg)
  /-- AND (R120): Bitwise AND of two registers. -/
  | and (h : Hd) (rd rs1 rs2 : Reg)
  /-- OR (R120): Bitwise OR of two registers. -/
  | or (h : Hd) (rd rs1 rs2 : Reg)
  /-- XOR (R120): Bitwise XOR of two registers. -/
  | xor (h : Hd) (rd rs1 rs2 : Reg)
  /-- SHL (R120): Shifts left by a register amount. -/
  | shl (h : Hd) (rd rs1 rs2 : Reg)
  /-- SHR (R120): Shifts right with zero fill by a register amount. -/
  | shr (h : Hd) (rd rs1 rs2 : Reg)
  /-- SRA (R135): Shifts right arithmetically, giving the floor. -/
  | sra (h : Hd) (rd rs1 rs2 : Reg)
  /-- MIN (R120): Signed minimum of two registers. -/
  | min (h : Hd) (rd rs1 rs2 : Reg)
  /-- MAX (R120): Signed maximum of two registers. -/
  | max (h : Hd) (rd rs1 rs2 : Reg)
  /-- MINU (R120): Unsigned minimum of two registers. -/
  | minu (h : Hd) (rd rs1 rs2 : Reg)
  /-- MAXU (R120): Unsigned maximum of two registers. -/
  | maxu (h : Hd) (rd rs1 rs2 : Reg)
  /-- ABS (R120): Absolute value modulo 2^32. -/
  | abs (h : Hd) (rd rs1 : Reg)
  /-- CLZ (R120): Counts leading zeros. -/
  | clz (h : Hd) (rd rs1 : Reg)
  /-- CMPEQ (R120): Writes a predicate with equality of two registers. -/
  | cmpeq (h : Hd) (pd : PReg) (rs1 rs2 : Reg)
  /-- CMPNE (R120): Writes a predicate with inequality of two registers. -/
  | cmpne (h : Hd) (pd : PReg) (rs1 rs2 : Reg)
  /-- CMPLT (R120): Writes a predicate with signed less-than. -/
  | cmplt (h : Hd) (pd : PReg) (rs1 rs2 : Reg)
  /-- CMPLTU (R120): Writes a predicate with unsigned less-than. -/
  | cmpltu (h : Hd) (pd : PReg) (rs1 rs2 : Reg)
  /-- CMPLE (R120): Writes a predicate with signed less-or-equal. -/
  | cmple (h : Hd) (pd : PReg) (rs1 rs2 : Reg)
  /-- CMPLEU (R120): Writes a predicate with unsigned less-or-equal. -/
  | cmpleu (h : Hd) (pd : PReg) (rs1 rs2 : Reg)
  /-- ADDI (R119): Adds a sign-extended immediate. -/
  | addi (h : Hd) (rd rs1 : Reg) (imm : BitVec 13)
  /-- ANDI (R119): ANDs a zero-extended immediate. -/
  | andi (h : Hd) (rd rs1 : Reg) (imm : BitVec 13)
  /-- ORI (R119): ORs a zero-extended immediate. -/
  | ori (h : Hd) (rd rs1 : Reg) (imm : BitVec 13)
  /-- XORI (R119): XORs a zero-extended immediate. -/
  | xori (h : Hd) (rd rs1 : Reg) (imm : BitVec 13)
  /-- SHLI (R120): Shifts left by an immediate amount. -/
  | shli (h : Hd) (rd rs1 : Reg) (sh : BitVec 5)
  /-- SHRI (R120): Shifts right with zero fill by an immediate amount. -/
  | shri (h : Hd) (rd rs1 : Reg) (sh : BitVec 5)
  /-- SRAI (R135): Shifts right arithmetically by an immediate amount. -/
  | srai (h : Hd) (rd rs1 : Reg) (sh : BitVec 5)
  /-- CMPI (R119): Compares a register with an immediate into a predicate. -/
  | cmpi (h : Hd) (cond : BitVec 2) (pd : PReg) (rs1 : Reg) (imm : BitVec 13)
  /-- MOVI (R119): Loads a sign-extended immediate, or the upper half of a register. -/
  | movi (h : Hd) (rd : Reg) (hi : Bool) (imm : BitVec 16)
  /-- MUL (R120): Low 32 bits of the product. -/
  | mul (h : Hd) (rd rs1 rs2 : Reg)
  /-- MULH (R120): Signed high 32 bits of the product. -/
  | mulh (h : Hd) (rd rs1 rs2 : Reg)
  /-- MULHU (R120): Unsigned high 32 bits of the product. -/
  | mulhu (h : Hd) (rd rs1 rs2 : Reg)
  /-- MACA_HH (R136): Adds a halfword product into an accumulator modulo 2^48, setting AOV on overflow. -/
  | macaHh (h : Hd) (ad : AReg) (rs1 rs2 : Reg)
  /-- MSUA_HH (R136): Subtracts a halfword product from an accumulator. -/
  | msuaHh (h : Hd) (ad : AReg) (rs1 rs2 : Reg)
  /-- MACA_B4 (R120): Adds a four-byte dot product into an accumulator. -/
  | macaB4 (h : Hd) (ad : AReg) (rs1 rs2 : Reg)
  /-- ACLR (R120): Clears an accumulator. -/
  | aclr (h : Hd) (ad : AReg)
  /-- AMOVG (R120): Moves a sign-extended register into an accumulator. -/
  | amovg (h : Hd) (ad : AReg) (rs1 : Reg)
  /-- ANARROW (R137): Shifts an accumulator right and keeps 32 bits, without saturation. -/
  | anarrow (h : Hd) (rd : Reg) (as : AReg) (sh : BitVec 5)
  /-- AHI (R120): Returns the sign-extended guard bits of an accumulator. -/
  | ahi (h : Hd) (rd : Reg) (as : AReg)
  /-- MAXI (R138): Signed value-and-index maximum search step. -/
  | maxi (h : Hd) (rd rs1 rs2 : Reg)
  /-- MINI (R138): Signed value-and-index minimum search step. -/
  | mini (h : Hd) (rd rs1 rs2 : Reg)
  /-- MAXIU (R138): Unsigned value-and-index maximum search step. -/
  | maxiu (h : Hd) (rd rs1 rs2 : Reg)
  /-- MINIU (R138): Unsigned value-and-index minimum search step. -/
  | miniu (h : Hd) (rd rs1 rs2 : Reg)
  /-- LD (R131): Scalar load, with optional post-increment and circular window. -/
  | ld (h : Hd) (rd rb : Reg) (m : MForm)
  /-- ST (R131): Scalar store, with optional post-increment and circular window. -/
  | st (h : Hd) (rd rb : Reg) (m : MForm)
  /-- BR (R139): Relative branch with three delay slots. -/
  | br (h : Hd) (off : BitVec 22)
  /-- CALL (R139): Relative call writing g31, with three delay slots. -/
  | call (h : Hd) (off : BitVec 26)
  /-- JR (R139): Jump to a register target with three delay slots. -/
  | jr (h : Hd) (rs1 : Reg)
  /-- JALR (R139): Jump to a register target with a link register. -/
  | jalr (h : Hd) (rd rs1 : Reg)
  /-- LOOP (R141): Runs the following LEN bundles count times without lost cycles. -/
  | loop (h : Hd) (len1 : BitVec 8) (r : Bool) (cnt : BitVec 14)
  /-- LOOP_S (R143): Runs a rotating software-pipelined kernel of several stages. -/
  | loopS (h : Hd) (stg : BitVec 2) (len1 : BitVec 8) (r : Bool) (cnt : BitVec 14)
  /-- RPT (R142): Issues the next bundle count times. -/
  | rpt (h : Hd) (r : Bool) (cnt : BitVec 14)
  /-- LOOP_END (R141): The loop count runs out and execution leaves the body, clearing LA. -/
  | loopEnd (k : CoreIx)
  /-- RPT_END (R142): The repeat count runs out and RA clears. -/
  | rptEnd (k : CoreIx)
  /-- NOP (R120): Does nothing. -/
  | nop (h : Hd)
  /-- FENCE_W (R155): Stalls until every write of the core has completed. -/
  | fenceW (h : Hd)
  /-- CLEAN (R154): Writes back dirty L1 lines of a range and keeps them valid. -/
  | clean (h : Hd) (rs1 rs2 : Reg)
  /-- INVAL (R154): Discards L1 lines of a range. -/
  | inval (h : Hd) (rs1 rs2 : Reg)
  /-- FLUSH (R154): Cleans and discards L1 lines of a range. -/
  | flush (h : Hd) (rs1 rs2 : Reg)
  /-- CLEAN_ALL (R154): Writes back every dirty L1 line. -/
  | cleanAll (h : Hd)
  /-- FLUSH_ALL (R154): Cleans and discards every L1 line. -/
  | flushAll (h : Hd)
  /-- MFC (R109): Reads a control register. -/
  | mfc (h : Hd) (rd : Reg) (csr : BitVec 12)
  /-- MTC (R123): Writes a control register, subject to privilege. -/
  | mtc (h : Hd) (rs : Reg) (csr : BitVec 12)
  /-- TRAP (R145): Raises TRAP at the end of the bundle with a code. -/
  | trap (h : Hd) (code : BitVec 12)
  /-- ERET (R147): Returns from a trap, restoring privilege, IE and loop state. -/
  | eret (h : Hd)
  /-- WFI (R151): Waits for an enabled interrupt line. -/
  | wfi (h : Hd)
  /-- WFI_WAKE (R151): An enabled line ends WFI, taking the interrupt or continuing when IE is 0. -/
  | wfiWake (k : CoreIx)
  /-- PCLR (R120): Clears a predicate. -/
  | pclr (h : Hd) (pd : PReg)
  /-- INTERRUPT_TAKEN (R149): At a bundle boundary outside hold-offs the lowest enabled pending line is taken. -/
  | interruptTaken (k : CoreIx)
  /-- LOAD_RETURN (R132): Data of a miss, uncached or register-space load returns and the stalled bundle proceeds. -/
  | loadReturn (k : CoreIx) (ecc : Ecc) (ext : List Byte)
  /-- RCP (R204): CX reciprocal. -/
  | rcp (h : Hd) (rd rs1 : Reg)
  /-- RSQRT (R204): CX reciprocal square root. -/
  | rsqrt (h : Hd) (rd rs1 : Reg)
  /-- ATAN2 (R204): CX two-argument arctangent. -/
  | atan2 (h : Hd) (rd rs1 rs2 : Reg)
  /-- CDIV (R204): CX complex division into a register pair. -/
  | cdiv (h : Hd) (rd rs1 rs2 : Reg)
  /-- LOG2 (R204): CX base-2 logarithm. -/
  | log2 (h : Hd) (rd rs1 : Reg)
  /-- EXP2 (R204): CX base-2 exponential. -/
  | exp2 (h : Hd) (rd rs1 : Reg)
  /-- CX_RESULT (R206): A CX result is written and its scoreboard bit clears, releasing stalled bundles. -/
  | cxResult (k : CoreIx) (rd : Reg)
  /-- CHOL (R221): CS_0 try of a Hermitian Cholesky factorisation. -/
  | chol (h : Hd) (rc rs rt : Reg) (pd : PReg)
  /-- INV (R221): CS_0 try of a Hermitian matrix inversion. -/
  | inv (h : Hd) (rc rs rt : Reg) (pd : PReg)
  /-- SORT (R225): CS_1 try of a key sort. -/
  | sort (h : Hd) (rc rs rt : Reg) (pd : PReg)
  /-- TOPK (R225): CS_1 try of a top-K selection. -/
  | topk (h : Hd) (rc rs rt : Reg) (pd : PReg)
  /-- SEARCH (R226): CS_1 try of a binary search. -/
  | search (h : Hd) (rc rs rt : Reg) (pd : PReg)
  /-- CS_COMMIT (R219): A CS unit writes its result records and header, sets DONE and becomes free. -/
  | csCommit (c : Fin 96) (unit : Bool)
  /-- CS_UNIT_FAULT (R228): A faulting CS unit abandons its operation, sets DONE and ERR and is quarantined. -/
  | csUnitFault (c : Fin 96) (unit : Bool)
  /-- VADD (R166): Vector add modulo element width. -/
  | vadd (h : Hd) (vd vs1 vs2 : Reg) (t : BitVec 3)
  /-- VSUB (R166): Vector subtract modulo element width. -/
  | vsub (h : Hd) (vd vs1 vs2 : Reg) (t : BitVec 3)
  /-- VAND (R166): Vector bitwise AND. -/
  | vand (h : Hd) (vd vs1 vs2 : Reg) (t : BitVec 3)
  /-- VOR (R166): Vector bitwise OR. -/
  | vor (h : Hd) (vd vs1 vs2 : Reg) (t : BitVec 3)
  /-- VXOR (R166): Vector bitwise XOR. -/
  | vxor (h : Hd) (vd vs1 vs2 : Reg) (t : BitVec 3)
  /-- VSHL (R166): Vector shift left by element amounts. -/
  | vshl (h : Hd) (vd vs1 vs2 : Reg) (t : BitVec 3)
  /-- VSHR (R166): Vector logical shift right by element amounts. -/
  | vshr (h : Hd) (vd vs1 vs2 : Reg) (t : BitVec 3)
  /-- VSRA (R166): Vector arithmetic shift right by element amounts. -/
  | vsra (h : Hd) (vd vs1 vs2 : Reg) (t : BitVec 3)
  /-- VSHLI (R166): Vector shift left by an immediate. -/
  | vshli (h : Hd) (vd vs1 : Reg) (imm : BitVec 5) (t : BitVec 3)
  /-- VSHRI (R166): Vector logical shift right by an immediate. -/
  | vshri (h : Hd) (vd vs1 : Reg) (imm : BitVec 5) (t : BitVec 3)
  /-- VSRAI (R166): Vector arithmetic shift right by an immediate. -/
  | vsrai (h : Hd) (vd vs1 : Reg) (imm : BitVec 5) (t : BitVec 3)
  /-- VMIN (R166): Vector signed minimum. -/
  | vmin (h : Hd) (vd vs1 vs2 : Reg) (t : BitVec 3)
  /-- VMAX (R166): Vector signed maximum. -/
  | vmax (h : Hd) (vd vs1 vs2 : Reg) (t : BitVec 3)
  /-- VABS (R166): Vector absolute value. -/
  | vabs (h : Hd) (vd vs1 : Reg) (t : BitVec 3)
  /-- VCMPEQ (R166): Vector equality compare into a predicate. -/
  | vcmpeq (h : Hd) (pd : PReg) (vs1 vs2 : Reg) (t : BitVec 3)
  /-- VCMPNE (R166): Vector inequality compare into a predicate. -/
  | vcmpne (h : Hd) (pd : PReg) (vs1 vs2 : Reg) (t : BitVec 3)
  /-- VCMPLT (R166): Vector signed less-than compare into a predicate. -/
  | vcmplt (h : Hd) (pd : PReg) (vs1 vs2 : Reg) (t : BitVec 3)
  /-- VCMPLE (R166): Vector signed less-or-equal compare into a predicate. -/
  | vcmple (h : Hd) (pd : PReg) (vs1 vs2 : Reg) (t : BitVec 3)
  /-- VMUL (R166): Vector multiply keeping the low half. -/
  | vmul (h : Hd) (vd vs1 vs2 : Reg) (t : BitVec 3)
  /-- VMULW (R172): Widening i8 multiply of one half into i16. -/
  | vmulw (h : Hd) (hi : Bool) (vd vs1 vs2 : Reg) (t : BitVec 3)
  /-- VCMULW (R173): Widening complex multiply, plain or conjugate, of one half into c16. -/
  | vcmulw (h : Hd) (hi cj : Bool) (vd vs1 vs2 : Reg) (t : BitVec 3)
  /-- DOT4 (R174): Four-byte dot product into i32 lanes. -/
  | dot4 (h : Hd) (vd vs1 vs2 : Reg) (t : BitVec 3)
  /-- DOT4_A (R174): Four-byte dot product accumulated into i32 lanes. -/
  | dot4A (h : Hd) (vd vs1 vs2 : Reg) (t : BitVec 3)
  /-- DOT2 (R174): Two-halfword dot product into i32 lanes. -/
  | dot2 (h : Hd) (vd vs1 vs2 : Reg) (t : BitVec 3)
  /-- DOT2_A (R174): Two-halfword dot product accumulated into i32 lanes. -/
  | dot2A (h : Hd) (vd vs1 vs2 : Reg) (t : BitVec 3)
  /-- CDOT (R175): Complex pair dot product, plain, conjugate or accumulating, into c32 lanes. -/
  | cdot (h : Hd) (hi cj acc : Bool) (vd vs1 vs2 : Reg) (t : BitVec 3)
  /-- VDAB_X (R170): Expands one dab of a pair to i16 with its exponent. -/
  | vdabX (h : Hd) (hi : Bool) (vd vs1 gs : Reg) (sh : BitVec 4)
  /-- VQADD (R180): Saturating fixed-point add. -/
  | vqadd (h : Hd) (vd vs1 vs2 : Reg) (t : BitVec 3)
  /-- VQSUB (R180): Saturating fixed-point subtract. -/
  | vqsub (h : Hd) (vd vs1 vs2 : Reg) (t : BitVec 3)
  /-- VQMUL (R181): Saturating rounded fixed-point multiply. -/
  | vqmul (h : Hd) (vd vs1 vs2 : Reg) (t : BitVec 3)
  /-- VQNARROW (R182): Rounding saturating narrow into one half of the destination. -/
  | vqnarrow (h : Hd) (hi : Bool) (vd vs1 : Reg) (sh : BitVec 5) (t : BitVec 3)
  /-- VMOV (R166): Vector move. -/
  | vmov (h : Hd) (vd vs1 : Reg) (t : BitVec 3)
  /-- VSEL (R166): Vector select by mask. -/
  | vsel (h : Hd) (vd vs1 vs2 : Reg) (t : BitVec 3)
  /-- VPERM (R166): Vector permute by indexes. -/
  | vperm (h : Hd) (vd vs1 vs2 : Reg) (t : BitVec 3)
  /-- VBCAST (R166): Broadcasts a g register into every element. -/
  | vbcast (h : Hd) (vd gs : Reg) (t : BitVec 3)
  /-- VEXT (R166): Extracts an element into a g register. -/
  | vext (h : Hd) (gd vs1 gs : Reg) (t : BitVec 3)
  /-- VSETVL (R165): Sets the vector length by type and returns it. -/
  | vsetvl (h : Hd) (gd gs : Reg) (t : BitVec 3)
  /-- PAND (R166): Predicate AND. -/
  | pand (h : Hd) (pd ps1 ps2 : PReg)
  /-- POR (R166): Predicate OR. -/
  | por (h : Hd) (pd ps1 ps2 : PReg)
  /-- PXOR (R166): Predicate XOR. -/
  | pxor (h : Hd) (pd ps1 ps2 : PReg)
  /-- PANDN (R166): Predicate AND NOT. -/
  | pandn (h : Hd) (pd ps1 ps2 : PReg)
  /-- VMAXI (R177): Reduces active elements to maximum value and index. -/
  | vmaxi (h : Hd) (gd vs1 : Reg) (t : BitVec 3)
  /-- VMINI (R177): Reduces active elements to minimum value and index. -/
  | vmini (h : Hd) (gd vs1 : Reg) (t : BitVec 3)
  /-- VMAXI_C (R178): Continues a running maximum search. -/
  | vmaxiC (h : Hd) (gd vs1 gs : Reg) (t : BitVec 3)
  /-- VMINI_C (R178): Continues a running minimum search. -/
  | vminiC (h : Hd) (gd vs1 gs : Reg) (t : BitVec 3)
  /-- VDAB_N (R171): Packs two i16 dabs into mantissas and exponents. -/
  | vdabN (h : Hd) (vd vs1 vs2 gd : Reg)
  /-- VFADD (R184): Vector floating-point add. -/
  | vfadd (h : Hd) (vd vs1 vs2 : Reg) (t : BitVec 3)
  /-- VFSUB (R184): Vector floating-point subtract. -/
  | vfsub (h : Hd) (vd vs1 vs2 : Reg) (t : BitVec 3)
  /-- VFMUL (R184): Vector floating-point multiply. -/
  | vfmul (h : Hd) (vd vs1 vs2 : Reg) (t : BitVec 3)
  /-- VFMA (R184): Vector fused multiply-add. -/
  | vfma (h : Hd) (vd vs1 vs2 : Reg) (t : BitVec 3)
  /-- VFMIN (R185): Vector floating-point minimum. -/
  | vfmin (h : Hd) (vd vs1 vs2 : Reg) (t : BitVec 3)
  /-- VFMAX (R185): Vector floating-point maximum. -/
  | vfmax (h : Hd) (vd vs1 vs2 : Reg) (t : BitVec 3)
  /-- VFCMPEQ (R185): Floating-point equality compare into a predicate. -/
  | vfcmpeq (h : Hd) (pd : PReg) (vs1 vs2 : Reg) (t : BitVec 3)
  /-- VFCMPLT (R185): Floating-point less-than compare into a predicate. -/
  | vfcmplt (h : Hd) (pd : PReg) (vs1 vs2 : Reg) (t : BitVec 3)
  /-- VFCVT_FI (R186): Converts fp32 to i32 truncating. -/
  | vfcvtFi (h : Hd) (vd vs1 : Reg) (t : BitVec 3)
  /-- VFCVT_IF (R186): Converts i32 to fp32. -/
  | vfcvtIf (h : Hd) (vd vs1 : Reg) (t : BitVec 3)
  /-- VFCVT_W (R186): Widens fp16 to fp32. -/
  | vfcvtW (h : Hd) (vd vs1 : Reg) (t : BitVec 3)
  /-- VFCVT_N (R186): Narrows fp32 to fp16. -/
  | vfcvtN (h : Hd) (vd vs1 : Reg) (t : BitVec 3)
  /-- SCALAR_FORMS (R159): Scalar floating-point operations on element 0 of f registers. -/
  | scalarForms (h : Hd) (op : FOp) (fd fs1 fs2 : Reg) (t : BitVec 3)
  /-- FMV_FG (R159): Moves a g register into an f register. -/
  | fmvFg (h : Hd) (fd gs : Reg) (t : BitVec 3)
  /-- FMV_GF (R166): Moves an f register into a g register. -/
  | fmvGf (h : Hd) (gd fs : Reg) (t : BitVec 3)
  /-- VLD (R196): Unit-stride vector load. -/
  | vld (h : Hd) (vd rb : Reg) (m : VForm)
  /-- VST (R196): Unit-stride vector store. -/
  | vst (h : Hd) (vd rb : Reg) (m : VForm)
  /-- VLDS (R196): Strided vector load. -/
  | vlds (h : Hd) (vd rb rx : Reg) (sz : BitVec 2) (pi : Bool)
  /-- VSTS (R196): Strided vector store. -/
  | vsts (h : Hd) (vd rb rx : Reg) (sz : BitVec 2) (pi : Bool)
  /-- VLDX (R197): Gather from VSTART upward, recording progress on a fault. -/
  | vldx (h : Hd) (vd rb vx : Reg) (sz : BitVec 2) (x : Bool) (sc : BitVec 2)
  /-- VSTX (R197): Scatter from VSTART upward, recording progress on a fault. -/
  | vstx (h : Hd) (vd rb vx : Reg) (sz : BitVec 2) (x : Bool) (sc : BitVec 2)
  /-- SUBMIT (R285): Submits a descriptor-store slot and stalls until the store accepts it. -/
  | submit (h : Hd) (rd rs1 : Reg)
  /-- SUBMIT_T (R285): Submits once, receiving FULL at once under back-pressure. -/
  | submitT (h : Hd) (rd rs1 : Reg) (pd : PReg)
  /-- CANCEL (R308): Cancels a HELD, PENDING or READY task, completing it CANCELLED. -/
  | cancel (h : Hd) (rd rs1 : Reg)
  /-- WAIT (R296): Puts the core into an Easel wait for a dispatch. -/
  | wait (h : Hd)
  /-- DONE (R297): Completes the running task after a FENCE.W. -/
  | done (h : Hd) (rs1 : Reg)
  /-- TIME_RELEASE (R287): The store releases a HELD task at DEADLINE minus LEAD. -/
  | timeRelease (i : BitVec 16)
  /-- PENDING_PLACE (R306): A PENDING task moves to a ready list when an entry frees. -/
  | pendingPlace (i : BitVec 16)
  /-- DISPATCH (R291): A region dispatcher hands the highest-priority eligible ready task to an idle unit and hands over its banks. -/
  | dispatch (r : Fin 16) (lag : Fin 5) (ecc : Ecc)
  /-- COMPLETION (R298): A task completion returns grants, writes the record, raises the event, decrements successors and frees the slot. -/
  | completion (i : BitVec 16)
  /-- LATE_START (R301): A READY task not running by DEADLINE minus WCET gets a LATE_START record and event. -/
  | lateStart (i : BitVec 16) (lag : Fin 5)
  /-- MISS (R302): A task whose deadline passes gets a MISS record and event and, with KILL_ON_MISS, completes MISSED. -/
  | miss (i : BitVec 16) (lag : Fin 5)
  /-- ESL_KILL (R627): A write of ESL_KILL kills the named task with status CANCELLED. -/
  | eslKill (q : Req) (v : Word)
  /-- SPILL_OFFER (R311): The store sends a spillable READY task to the peer with most capacity. -/
  | spillOffer (i : BitVec 16)
  /-- ADVERTISE (R313): Every ADV_US the store advertises its free spill-in slots. -/
  | advertise
  /-- PALETTE_ACCESS (R248): An access reaching a bank port is admitted or refused by ownership. -/
  | paletteAccess (m : MemAcc) (ecc : Ecc) (peer : Option MemAcc)
  /-- CORE_MEMORY_ACCESS (R233): An external access to a core memory is served in free half-slots or refused with kind CMEM. -/
  | coreMemoryAccess (m : MemAcc) (ecc : Ecc)
  /-- HANDOVER (R249): A write of PAL_OWNER_n is checked and, if accepted, sets PEND and sends a drain request. -/
  | handover (q : Req) (r : Fin 16) (n : Fin 52) (v : Word) (more : List (Req × Word))
  /-- DRAIN_REQUEST_ARRIVAL (R250): The drain request reaches the old owner, after which its new accesses are refused. -/
  | drainRequestArrival (r : Fin 16) (n : Fin 52) (delegate : Bool)
  /-- HANDOVER_COMPLETE (R250): The last outstanding write lands and the bank admits the new owner, clearing PEND. -/
  | handoverComplete (r : Fin 16) (n : Fin 52)
  /-- DELEGATION (R254): A write of PAL_DELEG_n with EN 1 delegates the bank to an engine or Gust channel. -/
  | delegation (q : Req) (r : Fin 16) (n : Fin 52) (v : Word)
  /-- DELEGATION_DRAINED (R255): The delegate's writes have landed, EN clears and the owner is admitted. -/
  | delegationDrained (r : Fin 16) (n : Fin 52)
  /-- POWER_REQUEST (R259): A write of PAL_PWR_n.REQ requests on, retention or off. -/
  | powerRequest (q : Req) (r : Fin 16) (n : Fin 52) (v : Word)
  /-- RETENTION_ENTRY (R260): An idle bank with REQ 1 enters retention. -/
  | retentionEntry (r : Fin 16) (n : Fin 52)
  /-- RETENTION_HOLD_EXPIRE (R260): A woken bank idle for RET_HOLD µs enters retention again. -/
  | retentionHoldExpire (r : Fin 16) (n : Fin 52)
  /-- WAKE_DONE (R261): A bank finishes waking and serves the waiting accesses in order. -/
  | wakeDone (r : Fin 16) (n : Fin 52)
  /-- POWER_OFF (R262): A region bank with REQ 2 powers off once drained and restored. -/
  | powerOff (r : Fin 16) (n : Fin 52)
  /-- POWER_ON_DONE (R262): After 8 µs the bank is zero-filled and on. -/
  | powerOnDone (r : Fin 16) (n : Fin 52)
  /-- WASH_BORROW (R265): A sequencer borrows a window in idle cycles and copies it to its save buffer. -/
  | washBorrow (t : WashTgt) (ecc : Ecc)
  /-- WASH_WINDOW_DONE (R265): The patterns have been tested and the window restored. -/
  | washWindowDone (t : WashTgt) (fail : Bool)
  /-- NOLEND_WRITE (R267): Setting a no-lend bit over a borrowed window ends that borrow. -/
  | nolendWrite (q : Req) (r : Fin 16) (n : Fin 52) (w : Fin 16) (v : Word)
  /-- HBM_SCRUB (R237): The controller reads and corrects HBM words within each scrub period. -/
  | hbmScrub (n : BitVec 30) (ecc : Ecc)
  /-- EXTENT_INVAL (R243): A write of PAL_EXT_INVAL starts invalidating a translation entry or the whole cache. -/
  | extentInval (q : Req) (v : Word)
  /-- EXTENT_INVAL_DONE (R243): The invalidation ends and BUSY clears. -/
  | extentInvalDone
  /-- HOST_WINDOW_ACCESS (R540): A device access to the host window is translated and sent over PCI Express. -/
  | hostWindowAccess (q : Req) (a : BitVec 42) (op : WinOp) (ext : List Byte)
  /-- FABRIC_WINDOW_ACCESS (R565): A fabric-window access is translated and carried as WRITE or READ frames. -/
  | fabricWindowAccess (q : Req) (a : BitVec 42) (op : WinOp)
  /-- GST_START (R318): START on a channel control register starts the channel program. -/
  | gstStart (q : Req) (e : Fin 17) (n : Fin 64)
  /-- GST_STOP (R344): STOP ends a running program with STOPPED after its burst in flight. -/
  | gstStop (q : Req) (e : Fin 17) (n : Fin 64)
  /-- DESCRIPTOR_FETCH (R330): A descriptor or list entry is fetched and checked. -/
  | descriptorFetch (e : Fin 17) (n : Fin 64) (ecc : Ecc) (ext : List Byte)
  /-- COPY (R324): Copies the source stream to the destination stream. -/
  | copy (e : Fin 17) (n : Fin 64) (ecc : Ecc) (ext : List Byte)
  /-- FILL (R325): Fills the destination stream with the pattern. -/
  | fill (e : Fin 17) (n : Fin 64)
  /-- COMPARE (R326): Compares two streams or a stream with the pattern. -/
  | compare (e : Fin 17) (n : Fin 64) (ecc : Ecc) (ext ext2 : List Byte)
  /-- FENCE (R327): Waits for all write responses and then sends a zero-length write. -/
  | fence (e : Fin 17) (n : Fin 64)
  /-- BURST_GRANT (R331): The engine grants bursts to eligible channels by priority round-robin. -/
  | burstGrant (e : Fin 17)
  /-- BURST_DONE (R333): A burst leaves flight. -/
  | burstDone (e : Fin 17) (n : Fin 64)
  /-- WRITE_RESPONSE (R334): A write response returns under DELIVERED or FENCE. -/
  | writeResponse (e : Fin 17) (i : Nat) (ecc : Ecc)
  /-- SWREQ_WRITE (R341): A write of GST_SWREQ drives software request lines. -/
  | swreqWrite (q : Req) (r : Fin 16) (v : Word)
  /-- GST_CHANNEL_FAULT (R346): A channel parity error ends its program FAULT and quarantines the channel. -/
  | gstChannelFault (e : Fin 17) (n : Fin 64)
  /-- HUB_ENGINE_FAULT (R346): A fault of the hub engine's shared logic quarantines the whole engine. -/
  | hubEngineFault
  /-- ENGINE_TASK_START (R350): An engine takes the next task from its queue and reads its descriptor. -/
  | engineTaskStart (r : Fin 16) (e : Fin 4) (ecc : Ecc) (ext : List Byte)
  /-- FFT (R362): Forward FFT with CP removal, rotation and scaling. -/
  | fft (r : Fin 16) (e : Fin 4) (ecc : Ecc) (ext : List Byte)
  /-- IFFT (R363): Inverse FFT with CP insertion. -/
  | ifft (r : Fin 16) (e : Fin 4) (ecc : Ecc) (ext : List Byte)
  /-- CZT (R365): Prime-length DFT by chirp transform. -/
  | czt (r : Fin 16) (e : Fin 4) (ecc : Ecc) (ext : List Byte)
  /-- LDPC_DECODE (R371): NR LDPC rate recovery, HARQ combining and decoding. -/
  | ldpcDecode (r : Fin 16) (ecc : Ecc) (ext : List Byte)
  /-- POLAR_DECODE (R371): NR polar list decoding. -/
  | polarDecode (r : Fin 16) (ecc : Ecc) (ext : List Byte)
  /-- TURBO_DECODE (R371): LTE turbo decoding with HARQ. -/
  | turboDecode (r : Fin 16) (ecc : Ecc) (ext : List Byte)
  /-- SMALL_BLOCK_DECODE (R371): Maximum-likelihood decoding of small block codes. -/
  | smallBlockDecode (r : Fin 16) (ecc : Ecc) (ext : List Byte)
  /-- TB_CRC (R373): Checks the transport block CRC over decoded code blocks. -/
  | tbCrc (r : Fin 16) (ecc : Ecc) (ext : List Byte)
  /-- LDPC_ENCODE (R382): NR LDPC encoding with rate matching. -/
  | ldpcEncode (r : Fin 16) (ecc : Ecc) (ext : List Byte)
  /-- POLAR_ENCODE (R382): NR polar encoding of DCI or PBCH. -/
  | polarEncode (r : Fin 16) (ecc : Ecc) (ext : List Byte)
  /-- TURBO_ENCODE (R382): LTE turbo encoding with rate matching. -/
  | turboEncode (r : Fin 16) (ecc : Ecc) (ext : List Byte)
  /-- CONVOLUTIONAL_ENCODE (R382): LTE tail-biting convolutional encoding. -/
  | convolutionalEncode (r : Fin 16) (ecc : Ecc) (ext : List Byte)
  /-- SMALL_CODE_ENCODE (R382): LTE CFI and RM small-code encoding. -/
  | smallCodeEncode (r : Fin 16) (ecc : Ecc) (ext : List Byte)
  /-- ENGINE_COMPLETION (R352): After all write responses an engine signals completion to the dispatcher. -/
  | engineCompletion (r : Fin 16) (e : Fin 4)
  /-- ENGINE_FAULT (R355): An engine parity error completes its running and queued tasks FAULT and quarantines it. -/
  | engineFault (r : Fin 16) (e : Fin 4)
  /-- ENGINE_PARK (R356): With all its region's clusters parked, the engine parks once its queue is empty. -/
  | enginePark (r : Fin 16) (e : Fin 4)
  /-- CAPTURE_STREAM_ENABLE (R391): Writing EN 1 to a stream restarts its sample count at 0. -/
  | captureStreamEnable (q : Req) (tx : Bool) (k : Fin 4) (v : Word)
  /-- CAPTURE_STALL (R392): A capture FIFO empty for STALL_US raises EV_NCE_CAP_STALL once. -/
  | captureStall (k : Fin 4)
  /-- NCE_SYMBOL (R399): A channel ends a symbol: soft symbol, gain loop, correlators and Lull count are updated. -/
  | nceSymbol (n : Fin 1536)
  /-- HEADER_RESULT (R412): The header decode passes or fails, ending the frame FALSE_SYNC on failure. -/
  | headerResult (n : Fin 1536)
  /-- REPLAY_END (R415): The replayed sync ends, freezing the gain and entering HEADER. -/
  | replayEnd (n : Fin 1536)
  /-- ABORT (R416): NCE_CH_CMD with ABORT ends the channel's frame ABORTED. -/
  | abort (q : Req) (v : Word)
  /-- RECORD_WRITE (R421): After frame data and record land, the pointers advance and EV_NCE_FRAME is raised. -/
  | recordWrite (g : Fin 64)
  /-- LULL_REPORT (R402): The idle count reaching LULL_SYMBOLS writes the noise floor and resets. -/
  | lullReport (n : Fin 1536)
  /-- WINDOW_OPEN (R430): A BURST window of a channel opens by its schedule. -/
  | windowOpen (n : Fin 1536)
  /-- BT0_HI_WRITE (R430): A write of BT0_HI applies a new burst schedule to later windows. -/
  | bt0HiWrite (q : Req) (n : Fin 1536) (v : Word)
  /-- TX_ENTRY (R424): The NCE takes a transmit ring entry and judges it. -/
  | txEntry (g : Fin 64) (ecc : Ecc)
  /-- TX_BURST_DONE (R425): A burst has been generated; STATUS is written and TX_PTR.RD advances. -/
  | txBurstDone (n : Fin 1536) (ecc : Ecc)
  /-- NCE_SERVICE_PASS (R431): Every 1 ms the NCE serves each active group, counting as progress. -/
  | nceServicePass
  /-- NCE_FAULT (R432): An NCE parity or ECC error quarantines the NCE. -/
  | nceFault
  /-- FH_RX_FRAME (R438): A received frame is classified and passed on or dropped. -/
  | fhRxFrame (p : Fin 16) (fcs ptpIp : Bool) (err : BitVec 18) (frame : List Byte) (ecc : Ecc)
  /-- SYMBOL_CLOSE (R446): At C_k a carrier-symbol closes, incomplete stream-symbols are zero-filled and emitted. -/
  | symbolClose (q : Fin 16)
  /-- TXRDY_WRITE (R452): A doorbell write marks a downlink carrier-symbol ready. -/
  | txrdyWrite (q : Req) (p : Fin 16) (v : Word)
  /-- READINESS_CHECK (R453): At T_send minus 2 µs the port decides to send data or zero-power IQ. -/
  | readinessCheck (q : Fin 16) (c : Fin 48) (tie : Bool)
  /-- SYMBOL_SEND (R453): From T_send the port sends the carrier-symbol in messages. -/
  | symbolSend (q : Fin 16)
  /-- MGMT_TX (R457): A frame in the management transmit window is sent unless held. -/
  | mgmtTx (p : Fin 16) (err : BitVec 18)
  /-- PTP_TXTS_POP (R458): A read of FH_PTP_TXTS TAG pops the two-step queue. -/
  | ptpTxtsPop (q : Req) (p : Fin 16)
  /-- LINK_DOWN (R464): Loss of PCS lock takes the link down and raises EV_FH_LINK. -/
  | linkDown (p : Fin 16)
  /-- LINK_UP (R464): Lock returns, EV_FH_LINK is raised and variable-part measurement starts. -/
  | linkUp (p : Fin 16)
  /-- TS_MEASUREMENT (R461): V_rx and V_tx are measured and TS_VALID set. -/
  | tsMeasurement (p : Fin 16) (rx tx : BitVec 21)
  /-- TSCAP_ARM (R463): A write of ARM clears VALID and arms a capture timestamp. -/
  | tscapArm (q : Req) (p : Fin 16) (v : Word)
  /-- FH_SERVICE_PASS (R437): Every 100 µs the MAC makes a service pass, counting as progress. -/
  | fhServicePass (p : Fin 16)
  /-- REF_LOSS (R473): The reference monitor declares loss; the PLL holds and cause REF is set. -/
  | refLoss
  /-- REF_RELOCK (R473): The PLL relocks, LOCK is set and cause REF clears. -/
  | refRelock
  /-- OFFSET_COMMIT (R474): A write of TB_OFFSET_IN_HI commits an offset sample. -/
  | offsetCommit (q : Req) (v : Word)
  /-- PPS_IN_EDGE (R487): A PPS_IN edge is captured and corrected, raising EV_TB_PPS_IN. -/
  | ppsInEdge (rising : Bool)
  /-- SERVO_CYCLE (R475): Every 250 µs the servo judges, applies or records the latest sample. -/
  | servoCycle
  /-- NO_INPUT_TIMEOUT (R480): No sample for TIMEOUT_MS sets holdover cause NO_INPUT. -/
  | noInputTimeout
  /-- STEP_GO (R484): GO in TB_STEP_CMD requests a relative or absolute step, refused while traffic is active. -/
  | stepGo (q : Req) (v : Word)
  /-- STEP_COMPLETE (R485): A backward step has withheld its amount, STEPPING clears and EV_TB_STEP is raised. -/
  | stepComplete
  /-- PPS_OUT_RISE (R488): PPS_OUT rises at each whole second minus COMP_NS. -/
  | ppsOutRise
  /-- PPS_OUT_FALL (R488): PPS_OUT falls WIDTH_MS after rising. -/
  | ppsOutFall
  /-- TRIG_ARM (R490): Writing EN 1 arms a trigger and judges it FIRED, LATE or MISSED at once. -/
  | trigArm (q : Req) (n : Fin 256) (v : Word)
  /-- TRIG_DISARM (R489): Writing EN 0 disarms a trigger. -/
  | trigDisarm (q : Req) (n : Fin 256) (v : Word)
  /-- TRIG_FIRE (R493): An armed trigger fires at its time, applies its actions and advances if periodic. -/
  | trigFire (n : Fin 256)
  /-- TB_NOW_READ (R470): A read of TB_NOW_NS latches the seconds and fraction of the same instant. -/
  | tbNowRead (q : Req)
  /-- CAPTURE_COMMAND (R503): GO in GLZ_CAPT_CMD starts a tap of probe periods into a capture FIFO. -/
  | captureCommand (q : Req) (v : Word)
  /-- ESTIMATE_COMMAND (R508): GO in GLZ_EST_CMD requests estimation for a carrier and direction. -/
  | estimateCommand (q : Req) (v : Word)
  /-- ESTIMATE (R508): Once PEND and HOLD are clear the estimator writes the standby set and raises EV_GLZ_SET_READY. -/
  | estimate
  /-- NEXT_T_WRITE (R511): A write of NEXT_T_HI requests a swap at a slot boundary, setting PEND. -/
  | nextTWrite (q : Req) (c : Fin 48) (v : Word)
  /-- SWAP (R511): The swap event reaches Glaze and flips ready carriers' active sets. -/
  | swap
  /-- SWAP_MISS (R511): NEXT_T passes with PEND still set, clearing PEND. -/
  | swapMiss (c : Fin 48)
  /-- HOLD_CLEAR (R511): HOLD clears HOLD_SLOTS slots after SWAP_T. -/
  | holdClear (c : Fin 48)
  /-- STALE (R513): The active set's age passes MAX_AGE, setting STALE once. -/
  | stale (c : Fin 48)
  /-- FLOOR_WINDOW_END (R506): A floor window ends and the account restarts without carry-over. -/
  | floorWindowEnd (r : Fin 16)
  /-- GLZ_SERVICE_PASS (R515): Every 250 µs Glaze makes a service pass, counting as progress. -/
  | glzServicePass
  /-- GLAZE_FAULT (R515): A Glaze state error quarantines Glaze and wedges function 129. -/
  | glazeFault
  /-- LOOPBACK (R517): The COMMISSION loopback measurement ends and writes the timestamp calibration. -/
  | loopback (p : Fin 16) (med : BitVec 48) (frames : Fin 1025)
  /-- OCXO_DWELL_END (R518): A dwell of the OCXO step ends and the next code or the result follows. -/
  | ocxoDwellEnd
  /-- GLZ_COMM_DONE (R516): The COMMISSION steps end, COMM_DONE is set and EV_GLZ_COMM_DONE raised. -/
  | glzCommDone
  /-- CODE_REQ (R525): A write of TRM_CH_c_CODE.REQ hands a code to a trim channel. -/
  | codeReq (q : Req) (c : Fin 4) (v : Word)
  /-- UPDATE_BOUNDARY (R523): Every 1 µs each trim channel latches its last accepted code. -/
  | updateBoundary
  /-- DEGLITCH_END (R524): A 300 ns deglitch hold ends and the new code is released. -/
  | deglitchEnd (c : Fin 4)
  /-- KICK (R530): A write of KICK restarts or starts the trim watchdog. -/
  | kick (q : Req) (v : Word)
  /-- TIMEOUT_WRITE (R530): A write of TIMEOUT_MS restarts the count or stops the watchdog. -/
  | timeoutWrite (q : Req) (v : Word)
  /-- TRIM_WATCHDOG_EXPIRE (R530): The trim watchdog expires and the channels go safe with cause 3. -/
  | trimWatchdogExpire
  /-- TRM_SERVICE_PASS (R527): Every 100 µs a trim channel makes a service pass. -/
  | trmServicePass (c : Fin 4)
  /-- PERST_N_ASSERT (R541): PERST_N resets the PCI Express function, disabling every ring pair. -/
  | perstNAssert
  /-- HOST_LINK_DOWN (R541): Link-down or hot reset disables ring pairs and fails host-window traffic. -/
  | hostLinkDown
  /-- HOST_LINK_UP (R571): The PCI Express link comes up and EV_HST_LINK is raised. -/
  | hostLinkUp (gen : BitVec 3) (lanes : BitVec 5)
  /-- FUNCTION_LEVEL_RESET (R541): An FLR disables the function's pairs and clears its mailbox. -/
  | functionLevelReset (f : Fin 17)
  /-- HOST_BAR_WRITE (R539): A host write through BAR0 is applied if host-writable, else denied and counted. -/
  | hostBarWrite (f : Fin 17) (off : BitVec 26) (data : List Byte)
  /-- BAR2_ACCESS (R539): A host access through BAR2 reaches HBM directly. -/
  | bar2Access (op : WinOp) (a : BitVec 34) (ecc : Ecc)
  /-- DOORBELL_TAIL (R543): The host writes a new H2D tail, or overruns the ring. -/
  | doorbellTail (f : Fin 17) (k : Fin 256) (v : BitVec 16)
  /-- DOORBELL_HEAD (R544): The host writes its D2H head, freeing room. -/
  | doorbellHead (f : Fin 17) (k : Fin 256) (v : BitVec 16)
  /-- H2D_ENTRY (R543): The device takes an H2D entry when its destination has room. -/
  | h2dEntry (k : Fin 256) (e : List Byte) (fail : Bool)
  /-- D2H_ENTRY (R544): The device writes a D2H entry with PHASE last and sends its vector. -/
  | d2hEntry (k : Fin 256) (fail : Bool)
  /-- OUT_WR_ADVANCE (R546): Firmware advances OUT_WR, handing outbound messages to the engine. -/
  | outWrAdvance (q : Req) (k : Fin 256) (v : BitVec 16)
  /-- MSIX_UNMASK (R548): Unmasking a vector with its pending bit set sends it. -/
  | msixUnmask (vec : BitVec 11)
  /-- GET_STATUS (R551): Mailbox command returning mode, boot status, timebase status and identity. -/
  | getStatus
  /-- TRACE_CONTROL (R551): Mailbox command setting Easel trace control and the trace pair. -/
  | traceControl
  /-- TRIGGER_SET (R554): Mailbox command that disarms, programs and optionally arms a trigger. -/
  | triggerSet
  /-- ATTEST (R556): Mailbox command writing the certificate chain or measurements unsigned to host memory. -/
  | attest (busy fail : Bool)
  /-- GET_VERSION (R557): SPDM GET_VERSION over DOE. -/
  | getVersion
  /-- GET_CAPABILITIES (R557): SPDM GET_CAPABILITIES over DOE. -/
  | getCapabilities
  /-- NEGOTIATE_ALGORITHMS (R557): SPDM NEGOTIATE_ALGORITHMS over DOE. -/
  | negotiateAlgorithms
  /-- GET_DIGESTS (R557): SPDM GET_DIGESTS over DOE. -/
  | getDigests
  /-- GET_CERTIFICATE (R558): SPDM GET_CERTIFICATE returning slot 0's chain. -/
  | getCertificate (off len : BitVec 16)
  /-- CHALLENGE (R558): SPDM CHALLENGE answered with the identity key. -/
  | challenge (nonce : List Byte)
  /-- GET_MEASUREMENTS (R559): SPDM GET_MEASUREMENTS returning the measurement blocks. -/
  | getMeasurements (index : BitVec 8) (sign : Bool) (nonce : List Byte)
  /-- UNSUPPORTED_REQUEST (R557): Any other SPDM request receives ERROR UnsupportedRequest. -/
  | unsupportedRequest (code : BitVec 8)
  /-- ACK (R564): An ACK frame acknowledges and grants credit. -/
  | ack (h : EurHdr)
  /-- WRITE (R565): An inbound WRITE is checked against the inbound windows, applied and answered. -/
  | write (h : EurHdr) (a : BitVec 64) (data : List Byte) (ecc : Ecc)
  /-- WRITE_RSP (R565): A WRITE_RSP returns the write response to the originator. -/
  | writeRsp (h : EurHdr) (status : BitVec 8)
  /-- READ (R566): An inbound READ is served within an enabled window or refused. -/
  | read (h : EurHdr) (a : BitVec 64) (n : BitVec 32) (ecc : Ecc)
  /-- READ_RSP (R565): A READ_RSP delivers read data or an error. -/
  | readRsp (h : EurHdr) (status : BitVec 8) (data : List Byte)
  /-- SPILL (R313): An arriving spilled task is written into a spill-in slot and released, or refused. -/
  | spill (h : EurHdr) (desc : List Byte)
  /-- SPILL_RSP (R311): A peer's answer accepts the spill or returns the task to READY. -/
  | spillRsp (h : EurHdr) (status : BitVec 8)
  /-- SPILL_CPL (R312): A peer's completion is processed at the origin as a local completion. -/
  | spillCpl (h : EurHdr) (rec : List Byte)
  /-- SPILL_CANCEL (R312): A cancel from the origin kills the spilled task at the peer. -/
  | spillCancel (h : EurHdr) (id : BitVec 32)
  /-- ADV (R567): An ADV frame updates the peer's advertised capacity. -/
  | adv (h : EurHdr) (free : BitVec 16)
  /-- EVENT (R568): An EVENT frame raises EV_EUR_REMOTE_INDEX when the peer has EVT_EN. -/
  | event (h : EurHdr) (index : BitVec 8)
  /-- HELLO (R563): A HELLO from a peer may bring it UP and restart sequencing. -/
  | hello (h : EurHdr) (node : BitVec 14) (mac : BitVec 48)
  /-- HELLO_TIMER (R563): Every HELLO_US a HELLO is sent to each enabled peer. -/
  | helloTimer
  /-- ACK_TIMER (R564): An ACK frame is sent no later than 2 µs after receipt. -/
  | ackTimer (k : Fin 2048)
  /-- RETRANSMIT_TIMEOUT (R564): An unacknowledged frame is resent after RTO_US; after RETRY rounds the peer goes DOWN. -/
  | retransmitTimeout (k : Fin 2048)
  /-- EVT_SEND_WRITE (R568): A write of EUR_EVT_SEND sends one EVENT frame. -/
  | evtSendWrite (q : Req) (v : Word)
  /-- LATCH_OPEN (R576): A debounced latch opening raises EV_LC_LATCH_OPEN and may start a held drain. -/
  | latchOpen
  /-- LATCH_CLOSE (R577): A debounced latch closing clears HOLD_DRAIN and may resume RUN_MODE. -/
  | latchClose
  /-- KEY_RELEASE (R578): A service-key release acts by the press duration: identify, drain or none. -/
  | keyRelease
  /-- KEY_HOLD_RESET (R578): A key held to 12,001 ms with SVC_RESET_EN starts a full reset. -/
  | keyHoldReset
  /-- MODULE_INSERTED (R581): A stable presence assertion holds the module in reset for 1 ms. -/
  | moduleInserted (m : Fin 4)
  /-- MODULE_RESET_RELEASE (R581): After 1 ms MOD_RST_N is released. -/
  | moduleResetRelease (m : Fin 4)
  /-- MODULE_INIT (R581): The management interface answers and the sequencer reads identity and awaits ModuleReady. -/
  | moduleInit (m : Fin 4) (cmis : Bool)
  /-- MODULE_READY (R582): ModuleReady arrives and the sequencer applies the matching application. -/
  | moduleReady (m : Fin 4) (apps : List ModApp)
  /-- DATA_PATH_ACTIVATED (R581): Data paths activate and the cage enters READY. -/
  | dataPathActivated (m : Fin 4)
  /-- MODULE_WAIT_TIMEOUT (R581): A sequencer wait runs out and the cage enters FAULT. -/
  | moduleWaitTimeout (m : Fin 4) (wait : Option (BitVec 24))
  /-- MODULE_REMOVED (R584): Presence deasserts; the sequencer stops and enters EMPTY. -/
  | moduleRemoved (m : Fin 4)
  /-- MODULE_INTERRUPT (R583): MOD_INT_N low for 1 ms sets INT and raises EV_LC_MOD_INT. -/
  | moduleInterrupt (m : Fin 4)
  /-- I2C_GO (R585): GO in LC_CAGE_m_I2C starts a one-byte module transfer. -/
  | i2cGo (q : Req) (m : Fin 4) (v : Word)
  /-- I2C_DONE (R585): The two-wire transfer ends, clearing BUSY and setting RDATA or NAK. -/
  | i2cDone (m : Fin 4) (data : Byte) (nak : Bool)
  /-- EVENT_ROUTE (R590): The router applies accepted occurrences to status bits, log, routes and trace. -/
  | eventRoute (n : Fin 256)
  /-- AON_EVENT (R621): After a package fault the AON logs and sends its own events. -/
  | aonEvent
  /-- STAT_CLEAR (R592): A W1C write of EVT_STAT_w clears status bits and releases routed lines. -/
  | statClear (q : Req) (w : Fin 32) (v : Word)
  /-- SW_RAISE (R589): A write of EVT_SW_RAISE raises EV_SW_INDEX. -/
  | swRaise (q : Req) (v : Word)
  /-- EVT_CFG_WRITE (R595): A write of EVT_CFG_e changes an event's route and severity for later occurrences. -/
  | evtCfgWrite (q : Req) (e : Fin 1024) (v : Word)
  /-- PC_SAMPLE (R600): Every 2^(PC_SHIFT+8) cycles a PC sample of PC_CORE is traced. -/
  | pcSample
  /-- BYPASS (R601): JTAG BYPASS instruction. -/
  | bypass
  /-- IDCODE (R601): JTAG IDCODE instruction. -/
  | idcode
  /-- SAMPLE_PRELOAD (R601): JTAG SAMPLE/PRELOAD instruction. -/
  | samplePreload
  /-- EXTEST (R601): JTAG EXTEST takes every pin from its function. -/
  | extest
  /-- CLAMP (R601): JTAG CLAMP instruction. -/
  | clamp
  /-- HIGHZ (R601): JTAG HIGHZ instruction. -/
  | highz
  /-- EXTEST_PULSE (R601): IEEE 1149.6 EXTEST_PULSE on the SerDes lanes. -/
  | extestPulse
  /-- EXTEST_TRAIN (R601): IEEE 1149.6 EXTEST_TRAIN on the SerDes lanes. -/
  | extestTrain
  /-- TAP_RESET (R601): A TAP reset returns the pins to their functions. -/
  | tapReset
  /-- DEBUG (R602): The DEBUG instruction opens the debug port when unlocked or with a verified token. -/
  | debug (token : List Byte)
  /-- DEBUG_HALT (R602): The debug port halts an AK core. -/
  | debugHalt (k : CoreIx)
  /-- DEBUG_STEP (R602): The debug port steps a halted core. -/
  | debugStep (k : CoreIx)
  /-- DEBUG_RESUME (R602): The debug port resumes a halted core. -/
  | debugResume (k : CoreIx)
  /-- THERM_REPORT (R609): Every 100 µs the hottest sensor of each die is reported. -/
  | thermReport (t0 t1 t2 t3 t4 : BitVec 8)
  /-- THROTTLE_ENTRY (R610): A die sensor reaching THROTTLE_C lowers its clusters to 1.2 GHz. -/
  | throttleEntry (d : Fin 4) (t : BitVec 8)
  /-- THROTTLE_DEEPEN (R610): Still hot 10 ms later, the clusters drop to 1.0 GHz. -/
  | throttleDeepen (d : Fin 4) (t : BitVec 8)
  /-- THROTTLE_EXIT (R610): Sensors below THROTTLE_C minus HYST_C for 10 ms restore the mode clock. -/
  | throttleExit (d : Fin 4) (t : BitVec 8)
  /-- THERMAL_TRIP (R611): A sensor at 115 °C asserts THERMTRIP_N and takes a package fault. -/
  | thermalTrip
  /-- SUPPLY_FAULT (R603): A rail beyond its fault limit for 10 µs is a package fault. -/
  | supplyFault (rail : Fin 11)
  /-- AVS_SETTLE (R605): After SETTLE_US the core voltage is checked and clocks raised, or ERR is set. -/
  | avsSettle (mv : BitVec 11) (nak : Bool)
  /-- POWER_LOSS (R606): The rails fall and VDD_AO is lost, ending all device state; an unfinished flush of the event log is lost. -/
  | powerLoss
  /-- PERST_N_RELEASE (R63): Deassertion of PERST_N releases the PCI Express function, which must answer configuration requests within 100 ms. -/
  | perstNRelease
  /-- KEY_PRESS (R574): A debounced press edge of SVC_KEY_N sets LC_STATUS.KEY and starts timing the press that R578 judges. -/
  | keyPress
  /-- CONFIGURATION_REQUEST (R63): A host PCI Express configuration request reads or writes the function's configuration space, changing settings such as MSI-X enable, VF enable or the D-state. -/
  | configurationRequest (f : Fin 17) (op : CfgOp)
  /-- FLUSH_SLOT_ERASED (R92): The erase of the flush slot that follows a recovered flush completes, and a flush waiting on it proceeds. -/
  | flushSlotErased
  deriving DecidableEq, Repr

end Sys2Proof
end

