-- ==== Sys2Proof/Decode.lean ====
section
/-! DEFINITION. Reading a command from the opcode table's bits: no row of the table of this block gives any. -/

namespace Sys2Proof

/-- The command that a word of `nbits` bits spells: the opcode table lists the commands of a block and gives none of its
rows bits, so no word spells one. -/
def decodeTableWord (_nbits _w : Nat) : Option Instr := none

end Sys2Proof
end

