-- ==== Sys2Proof/Config.lean ====
section
/-! DEFINITION. The free values: what the spec leaves open, as constants without a body.

Nothing in Lean can evaluate them or prove a value of them. Each is applied to the counter
State.dev.free, which every use advances, or to the operands it depends on. -/

namespace Sys2Proof

/-- An open number, one for each use of the free counter (log entry 2). -/
opaque Config.free : Nat → Nat

/-- The core cycle count of a core at a timebase tick count: the core clock has no defined
phase or frequency relation to the timebase (R34; log entry 10). -/
opaque Config.coreCycle : Nat → Nat → Nat

/-- The cyclic shift of the LDPC base graph's element in a row and a column, by base graph and set index; none where
the element is zero. The standard's tables are not in the spec (log entry 26). -/
opaque Config.ldpcShift : Nat → Nat → Nat → Nat → Option Nat
/-- How a polar decoder combines the values of two code bits into that of their sum, and into that of the second when
the sum is known (R371 gives no arithmetic; log entry 26). -/
opaque Config.polarF : Int → Int → Int
opaque Config.polarG : Int → Int → Bool → Int
/-- The CRC mask of 16 bits that an ANT value names (R383; log entry 26). -/
opaque Config.antMask : Nat → Nat

/-! ## The narrowband engine's filters (log entry 66) -/

/-- A sample at the output of a channel's filter, by SPACING, RATE, FREQ and SYM_RATE3, from the samples of its stream, the
one its symbols begin at, and its place in the channel's own samples (R393 bounds ripple and rejection alone). -/
opaque Config.chanFilter : Nat × Nat × Int × Nat → List (Int × Int) → Nat → Int → Int × Int
/-- The discriminator's reading between two samples, in 2^-32 turn. -/
opaque Config.instTurn : Int × Int → Int × Int → Int
/-- The four taps that training yields from the samples of a sync and its nominal levels (R396). -/
opaque Config.eqTaps : List (Int × Int) → List Int → List (Int × Int)
/-- Coefficient i of the Gaussian frequency pulse of a BT (R428), in the form of a pulse table. -/
opaque Config.gaussPulse : Nat → Nat → Int
/-- A channel's contribution to a sample of its transmit stream (R426, R427): RATE, 3R, FREQ, the amplitude, the ramp and the
burst's length in symbols, the deviation as a fraction, the frequency trajectory at 16 points a symbol, and the time from the
first symbol in units of 2^-16 ns ÷ (3R × RATE). -/
opaque Config.txWave : Nat × Nat × Int × Nat → Nat × Nat → Nat × Nat → List Int → Int → Int × Int

/-! ## The board's flash, the fuses and the security engine (log entries 7 and 8) -/

/-- The density of the flash in Mib, as its SFDP table gives it (R44). -/
opaque Config.flashMib : Nat
/-- What the board maker put into each byte of the flash (log entry 7). -/
opaque Config.flashByte : Nat → Byte
/-- The root key hash in the fuses. -/
opaque Config.rootHash : List Byte
/-- The fuse rollback counter as delivered. -/
opaque Config.rollback : Nat
/-- Do the fuses read with a majority (R597)? -/
opaque Config.fusesOk : Bool
/-- Is the DBG_LOCK fuse blown? -/
opaque Config.dbgLock : Bool
/-- The serial number in the fuses. -/
opaque Config.serial : Nat
/-- SHA-384 (the standard is outside the spec). -/
opaque Config.sha384 : List Byte → List Byte
/-- ECDSA verification on P-384: key, digest, signature. -/
opaque Config.ecdsaOk : List Byte → List Byte → List Byte → Bool
/-- A signature of the device identity key; the number makes each one its own. -/
opaque Config.ecdsaSign : Nat → List Byte → List Byte
/-- The certificate chain of slot 0 (R558). -/
opaque Config.certChain : List Byte
/-- How the fields of measurement blocks 2 and 7 are laid out: the block's index and the fields' numbers give its bytes,
a layout that the spec does not give (R559). -/
opaque Config.measRaw : Nat → List Nat → List Byte
/-- The contents of the boot ROM. -/
opaque Config.bootRom : List Byte
/-- The vendor ID of Tiquecia Microsystems, whose number the spec does not give (R536). -/
opaque Config.vendorId : Nat
/-- The JTAG manufacturer code of the BSDL file (R601). -/
opaque Config.jtagMaker : Nat
/-- The two words that the CAPABILITIES response adds to its flags, DataTransferSize and MaxSPDMmsgSize, and the
CTExponent: open (R557; log entry 48). -/
opaque Config.spdmSizes : Nat × Nat
opaque Config.spdmCtExponent : Nat
/-- The DMTF type of a measurement block, 0 to 127 (R559; log entry 48). -/
opaque Config.measType : Nat → Nat

/-- What the image's convention ties a task to: the function and slot number of the task in a descriptor-store slot
with this descriptor (R626). -/
opaque Config.taskOf : Nat → List Byte → Option (Nat × Nat)
/-- V_fuse of the part, as a number of mV above 700 (R604). -/
opaque Config.vFuse : Nat
/-- Does the security engine verify this debug token (R602)? -/
opaque Config.debugTokenOk : List Byte → Bool

end Sys2Proof
end

