-- ==== Sys2Proof/Machine/Events.lean ====
section
/-! DEFINITION. The event numbers (R316, R347, R385, R433, R467, R495, R520, R534, R571, R588, R589) and the
severity each has at reset (R591). -/

namespace Sys2Proof.Machine

def evPkgFault : Nat := 0
def evFence (die : Nat) : Nat := 1 + die
def evThrottle (die : Nat) : Nat := 5 + die
def evPwrfail : Nat := 9
def evGsoDormant : Nat := 16
def evGsoMode : Nat := 17
def evGsoDrainDone : Nat := 18
def evGsoDrainTimeout : Nat := 19
def evGsoWedged : Nat := 20
def evGsoCfgErr : Nat := 21
def evGsoImageReject : Nat := 22
def evGsoFallback : Nat := 23
def evGsoNoImage : Nat := 24
def evGsoCommIncomplete : Nat := 25
def evSw (i : Nat) : Nat := 48 + i
def evTrig (k : Nat) : Nat := 64 + k
def evTbLock : Nat := 96
def evTbHoldover : Nat := 97
def evTbBackjump : Nat := 98
def evTbFwdjump : Nat := 99
def evTbStep : Nat := 100
def evTbRefLoss : Nat := 101
def evTbPpsIn : Nat := 102
def evTrigLate : Nat := 103
def evTrigMissed : Nat := 104
def evTrmSafe : Nat := 112
def evTrmWdog : Nat := 113
def evTrmDrop : Nat := 114
/-- Port p: 0 LINK, 1 RX_LATE, 2 TX_LATE, 3 ERR (R467). -/
def evFh (p k : Nat) : Nat := 128 + 4 * p + k
def evHstCmdDone : Nat := 192
def evHstCmdReject : Nat := 193
def evHstWriteDenied : Nat := 194
def evHstRingErr : Nat := 195
def evHstLink : Nat := 196
def evHstMsg : Nat := 197
def evEurRemote (i : Nat) : Nat := 200 + i
def evEurPeerDown : Nat := 216
def evEurPeerUp : Nat := 217
def evEurRefused : Nat := 218
def evEurNodeClash : Nat := 219
/-- Region r: 0 LATE_START, 1 MISS, 2 BACKPRESSURE, 3 DEP_ERR, 4 SPILL, 5 SPILL_FAIL, 6 REDIRECT, 7 CQ_OVF (R316). -/
def evEsl (r k : Nat) : Nat := 256 + 8 * r + k
/-- Engine e (region 0 to 15, 16 the hub engine): 0 DONE, 1 ERROR, 2 DIFF, 3 FAULT, 4 CFG_ERR, 5 STOPPED (R347). -/
def evGst (e k : Nat) : Nat := if e < 16 then 384 + 8 * e + k else 248 + k
def evCoreQuar (c : Nat) : Nat := 512 + 2 * c
def evCoreCluster (c : Nat) : Nat := 513 + 2 * c
/-- Region r: 0 and 1 FFT engines, 2 decoder, 3 encoder (R385). -/
def evEngAlert (r k : Nat) : Nat := 704 + 4 * r + k
def evNceFrame (g : Nat) : Nat := 768 + g
def evNceTx (q : Nat) : Nat := 832 + q
def evNceRxOvf : Nat := 848
def evNceTxLate : Nat := 849
def evNceStartFail : Nat := 850
def evNceCapStall : Nat := 851
def evNceCfg : Nat := 852
def evNceFault : Nat := 853
def evNceTxSat : Nat := 854
def evGlzStale : Nat := 896
def evGlzSetReady : Nat := 897
def evGlzSwap : Nat := 898
def evGlzSwapMiss : Nat := 899
def evGlzCapture (r : Nat) : Nat := 900 + r
def evGlzCaptOvf : Nat := 916
def evGlzEstFail : Nat := 917
def evGlzCommDone : Nat := 918
def evGlzCfg : Nat := 919
def evGlzFault : Nat := 920
def evLcLatchOpen : Nat := 960
def evLcLatchClose : Nat := 961
def evLcKey : Nat := 962
def evLcSafe : Nat := 963
def evLcMod (cage : Nat) : Nat := 964 + cage
def evLcModInt (cage : Nat) : Nat := 968 + cage
def evPalOwner : Nat := 976
def evPalCollide : Nat := 977
def evPalPower : Nat := 978
def evPalFenced : Nat := 979
def evPalDecode : Nat := 980
def evPalEccUe : Nat := 981
def evPalEccCe : Nat := 982
def evPalExtent : Nat := 983
def evPalWashFail : Nat := 984
def evPalQuar : Nat := 985
def evDebug : Nat := 986

/-- A range test. -/
def within (lo hi n : Nat) : Bool := decide (lo ≤ n) && decide (n ≤ hi)

/-- The severity of an event at reset (R591): 0 INFO, 1 WARN, 2 ERROR, 3 FATAL. -/
def evtSeverity (e : Nat) : Nat :=
  let gst := fun k => (within 384 511 e && e % 8 == k) || e == 248 + k
  let esl := fun k => within 256 383 e && e % 8 == k
  if e = 0 then 3
  else if within 1 4 e || [9, 20, 22, 24, evPalEccUe, evPalWashFail, evPalQuar, evPalFenced, evNceFault,
      evGlzFault, evTbRefLoss, evTrmSafe, evTrmWdog, evEurNodeClash, evDebug].contains e
      || within 512 703 e || gst 3 then 2
  else if within 5 8 e || [evGsoFallback, evGsoDrainTimeout, evGsoCommIncomplete, evTbHoldover, evTbBackjump,
      evTbFwdjump, evTrigMissed, evPalOwner, evPalCollide, evPalPower, evPalDecode, evPalExtent, evPalEccCe,
      evNceRxOvf, evNceTxLate, evGlzStale, evGlzSwapMiss, evEurPeerDown, evHstRingErr, evLcLatchOpen].contains e
      || esl 1 || esl 6 || esl 3 || esl 7 || within 128 191 e || within 704 767 e || gst 1 then 1
  else 0

end Sys2Proof.Machine
end

