-- ==== Sys2Proof/Machine/RegTable.lean ====
section
/-! DEFINITION. The register tables of the spec: every register block with its registers, their
offsets, access codes (R11) and reset values, and the bases of the blocks (R40, R41). -/

namespace Sys2Proof.Machine

/-- Access codes (R11). -/
inductive Acc where
  | rw | ro | wo | w1c | w1s | rcl
  deriving DecidableEq, Repr

/-- A field: bits [lo + w - 1 : lo], its access code, and whether the image may set it (Img Y). -/
structure FieldSpec where
  lo : Nat
  w : Nat
  acc : Acc
  img : Bool
  deriving DecidableEq, Repr

/-- A register, or `count` registers `stride` bytes apart, of one block. -/
structure RegSpec where
  off : Nat
  count : Nat
  stride : Nat
  reset : Nat
  fields : List FieldSpec
  deriving DecidableEq, Repr

/-- The register blocks of R40 and R41, and the control registers of one core (R108, R110). -/
inductive Blk where
  | gso | evt | tb | trm | lc | hst | eur | nce | glz | palh | eslh | gsth
  | fh (p : Nat)
  | eslr (r : Nat) | gstr (r : Nat) | fft (r e : Nat) | dec (r : Nat) | enc (r : Nat) | palr (r : Nat)
  | core (k : Nat)
  | cic (c : Nat)
  deriving DecidableEq, Repr

/-- The base of region r's window (R40). -/
def regionBase (r : Nat) : Nat := 0x01000000000 + r * 0x10000000

/-- The key base of a core's control registers: the device address for a compute core (R108); hub
cores have no memory-mapped copy (R110), so theirs are kept above the 42-bit address space. -/
def coreBase (k : Nat) : Nat :=
  if k < 384 then
    regionBase (k / 24) + 0x0F100000 + (k % 24) / 4 * 0x10000 + k % 4 * 0x1000
  else 0x40000000000 + (k - 384) * 0x1000

/-- The base of a block. -/
def blkBase (b : Blk) : Nat :=
  match b with
  | .gso => 0x02010000000
  | .evt => 0x02010010000
  | .tb => 0x02010020000
  | .trm => 0x02010030000
  | .lc => 0x02010040000
  | .hst => 0x02010050000
  | .eur => 0x02010060000
  | .fh p => 0x02010100000 + p * 0x10000
  | .nce => 0x02010200000
  | .glz => 0x02010300000
  | .palh => 0x02010400000
  | .eslh => 0x02010500000
  | .gsth => 0x02010600000
  | .eslr r => regionBase r + 0x0F000000
  | .gstr r => regionBase r + 0x0F010000
  | .fft r e => regionBase r + 0x0F020000 + e * 0x10000
  | .dec r => regionBase r + 0x0F040000
  | .enc r => regionBase r + 0x0F050000
  | .palr r => regionBase r + 0x0F060000
  | .core k => coreBase k
  | .cic c => regionBase (c / 6) + 0x0F108000 + c % 6 * 0x10000

/-- The gso block's registers (part 0). -/
def gsoRegs0 : List RegSpec :=
  [ /- GSO_MODE -/ ⟨0x0, 1, 4, 0x0,
      [⟨0, 3, .ro, false⟩, ⟨4, 3, .rw, false⟩, ⟨8, 1, .ro, false⟩, ⟨9, 1, .ro, false⟩, ⟨10, 2, .ro, false⟩]⟩
  , /- GSO_POLICY -/ ⟨0x4, 1, 4, 0x48,
      [⟨0, 1, .rw, true⟩, ⟨1, 1, .rw, true⟩, ⟨2, 3, .rw, true⟩, ⟨5, 1, .rw, true⟩, ⟨6, 1, .rw, true⟩, ⟨7, 1, .rw, true⟩]⟩
  , /- GSO_NODE_ID -/ ⟨0x8, 1, 4, 0x0,
      [⟨0, 14, .ro, true⟩]⟩
  , /- GSO_DRAIN_TIMEOUT -/ ⟨0xC, 1, 4, 0xC8,
      [⟨0, 16, .rw, true⟩]⟩
  , /- GSO_ECON -/ ⟨0x10, 1, 4, 0x48,
      [⟨0, 7, .rw, true⟩]⟩
  , /- GSO_BOOT_STATUS -/ ⟨0x20, 1, 4, 0x0,
      [⟨0, 4, .ro, false⟩, ⟨4, 2, .ro, false⟩, ⟨6, 1, .ro, false⟩, ⟨8, 4, .ro, false⟩, ⟨12, 7, .ro, false⟩]⟩
  , /- GSO_RESET_CAUSE -/ ⟨0x40, 1, 4, 0x0,
      [⟨0, 4, .ro, false⟩, ⟨8, 8, .ro, false⟩]⟩
  , /- GSO_PWRFAIL -/ ⟨0x50, 1, 4, 0x0,
      [⟨0, 1, .ro, false⟩, ⟨1, 1, .w1c, false⟩, ⟨8, 7, .ro, false⟩]⟩
  , /- GSO_BOOT_TIME -/ ⟨0x24, 1, 4, 0x0,
      [⟨0, 32, .ro, false⟩]⟩
  , /- GSO_IMAGE_VERSION -/ ⟨0x28, 1, 4, 0x0,
      [⟨0, 32, .ro, false⟩]⟩
  , /- GSO_RESET_SEC -/ ⟨0x44, 1, 4, 0x0,
      [⟨0, 32, .ro, false⟩]⟩
  , /- GSO_RESET_NS -/ ⟨0x48, 1, 4, 0x0,
      [⟨0, 32, .ro, false⟩]⟩ ]

/-- The gso block's registers (part 1). -/
def gsoRegs1 : List RegSpec :=
  [ /- GSO_FUNC -/ ⟨0x1000, 134, 4, 0x0,
      [⟨0, 3, .ro, false⟩, ⟨3, 1, .ro, true⟩, ⟨4, 1, .rw, true⟩, ⟨5, 1, .ro, false⟩, ⟨6, 1, .w1c, false⟩]⟩
  , /- GSO_CARR -/ ⟨0x2000, 48, 8, 0x184,
      [⟨0, 2, .rw, true⟩, ⟨2, 3, .rw, true⟩, ⟨5, 1, .rw, true⟩, ⟨6, 3, .rw, true⟩, ⟨9, 3, .ro, false⟩, ⟨16, 16, .rcl, false⟩]⟩
  , /- GSO_CARR_OFS -/ ⟨0x2004, 48, 8, 0x0,
      [⟨0, 32, .rw, true⟩]⟩
  , /- GSO_AVS -/ ⟨0x3000, 1, 4, 0xC840,
      [⟨0, 7, .rw, true⟩, ⟨8, 16, .rw, true⟩]⟩
  , /- GSO_AVS_STAT -/ ⟨0x3008, 1, 4, 0x2EE,
      [⟨0, 10, .ro, false⟩, ⟨10, 10, .ro, false⟩, ⟨20, 1, .w1c, false⟩]⟩
  , /- GSO_THERM_CFG -/ ⟨0x3004, 1, 4, 0x2E4,
      [⟨0, 7, .rw, true⟩, ⟨7, 4, .rw, true⟩]⟩
  , /- GSO_THERM -/ ⟨0x3010, 5, 4, 0x0,
      [⟨0, 8, .ro, false⟩, ⟨8, 8, .rcl, false⟩, ⟨16, 2, .ro, false⟩]⟩
  , /- GSO_SUPPLY -/ ⟨0x3030, 1, 4, 0x0,
      [⟨0, 11, .w1c, false⟩]⟩ ]

/-- The gso block's registers. -/
def gsoRegs : List RegSpec := gsoRegs0 ++ gsoRegs1

/-- The evt block's registers. -/
def evtRegs : List RegSpec :=
  [ /- EVT_LOG_CFG -/ ⟨0x0, 1, 4, 0x1,
      [⟨0, 2, .rw, true⟩]⟩
  , /- EVT_FAULT -/ ⟨0x4, 1, 4, 0x0,
      [⟨0, 4, .ro, false⟩, ⟨4, 4, .ro, false⟩]⟩
  , /- EVT_SW_RAISE -/ ⟨0x8, 1, 4, 0x0,
      [⟨0, 4, .wo, false⟩]⟩
  , /- EVT_CE_CFG -/ ⟨0xC, 1, 4, 0x100,
      [⟨0, 16, .rw, true⟩]⟩
  , /- EVT_TRC_CTRL -/ ⟨0x10, 1, 4, 0x40,
      [⟨0, 1, .rw, true⟩, ⟨1, 2, .rw, true⟩, ⟨3, 1, .rw, true⟩, ⟨4, 4, .rw, true⟩, ⟨8, 9, .rw, true⟩]⟩
  , /- EVT_TRC_LOST -/ ⟨0x14, 1, 4, 0x0,
      [⟨0, 32, .rcl, false⟩]⟩
  , /- EVT_DBG -/ ⟨0x18, 1, 4, 0x0,
      [⟨0, 1, .ro, false⟩, ⟨1, 1, .ro, false⟩, ⟨16, 16, .rcl, false⟩]⟩
  , /- EVT_STAT -/ ⟨0x100, 32, 4, 0x0,
      [⟨0, 32, .w1c, false⟩]⟩
  , /- EVT_CFG -/ ⟨0x1000, 1024, 4, 0x0,
      [⟨0, 3, .rw, true⟩, ⟨3, 2, .rw, true⟩, ⟨6, 11, .rw, true⟩, ⟨17, 7, .rw, true⟩, ⟨24, 6, .rw, true⟩]⟩ ]

/-- The tb block's registers (part 0). -/
def tbRegs0 : List RegSpec :=
  [ /- TB_STATUS -/ ⟨0x0, 1, 4, 0x100,
      [⟨0, 3, .ro, false⟩, ⟨4, 6, .ro, false⟩, ⟨10, 1, .ro, false⟩, ⟨11, 1, .ro, false⟩, ⟨12, 1, .ro, false⟩, ⟨13, 1, .w1c, false⟩, ⟨14, 1, .w1c, false⟩]⟩
  , /- TB_NOW_NS -/ ⟨0x10, 1, 4, 0x0,
      [⟨0, 32, .ro, false⟩]⟩
  , /- TB_NOW_SEC_LO -/ ⟨0x14, 1, 4, 0x0,
      [⟨0, 32, .ro, false⟩]⟩
  , /- TB_NOW_SEC_HI -/ ⟨0x18, 1, 4, 0x0,
      [⟨0, 16, .ro, false⟩]⟩
  , /- TB_NOW_FRAC -/ ⟨0x1C, 1, 4, 0x0,
      [⟨0, 16, .ro, false⟩]⟩
  , /- TB_STEP_NS -/ ⟨0x20, 1, 4, 0x0,
      [⟨0, 32, .rw, false⟩]⟩
  , /- TB_STEP_SEC_LO -/ ⟨0x24, 1, 4, 0x0,
      [⟨0, 32, .rw, false⟩]⟩
  , /- TB_STEP_SEC_HI -/ ⟨0x28, 1, 4, 0x0,
      [⟨0, 32, .rw, false⟩]⟩
  , /- TB_STEP_CMD -/ ⟨0x2C, 1, 4, 0x0,
      [⟨0, 1, .w1s, false⟩, ⟨1, 1, .rw, false⟩]⟩
  , /- TB_OFFSET_IN_LO -/ ⟨0x30, 1, 4, 0x0,
      [⟨0, 32, .wo, false⟩]⟩
  , /- TB_OFFSET_IN_HI -/ ⟨0x34, 1, 4, 0x0,
      [⟨0, 16, .wo, false⟩]⟩
  , /- TB_LAST_OFFSET -/ ⟨0x38, 1, 4, 0x0,
      [⟨0, 32, .ro, false⟩]⟩ ]

/-- The tb block's registers (part 1). -/
def tbRegs1 : List RegSpec :=
  [ /- TB_OFFSET_LOST -/ ⟨0x3C, 1, 4, 0x0,
      [⟨0, 32, .rcl, false⟩]⟩
  , /- TB_SERVO_CFG -/ ⟨0x40, 1, 4, 0x8140610,
      [⟨0, 1, .rw, true⟩, ⟨1, 2, .rw, true⟩, ⟨3, 1, .rw, true⟩, ⟨4, 5, .rw, true⟩, ⟨9, 6, .rw, true⟩, ⟨16, 8, .rw, true⟩, ⟨24, 4, .rw, true⟩]⟩
  , /- TB_SLEW_MAX -/ ⟨0x44, 1, 4, 0xA,
      [⟨0, 6, .rw, true⟩]⟩
  , /- TB_BACKSTEP_LIMIT -/ ⟨0x48, 1, 4, 0x2710,
      [⟨0, 32, .rw, true⟩]⟩
  , /- TB_STEP_LIMIT -/ ⟨0x4C, 1, 4, 0x2710,
      [⟨0, 32, .rw, true⟩]⟩
  , /- TB_HOLD_CFG -/ ⟨0x50, 1, 4, 0x7D0,
      [⟨0, 16, .rw, true⟩]⟩
  , /- TB_TRIM_CENTRE -/ ⟨0x54, 1, 4, 0x8000,
      [⟨0, 16, .rw, true⟩]⟩
  , /- TB_TRIM_SLOPE -/ ⟨0x58, 1, 4, 0x0,
      [⟨0, 24, .rw, true⟩]⟩
  , /- TB_RATE -/ ⟨0x5C, 1, 4, 0x0,
      [⟨0, 32, .ro, false⟩]⟩
  , /- TB_FREQ -/ ⟨0x60, 1, 4, 0x0,
      [⟨0, 32, .ro, false⟩]⟩
  , /- TB_REF_CFG -/ ⟨0x70, 1, 4, 0x0,
      [⟨0, 1, .rw, true⟩, ⟨1, 4, .rw, true⟩, ⟨5, 2, .rw, true⟩]⟩
  , /- TB_REF_STAT -/ ⟨0x74, 1, 4, 0x0,
      [⟨0, 1, .ro, false⟩, ⟨1, 1, .w1c, false⟩]⟩ ]

/-- The tb block's registers (part 2). -/
def tbRegs2 : List RegSpec :=
  [ /- TB_PPS_IN_CFG -/ ⟨0x80, 1, 4, 0x0,
      [⟨0, 1, .rw, true⟩, ⟨1, 1, .rw, true⟩, ⟨2, 16, .rw, true⟩]⟩
  , /- TB_PPS_IN_NS -/ ⟨0x84, 1, 4, 0x0,
      [⟨0, 32, .ro, false⟩]⟩
  , /- TB_PPS_IN_FRAC -/ ⟨0x88, 1, 4, 0x0,
      [⟨0, 16, .ro, false⟩]⟩
  , /- TB_PPS_OUT_CFG -/ ⟨0x90, 1, 4, 0xC8,
      [⟨0, 1, .rw, true⟩, ⟨1, 8, .rw, true⟩, ⟨9, 12, .rw, true⟩]⟩
  , /- TB_GPIO_OWN -/ ⟨0x94, 1, 4, 0x0,
      [⟨0, 8, .rw, true⟩]⟩
  , /- TB_TRIG_MISS -/ ⟨0xA0, 1, 4, 0x0,
      [⟨0, 8, .ro, false⟩, ⟨16, 16, .rcl, false⟩]⟩
  , /- TB_TRIG_SEC_LO -/ ⟨0x1000, 256, 32, 0x0,
      [⟨0, 32, .rw, false⟩]⟩
  , /- TB_TRIG_SEC_HI -/ ⟨0x1004, 256, 32, 0x0,
      [⟨0, 16, .rw, false⟩]⟩
  , /- TB_TRIG_NS -/ ⟨0x1008, 256, 32, 0x0,
      [⟨0, 30, .rw, false⟩]⟩
  , /- TB_TRIG_CTRL -/ ⟨0x100C, 256, 32, 0x0,
      [⟨0, 1, .rw, false⟩, ⟨1, 5, .rw, false⟩, ⟨6, 5, .rw, false⟩, ⟨11, 3, .rw, false⟩, ⟨14, 2, .rw, false⟩, ⟨16, 4, .rw, false⟩]⟩
  , /- TB_TRIG_ARG -/ ⟨0x1010, 256, 32, 0x0,
      [⟨0, 16, .rw, false⟩]⟩
  , /- TB_TRIG_LATE -/ ⟨0x1014, 256, 32, 0x0,
      [⟨0, 32, .rw, false⟩]⟩ ]

/-- The tb block's registers (part 3). -/
def tbRegs3 : List RegSpec :=
  [ /- TB_TRIG_PERIOD -/ ⟨0x1018, 256, 32, 0x0,
      [⟨0, 32, .rw, false⟩]⟩
  , /- TB_TRIG_STAT -/ ⟨0x101C, 256, 32, 0x0,
      [⟨0, 3, .ro, false⟩, ⟨16, 16, .rcl, false⟩]⟩ ]

/-- The tb block's registers. -/
def tbRegs : List RegSpec := tbRegs0 ++ tbRegs1 ++ tbRegs2 ++ tbRegs3

/-- The trm block's registers. -/
def trmRegs : List RegSpec :=
  [ /- TRM_STATUS -/ ⟨0x0, 1, 4, 0xF0,
      [⟨0, 4, .ro, false⟩, ⟨4, 4, .ro, false⟩, ⟨8, 3, .ro, false⟩]⟩
  , /- TRM_WDOG -/ ⟨0x4, 1, 4, 0x0,
      [⟨0, 16, .rw, true⟩, ⟨16, 1, .w1s, false⟩, ⟨17, 1, .ro, false⟩]⟩
  , /- TRM_CH_CFG -/ ⟨0x100, 4, 16, 0x0,
      [⟨0, 1, .ro, true⟩, ⟨16, 16, .ro, true⟩]⟩
  , /- TRM_CH_CODE -/ ⟨0x104, 4, 16, 0x0,
      [⟨0, 16, .wo, false⟩, ⟨16, 16, .ro, false⟩]⟩
  , /- TRM_CH_CNT -/ ⟨0x108, 4, 16, 0x0,
      [⟨0, 16, .rcl, false⟩, ⟨16, 16, .rcl, false⟩]⟩ ]

/-- The lc block's registers. -/
def lcRegs : List RegSpec :=
  [ /- LC_STATUS -/ ⟨0x0, 1, 4, 0x2,
      [⟨0, 1, .ro, false⟩, ⟨1, 1, .ro, false⟩, ⟨2, 1, .ro, false⟩]⟩
  , /- LC_CTRL -/ ⟨0x4, 1, 4, 0x0,
      [⟨0, 1, .rw, false⟩]⟩
  , /- LC_CFG -/ ⟨0x8, 1, 4, 0x1,
      [⟨0, 1, .rw, true⟩, ⟨1, 1, .rw, true⟩]⟩
  , /- LC_KEY -/ ⟨0xC, 1, 4, 0x0,
      [⟨0, 16, .ro, false⟩, ⟨16, 3, .ro, false⟩, ⟨24, 8, .rcl, false⟩]⟩
  , /- LC_LED -/ ⟨0x20, 8, 4, 0x28,
      [⟨0, 3, .rw, true⟩, ⟨3, 5, .rw, true⟩, ⟨8, 4, .rw, true⟩]⟩
  , /- LC_CAGE_CFG -/ ⟨0x100, 4, 16, 0x179,
      [⟨0, 1, .rw, true⟩, ⟨1, 7, .rw, true⟩, ⟨8, 2, .rw, true⟩]⟩
  , /- LC_CAGE_STAT -/ ⟨0x104, 4, 16, 0x0,
      [⟨0, 3, .ro, false⟩, ⟨3, 1, .ro, false⟩, ⟨4, 1, .w1c, false⟩, ⟨8, 8, .ro, false⟩, ⟨16, 16, .rcl, false⟩]⟩
  , /- LC_CAGE_I2C -/ ⟨0x108, 4, 16, 0x0,
      [⟨0, 8, .rw, false⟩, ⟨8, 8, .rw, false⟩, ⟨16, 1, .rw, false⟩, ⟨17, 1, .w1s, false⟩, ⟨18, 1, .ro, false⟩, ⟨19, 1, .w1c, false⟩, ⟨24, 8, .ro, false⟩]⟩ ]

/-- The hst block's registers (part 0). -/
def hstRegs0 : List RegSpec :=
  [ /- HST_ID -/ ⟨0x0, 1, 4, 0xB09416,
      [⟨0, 16, .ro, false⟩, ⟨16, 8, .ro, false⟩]⟩
  , /- HST_SERIAL_LO -/ ⟨0x4, 1, 4, 0x0,
      [⟨0, 32, .ro, false⟩]⟩
  , /- HST_SERIAL_HI -/ ⟨0x8, 1, 4, 0x0,
      [⟨0, 32, .ro, false⟩]⟩
  , /- HST_STATUS -/ ⟨0xC, 1, 4, 0x0,
      [⟨0, 1, .ro, false⟩, ⟨1, 3, .ro, false⟩, ⟨4, 5, .ro, false⟩, ⟨9, 1, .ro, false⟩, ⟨10, 1, .ro, false⟩]⟩
  , /- HST_STAGE -/ ⟨0x10, 1, 4, 0x0,
      [⟨0, 27, .ro, false⟩, ⟨27, 1, .ro, false⟩]⟩
  , /- HST_TRIG_RANGE -/ ⟨0x14, 1, 4, 0x0,
      [⟨0, 8, .rw, true⟩, ⟨8, 8, .rw, true⟩]⟩
  , /- HST_DENY -/ ⟨0x18, 1, 4, 0x0,
      [⟨0, 26, .ro, false⟩, ⟨26, 6, .rcl, false⟩]⟩
  , /- HST_MBOX_CMD -/ ⟨0x100, 1, 4, 0x0,
      [⟨0, 8, .rw, false⟩]⟩
  , /- HST_MBOX_ARG -/ ⟨0x104, 8, 4, 0x0,
      [⟨0, 32, .rw, false⟩]⟩
  , /- HST_MBOX_CTRL -/ ⟨0x140, 1, 4, 0x0,
      [⟨0, 1, .w1s, false⟩, ⟨1, 1, .ro, false⟩, ⟨2, 1, .w1c, false⟩, ⟨3, 11, .rw, false⟩]⟩
  , /- HST_MBOX_STATUS -/ ⟨0x144, 1, 4, 0x0,
      [⟨0, 3, .ro, false⟩]⟩
  , /- HST_MBOX_RES -/ ⟨0x148, 8, 4, 0x0,
      [⟨0, 32, .ro, false⟩]⟩ ]

/-- The hst block's registers (part 1). -/
def hstRegs1 : List RegSpec :=
  [ /- HST_MSG_PEND -/ ⟨0x280, 8, 4, 0x0,
      [⟨0, 32, .w1c, false⟩]⟩
  , /- HST_VF -/ ⟨0x300, 16, 4, 0x0,
      [⟨0, 11, .rw, true⟩, ⟨11, 8, .rw, true⟩]⟩
  , /- HST_RING_H2D_LO -/ ⟨0x1000, 256, 32, 0x0,
      [⟨6, 26, .rw, false⟩]⟩
  , /- HST_RING_H2D_HI -/ ⟨0x1004, 256, 32, 0x0,
      [⟨0, 32, .rw, false⟩]⟩
  , /- HST_RING_D2H_LO -/ ⟨0x1008, 256, 32, 0x0,
      [⟨6, 26, .rw, false⟩]⟩
  , /- HST_RING_D2H_HI -/ ⟨0x100C, 256, 32, 0x0,
      [⟨0, 32, .rw, false⟩]⟩
  , /- HST_RING_CFG -/ ⟨0x1010, 256, 32, 0x400,
      [⟨0, 1, .rw, false⟩, ⟨1, 2, .rw, true⟩, ⟨3, 5, .rw, true⟩, ⟨8, 4, .rw, false⟩, ⟨12, 11, .rw, false⟩, ⟨23, 1, .rw, false⟩, ⟨24, 3, .ro, false⟩]⟩
  , /- HST_RING_DQ -/ ⟨0x1014, 256, 32, 0x0,
      [⟨0, 32, .rw, true⟩]⟩
  , /- HST_RING_DQ_IN -/ ⟨0x1018, 256, 32, 0x0,
      [⟨0, 16, .ro, false⟩, ⟨16, 16, .rw, false⟩]⟩
  , /- HST_RING_DQ_OUT -/ ⟨0x101C, 256, 32, 0x0,
      [⟨0, 16, .rw, false⟩, ⟨16, 16, .ro, false⟩]⟩
  , /- HST_DB_TAIL -/ ⟨0xD000, 256, 8, 0x0,
      [⟨0, 16, .rw, false⟩, ⟨16, 16, .ro, false⟩]⟩
  , /- HST_DB_HEAD -/ ⟨0xD004, 256, 8, 0x0,
      [⟨0, 16, .rw, false⟩, ⟨16, 16, .ro, false⟩]⟩ ]

/-- The hst block's registers. -/
def hstRegs : List RegSpec := hstRegs0 ++ hstRegs1

/-- The eur block's registers (part 0). -/
def eurRegs0 : List RegSpec :=
  [ /- EUR_CFG -/ ⟨0x0, 1, 4, 0x44088B5,
      [⟨0, 16, .rw, true⟩, ⟨16, 1, .rw, true⟩, ⟨17, 6, .rw, true⟩, ⟨23, 4, .rw, true⟩]⟩
  , /- EUR_STATUS -/ ⟨0x4, 1, 4, 0x0,
      [⟨0, 12, .ro, false⟩, ⟨12, 1, .w1c, false⟩]⟩
  , /- EUR_DROP -/ ⟨0x8, 1, 4, 0x0,
      [⟨0, 32, .rcl, false⟩]⟩
  , /- EUR_TIMING -/ ⟨0xC, 1, 4, 0x640014,
      [⟨0, 16, .rw, true⟩, ⟨16, 16, .rw, true⟩]⟩
  , /- EUR_EVT_SEND -/ ⟨0x10, 1, 4, 0x0,
      [⟨0, 14, .wo, false⟩, ⟨14, 4, .wo, false⟩]⟩
  , /- EUR_IN_WIN_BASE -/ ⟨0x100, 8, 8, 0x0,
      [⟨0, 13, .rw, true⟩]⟩
  , /- EUR_IN_WIN_LEN -/ ⟨0x104, 8, 8, 0x0,
      [⟨0, 14, .rw, true⟩, ⟨14, 1, .rw, true⟩]⟩
  , /- EUR_REF_STATUS -/ ⟨0x180, 1, 4, 0x0,
      [⟨0, 1, .w1c, false⟩, ⟨1, 14, .ro, false⟩, ⟨15, 1, .ro, false⟩, ⟨16, 16, .rcl, false⟩]⟩
  , /- EUR_REF_ADDR_LO -/ ⟨0x184, 1, 4, 0x0,
      [⟨0, 32, .ro, false⟩]⟩
  , /- EUR_REF_ADDR_HI -/ ⟨0x188, 1, 4, 0x0,
      [⟨0, 10, .ro, false⟩]⟩
  , /- EUR_PEER_CFG -/ ⟨0x8000, 2048, 16, 0x0,
      [⟨0, 14, .rw, true⟩, ⟨14, 4, .rw, true⟩, ⟨18, 1, .rw, true⟩, ⟨19, 1, .rw, true⟩]⟩
  , /- EUR_PEER_MAC_LO -/ ⟨0x8004, 2048, 16, 0x0,
      [⟨0, 32, .rw, true⟩]⟩ ]

/-- The eur block's registers (part 1). -/
def eurRegs1 : List RegSpec :=
  [ /- EUR_PEER_MAC_HI -/ ⟨0x8008, 2048, 16, 0x0,
      [⟨0, 16, .rw, true⟩]⟩
  , /- EUR_PEER_STAT -/ ⟨0x800C, 2048, 16, 0x0,
      [⟨0, 1, .ro, false⟩, ⟨16, 16, .rcl, false⟩]⟩ ]

/-- The eur block's registers. -/
def eurRegs : List RegSpec := eurRegs0 ++ eurRegs1

/-- The fh block's registers (part 0). -/
def fhRegs0 : List RegSpec :=
  [ /- FH_PORT_CFG -/ ⟨0x0, 1, 4, 0x210001C2,
      [⟨0, 3, .rw, true⟩, ⟨3, 1, .rw, true⟩, ⟨4, 1, .rw, true⟩, ⟨5, 1, .rw, true⟩, ⟨6, 3, .rw, true⟩, ⟨9, 12, .rw, true⟩, ⟨21, 9, .rw, true⟩]⟩
  , /- FH_PORT_STATUS -/ ⟨0x4, 1, 4, 0x0,
      [⟨0, 1, .ro, false⟩, ⟨1, 1, .ro, false⟩, ⟨2, 1, .w1c, false⟩]⟩
  , /- FH_MAC_LO -/ ⟨0x8, 1, 4, 0x0,
      [⟨0, 32, .rw, true⟩]⟩
  , /- FH_MAC_HI -/ ⟨0xC, 1, 4, 0x0,
      [⟨0, 16, .rw, true⟩]⟩
  , /- FH_TS_BOARD_RX -/ ⟨0x10, 1, 4, 0x0,
      [⟨0, 24, .rw, true⟩]⟩
  , /- FH_TS_BOARD_TX -/ ⟨0x14, 1, 4, 0x0,
      [⟨0, 24, .rw, true⟩]⟩
  , /- FH_TS_CAL_RX -/ ⟨0x18, 1, 4, 0x0,
      [⟨0, 24, .rw, true⟩]⟩
  , /- FH_TS_CAL_TX -/ ⟨0x1C, 1, 4, 0x0,
      [⟨0, 24, .rw, true⟩]⟩
  , /- FH_TS_VAR_RX -/ ⟨0x20, 1, 4, 0x0,
      [⟨0, 21, .ro, false⟩]⟩
  , /- FH_TS_VAR_TX -/ ⟨0x24, 1, 4, 0x0,
      [⟨0, 21, .ro, false⟩]⟩
  , /- FH_TXRDY -/ ⟨0x40, 1, 4, 0x0,
      [⟨0, 6, .wo, false⟩, ⟨6, 2, .wo, false⟩, ⟨8, 4, .wo, false⟩, ⟨12, 6, .wo, false⟩, ⟨18, 4, .wo, false⟩]⟩
  , /- FH_TSCAP_CTRL -/ ⟨0x50, 1, 4, 0x0,
      [⟨0, 9, .rw, false⟩, ⟨9, 1, .w1s, false⟩, ⟨10, 1, .ro, false⟩]⟩ ]

/-- The fh block's registers (part 1). -/
def fhRegs1 : List RegSpec :=
  [ /- FH_TSCAP_NS_LO -/ ⟨0x54, 1, 4, 0x0,
      [⟨0, 32, .ro, false⟩]⟩
  , /- FH_TSCAP_NS_HI -/ ⟨0x58, 1, 4, 0x0,
      [⟨0, 32, .ro, false⟩]⟩
  , /- FH_TSCAP_FRAC -/ ⟨0x5C, 1, 4, 0x0,
      [⟨0, 16, .ro, false⟩]⟩
  , /- FH_PTP_TXTS_TAG -/ ⟨0x60, 1, 4, 0x0,
      [⟨0, 8, .ro, false⟩, ⟨8, 1, .ro, false⟩, ⟨9, 7, .rcl, false⟩]⟩
  , /- FH_PTP_TXTS_NS_LO -/ ⟨0x64, 1, 4, 0x0,
      [⟨0, 32, .ro, false⟩]⟩
  , /- FH_PTP_TXTS_NS_HI -/ ⟨0x68, 1, 4, 0x0,
      [⟨0, 32, .ro, false⟩]⟩
  , /- FH_PTP_TXTS_FRAC -/ ⟨0x6C, 1, 4, 0x0,
      [⟨0, 16, .ro, false⟩]⟩
  , /- FH_SYNCE -/ ⟨0x70, 1, 4, 0x20,
      [⟨0, 1, .rw, true⟩, ⟨1, 4, .rw, true⟩, ⟨5, 1, .ro, false⟩]⟩
  , /- FH_MGMT_PTR -/ ⟨0x74, 1, 4, 0x0,
      [⟨0, 16, .rw, false⟩, ⟨16, 16, .rw, false⟩]⟩
  , /- FH_RX_EARLY -/ ⟨0x80, 1, 4, 0x0,
      [⟨0, 32, .rcl, false⟩]⟩
  , /- FH_RX_EARLY_DROP -/ ⟨0x84, 1, 4, 0x0,
      [⟨0, 32, .rcl, false⟩]⟩
  , /- FH_RX_LATE -/ ⟨0x88, 1, 4, 0x0,
      [⟨0, 32, .rcl, false⟩]⟩ ]

/-- The fh block's registers (part 2). -/
def fhRegs2 : List RegSpec :=
  [ /- FH_RX_OVF -/ ⟨0x8C, 1, 4, 0x0,
      [⟨0, 32, .rcl, false⟩]⟩
  , /- FH_RX_SEQERR -/ ⟨0x90, 1, 4, 0x0,
      [⟨0, 32, .rcl, false⟩]⟩
  , /- FH_RX_EXPBAD -/ ⟨0x94, 1, 4, 0x0,
      [⟨0, 32, .rcl, false⟩]⟩
  , /- FH_RX_UNMATCHED -/ ⟨0x98, 1, 4, 0x0,
      [⟨0, 32, .rcl, false⟩]⟩
  , /- FH_TX_LATE -/ ⟨0x9C, 1, 4, 0x0,
      [⟨0, 32, .rcl, false⟩]⟩
  , /- FH_TX_UNDERRUN -/ ⟨0xA0, 1, 4, 0x0,
      [⟨0, 32, .rcl, false⟩]⟩
  , /- FH_WIN_EARLY -/ ⟨0x100, 8, 16, 0x0,
      [⟨0, 32, .rw, true⟩]⟩
  , /- FH_WIN_LATE -/ ⟨0x104, 8, 16, 0x7530,
      [⟨0, 32, .rw, true⟩]⟩
  , /- FH_WIN_GUARD -/ ⟨0x108, 8, 16, 0x1F40,
      [⟨0, 32, .rw, true⟩]⟩
  , /- FH_WIN_DADV -/ ⟨0x10C, 8, 16, 0x13880,
      [⟨0, 32, .rw, true⟩]⟩
  , /- FH_STRM_CFG -/ ⟨0x1000, 128, 8, 0x0,
      [⟨0, 16, .rw, true⟩, ⟨16, 6, .rw, true⟩, ⟨22, 1, .rw, true⟩, ⟨23, 1, .rw, true⟩, ⟨24, 3, .rw, true⟩, ⟨27, 2, .rw, true⟩]⟩
  , /- FH_STRM_STAT -/ ⟨0x1004, 128, 8, 0x0,
      [⟨0, 8, .ro, false⟩]⟩ ]

/-- The fh block's registers. -/
def fhRegs : List RegSpec := fhRegs0 ++ fhRegs1 ++ fhRegs2

/-- The nce block's registers (part 0). -/
def nceRegs0 : List RegSpec :=
  [ /- NCE_STATUS -/ ⟨0x0, 1, 4, 0x0,
      [⟨0, 11, .ro, false⟩, ⟨16, 1, .w1c, false⟩, ⟨17, 1, .w1c, false⟩, ⟨18, 3, .ro, false⟩, ⟨21, 6, .ro, false⟩, ⟨31, 1, .ro, false⟩]⟩
  , /- NCE_CAPTURE_DB -/ ⟨0x4, 1, 4, 0x6,
      [⟨0, 5, .rw, true⟩]⟩
  , /- NCE_LULL -/ ⟨0x8, 1, 4, 0x100,
      [⟨0, 13, .rw, true⟩]⟩
  , /- NCE_CH_CMD -/ ⟨0xC, 1, 4, 0x0,
      [⟨0, 11, .wo, false⟩, ⟨16, 1, .wo, false⟩]⟩
  , /- NCE_CAP_CFG -/ ⟨0x100, 4, 32, 0x3A98000,
      [⟨0, 1, .rw, true⟩, ⟨1, 25, .rw, true⟩]⟩
  , /- NCE_CAP_T0_LO -/ ⟨0x104, 4, 32, 0x0,
      [⟨0, 32, .rw, false⟩]⟩
  , /- NCE_CAP_T0_HI -/ ⟨0x108, 4, 32, 0x0,
      [⟨0, 32, .rw, false⟩]⟩
  , /- NCE_CAP_T0_FRAC -/ ⟨0x10C, 4, 32, 0x0,
      [⟨0, 16, .rw, false⟩]⟩
  , /- NCE_CAP_STALL -/ ⟨0x110, 4, 32, 0x3E8,
      [⟨0, 16, .rw, true⟩]⟩
  , /- NCE_CAP_CNT_LO -/ ⟨0x114, 4, 32, 0x0,
      [⟨0, 32, .ro, false⟩]⟩
  , /- NCE_CAP_CNT_HI -/ ⟨0x118, 4, 32, 0x0,
      [⟨0, 32, .ro, false⟩]⟩
  , /- NCE_TX_CFG -/ ⟨0x200, 4, 32, 0x3A98000,
      [⟨0, 1, .rw, true⟩, ⟨1, 25, .rw, true⟩, ⟨26, 3, .rw, true⟩]⟩ ]

/-- The nce block's registers (part 1). -/
def nceRegs1 : List RegSpec :=
  [ /- NCE_TX_T0_LO -/ ⟨0x204, 4, 32, 0x0,
      [⟨0, 32, .rw, false⟩]⟩
  , /- NCE_TX_T0_HI -/ ⟨0x208, 4, 32, 0x0,
      [⟨0, 32, .rw, false⟩]⟩
  , /- NCE_TX_T0_FRAC -/ ⟨0x20C, 4, 32, 0x0,
      [⟨0, 16, .rw, false⟩]⟩
  , /- NCE_TX_SAT -/ ⟨0x210, 4, 32, 0x0,
      [⟨0, 32, .rcl, false⟩]⟩
  , /- NCE_TX_CNT_LO -/ ⟨0x214, 4, 32, 0x0,
      [⟨0, 32, .ro, false⟩]⟩
  , /- NCE_TX_CNT_HI -/ ⟨0x218, 4, 32, 0x0,
      [⟨0, 32, .ro, false⟩]⟩
  , /- NCE_PROF_MOD -/ ⟨0x1000, 32, 64, 0x798019,
      [⟨0, 1, .rw, true⟩, ⟨2, 4, .rw, true⟩, ⟨6, 3, .rw, true⟩, ⟨9, 1, .rw, true⟩, ⟨10, 1, .rw, true⟩, ⟨12, 16, .rw, true⟩]⟩
  , /- NCE_PROF_RATE -/ ⟨0x1004, 32, 64, 0x3840,
      [⟨0, 20, .rw, true⟩]⟩
  , /- NCE_PROF_SYNC -/ ⟨0x1008, 32, 64, 0x504D818,
      [⟨0, 6, .rw, true⟩, ⟨8, 8, .rw, true⟩, ⟨16, 5, .rw, true⟩, ⟨22, 6, .rw, true⟩]⟩
  , /- NCE_PROF_HDR -/ ⟨0x1018, 32, 64, 0x0,
      [⟨0, 7, .rw, true⟩, ⟨8, 7, .rw, true⟩, ⟨16, 6, .rw, true⟩]⟩
  , /- NCE_PROF_LEN -/ ⟨0x1020, 32, 64, 0x0,
      [⟨0, 16, .rw, true⟩, ⟨16, 6, .rw, true⟩, ⟨22, 4, .rw, true⟩, ⟨26, 6, .rw, true⟩]⟩
  , /- NCE_PROF_PAY -/ ⟨0x1028, 32, 64, 0x0,
      [⟨0, 6, .rw, true⟩, ⟨6, 2, .rw, true⟩, ⟨8, 6, .rw, true⟩, ⟨14, 6, .rw, true⟩, ⟨20, 3, .rw, true⟩]⟩ ]

/-- The nce block's registers (part 2). -/
def nceRegs2 : List RegSpec :=
  [ /- NCE_PROF_WIN -/ ⟨0x102C, 32, 64, 0x0,
      [⟨0, 9, .rw, true⟩]⟩
  , /- NCE_PULSE -/ ⟨0x2000, 256, 4, 0x0,
      [⟨0, 16, .rw, true⟩]⟩
  , /- NCE_PROF_SW0 -/ ⟨0x100C, 32, 64, 0x0,
      [⟨0, 32, .rw, true⟩]⟩
  , /- NCE_PROF_SW1 -/ ⟨0x1010, 32, 64, 0x0,
      [⟨0, 32, .rw, true⟩]⟩
  , /- NCE_PROF_SW2 -/ ⟨0x1014, 32, 64, 0x0,
      [⟨0, 32, .rw, true⟩]⟩
  , /- NCE_PROF_HCODE -/ ⟨0x101C, 32, 64, 0x0,
      [⟨0, 3, .rw, true⟩, ⟨3, 8, .rw, true⟩, ⟨11, 8, .rw, true⟩, ⟨19, 1, .rw, true⟩, ⟨20, 1, .rw, true⟩, ⟨21, 3, .rw, true⟩]⟩
  , /- NCE_PROF_PCODE -/ ⟨0x1024, 32, 64, 0x0,
      [⟨0, 3, .rw, true⟩, ⟨3, 8, .rw, true⟩, ⟨11, 8, .rw, true⟩, ⟨19, 1, .rw, true⟩, ⟨20, 1, .rw, true⟩, ⟨21, 3, .rw, true⟩]⟩
  , /- NCE_CH_CFG -/ ⟨0x10000, 1536, 32, 0x40,
      [⟨0, 1, .rw, true⟩, ⟨1, 1, .rw, true⟩, ⟨2, 2, .rw, true⟩, ⟨4, 2, .rw, true⟩, ⟨6, 2, .rw, true⟩, ⟨8, 5, .rw, true⟩]⟩
  , /- NCE_CH_FREQ -/ ⟨0x10004, 1536, 32, 0x0,
      [⟨0, 25, .rw, true⟩]⟩
  , /- NCE_CH_TX -/ ⟨0x10008, 1536, 32, 0x27F,
      [⟨0, 7, .rw, true⟩, ⟨7, 4, .rw, true⟩]⟩
  , /- NCE_CH_BURST -/ ⟨0x1000C, 1536, 32, 0x0,
      [⟨0, 16, .rw, true⟩, ⟨16, 8, .rw, false⟩]⟩
  , /- NCE_CH_BT0_LO -/ ⟨0x10010, 1536, 32, 0x0,
      [⟨0, 32, .rw, false⟩]⟩
  , /- NCE_CH_BT0_HI -/ ⟨0x10014, 1536, 32, 0x0,
      [⟨0, 32, .rw, false⟩]⟩ ]

/-- The nce block's registers (part 3). -/
def nceRegs3 : List RegSpec :=
  [ /- NCE_CH_STATE -/ ⟨0x10018, 1536, 32, 0x600,
      [⟨0, 3, .ro, false⟩, ⟨4, 7, .ro, false⟩, ⟨16, 13, .ro, false⟩]⟩
  , /- NCE_NOISE_FLOOR -/ ⟨0x1001C, 1536, 32, 0x800,
      [⟨0, 12, .ro, false⟩]⟩
  , /- NCE_GRP_RX_BASE_LO -/ ⟨0x20000, 64, 64, 0x0,
      [⟨6, 26, .rw, true⟩]⟩
  , /- NCE_GRP_RX_BASE_HI -/ ⟨0x20004, 64, 64, 0x0,
      [⟨0, 10, .rw, true⟩]⟩
  , /- NCE_GRP_RX_CTRL -/ ⟨0x20008, 64, 64, 0x10,
      [⟨0, 1, .rw, true⟩, ⟨1, 4, .rw, true⟩, ⟨5, 1, .rw, true⟩]⟩
  , /- NCE_GRP_RX_PTR -/ ⟨0x2000C, 64, 64, 0x0,
      [⟨0, 16, .ro, false⟩, ⟨16, 16, .rw, false⟩]⟩
  , /- NCE_GRP_SOFT_BASE_LO -/ ⟨0x20010, 64, 64, 0x0,
      [⟨6, 26, .rw, true⟩]⟩
  , /- NCE_GRP_SOFT_BASE_HI -/ ⟨0x20014, 64, 64, 0x0,
      [⟨0, 10, .rw, true⟩]⟩
  , /- NCE_GRP_SOFT_CTRL -/ ⟨0x20018, 64, 64, 0x10,
      [⟨0, 1, .rw, true⟩, ⟨1, 4, .rw, true⟩]⟩
  , /- NCE_GRP_SOFT_PTR -/ ⟨0x2001C, 64, 64, 0x0,
      [⟨0, 16, .ro, false⟩, ⟨16, 16, .rw, false⟩]⟩
  , /- NCE_GRP_TX_BASE_LO -/ ⟨0x20020, 64, 64, 0x0,
      [⟨5, 27, .rw, true⟩]⟩
  , /- NCE_GRP_TX_BASE_HI -/ ⟨0x20024, 64, 64, 0x0,
      [⟨0, 10, .rw, true⟩]⟩ ]

/-- The nce block's registers (part 4). -/
def nceRegs4 : List RegSpec :=
  [ /- NCE_GRP_TX_CTRL -/ ⟨0x20028, 64, 64, 0x10,
      [⟨0, 1, .rw, true⟩, ⟨1, 4, .rw, true⟩]⟩
  , /- NCE_GRP_TX_PTR -/ ⟨0x2002C, 64, 64, 0x0,
      [⟨0, 16, .rw, false⟩, ⟨16, 16, .ro, false⟩]⟩
  , /- NCE_GRP_BUDGET -/ ⟨0x20030, 64, 64, 0x14,
      [⟨0, 16, .rw, true⟩]⟩
  , /- NCE_GRP_CNT1 -/ ⟨0x20034, 64, 64, 0x0,
      [⟨0, 32, .rcl, false⟩]⟩
  , /- NCE_GRP_CNT2 -/ ⟨0x20038, 64, 64, 0x0,
      [⟨0, 16, .rcl, false⟩, ⟨16, 16, .rcl, false⟩]⟩
  , /- NCE_GRP_CNT3 -/ ⟨0x2003C, 64, 64, 0x0,
      [⟨0, 16, .rcl, false⟩, ⟨16, 16, .rcl, false⟩]⟩ ]

/-- The nce block's registers. -/
def nceRegs : List RegSpec := nceRegs0 ++ nceRegs1 ++ nceRegs2 ++ nceRegs3 ++ nceRegs4

/-- The glz block's registers (part 0). -/
def glzRegs0 : List RegSpec :=
  [ /- GLZ_STATUS -/ ⟨0x0, 1, 4, 0x0,
      [⟨0, 1, .ro, false⟩, ⟨1, 1, .w1c, false⟩, ⟨2, 3, .ro, false⟩, ⟨5, 1, .ro, false⟩, ⟨6, 3, .ro, false⟩]⟩
  , /- GLZ_CFG -/ ⟨0x4, 1, 4, 0x67D06023,
      [⟨0, 6, .rw, true⟩, ⟨6, 6, .rw, true⟩, ⟨12, 6, .rw, true⟩, ⟨18, 4, .rw, true⟩, ⟨22, 5, .rw, true⟩, ⟨27, 4, .rw, true⟩]⟩
  , /- GLZ_FLOOR -/ ⟨0x8, 1, 4, 0x643E805,
      [⟨0, 8, .rw, true⟩, ⟨8, 12, .rw, true⟩, ⟨20, 12, .rw, true⟩]⟩
  , /- GLZ_MAX_AGE -/ ⟨0xC, 1, 4, 0xA,
      [⟨0, 16, .rw, true⟩]⟩
  , /- GLZ_SWAP_CFG -/ ⟨0x10, 1, 4, 0x407D0,
      [⟨0, 16, .rw, true⟩, ⟨16, 4, .rw, true⟩]⟩
  , /- GLZ_EST_CMD -/ ⟨0x14, 1, 4, 0x0,
      [⟨0, 6, .wo, false⟩, ⟨6, 1, .wo, false⟩, ⟨7, 1, .wo, false⟩, ⟨8, 1, .w1s, false⟩, ⟨9, 1, .ro, false⟩]⟩
  , /- GLZ_CAPT_CMD -/ ⟨0x18, 1, 4, 0x0,
      [⟨0, 10, .wo, false⟩, ⟨10, 4, .wo, false⟩, ⟨14, 1, .wo, false⟩, ⟨15, 4, .wo, false⟩, ⟨19, 2, .wo, false⟩, ⟨21, 1, .w1s, false⟩, ⟨22, 4, .ro, false⟩, ⟨26, 4, .w1c, false⟩]⟩
  , /- GLZ_CNT_FLOOR -/ ⟨0x20, 1, 4, 0x0,
      [⟨0, 32, .rcl, false⟩]⟩
  , /- GLZ_CNT_SAT -/ ⟨0x24, 1, 4, 0x0,
      [⟨0, 32, .rcl, false⟩]⟩
  , /- GLZ_CNT_FAIL -/ ⟨0x28, 1, 4, 0x0,
      [⟨0, 32, .rcl, false⟩]⟩
  , /- GLZ_CNT_CAPT -/ ⟨0x2C, 1, 4, 0x0,
      [⟨0, 32, .rcl, false⟩]⟩
  , /- GLZ_ROUND -/ ⟨0x40, 16, 4, 0x30,
      [⟨0, 6, .rw, true⟩, ⟨6, 6, .rw, true⟩, ⟨12, 1, .rw, true⟩, ⟨13, 1, .ro, false⟩]⟩ ]

/-- The glz block's registers (part 1). -/
def glzRegs1 : List RegSpec :=
  [ /- GLZ_OCXO_CFG -/ ⟨0x80, 1, 4, 0x1E0FA0,
      [⟨0, 1, .rw, true⟩, ⟨1, 14, .rw, true⟩, ⟨15, 10, .rw, true⟩]⟩
  , /- GLZ_OCXO_SLOPE -/ ⟨0x84, 1, 4, 0x0,
      [⟨0, 24, .ro, false⟩]⟩
  , /- GLZ_OCXO_RES -/ ⟨0x88, 1, 4, 0x0,
      [⟨0, 16, .ro, false⟩, ⟨16, 3, .ro, false⟩]⟩
  , /- GLZ_LOOP_CFG -/ ⟨0x100, 16, 16, 0x10,
      [⟨0, 1, .rw, true⟩, ⟨1, 5, .rw, true⟩]⟩
  , /- GLZ_LOOP_DELAY -/ ⟨0x104, 16, 16, 0x0,
      [⟨0, 32, .rw, true⟩]⟩
  , /- GLZ_LOOP_RES -/ ⟨0x108, 16, 16, 0x0,
      [⟨0, 32, .ro, false⟩]⟩
  , /- GLZ_LOOP_STAT -/ ⟨0x10C, 16, 16, 0x0,
      [⟨0, 3, .ro, false⟩, ⟨8, 11, .ro, false⟩]⟩
  , /- GLZ_CARR_CFG -/ ⟨0x400, 48, 64, 0x0,
      [⟨0, 1, .rw, true⟩, ⟨1, 9, .rw, true⟩, ⟨10, 8, .rw, true⟩, ⟨18, 10, .rw, true⟩]⟩
  , /- GLZ_CARR_REF -/ ⟨0x404, 48, 64, 0xF,
      [⟨0, 7, .rw, true⟩]⟩
  , /- GLZ_CARR_MAP -/ ⟨0x408, 48, 64, 0x0,
      [⟨0, 10, .rw, true⟩, ⟨16, 10, .rw, true⟩]⟩
  , /- GLZ_CARR_LMASK -/ ⟨0x40C, 48, 64, 0x0,
      [⟨0, 14, .rw, true⟩]⟩
  , /- GLZ_CARR_LSLOT_LO -/ ⟨0x410, 48, 64, 0x0,
      [⟨0, 32, .rw, true⟩]⟩ ]

/-- The glz block's registers (part 2). -/
def glzRegs2 : List RegSpec :=
  [ /- GLZ_CARR_LSLOT_HI -/ ⟨0x414, 48, 64, 0x0,
      [⟨0, 8, .rw, true⟩]⟩
  , /- GLZ_CARR_STAT -/ ⟨0x418, 48, 64, 0x0,
      [⟨0, 1, .ro, false⟩, ⟨1, 1, .ro, false⟩, ⟨2, 1, .ro, false⟩, ⟨3, 1, .ro, false⟩, ⟨4, 1, .ro, false⟩, ⟨5, 1, .ro, false⟩, ⟨16, 16, .rcl, false⟩]⟩
  , /- GLZ_CARR_SWAP_T_LO -/ ⟨0x420, 48, 64, 0x0,
      [⟨0, 32, .ro, false⟩]⟩
  , /- GLZ_CARR_SWAP_T_HI -/ ⟨0x424, 48, 64, 0x0,
      [⟨0, 31, .ro, false⟩, ⟨31, 1, .ro, false⟩]⟩
  , /- GLZ_CARR_NEXT_T_LO -/ ⟨0x428, 48, 64, 0x0,
      [⟨0, 32, .rw, false⟩]⟩
  , /- GLZ_CARR_NEXT_T_HI -/ ⟨0x42C, 48, 64, 0x0,
      [⟨0, 31, .rw, false⟩]⟩
  , /- GLZ_CARR_AGE -/ ⟨0x430, 48, 64, 0x0,
      [⟨0, 32, .ro, false⟩]⟩
  , /- GLZ_MAP -/ ⟨0x10000, 1024, 4, 0x0,
      [⟨0, 9, .rw, true⟩, ⟨9, 4, .rw, true⟩, ⟨13, 2, .rw, true⟩, ⟨15, 1, .rw, true⟩, ⟨16, 16, .rw, true⟩]⟩ ]

/-- The glz block's registers. -/
def glzRegs : List RegSpec := glzRegs0 ++ glzRegs1 ++ glzRegs2

/-- The palh block's registers (part 0). -/
def palhRegs0 : List RegSpec :=
  [ /- PAL_HBM_STATUS -/ ⟨0x0, 1, 4, 0x0,
      [⟨0, 1, .ro, false⟩, ⟨1, 1, .ro, false⟩]⟩
  , /- PAL_HBM_CE -/ ⟨0x4, 1, 4, 0x0,
      [⟨0, 32, .rcl, false⟩]⟩
  , /- PAL_HBM_UE_ADDR_LO -/ ⟨0x8, 1, 4, 0x0,
      [⟨0, 32, .ro, false⟩]⟩
  , /- PAL_HBM_UE_ADDR_HI -/ ⟨0xC, 1, 4, 0x0,
      [⟨0, 2, .ro, false⟩, ⟨31, 1, .w1c, false⟩]⟩
  , /- PAL_HBM_SCRUB -/ ⟨0x10, 1, 4, 0x18,
      [⟨0, 8, .rw, true⟩]⟩
  , /- PAL_EXT_BASE_LO -/ ⟨0x100, 1, 4, 0x0,
      [⟨23, 9, .rw, true⟩]⟩
  , /- PAL_EXT_BASE_HI -/ ⟨0x104, 1, 4, 0x0,
      [⟨0, 2, .rw, true⟩]⟩
  , /- PAL_EXT_CTRL -/ ⟨0x108, 1, 4, 0x0,
      [⟨0, 1, .rw, true⟩]⟩
  , /- PAL_EXT_INVAL -/ ⟨0x10C, 1, 4, 0x0,
      [⟨0, 20, .wo, false⟩, ⟨30, 1, .wo, false⟩, ⟨31, 1, .ro, false⟩]⟩
  , /- PAL_EXT_REF_STATUS -/ ⟨0x110, 1, 4, 0x0,
      [⟨0, 1, .w1c, false⟩, ⟨1, 3, .ro, false⟩, ⟨16, 16, .rcl, false⟩]⟩
  , /- PAL_EXT_REF_UID -/ ⟨0x114, 1, 4, 0x0,
      [⟨0, 12, .ro, false⟩, ⟨12, 6, .ro, false⟩]⟩
  , /- PAL_EXT_REF_ADDR_LO -/ ⟨0x118, 1, 4, 0x0,
      [⟨0, 32, .ro, false⟩]⟩ ]

/-- The palh block's registers (part 1). -/
def palhRegs1 : List RegSpec :=
  [ /- PAL_EXT_REF_ADDR_HI -/ ⟨0x11C, 1, 4, 0x0,
      [⟨0, 10, .ro, false⟩]⟩
  , /- PAL_WASH_CFG -/ ⟨0x200, 1, 4, 0x6418,
      [⟨0, 8, .rw, true⟩, ⟨8, 16, .rw, true⟩]⟩
  , /- PAL_WASH_STAT -/ ⟨0x204, 1, 4, 0x0,
      [⟨0, 1, .ro, false⟩, ⟨1, 1, .ro, false⟩, ⟨16, 16, .ro, false⟩]⟩
  , /- PAL_WASH_ABORT -/ ⟨0x208, 1, 4, 0x0,
      [⟨0, 32, .rcl, false⟩]⟩
  , /- PAL_WASH_FAIL -/ ⟨0x20C, 1, 4, 0x0,
      [⟨0, 12, .ro, false⟩, ⟨31, 1, .w1c, false⟩]⟩ ]

/-- The palh block's registers. -/
def palhRegs : List RegSpec := palhRegs0 ++ palhRegs1

/-- The eslh block's registers (part 0). -/
def eslhRegs0 : List RegSpec :=
  [ /- ESL_CTRL -/ ⟨0x0, 1, 4, 0x100,
      [⟨0, 12, .rw, true⟩]⟩
  , /- ESL_STATUS -/ ⟨0x4, 1, 4, 0x10000,
      [⟨0, 17, .ro, false⟩]⟩
  , /- ESL_SLOT_Q -/ ⟨0x8, 1, 4, 0x0,
      [⟨0, 16, .rw, false⟩, ⟨16, 3, .ro, false⟩]⟩
  , /- ESL_DEP_ERR -/ ⟨0x10, 1, 4, 0x0,
      [⟨0, 32, .rcl, false⟩]⟩
  , /- ESL_LATE_REL -/ ⟨0x14, 1, 4, 0x0,
      [⟨0, 32, .rcl, false⟩]⟩
  , /- ESL_BP -/ ⟨0x18, 1, 4, 0x0,
      [⟨0, 32, .rcl, false⟩]⟩
  , /- ESL_KILL -/ ⟨0x1C, 1, 4, 0x0,
      [⟨0, 32, .wo, false⟩]⟩
  , /- ESL_HOST_SLOTS -/ ⟨0x20, 1, 4, 0x0,
      [⟨0, 16, .rw, true⟩, ⟨16, 16, .rw, true⟩]⟩
  , /- ESL_SPILL_IN -/ ⟨0x38, 1, 4, 0x0,
      [⟨0, 16, .rw, true⟩, ⟨16, 16, .rw, true⟩]⟩
  , /- ESL_SPILL_CFG -/ ⟨0x30, 1, 4, 0x640,
      [⟨0, 1, .rw, true⟩, ⟨1, 1, .rw, true⟩, ⟨4, 12, .rw, true⟩]⟩
  , /- ESL_SPILL_SLACK -/ ⟨0x34, 1, 4, 0x0,
      [⟨0, 32, .rw, true⟩]⟩
  , /- ESL_SPILL_PEER -/ ⟨0x40, 16, 4, 0x0,
      [⟨0, 14, .rw, true⟩, ⟨14, 1, .rw, true⟩]⟩ ]

/-- The eslh block's registers (part 1). -/
def eslhRegs1 : List RegSpec :=
  [ /- ESL_TRC_CTRL -/ ⟨0x100, 1, 4, 0x10FF00,
      [⟨0, 1, .rw, true⟩, ⟨1, 1, .rw, true⟩, ⟨8, 8, .rw, true⟩, ⟨16, 5, .rw, true⟩]⟩
  , /- ESL_TRC_BASE_LO -/ ⟨0x104, 1, 4, 0x0,
      [⟨12, 20, .rw, true⟩]⟩
  , /- ESL_TRC_BASE_HI -/ ⟨0x108, 1, 4, 0x0,
      [⟨0, 2, .rw, true⟩]⟩
  , /- ESL_TRC_WR -/ ⟨0x10C, 1, 4, 0x0,
      [⟨0, 26, .ro, false⟩]⟩
  , /- ESL_TRC_RD -/ ⟨0x110, 1, 4, 0x0,
      [⟨0, 26, .rw, false⟩]⟩
  , /- ESL_TRC_LOST -/ ⟨0x114, 1, 4, 0x0,
      [⟨0, 32, .rcl, false⟩]⟩
  , /- ESL_CQ_BASE_LO -/ ⟨0x200, 16, 16, 0x0,
      [⟨4, 28, .rw, true⟩]⟩
  , /- ESL_CQ_BASE_HI -/ ⟨0x204, 16, 16, 0x0,
      [⟨0, 10, .rw, true⟩]⟩
  , /- ESL_CQ_CTRL -/ ⟨0x208, 16, 16, 0x10,
      [⟨0, 1, .rw, true⟩, ⟨1, 4, .rw, true⟩, ⟨16, 16, .rcl, false⟩]⟩
  , /- ESL_CQ_PTR -/ ⟨0x20C, 16, 16, 0x0,
      [⟨0, 16, .ro, false⟩, ⟨16, 16, .rw, false⟩]⟩ ]

/-- The eslh block's registers. -/
def eslhRegs : List RegSpec := eslhRegs0 ++ eslhRegs1

/-- The gst block's registers (part 0). -/
def gstRegs0 : List RegSpec :=
  [ /- GST_ENG_STATUS -/ ⟨0x0, 1, 4, 0x0,
      [⟨0, 7, .ro, false⟩, ⟨8, 6, .ro, false⟩, ⟨16, 1, .ro, false⟩]⟩
  , /- GST_IRQ -/ ⟨0x10, 2, 4, 0x0,
      [⟨0, 32, .w1c, false⟩]⟩
  , /- GST_REQ -/ ⟨0x18, 2, 4, 0x0,
      [⟨0, 32, .ro, false⟩]⟩
  , /- GST_SWREQ -/ ⟨0x20, 1, 4, 0x0,
      [⟨0, 16, .rw, false⟩]⟩
  , /- GST_CWIN_BASE_LO -/ ⟨0x100, 8, 16, 0x0,
      [⟨6, 26, .rw, true⟩]⟩
  , /- GST_CWIN_BASE_HI -/ ⟨0x104, 8, 16, 0x0,
      [⟨0, 10, .rw, true⟩]⟩
  , /- GST_CWIN_LEN -/ ⟨0x108, 8, 16, 0x0,
      [⟨0, 24, .rw, true⟩]⟩
  , /- GST_CH_CFG -/ ⟨0x1000, 64, 64, 0xC0,
      [⟨0, 2, .rw, true⟩, ⟨2, 3, .rw, true⟩, ⟨6, 3, .rw, true⟩, ⟨9, 1, .rw, true⟩, ⟨10, 1, .rw, true⟩, ⟨12, 6, .rw, true⟩]⟩
  , /- GST_CH_CTRL -/ ⟨0x1004, 64, 64, 0x0,
      [⟨0, 1, .w1s, false⟩, ⟨1, 1, .w1s, false⟩]⟩
  , /- GST_CH_STATUS -/ ⟨0x1008, 64, 64, 0x0,
      [⟨0, 3, .ro, false⟩, ⟨4, 4, .ro, false⟩, ⟨8, 1, .w1c, false⟩, ⟨9, 1, .w1c, false⟩, ⟨16, 8, .ro, false⟩]⟩
  , /- GST_CMP_RESULT -/ ⟨0x100C, 64, 64, 0xFFFFFFFF,
      [⟨0, 32, .ro, false⟩]⟩
  , /- GST_CH_PTR_LO -/ ⟨0x1010, 64, 64, 0x0,
      [⟨6, 26, .rw, false⟩]⟩ ]

/-- The gst block's registers (part 1). -/
def gstRegs1 : List RegSpec :=
  [ /- GST_CH_PTR_HI -/ ⟨0x1014, 64, 64, 0x0,
      [⟨0, 10, .rw, false⟩]⟩
  , /- GST_CH_CUR_LO -/ ⟨0x1018, 64, 64, 0x0,
      [⟨6, 26, .ro, false⟩]⟩
  , /- GST_CH_CUR_HI -/ ⟨0x101C, 64, 64, 0x0,
      [⟨0, 10, .ro, false⟩]⟩
  , /- GST_CH_BYTES -/ ⟨0x1020, 64, 64, 0x0,
      [⟨0, 32, .ro, false⟩]⟩ ]

/-- The gst block's registers. -/
def gstRegs : List RegSpec := gstRegs0 ++ gstRegs1
/-- The registers of a region engine, which has 32 channels and not 64 (R317). -/
def gstrRegs : List RegSpec := gstRegs.map fun x => if x.count = 64 then { x with count := 32 } else x

/-- The eslr block's registers. -/
def eslrRegs : List RegSpec :=
  [ /- ESL_RCFG -/ ⟨0x0, 1, 4, 0x0,
      [⟨0, 6, .rw, true⟩]⟩
  , /- ESL_RSTAT -/ ⟨0x4, 1, 4, 0x0,
      [⟨0, 13, .ro, false⟩, ⟨16, 5, .ro, false⟩]⟩
  , /- ESL_RET -/ ⟨0x44, 15, 4, 0x65,
      [⟨0, 12, .rw, true⟩, ⟨12, 6, .rw, true⟩]⟩
  , /- ESL_RCNT_DISP -/ ⟨0x100, 1, 4, 0x0,
      [⟨0, 32, .rcl, false⟩]⟩
  , /- ESL_RCNT_DEFER -/ ⟨0x104, 1, 4, 0x0,
      [⟨0, 32, .rcl, false⟩]⟩
  , /- ESL_RCNT_LATE -/ ⟨0x108, 1, 4, 0x0,
      [⟨0, 32, .rcl, false⟩]⟩
  , /- ESL_RCNT_MISS -/ ⟨0x10C, 1, 4, 0x0,
      [⟨0, 32, .rcl, false⟩]⟩
  , /- ESL_READY -/ ⟨0x200, 16, 4, 0x0,
      [⟨0, 13, .ro, false⟩]⟩ ]

/-- The fft block's registers. -/
def fftRegs : List RegSpec :=
  [ /- FFT_STATUS -/ ⟨0x0, 1, 4, 0x0,
      [⟨0, 5, .ro, false⟩, ⟨5, 1, .ro, false⟩, ⟨6, 1, .ro, false⟩, ⟨7, 1, .ro, false⟩]⟩
  , /- FFT_ALERT -/ ⟨0x4, 1, 4, 0x0,
      [⟨0, 1, .w1c, false⟩, ⟨1, 1, .w1c, false⟩, ⟨2, 1, .w1c, false⟩, ⟨3, 1, .w1c, false⟩, ⟨4, 1, .w1c, false⟩, ⟨5, 1, .w1c, false⟩]⟩
  , /- FFT_ALERT_EN -/ ⟨0x8, 1, 4, 0x7,
      [⟨0, 6, .rw, true⟩]⟩
  , /- FFT_LAST_ERR -/ ⟨0xC, 1, 4, 0x0,
      [⟨0, 3, .ro, false⟩, ⟨16, 16, .ro, false⟩]⟩
  , /- FFT_TASKS -/ ⟨0x10, 1, 4, 0x0,
      [⟨0, 32, .rcl, false⟩]⟩
  , /- FFT_SAT -/ ⟨0x14, 1, 4, 0x0,
      [⟨0, 32, .rcl, false⟩]⟩ ]

/-- The dec block's registers. -/
def decRegs : List RegSpec :=
  [ /- DEC_STATUS -/ ⟨0x0, 1, 4, 0x0,
      [⟨0, 5, .ro, false⟩, ⟨5, 1, .ro, false⟩, ⟨6, 1, .ro, false⟩, ⟨7, 1, .ro, false⟩]⟩
  , /- DEC_ALERT -/ ⟨0x4, 1, 4, 0x0,
      [⟨0, 1, .w1c, false⟩, ⟨1, 1, .w1c, false⟩, ⟨2, 1, .w1c, false⟩, ⟨3, 1, .w1c, false⟩, ⟨4, 1, .w1c, false⟩, ⟨5, 1, .w1c, false⟩]⟩
  , /- DEC_ALERT_EN -/ ⟨0x8, 1, 4, 0x7,
      [⟨0, 6, .rw, true⟩]⟩
  , /- DEC_LAST_ERR -/ ⟨0xC, 1, 4, 0x0,
      [⟨0, 3, .ro, false⟩, ⟨16, 16, .ro, false⟩]⟩
  , /- DEC_HARQ_BASE_LO -/ ⟨0x20, 1, 4, 0x0,
      [⟨24, 8, .rw, true⟩]⟩
  , /- DEC_HARQ_BASE_HI -/ ⟨0x24, 1, 4, 0x0,
      [⟨0, 2, .rw, true⟩]⟩
  , /- DEC_HARQ_CTRL -/ ⟨0x28, 1, 4, 0x0,
      [⟨0, 1, .rw, true⟩]⟩
  , /- DEC_CB -/ ⟨0x30, 1, 4, 0x0,
      [⟨0, 32, .rcl, false⟩]⟩
  , /- DEC_CB_FAIL -/ ⟨0x34, 1, 4, 0x0,
      [⟨0, 32, .rcl, false⟩]⟩
  , /- DEC_ITER -/ ⟨0x38, 1, 4, 0x0,
      [⟨0, 32, .rcl, false⟩]⟩ ]

/-- The enc block's registers. -/
def encRegs : List RegSpec :=
  [ /- ENC_STATUS -/ ⟨0x0, 1, 4, 0x0,
      [⟨0, 5, .ro, false⟩, ⟨5, 1, .ro, false⟩, ⟨6, 1, .ro, false⟩, ⟨7, 1, .ro, false⟩]⟩
  , /- ENC_ALERT -/ ⟨0x4, 1, 4, 0x0,
      [⟨0, 1, .w1c, false⟩, ⟨1, 1, .w1c, false⟩, ⟨2, 1, .w1c, false⟩, ⟨3, 1, .w1c, false⟩, ⟨4, 1, .w1c, false⟩, ⟨5, 1, .w1c, false⟩]⟩
  , /- ENC_ALERT_EN -/ ⟨0x8, 1, 4, 0x7,
      [⟨0, 6, .rw, true⟩]⟩
  , /- ENC_LAST_ERR -/ ⟨0xC, 1, 4, 0x0,
      [⟨0, 3, .ro, false⟩, ⟨16, 16, .ro, false⟩]⟩
  , /- ENC_CB -/ ⟨0x30, 1, 4, 0x0,
      [⟨0, 32, .rcl, false⟩]⟩ ]

/-- The palr block's registers (part 0). -/
def palrRegs0 : List RegSpec :=
  [ /- PAL_OWNER -/ ⟨0x0, 52, 4, 0x65,
      [⟨0, 12, .rw, true⟩, ⟨12, 6, .rw, true⟩, ⟨31, 1, .ro, false⟩]⟩
  , /- PAL_DELEG -/ ⟨0x100, 52, 4, 0x0,
      [⟨0, 12, .rw, false⟩, ⟨12, 6, .rw, false⟩, ⟨18, 1, .rw, false⟩, ⟨31, 1, .ro, false⟩]⟩
  , /- PAL_PWR -/ ⟨0x200, 52, 4, 0x0,
      [⟨0, 2, .rw, true⟩, ⟨2, 2, .ro, false⟩, ⟨4, 1, .ro, false⟩, ⟨5, 1, .ro, false⟩]⟩
  , /- PAL_NOLEND -/ ⟨0x400, 832, 4, 0x0,
      [⟨0, 32, .rw, true⟩]⟩
  , /- PAL_RET_HOLD -/ ⟨0x1100, 1, 4, 0x0,
      [⟨0, 16, .rw, true⟩]⟩
  , /- PAL_REF_STATUS -/ ⟨0x1200, 1, 4, 0x0,
      [⟨0, 1, .w1c, false⟩, ⟨1, 3, .ro, false⟩, ⟨4, 1, .ro, false⟩, ⟨16, 16, .rcl, false⟩]⟩
  , /- PAL_REF_UID -/ ⟨0x1204, 1, 4, 0x0,
      [⟨0, 12, .ro, false⟩, ⟨12, 6, .ro, false⟩]⟩
  , /- PAL_REF_ADDR_LO -/ ⟨0x1208, 1, 4, 0x0,
      [⟨0, 32, .ro, false⟩]⟩
  , /- PAL_REF_ADDR_HI -/ ⟨0x120C, 1, 4, 0x0,
      [⟨0, 10, .ro, false⟩]⟩
  , /- PAL_COLL_STATUS -/ ⟨0x1210, 1, 4, 0x0,
      [⟨0, 1, .w1c, false⟩, ⟨1, 6, .ro, false⟩, ⟨16, 16, .rcl, false⟩]⟩
  , /- PAL_COLL_UID -/ ⟨0x1214, 1, 4, 0x0,
      [⟨0, 12, .ro, false⟩, ⟨16, 12, .ro, false⟩]⟩
  , /- PAL_COLL_ADDR -/ ⟨0x1218, 1, 4, 0x0,
      [⟨0, 18, .ro, false⟩]⟩ ]

/-- The palr block's registers (part 1). -/
def palrRegs1 : List RegSpec :=
  [ /- PAL_ECC_CE -/ ⟨0x1220, 1, 4, 0x0,
      [⟨0, 32, .rcl, false⟩]⟩
  , /- PAL_ECC_UE_LO -/ ⟨0x1228, 1, 4, 0x0,
      [⟨0, 32, .ro, false⟩]⟩
  , /- PAL_ECC_UE_HI -/ ⟨0x122C, 1, 4, 0x0,
      [⟨0, 10, .ro, false⟩, ⟨31, 1, .w1c, false⟩]⟩ ]

/-- The palr block's registers. -/
def palrRegs : List RegSpec := palrRegs0 ++ palrRegs1

/-- The core block's registers (part 0). -/
def coreRegs0 : List RegSpec :=
  [ /- CORE_ID -/ ⟨0x0, 1, 4, 0x0,
      [⟨0, 12, .ro, false⟩, ⟨12, 9, .ro, false⟩, ⟨21, 1, .ro, false⟩, ⟨22, 1, .ro, false⟩]⟩
  , /- CORE_CTRL -/ ⟨0x4, 1, 4, 0x2,
      [⟨0, 1, .w1s, false⟩, ⟨1, 1, .ro, false⟩, ⟨2, 1, .ro, false⟩, ⟨3, 1, .ro, false⟩]⟩
  , /- CORE_STATUS -/ ⟨0x8, 1, 4, 0x3,
      [⟨0, 2, .ro, false⟩, ⟨2, 1, .rw, false⟩, ⟨3, 1, .rw, false⟩, ⟨4, 2, .rw, false⟩, ⟨8, 1, .w1c, false⟩, ⟨9, 1, .w1c, false⟩, ⟨10, 1, .ro, false⟩, ⟨12, 1, .rw, true⟩, ⟨13, 1, .rw, true⟩, ⟨16, 1, .ro, false⟩, ⟨17, 1, .ro, false⟩]⟩
  , /- CORE_TVEC -/ ⟨0xC, 1, 4, 0x0,
      [⟨6, 10, .rw, true⟩]⟩
  , /- CORE_BOOT_PC -/ ⟨0x24, 1, 4, 0x0,
      [⟨2, 14, .rw, true⟩]⟩
  , /- CORE_EPC -/ ⟨0x10, 1, 4, 0x0,
      [⟨2, 14, .rw, false⟩]⟩
  , /- CORE_CAUSE -/ ⟨0x14, 1, 4, 0x0,
      [⟨0, 6, .rw, false⟩, ⟨31, 1, .rw, false⟩]⟩
  , /- CORE_TVAL -/ ⟨0x18, 1, 4, 0x0,
      [⟨0, 32, .rw, false⟩]⟩
  , /- CORE_EBT -/ ⟨0x20, 1, 4, 0x0,
      [⟨2, 14, .rw, false⟩]⟩
  , /- CORE_ESTATE -/ ⟨0x1C, 1, 4, 0x0,
      [⟨0, 2, .rw, false⟩, ⟨2, 1, .rw, false⟩, ⟨3, 1, .rw, false⟩, ⟨4, 1, .rw, false⟩]⟩
  , /- CORE_LC -/ ⟨0x30, 1, 4, 0x0,
      [⟨0, 17, .rw, false⟩]⟩
  , /- CORE_LS -/ ⟨0x34, 1, 4, 0x0,
      [⟨2, 14, .rw, false⟩]⟩ ]

/-- The core block's registers (part 1). -/
def coreRegs1 : List RegSpec :=
  [ /- CORE_LE -/ ⟨0x38, 1, 4, 0x0,
      [⟨2, 14, .rw, false⟩]⟩
  , /- CORE_RC -/ ⟨0x3C, 1, 4, 0x0,
      [⟨0, 17, .rw, false⟩]⟩
  , /- CORE_LOOP_BASE -/ ⟨0x40, 1, 4, 0x0,
      [⟨0, 4, .rw, false⟩, ⟨4, 2, .rw, false⟩]⟩
  , /- CORE_LOOP_CEIL -/ ⟨0x44, 1, 4, 0x800,
      [⟨0, 17, .rw, true⟩]⟩
  , /- CORE_IPEND -/ ⟨0x50, 2, 4, 0x0,
      [⟨0, 32, .ro, false⟩]⟩
  , /- CORE_IEN -/ ⟨0x58, 2, 4, 0x0,
      [⟨0, 32, .rw, false⟩]⟩
  , /- CORE_CYCLE -/ ⟨0x60, 2, 4, 0x0,
      [⟨0, 32, .ro, false⟩]⟩
  , /- CORE_CWIN_BASE -/ ⟨0x80, 8, 8, 0x0,
      [⟨0, 32, .rw, false⟩]⟩
  , /- CORE_CWIN_LEN -/ ⟨0x84, 8, 8, 0x0,
      [⟨2, 22, .rw, false⟩]⟩
  , /- CORE_SEG -/ ⟨0xC0, 16, 4, 0x0,
      [⟨0, 14, .rw, true⟩, ⟨16, 1, .rw, true⟩, ⟨17, 1, .rw, true⟩, ⟨18, 1, .rw, true⟩, ⟨19, 1, .rw, true⟩, ⟨20, 1, .rw, true⟩]⟩
  , /- VEC_VL -/ ⟨0x400, 1, 4, 0x40,
      [⟨0, 7, .rw, false⟩]⟩
  , /- VEC_VSTART -/ ⟨0x404, 1, 4, 0x0,
      [⟨0, 7, .rw, false⟩]⟩ ]

/-- The core block's registers (part 2). -/
def coreRegs2 : List RegSpec :=
  [ /- VEC_STATUS -/ ⟨0x408, 1, 4, 0x0,
      [⟨0, 1, .w1c, false⟩]⟩
  , /- VEC_DABCFG -/ ⟨0x40C, 1, 4, 0x0,
      [⟨0, 3, .rw, true⟩]⟩
  , /- CP_EN -/ ⟨0x800, 1, 4, 0x444,
      [⟨0, 1, .rw, true⟩, ⟨1, 1, .rw, true⟩, ⟨2, 1, .rw, true⟩, ⟨4, 1, .rw, true⟩, ⟨5, 1, .rw, true⟩, ⟨6, 1, .rw, true⟩, ⟨8, 1, .rw, true⟩, ⟨9, 1, .rw, true⟩, ⟨10, 1, .rw, true⟩]⟩
  , /- CP_SCB -/ ⟨0x804, 1, 4, 0x0,
      [⟨0, 32, .ro, false⟩]⟩
  , /- CP_CSSTAT -/ ⟨0x808, 1, 4, 0x0,
      [⟨0, 1, .ro, false⟩, ⟨1, 1, .w1c, false⟩, ⟨2, 1, .w1c, false⟩, ⟨3, 1, .ro, false⟩, ⟨4, 1, .ro, false⟩, ⟨5, 1, .w1c, false⟩, ⟨6, 1, .w1c, false⟩, ⟨7, 1, .ro, false⟩]⟩
  , /- CP_CSBUSY -/ ⟨0x80C, 1, 4, 0x0,
      [⟨0, 16, .rcl, false⟩, ⟨16, 16, .rcl, false⟩]⟩ ]

/-- The core block's registers. -/
def coreRegs : List RegSpec := coreRegs0 ++ coreRegs1 ++ coreRegs2

/-- The interrupt controller of a cluster: CORE_CIC_SRC_l for each of the 64 lines that EVT_CFG can name (R621's section). -/
def cicRegs : List RegSpec := [⟨0x0, 64, 4, 0x0, [⟨0, 10, .ro, false⟩, ⟨31, 1, .ro, false⟩]⟩]

/-- The register table of a block. -/
def blkRegs (b : Blk) : List RegSpec :=
  match b with
  | .gso => gsoRegs
  | .evt => evtRegs
  | .tb => tbRegs
  | .trm => trmRegs
  | .lc => lcRegs
  | .hst => hstRegs
  | .eur => eurRegs
  | .fh _ => fhRegs
  | .nce => nceRegs
  | .glz => glzRegs
  | .palh => palhRegs
  | .eslh => eslhRegs
  | .gsth => gstRegs
  | .eslr _ => eslrRegs
  | .gstr _ => gstrRegs
  | .fft _ _ => fftRegs
  | .dec _ => decRegs
  | .enc _ => encRegs
  | .palr _ => palrRegs
  | .core _ => coreRegs
  | .cic _ => cicRegs

/-- The row of a block that holds offset `off`, and which of its registers it is. -/
def findReg (l : List RegSpec) (off : Nat) : Option (RegSpec × Nat) :=
  match l with
  | [] => none
  | r :: t =>
    if r.off ≤ off ∧ (off - r.off) % r.stride = 0 ∧ (off - r.off) / r.stride < r.count then
      some (r, (off - r.off) / r.stride)
    else findReg t off

/-- The low words of a block's 64-bit register pairs (R10): offset, count and stride. -/
def blkPairs (b : Blk) : List (Nat × Nat × Nat) :=
  match b with
  | .palr _ => [(0x1208, 1, 4), (0x1228, 1, 4)]
  | .palh => [(0x8, 1, 4), (0x100, 1, 4), (0x118, 1, 4)]
  | .eslh => [(0x104, 1, 4), (0x200, 16, 16)]
  | .core _ => [(0x50, 1, 4), (0x58, 1, 4), (0x60, 1, 4)]
  | .gsth => [(0x10, 1, 4), (0x18, 1, 4), (0x100, 8, 16), (0x1010, 64, 64), (0x1018, 64, 64)]
  | .gstr _ => [(0x10, 1, 4), (0x18, 1, 4), (0x100, 8, 16), (0x1010, 32, 64), (0x1018, 32, 64)]
  | .dec _ => [(0x20, 1, 4)]
  | .nce => [(0x104, 4, 32), (0x114, 4, 32), (0x204, 4, 32), (0x214, 4, 32), (0x10010, 1536, 32), (0x20000, 64, 64), (0x20010, 64, 64), (0x20020, 64, 64)]
  | .fh _ => [(0x8, 1, 4), (0x54, 1, 4), (0x64, 1, 4)]
  | .tb => [(0x14, 1, 4), (0x24, 1, 4), (0x30, 1, 4), (0x1000, 256, 32)]
  | .glz => [(0x410, 48, 64), (0x420, 48, 64), (0x428, 48, 64)]
  | .hst => [(0x4, 1, 4), (0x1000, 256, 32), (0x1008, 256, 32)]
  | .eur => [(0x184, 1, 4), (0x8004, 2048, 16)]
  | _ => []

/-- Is a register address the low word of a 64-bit pair? -/
def isPairLow (l : List (Nat × Nat × Nat)) (off : Nat) : Bool :=
  l.any fun x => decide (x.1 ≤ off) && (off - x.1) % x.2.2 == 0 && decide ((off - x.1) / x.2.2 < x.2.1)

/-- The block of a register address and the offset in it; none outside every block. -/
def blkOf (a : Nat) : Option (Blk × Nat) :=
  if 0x01000000000 ≤ a ∧ a < 0x01100000000 then
    let r := (a - 0x01000000000) / 0x10000000
    let o := (a - 0x01000000000) % 0x10000000
    if o < 0x0F000000 then none
    else if o < 0x0F070000 then
      let w := o % 0x10000
      match (o - 0x0F000000) / 0x10000 with
      | 0 => some (.eslr r, w)
      | 1 => some (.gstr r, w)
      | 2 => some (.fft r 0, w)
      | 3 => some (.fft r 1, w)
      | 4 => some (.dec r, w)
      | 5 => some (.enc r, w)
      | _ => some (.palr r, w)
    else if 0x0F100000 ≤ o ∧ o < 0x0F160000 then
      let c := (o - 0x0F100000) / 0x10000
      let w := o % 0x10000
      if w < 0x4000 then some (.core (r * 24 + c * 4 + w / 0x1000), w % 0x1000)
      else if 0x8000 ≤ w ∧ w < 0x9000 then some (.cic (r * 6 + c), w - 0x8000) else none
    else none
  else if 0x02010000000 ≤ a ∧ a < 0x02010610000 then
    let o := a - 0x02010000000
    let w := o % 0x10000
    if o < 0x70000 then
      match o / 0x10000 with
      | 0 => some (.gso, w)
      | 1 => some (.evt, w)
      | 2 => some (.tb, w)
      | 3 => some (.trm, w)
      | 4 => some (.lc, w)
      | 5 => some (.hst, w)
      | _ => some (.eur, w)
    else if 0x100000 ≤ o ∧ o < 0x200000 then some (.fh ((o - 0x100000) / 0x10000), w)
    else if 0x200000 ≤ o ∧ o < 0x300000 then some (.nce, o - 0x200000)
    else if 0x300000 ≤ o ∧ o < 0x400000 then some (.glz, o - 0x300000)
    else if 0x400000 ≤ o ∧ o < 0x410000 then some (.palh, w)
    else if 0x500000 ≤ o ∧ o < 0x510000 then some (.eslh, w)
    else if 0x600000 ≤ o ∧ o < 0x610000 then some (.gsth, w)
    else none
  else none

end Sys2Proof.Machine
end

