-- ==== Sys2Proof/Machine/Fields.lean ====
section
/-! DEFINITION. Every register field of the spec, by the spec's own names: where it stands. -/

namespace Sys2Proof.Machine

/-- A register field: the device address of its register, its lowest bit and its width. -/
structure Fld where
  addr : Nat
  lo : Nat
  w : Nat
  deriving DecidableEq, Repr

namespace F

/-! GSO_MODE -/
def GSO_MODE_MODE : Fld := ⟨blkBase .gso + 0x0, 0, 3⟩
def GSO_MODE_TARGET : Fld := ⟨blkBase .gso + 0x0, 4, 3⟩
def GSO_MODE_DRAINING : Fld := ⟨blkBase .gso + 0x0, 8, 1⟩
def GSO_MODE_HOLD_DRAIN : Fld := ⟨blkBase .gso + 0x0, 9, 1⟩
def GSO_MODE_DRAIN_CAUSE : Fld := ⟨blkBase .gso + 0x0, 10, 2⟩
/-! GSO_POLICY -/
def GSO_POLICY_AUTO_START : Fld := ⟨blkBase .gso + 0x4, 0, 1⟩
def GSO_POLICY_COMMISSION_AT_START : Fld := ⟨blkBase .gso + 0x4, 1, 1⟩
def GSO_POLICY_RUN_MODE : Fld := ⟨blkBase .gso + 0x4, 2, 3⟩
def GSO_POLICY_SVC_RESET_EN : Fld := ⟨blkBase .gso + 0x4, 5, 1⟩
def GSO_POLICY_LATCH_DRAIN_EN : Fld := ⟨blkBase .gso + 0x4, 6, 1⟩
def GSO_POLICY_PKG_FAULT_RESET : Fld := ⟨blkBase .gso + 0x4, 7, 1⟩
/-! GSO_NODE_ID -/
def GSO_NODE_ID_NODE_ID : Fld := ⟨blkBase .gso + 0x8, 0, 14⟩
/-! GSO_DRAIN_TIMEOUT -/
def GSO_DRAIN_TIMEOUT_TIMEOUT_MS : Fld := ⟨blkBase .gso + 0xC, 0, 16⟩
/-! GSO_ECON -/
def GSO_ECON_PARK_CLUSTERS : Fld := ⟨blkBase .gso + 0x10, 0, 7⟩
/-! GSO_BOOT_STATUS -/
def GSO_BOOT_STATUS_PHASE : Fld := ⟨blkBase .gso + 0x20, 0, 4⟩
def GSO_BOOT_STATUS_SLOT : Fld := ⟨blkBase .gso + 0x20, 4, 2⟩
def GSO_BOOT_STATUS_FALLBACK : Fld := ⟨blkBase .gso + 0x20, 6, 1⟩
def GSO_BOOT_STATUS_FAIL_CAUSE : Fld := ⟨blkBase .gso + 0x20, 8, 4⟩
def GSO_BOOT_STATUS_FLOOR : Fld := ⟨blkBase .gso + 0x20, 12, 7⟩
/-! GSO_RESET_CAUSE -/
def GSO_RESET_CAUSE_CAUSE : Fld := ⟨blkBase .gso + 0x40, 0, 4⟩
def GSO_RESET_CAUSE_COUNT : Fld := ⟨blkBase .gso + 0x40, 8, 8⟩
/-! GSO_PWRFAIL -/
def GSO_PWRFAIL_FLUSHED : Fld := ⟨blkBase .gso + 0x50, 0, 1⟩
def GSO_PWRFAIL_RECOVERED : Fld := ⟨blkBase .gso + 0x50, 1, 1⟩
def GSO_PWRFAIL_ENTRIES : Fld := ⟨blkBase .gso + 0x50, 8, 7⟩
/-! GSO_BOOT_TIME -/
def GSO_BOOT_TIME_BOOT_US : Fld := ⟨blkBase .gso + 0x24, 0, 32⟩
/-! GSO_IMAGE_VERSION -/
def GSO_IMAGE_VERSION_VERSION : Fld := ⟨blkBase .gso + 0x28, 0, 32⟩
/-! GSO_RESET_SEC -/
def GSO_RESET_SEC_SEC : Fld := ⟨blkBase .gso + 0x44, 0, 32⟩
/-! GSO_RESET_NS -/
def GSO_RESET_NS_NS : Fld := ⟨blkBase .gso + 0x48, 0, 32⟩
/-! GSO_FUNC -/
def GSO_FUNC_STATE (n : Nat) : Fld := ⟨blkBase .gso + 0x1000 + n * 0x4, 0, 3⟩
def GSO_FUNC_PRESENT (n : Nat) : Fld := ⟨blkBase .gso + 0x1000 + n * 0x4, 3, 1⟩
def GSO_FUNC_AUTO (n : Nat) : Fld := ⟨blkBase .gso + 0x1000 + n * 0x4, 4, 1⟩
def GSO_FUNC_RESUME (n : Nat) : Fld := ⟨blkBase .gso + 0x1000 + n * 0x4, 5, 1⟩
def GSO_FUNC_CFG_ERR (n : Nat) : Fld := ⟨blkBase .gso + 0x1000 + n * 0x4, 6, 1⟩
/-! GSO_CARR -/
def GSO_CARR_RAT (n : Nat) : Fld := ⟨blkBase .gso + 0x2000 + n * 0x8, 0, 2⟩
def GSO_CARR_MU (n : Nat) : Fld := ⟨blkBase .gso + 0x2000 + n * 0x8, 2, 3⟩
def GSO_CARR_ECP (n : Nat) : Fld := ⟨blkBase .gso + 0x2000 + n * 0x8, 5, 1⟩
def GSO_CARR_HARQ_BUDGET (n : Nat) : Fld := ⟨blkBase .gso + 0x2000 + n * 0x8, 6, 3⟩
def GSO_CARR_EFF_BUDGET (n : Nat) : Fld := ⟨blkBase .gso + 0x2000 + n * 0x8, 9, 3⟩
def GSO_CARR_MISS_SLOTS (n : Nat) : Fld := ⟨blkBase .gso + 0x2000 + n * 0x8, 16, 16⟩
/-! GSO_CARR_OFS -/
def GSO_CARR_OFS_OFFSET_NS (n : Nat) : Fld := ⟨blkBase .gso + 0x2004 + n * 0x8, 0, 32⟩
/-! GSO_AVS -/
def GSO_AVS_ADDR : Fld := ⟨blkBase .gso + 0x3000, 0, 7⟩
def GSO_AVS_SETTLE_US : Fld := ⟨blkBase .gso + 0x3000, 8, 16⟩
/-! GSO_AVS_STAT -/
def GSO_AVS_STAT_TARGET_MV : Fld := ⟨blkBase .gso + 0x3008, 0, 10⟩
def GSO_AVS_STAT_FUSE_MV : Fld := ⟨blkBase .gso + 0x3008, 10, 10⟩
def GSO_AVS_STAT_ERR : Fld := ⟨blkBase .gso + 0x3008, 20, 1⟩
/-! GSO_THERM_CFG -/
def GSO_THERM_CFG_THROTTLE_C : Fld := ⟨blkBase .gso + 0x3004, 0, 7⟩
def GSO_THERM_CFG_HYST_C : Fld := ⟨blkBase .gso + 0x3004, 7, 4⟩
/-! GSO_THERM -/
def GSO_THERM_TEMP_C (n : Nat) : Fld := ⟨blkBase .gso + 0x3010 + n * 0x4, 0, 8⟩
def GSO_THERM_MAX_C (n : Nat) : Fld := ⟨blkBase .gso + 0x3010 + n * 0x4, 8, 8⟩
def GSO_THERM_THROT (n : Nat) : Fld := ⟨blkBase .gso + 0x3010 + n * 0x4, 16, 2⟩
/-! GSO_SUPPLY -/
def GSO_SUPPLY_OUT : Fld := ⟨blkBase .gso + 0x3030, 0, 11⟩
/-! CORE_ID -/
def CORE_ID_UID (k : Nat) : Fld := ⟨blkBase (.core k) + 0x0, 0, 12⟩
def CORE_ID_CORE_INDEX (k : Nat) : Fld := ⟨blkBase (.core k) + 0x0, 12, 9⟩
def CORE_ID_HUB (k : Nat) : Fld := ⟨blkBase (.core k) + 0x0, 21, 1⟩
def CORE_ID_VEC (k : Nat) : Fld := ⟨blkBase (.core k) + 0x0, 22, 1⟩
/-! CORE_CTRL -/
def CORE_CTRL_RUN (k : Nat) : Fld := ⟨blkBase (.core k) + 0x4, 0, 1⟩
def CORE_CTRL_HALTED (k : Nat) : Fld := ⟨blkBase (.core k) + 0x4, 1, 1⟩
def CORE_CTRL_IDLE (k : Nat) : Fld := ⟨blkBase (.core k) + 0x4, 2, 1⟩
def CORE_CTRL_QUAR (k : Nat) : Fld := ⟨blkBase (.core k) + 0x4, 3, 1⟩
/-! CORE_STATUS -/
def CORE_STATUS_PRIV (k : Nat) : Fld := ⟨blkBase (.core k) + 0x8, 0, 2⟩
def CORE_STATUS_IE (k : Nat) : Fld := ⟨blkBase (.core k) + 0x8, 2, 1⟩
def CORE_STATUS_PIE (k : Nat) : Fld := ⟨blkBase (.core k) + 0x8, 3, 1⟩
def CORE_STATUS_PPRIV (k : Nat) : Fld := ⟨blkBase (.core k) + 0x8, 4, 2⟩
def CORE_STATUS_AOV (k : Nat) : Fld := ⟨blkBase (.core k) + 0x8, 8, 1⟩
def CORE_STATUS_VOV (k : Nat) : Fld := ⟨blkBase (.core k) + 0x8, 9, 1⟩
def CORE_STATUS_CSB (k : Nat) : Fld := ⟨blkBase (.core k) + 0x8, 10, 1⟩
def CORE_STATUS_AOV_EN (k : Nat) : Fld := ⟨blkBase (.core k) + 0x8, 12, 1⟩
def CORE_STATUS_VOV_EN (k : Nat) : Fld := ⟨blkBase (.core k) + 0x8, 13, 1⟩
def CORE_STATUS_LA (k : Nat) : Fld := ⟨blkBase (.core k) + 0x8, 16, 1⟩
def CORE_STATUS_RA (k : Nat) : Fld := ⟨blkBase (.core k) + 0x8, 17, 1⟩
/-! CORE_TVEC -/
def CORE_TVEC_BASE (k : Nat) : Fld := ⟨blkBase (.core k) + 0xC, 6, 10⟩
/-! CORE_BOOT_PC -/
def CORE_BOOT_PC_PC (k : Nat) : Fld := ⟨blkBase (.core k) + 0x24, 2, 14⟩
/-! CORE_EPC -/
def CORE_EPC_EPC (k : Nat) : Fld := ⟨blkBase (.core k) + 0x10, 2, 14⟩
/-! CORE_CAUSE -/
def CORE_CAUSE_CODE (k : Nat) : Fld := ⟨blkBase (.core k) + 0x14, 0, 6⟩
def CORE_CAUSE_INT (k : Nat) : Fld := ⟨blkBase (.core k) + 0x14, 31, 1⟩
/-! CORE_TVAL -/
def CORE_TVAL_TVAL (k : Nat) : Fld := ⟨blkBase (.core k) + 0x18, 0, 32⟩
/-! CORE_EBT -/
def CORE_EBT_EBT (k : Nat) : Fld := ⟨blkBase (.core k) + 0x20, 2, 14⟩
/-! CORE_ESTATE -/
def CORE_ESTATE_DS (k : Nat) : Fld := ⟨blkBase (.core k) + 0x1C, 0, 2⟩
def CORE_ESTATE_LA (k : Nat) : Fld := ⟨blkBase (.core k) + 0x1C, 2, 1⟩
def CORE_ESTATE_RA (k : Nat) : Fld := ⟨blkBase (.core k) + 0x1C, 3, 1⟩
def CORE_ESTATE_EOB (k : Nat) : Fld := ⟨blkBase (.core k) + 0x1C, 4, 1⟩
/-! CORE_LC -/
def CORE_LC_LC (k : Nat) : Fld := ⟨blkBase (.core k) + 0x30, 0, 17⟩
/-! CORE_LS -/
def CORE_LS_LS (k : Nat) : Fld := ⟨blkBase (.core k) + 0x34, 2, 14⟩
/-! CORE_LE -/
def CORE_LE_LE (k : Nat) : Fld := ⟨blkBase (.core k) + 0x38, 2, 14⟩
/-! CORE_RC -/
def CORE_RC_RC (k : Nat) : Fld := ⟨blkBase (.core k) + 0x3C, 0, 17⟩
/-! CORE_LOOP_BASE -/
def CORE_LOOP_BASE_RV (k : Nat) : Fld := ⟨blkBase (.core k) + 0x40, 0, 4⟩
def CORE_LOOP_BASE_RP (k : Nat) : Fld := ⟨blkBase (.core k) + 0x40, 4, 2⟩
/-! CORE_LOOP_CEIL -/
def CORE_LOOP_CEIL_CEIL (k : Nat) : Fld := ⟨blkBase (.core k) + 0x44, 0, 17⟩
/-! CORE_IPEND -/
def CORE_IPEND_IPEND (k n : Nat) : Fld := ⟨blkBase (.core k) + 0x50 + n * 0x4, 0, 32⟩
/-! CORE_IEN -/
def CORE_IEN_IEN (k n : Nat) : Fld := ⟨blkBase (.core k) + 0x58 + n * 0x4, 0, 32⟩
/-! CORE_CYCLE -/
def CORE_CYCLE_CYCLE (k n : Nat) : Fld := ⟨blkBase (.core k) + 0x60 + n * 0x4, 0, 32⟩
/-! CORE_CWIN_BASE -/
def CORE_CWIN_BASE_BASE (k n : Nat) : Fld := ⟨blkBase (.core k) + 0x80 + n * 0x8, 0, 32⟩
/-! CORE_CWIN_LEN -/
def CORE_CWIN_LEN_LEN (k n : Nat) : Fld := ⟨blkBase (.core k) + 0x84 + n * 0x8, 2, 22⟩
/-! CORE_SEG -/
def CORE_SEG_BASE (k n : Nat) : Fld := ⟨blkBase (.core k) + 0xC0 + n * 0x4, 0, 14⟩
def CORE_SEG_V (k n : Nat) : Fld := ⟨blkBase (.core k) + 0xC0 + n * 0x4, 16, 1⟩
def CORE_SEG_C (k n : Nat) : Fld := ⟨blkBase (.core k) + 0xC0 + n * 0x4, 17, 1⟩
def CORE_SEG_W (k n : Nat) : Fld := ⟨blkBase (.core k) + 0xC0 + n * 0x4, 18, 1⟩
def CORE_SEG_SU (k n : Nat) : Fld := ⟨blkBase (.core k) + 0xC0 + n * 0x4, 19, 1⟩
def CORE_SEG_UU (k n : Nat) : Fld := ⟨blkBase (.core k) + 0xC0 + n * 0x4, 20, 1⟩
/-! VEC_VL -/
def VEC_VL_VL (k : Nat) : Fld := ⟨blkBase (.core k) + 0x400, 0, 7⟩
/-! VEC_VSTART -/
def VEC_VSTART_VSTART (k : Nat) : Fld := ⟨blkBase (.core k) + 0x404, 0, 7⟩
/-! VEC_STATUS -/
def VEC_STATUS_QSAT (k : Nat) : Fld := ⟨blkBase (.core k) + 0x408, 0, 1⟩
/-! VEC_DABCFG -/
def VEC_DABCFG_NBIAS (k : Nat) : Fld := ⟨blkBase (.core k) + 0x40C, 0, 3⟩
/-! CP_EN -/
def CP_EN_CX_U (k : Nat) : Fld := ⟨blkBase (.core k) + 0x800, 0, 1⟩
def CP_EN_CX_S (k : Nat) : Fld := ⟨blkBase (.core k) + 0x800, 1, 1⟩
def CP_EN_CX_M (k : Nat) : Fld := ⟨blkBase (.core k) + 0x800, 2, 1⟩
def CP_EN_CS0_U (k : Nat) : Fld := ⟨blkBase (.core k) + 0x800, 4, 1⟩
def CP_EN_CS0_S (k : Nat) : Fld := ⟨blkBase (.core k) + 0x800, 5, 1⟩
def CP_EN_CS0_M (k : Nat) : Fld := ⟨blkBase (.core k) + 0x800, 6, 1⟩
def CP_EN_CS1_U (k : Nat) : Fld := ⟨blkBase (.core k) + 0x800, 8, 1⟩
def CP_EN_CS1_S (k : Nat) : Fld := ⟨blkBase (.core k) + 0x800, 9, 1⟩
def CP_EN_CS1_M (k : Nat) : Fld := ⟨blkBase (.core k) + 0x800, 10, 1⟩
/-! CP_SCB -/
def CP_SCB_SCB (k : Nat) : Fld := ⟨blkBase (.core k) + 0x804, 0, 32⟩
/-! CP_CSSTAT -/
def CP_CSSTAT_PEND0 (k : Nat) : Fld := ⟨blkBase (.core k) + 0x808, 0, 1⟩
def CP_CSSTAT_DONE0 (k : Nat) : Fld := ⟨blkBase (.core k) + 0x808, 1, 1⟩
def CP_CSSTAT_ERR0 (k : Nat) : Fld := ⟨blkBase (.core k) + 0x808, 2, 1⟩
def CP_CSSTAT_QUAR0 (k : Nat) : Fld := ⟨blkBase (.core k) + 0x808, 3, 1⟩
def CP_CSSTAT_PEND1 (k : Nat) : Fld := ⟨blkBase (.core k) + 0x808, 4, 1⟩
def CP_CSSTAT_DONE1 (k : Nat) : Fld := ⟨blkBase (.core k) + 0x808, 5, 1⟩
def CP_CSSTAT_ERR1 (k : Nat) : Fld := ⟨blkBase (.core k) + 0x808, 6, 1⟩
def CP_CSSTAT_QUAR1 (k : Nat) : Fld := ⟨blkBase (.core k) + 0x808, 7, 1⟩
/-! CP_CSBUSY -/
def CP_CSBUSY_BUSY0 (k : Nat) : Fld := ⟨blkBase (.core k) + 0x80C, 0, 16⟩
def CP_CSBUSY_BUSY1 (k : Nat) : Fld := ⟨blkBase (.core k) + 0x80C, 16, 16⟩
/-! PAL_OWNER -/
def PAL_OWNER_OWNER (r n : Nat) : Fld := ⟨blkBase (.palr r) + 0x0 + n * 0x4, 0, 12⟩
def PAL_OWNER_OWNER_CH (r n : Nat) : Fld := ⟨blkBase (.palr r) + 0x0 + n * 0x4, 12, 6⟩
def PAL_OWNER_PEND (r n : Nat) : Fld := ⟨blkBase (.palr r) + 0x0 + n * 0x4, 31, 1⟩
/-! PAL_DELEG -/
def PAL_DELEG_DEL_UID (r n : Nat) : Fld := ⟨blkBase (.palr r) + 0x100 + n * 0x4, 0, 12⟩
def PAL_DELEG_DEL_CH (r n : Nat) : Fld := ⟨blkBase (.palr r) + 0x100 + n * 0x4, 12, 6⟩
def PAL_DELEG_EN (r n : Nat) : Fld := ⟨blkBase (.palr r) + 0x100 + n * 0x4, 18, 1⟩
def PAL_DELEG_PEND (r n : Nat) : Fld := ⟨blkBase (.palr r) + 0x100 + n * 0x4, 31, 1⟩
/-! PAL_PWR -/
def PAL_PWR_REQ (r n : Nat) : Fld := ⟨blkBase (.palr r) + 0x200 + n * 0x4, 0, 2⟩
def PAL_PWR_STATE (r n : Nat) : Fld := ⟨blkBase (.palr r) + 0x200 + n * 0x4, 2, 2⟩
def PAL_PWR_QUAR (r n : Nat) : Fld := ⟨blkBase (.palr r) + 0x200 + n * 0x4, 4, 1⟩
def PAL_PWR_BORROWED (r n : Nat) : Fld := ⟨blkBase (.palr r) + 0x200 + n * 0x4, 5, 1⟩
/-! PAL_NOLEND -/
def PAL_NOLEND_PAGES (r n : Nat) : Fld := ⟨blkBase (.palr r) + 0x400 + n * 0x4, 0, 32⟩
/-! PAL_RET_HOLD -/
def PAL_RET_HOLD_US (r : Nat) : Fld := ⟨blkBase (.palr r) + 0x1100, 0, 16⟩
/-! PAL_REF_STATUS -/
def PAL_REF_STATUS_VALID (r : Nat) : Fld := ⟨blkBase (.palr r) + 0x1200, 0, 1⟩
def PAL_REF_STATUS_KIND (r : Nat) : Fld := ⟨blkBase (.palr r) + 0x1200, 1, 3⟩
def PAL_REF_STATUS_WRITE (r : Nat) : Fld := ⟨blkBase (.palr r) + 0x1200, 4, 1⟩
def PAL_REF_STATUS_COUNT (r : Nat) : Fld := ⟨blkBase (.palr r) + 0x1200, 16, 16⟩
/-! PAL_REF_UID -/
def PAL_REF_UID_UID (r : Nat) : Fld := ⟨blkBase (.palr r) + 0x1204, 0, 12⟩
def PAL_REF_UID_SUB (r : Nat) : Fld := ⟨blkBase (.palr r) + 0x1204, 12, 6⟩
/-! PAL_REF_ADDR_LO -/
def PAL_REF_ADDR_LO_ADDR (r : Nat) : Fld := ⟨blkBase (.palr r) + 0x1208, 0, 32⟩
/-! PAL_REF_ADDR_HI -/
def PAL_REF_ADDR_HI_ADDR (r : Nat) : Fld := ⟨blkBase (.palr r) + 0x120C, 0, 10⟩
/-! PAL_COLL_STATUS -/
def PAL_COLL_STATUS_VALID (r : Nat) : Fld := ⟨blkBase (.palr r) + 0x1210, 0, 1⟩
def PAL_COLL_STATUS_BANK (r : Nat) : Fld := ⟨blkBase (.palr r) + 0x1210, 1, 6⟩
def PAL_COLL_STATUS_COUNT (r : Nat) : Fld := ⟨blkBase (.palr r) + 0x1210, 16, 16⟩
/-! PAL_COLL_UID -/
def PAL_COLL_UID_UID_A (r : Nat) : Fld := ⟨blkBase (.palr r) + 0x1214, 0, 12⟩
def PAL_COLL_UID_UID_B (r : Nat) : Fld := ⟨blkBase (.palr r) + 0x1214, 16, 12⟩
/-! PAL_COLL_ADDR -/
def PAL_COLL_ADDR_WORD (r : Nat) : Fld := ⟨blkBase (.palr r) + 0x1218, 0, 18⟩
/-! PAL_ECC_CE -/
def PAL_ECC_CE_COUNT (r : Nat) : Fld := ⟨blkBase (.palr r) + 0x1220, 0, 32⟩
/-! PAL_ECC_UE_LO -/
def PAL_ECC_UE_LO_ADDR (r : Nat) : Fld := ⟨blkBase (.palr r) + 0x1228, 0, 32⟩
/-! PAL_ECC_UE_HI -/
def PAL_ECC_UE_HI_ADDR (r : Nat) : Fld := ⟨blkBase (.palr r) + 0x122C, 0, 10⟩
def PAL_ECC_UE_HI_VALID (r : Nat) : Fld := ⟨blkBase (.palr r) + 0x122C, 31, 1⟩
/-! PAL_HBM_STATUS -/
def PAL_HBM_STATUS_TRAINED : Fld := ⟨blkBase .palh + 0x0, 0, 1⟩
def PAL_HBM_STATUS_SCRUB_ACT : Fld := ⟨blkBase .palh + 0x0, 1, 1⟩
/-! PAL_HBM_CE -/
def PAL_HBM_CE_COUNT : Fld := ⟨blkBase .palh + 0x4, 0, 32⟩
/-! PAL_HBM_UE_ADDR_LO -/
def PAL_HBM_UE_ADDR_LO_ADDR : Fld := ⟨blkBase .palh + 0x8, 0, 32⟩
/-! PAL_HBM_UE_ADDR_HI -/
def PAL_HBM_UE_ADDR_HI_ADDR : Fld := ⟨blkBase .palh + 0xC, 0, 2⟩
def PAL_HBM_UE_ADDR_HI_VALID : Fld := ⟨blkBase .palh + 0xC, 31, 1⟩
/-! PAL_HBM_SCRUB -/
def PAL_HBM_SCRUB_HOURS : Fld := ⟨blkBase .palh + 0x10, 0, 8⟩
/-! PAL_EXT_BASE_LO -/
def PAL_EXT_BASE_LO_BASE : Fld := ⟨blkBase .palh + 0x100, 23, 9⟩
/-! PAL_EXT_BASE_HI -/
def PAL_EXT_BASE_HI_BASE : Fld := ⟨blkBase .palh + 0x104, 0, 2⟩
/-! PAL_EXT_CTRL -/
def PAL_EXT_CTRL_EN : Fld := ⟨blkBase .palh + 0x108, 0, 1⟩
/-! PAL_EXT_INVAL -/
def PAL_EXT_INVAL_INDEX : Fld := ⟨blkBase .palh + 0x10C, 0, 20⟩
def PAL_EXT_INVAL_ALL : Fld := ⟨blkBase .palh + 0x10C, 30, 1⟩
def PAL_EXT_INVAL_BUSY : Fld := ⟨blkBase .palh + 0x10C, 31, 1⟩
/-! PAL_EXT_REF_STATUS -/
def PAL_EXT_REF_STATUS_VALID : Fld := ⟨blkBase .palh + 0x110, 0, 1⟩
def PAL_EXT_REF_STATUS_CAUSE : Fld := ⟨blkBase .palh + 0x110, 1, 3⟩
def PAL_EXT_REF_STATUS_COUNT : Fld := ⟨blkBase .palh + 0x110, 16, 16⟩
/-! PAL_EXT_REF_UID -/
def PAL_EXT_REF_UID_UID : Fld := ⟨blkBase .palh + 0x114, 0, 12⟩
def PAL_EXT_REF_UID_SUB : Fld := ⟨blkBase .palh + 0x114, 12, 6⟩
/-! PAL_EXT_REF_ADDR_LO -/
def PAL_EXT_REF_ADDR_LO_ADDR : Fld := ⟨blkBase .palh + 0x118, 0, 32⟩
/-! PAL_EXT_REF_ADDR_HI -/
def PAL_EXT_REF_ADDR_HI_ADDR : Fld := ⟨blkBase .palh + 0x11C, 0, 10⟩
/-! PAL_WASH_CFG -/
def PAL_WASH_CFG_PASS_H : Fld := ⟨blkBase .palh + 0x200, 0, 8⟩
def PAL_WASH_CFG_RETRY_US : Fld := ⟨blkBase .palh + 0x200, 8, 16⟩
/-! PAL_WASH_STAT -/
def PAL_WASH_STAT_RUN : Fld := ⟨blkBase .palh + 0x204, 0, 1⟩
def PAL_WASH_STAT_SUSP : Fld := ⟨blkBase .palh + 0x204, 1, 1⟩
def PAL_WASH_STAT_PASSES : Fld := ⟨blkBase .palh + 0x204, 16, 16⟩
/-! PAL_WASH_ABORT -/
def PAL_WASH_ABORT_COUNT : Fld := ⟨blkBase .palh + 0x208, 0, 32⟩
/-! PAL_WASH_FAIL -/
def PAL_WASH_FAIL_UID : Fld := ⟨blkBase .palh + 0x20C, 0, 12⟩
def PAL_WASH_FAIL_VALID : Fld := ⟨blkBase .palh + 0x20C, 31, 1⟩
/-! ESL_RCFG -/
def ESL_RCFG_HOT (r : Nat) : Fld := ⟨blkBase (.eslr r) + 0x0, 0, 6⟩
/-! ESL_RSTAT -/
def ESL_RSTAT_READY (r : Nat) : Fld := ⟨blkBase (.eslr r) + 0x4, 0, 13⟩
def ESL_RSTAT_RUN_CORES (r : Nat) : Fld := ⟨blkBase (.eslr r) + 0x4, 16, 5⟩
/-! ESL_RET -/
def ESL_RET_UID (r n : Nat) : Fld := ⟨blkBase (.eslr r) + 0x44 + n * 0x4, 0, 12⟩
def ESL_RET_CH (r n : Nat) : Fld := ⟨blkBase (.eslr r) + 0x44 + n * 0x4, 12, 6⟩
/-! ESL_RCNT_DISP -/
def ESL_RCNT_DISP_COUNT (r : Nat) : Fld := ⟨blkBase (.eslr r) + 0x100, 0, 32⟩
/-! ESL_RCNT_DEFER -/
def ESL_RCNT_DEFER_COUNT (r : Nat) : Fld := ⟨blkBase (.eslr r) + 0x104, 0, 32⟩
/-! ESL_RCNT_LATE -/
def ESL_RCNT_LATE_COUNT (r : Nat) : Fld := ⟨blkBase (.eslr r) + 0x108, 0, 32⟩
/-! ESL_RCNT_MISS -/
def ESL_RCNT_MISS_COUNT (r : Nat) : Fld := ⟨blkBase (.eslr r) + 0x10C, 0, 32⟩
/-! ESL_READY -/
def ESL_READY_COUNT (r n : Nat) : Fld := ⟨blkBase (.eslr r) + 0x200 + n * 0x4, 0, 13⟩
/-! ESL_CTRL -/
def ESL_CTRL_RESERVE : Fld := ⟨blkBase .eslh + 0x0, 0, 12⟩
/-! ESL_STATUS -/
def ESL_STATUS_FREE : Fld := ⟨blkBase .eslh + 0x4, 0, 17⟩
/-! ESL_SLOT_Q -/
def ESL_SLOT_Q_SLOT : Fld := ⟨blkBase .eslh + 0x8, 0, 16⟩
def ESL_SLOT_Q_STATE : Fld := ⟨blkBase .eslh + 0x8, 16, 3⟩
/-! ESL_DEP_ERR -/
def ESL_DEP_ERR_COUNT : Fld := ⟨blkBase .eslh + 0x10, 0, 32⟩
/-! ESL_LATE_REL -/
def ESL_LATE_REL_COUNT : Fld := ⟨blkBase .eslh + 0x14, 0, 32⟩
/-! ESL_BP -/
def ESL_BP_COUNT : Fld := ⟨blkBase .eslh + 0x18, 0, 32⟩
/-! ESL_KILL -/
def ESL_KILL_TASK_ID : Fld := ⟨blkBase .eslh + 0x1C, 0, 32⟩
/-! ESL_HOST_SLOTS -/
def ESL_HOST_SLOTS_FIRST : Fld := ⟨blkBase .eslh + 0x20, 0, 16⟩
def ESL_HOST_SLOTS_COUNT : Fld := ⟨blkBase .eslh + 0x20, 16, 16⟩
/-! ESL_SPILL_IN -/
def ESL_SPILL_IN_FIRST : Fld := ⟨blkBase .eslh + 0x38, 0, 16⟩
def ESL_SPILL_IN_COUNT : Fld := ⟨blkBase .eslh + 0x38, 16, 16⟩
/-! ESL_SPILL_CFG -/
def ESL_SPILL_CFG_OUT_EN : Fld := ⟨blkBase .eslh + 0x30, 0, 1⟩
def ESL_SPILL_CFG_IN_EN : Fld := ⟨blkBase .eslh + 0x30, 1, 1⟩
def ESL_SPILL_CFG_ADV_US : Fld := ⟨blkBase .eslh + 0x30, 4, 12⟩
/-! ESL_SPILL_SLACK -/
def ESL_SPILL_SLACK_NS : Fld := ⟨blkBase .eslh + 0x34, 0, 32⟩
/-! ESL_SPILL_PEER -/
def ESL_SPILL_PEER_NODE (n : Nat) : Fld := ⟨blkBase .eslh + 0x40 + n * 0x4, 0, 14⟩
def ESL_SPILL_PEER_EN (n : Nat) : Fld := ⟨blkBase .eslh + 0x40 + n * 0x4, 14, 1⟩
/-! ESL_TRC_CTRL -/
def ESL_TRC_CTRL_EN : Fld := ⟨blkBase .eslh + 0x100, 0, 1⟩
def ESL_TRC_CTRL_SINK : Fld := ⟨blkBase .eslh + 0x100, 1, 1⟩
def ESL_TRC_CTRL_CODES : Fld := ⟨blkBase .eslh + 0x100, 8, 8⟩
def ESL_TRC_CTRL_SIZE : Fld := ⟨blkBase .eslh + 0x100, 16, 5⟩
/-! ESL_TRC_BASE_LO -/
def ESL_TRC_BASE_LO_BASE : Fld := ⟨blkBase .eslh + 0x104, 12, 20⟩
/-! ESL_TRC_BASE_HI -/
def ESL_TRC_BASE_HI_BASE : Fld := ⟨blkBase .eslh + 0x108, 0, 2⟩
/-! ESL_TRC_WR -/
def ESL_TRC_WR_WR : Fld := ⟨blkBase .eslh + 0x10C, 0, 26⟩
/-! ESL_TRC_RD -/
def ESL_TRC_RD_RD : Fld := ⟨blkBase .eslh + 0x110, 0, 26⟩
/-! ESL_TRC_LOST -/
def ESL_TRC_LOST_COUNT : Fld := ⟨blkBase .eslh + 0x114, 0, 32⟩
/-! ESL_CQ_BASE_LO -/
def ESL_CQ_BASE_LO_BASE (n : Nat) : Fld := ⟨blkBase .eslh + 0x200 + n * 0x10, 4, 28⟩
/-! ESL_CQ_BASE_HI -/
def ESL_CQ_BASE_HI_BASE (n : Nat) : Fld := ⟨blkBase .eslh + 0x204 + n * 0x10, 0, 10⟩
/-! ESL_CQ_CTRL -/
def ESL_CQ_CTRL_EN (n : Nat) : Fld := ⟨blkBase .eslh + 0x208 + n * 0x10, 0, 1⟩
def ESL_CQ_CTRL_SIZE (n : Nat) : Fld := ⟨blkBase .eslh + 0x208 + n * 0x10, 1, 4⟩
def ESL_CQ_CTRL_LOST (n : Nat) : Fld := ⟨blkBase .eslh + 0x208 + n * 0x10, 16, 16⟩
/-! ESL_CQ_PTR -/
def ESL_CQ_PTR_WR (n : Nat) : Fld := ⟨blkBase .eslh + 0x20C + n * 0x10, 0, 16⟩
def ESL_CQ_PTR_RD (n : Nat) : Fld := ⟨blkBase .eslh + 0x20C + n * 0x10, 16, 16⟩
/-! GST_ENG_STATUS -/
def GST_ENG_STATUS_BUSY (b : Nat) : Fld := ⟨b + 0x0, 0, 7⟩
def GST_ENG_STATUS_INFLIGHT (b : Nat) : Fld := ⟨b + 0x0, 8, 6⟩
def GST_ENG_STATUS_QUAR (b : Nat) : Fld := ⟨b + 0x0, 16, 1⟩
/-! GST_IRQ -/
def GST_IRQ_IRQ (b n : Nat) : Fld := ⟨b + 0x10 + n * 0x4, 0, 32⟩
/-! GST_REQ -/
def GST_REQ_REQ (b n : Nat) : Fld := ⟨b + 0x18 + n * 0x4, 0, 32⟩
/-! GST_SWREQ -/
def GST_SWREQ_LINE (b : Nat) : Fld := ⟨b + 0x20, 0, 16⟩
/-! GST_CWIN_BASE_LO -/
def GST_CWIN_BASE_LO_BASE (b n : Nat) : Fld := ⟨b + 0x100 + n * 0x10, 6, 26⟩
/-! GST_CWIN_BASE_HI -/
def GST_CWIN_BASE_HI_BASE (b n : Nat) : Fld := ⟨b + 0x104 + n * 0x10, 0, 10⟩
/-! GST_CWIN_LEN -/
def GST_CWIN_LEN_LEN (b n : Nat) : Fld := ⟨b + 0x108 + n * 0x10, 0, 24⟩
/-! GST_CH_CFG -/
def GST_CH_CFG_MODE (b n : Nat) : Fld := ⟨b + 0x1000 + n * 0x40, 0, 2⟩
def GST_CH_CFG_PRIO (b n : Nat) : Fld := ⟨b + 0x1000 + n * 0x40, 2, 3⟩
def GST_CH_CFG_BURST (b n : Nat) : Fld := ⟨b + 0x1000 + n * 0x40, 6, 3⟩
def GST_CH_CFG_REQ_EN (b n : Nat) : Fld := ⟨b + 0x1000 + n * 0x40, 9, 1⟩
def GST_CH_CFG_REQ_SIDE (b n : Nat) : Fld := ⟨b + 0x1000 + n * 0x40, 10, 1⟩
def GST_CH_CFG_REQ_LINE (b n : Nat) : Fld := ⟨b + 0x1000 + n * 0x40, 12, 6⟩
/-! GST_CH_CTRL -/
def GST_CH_CTRL_START (b n : Nat) : Fld := ⟨b + 0x1004 + n * 0x40, 0, 1⟩
def GST_CH_CTRL_STOP (b n : Nat) : Fld := ⟨b + 0x1004 + n * 0x40, 1, 1⟩
/-! GST_CH_STATUS -/
def GST_CH_STATUS_STATE (b n : Nat) : Fld := ⟨b + 0x1008 + n * 0x40, 0, 3⟩
def GST_CH_STATUS_ERR (b n : Nat) : Fld := ⟨b + 0x1008 + n * 0x40, 4, 4⟩
def GST_CH_STATUS_DONE (b n : Nat) : Fld := ⟨b + 0x1008 + n * 0x40, 8, 1⟩
def GST_CH_STATUS_CFG_ERR (b n : Nat) : Fld := ⟨b + 0x1008 + n * 0x40, 9, 1⟩
def GST_CH_STATUS_DESC_CNT (b n : Nat) : Fld := ⟨b + 0x1008 + n * 0x40, 16, 8⟩
/-! GST_CMP_RESULT -/
def GST_CMP_RESULT_RESULT (b n : Nat) : Fld := ⟨b + 0x100C + n * 0x40, 0, 32⟩
/-! GST_CH_PTR_LO -/
def GST_CH_PTR_LO_ADDR (b n : Nat) : Fld := ⟨b + 0x1010 + n * 0x40, 6, 26⟩
/-! GST_CH_PTR_HI -/
def GST_CH_PTR_HI_ADDR (b n : Nat) : Fld := ⟨b + 0x1014 + n * 0x40, 0, 10⟩
/-! GST_CH_CUR_LO -/
def GST_CH_CUR_LO_ADDR (b n : Nat) : Fld := ⟨b + 0x1018 + n * 0x40, 6, 26⟩
/-! GST_CH_CUR_HI -/
def GST_CH_CUR_HI_ADDR (b n : Nat) : Fld := ⟨b + 0x101C + n * 0x40, 0, 10⟩
/-! GST_CH_BYTES -/
def GST_CH_BYTES_BYTES (b n : Nat) : Fld := ⟨b + 0x1020 + n * 0x40, 0, 32⟩
/-! FFT_STATUS -/
def FFT_STATUS_QUEUED (r e : Nat) : Fld := ⟨blkBase (.fft r e) + 0x0, 0, 5⟩
def FFT_STATUS_BUSY (r e : Nat) : Fld := ⟨blkBase (.fft r e) + 0x0, 5, 1⟩
def FFT_STATUS_QUAR (r e : Nat) : Fld := ⟨blkBase (.fft r e) + 0x0, 6, 1⟩
def FFT_STATUS_PARKED (r e : Nat) : Fld := ⟨blkBase (.fft r e) + 0x0, 7, 1⟩
/-! FFT_ALERT -/
def FFT_ALERT_ERROR (r e : Nat) : Fld := ⟨blkBase (.fft r e) + 0x4, 0, 1⟩
def FFT_ALERT_KILLED (r e : Nat) : Fld := ⟨blkBase (.fft r e) + 0x4, 1, 1⟩
def FFT_ALERT_FAULT (r e : Nat) : Fld := ⟨blkBase (.fft r e) + 0x4, 2, 1⟩
def FFT_ALERT_SAT (r e : Nat) : Fld := ⟨blkBase (.fft r e) + 0x4, 3, 1⟩
def FFT_ALERT_HARQ (r e : Nat) : Fld := ⟨blkBase (.fft r e) + 0x4, 4, 1⟩
def FFT_ALERT_CFG (r e : Nat) : Fld := ⟨blkBase (.fft r e) + 0x4, 5, 1⟩
/-! FFT_ALERT_EN -/
def FFT_ALERT_EN_EN (r e : Nat) : Fld := ⟨blkBase (.fft r e) + 0x8, 0, 6⟩
/-! FFT_LAST_ERR -/
def FFT_LAST_ERR_CODE (r e : Nat) : Fld := ⟨blkBase (.fft r e) + 0xC, 0, 3⟩
def FFT_LAST_ERR_SLOT (r e : Nat) : Fld := ⟨blkBase (.fft r e) + 0xC, 16, 16⟩
/-! DEC_STATUS -/
def DEC_STATUS_QUEUED (r : Nat) : Fld := ⟨blkBase (.dec r) + 0x0, 0, 5⟩
def DEC_STATUS_BUSY (r : Nat) : Fld := ⟨blkBase (.dec r) + 0x0, 5, 1⟩
def DEC_STATUS_QUAR (r : Nat) : Fld := ⟨blkBase (.dec r) + 0x0, 6, 1⟩
def DEC_STATUS_PARKED (r : Nat) : Fld := ⟨blkBase (.dec r) + 0x0, 7, 1⟩
/-! DEC_ALERT -/
def DEC_ALERT_ERROR (r : Nat) : Fld := ⟨blkBase (.dec r) + 0x4, 0, 1⟩
def DEC_ALERT_KILLED (r : Nat) : Fld := ⟨blkBase (.dec r) + 0x4, 1, 1⟩
def DEC_ALERT_FAULT (r : Nat) : Fld := ⟨blkBase (.dec r) + 0x4, 2, 1⟩
def DEC_ALERT_SAT (r : Nat) : Fld := ⟨blkBase (.dec r) + 0x4, 3, 1⟩
def DEC_ALERT_HARQ (r : Nat) : Fld := ⟨blkBase (.dec r) + 0x4, 4, 1⟩
def DEC_ALERT_CFG (r : Nat) : Fld := ⟨blkBase (.dec r) + 0x4, 5, 1⟩
/-! DEC_ALERT_EN -/
def DEC_ALERT_EN_EN (r : Nat) : Fld := ⟨blkBase (.dec r) + 0x8, 0, 6⟩
/-! DEC_LAST_ERR -/
def DEC_LAST_ERR_CODE (r : Nat) : Fld := ⟨blkBase (.dec r) + 0xC, 0, 3⟩
def DEC_LAST_ERR_SLOT (r : Nat) : Fld := ⟨blkBase (.dec r) + 0xC, 16, 16⟩
/-! ENC_STATUS -/
def ENC_STATUS_QUEUED (r : Nat) : Fld := ⟨blkBase (.enc r) + 0x0, 0, 5⟩
def ENC_STATUS_BUSY (r : Nat) : Fld := ⟨blkBase (.enc r) + 0x0, 5, 1⟩
def ENC_STATUS_QUAR (r : Nat) : Fld := ⟨blkBase (.enc r) + 0x0, 6, 1⟩
def ENC_STATUS_PARKED (r : Nat) : Fld := ⟨blkBase (.enc r) + 0x0, 7, 1⟩
/-! ENC_ALERT -/
def ENC_ALERT_ERROR (r : Nat) : Fld := ⟨blkBase (.enc r) + 0x4, 0, 1⟩
def ENC_ALERT_KILLED (r : Nat) : Fld := ⟨blkBase (.enc r) + 0x4, 1, 1⟩
def ENC_ALERT_FAULT (r : Nat) : Fld := ⟨blkBase (.enc r) + 0x4, 2, 1⟩
def ENC_ALERT_SAT (r : Nat) : Fld := ⟨blkBase (.enc r) + 0x4, 3, 1⟩
def ENC_ALERT_HARQ (r : Nat) : Fld := ⟨blkBase (.enc r) + 0x4, 4, 1⟩
def ENC_ALERT_CFG (r : Nat) : Fld := ⟨blkBase (.enc r) + 0x4, 5, 1⟩
/-! ENC_ALERT_EN -/
def ENC_ALERT_EN_EN (r : Nat) : Fld := ⟨blkBase (.enc r) + 0x8, 0, 6⟩
/-! ENC_LAST_ERR -/
def ENC_LAST_ERR_CODE (r : Nat) : Fld := ⟨blkBase (.enc r) + 0xC, 0, 3⟩
def ENC_LAST_ERR_SLOT (r : Nat) : Fld := ⟨blkBase (.enc r) + 0xC, 16, 16⟩
/-! FFT_TASKS -/
def FFT_TASKS_COUNT (r e : Nat) : Fld := ⟨blkBase (.fft r e) + 0x10, 0, 32⟩
/-! FFT_SAT -/
def FFT_SAT_COUNT (r e : Nat) : Fld := ⟨blkBase (.fft r e) + 0x14, 0, 32⟩
/-! DEC_HARQ_BASE_LO -/
def DEC_HARQ_BASE_LO_BASE (r : Nat) : Fld := ⟨blkBase (.dec r) + 0x20, 24, 8⟩
/-! DEC_HARQ_BASE_HI -/
def DEC_HARQ_BASE_HI_BASE (r : Nat) : Fld := ⟨blkBase (.dec r) + 0x24, 0, 2⟩
/-! DEC_HARQ_CTRL -/
def DEC_HARQ_CTRL_EN (r : Nat) : Fld := ⟨blkBase (.dec r) + 0x28, 0, 1⟩
/-! DEC_CB -/
def DEC_CB_COUNT (r : Nat) : Fld := ⟨blkBase (.dec r) + 0x30, 0, 32⟩
/-! DEC_CB_FAIL -/
def DEC_CB_FAIL_COUNT (r : Nat) : Fld := ⟨blkBase (.dec r) + 0x34, 0, 32⟩
/-! DEC_ITER -/
def DEC_ITER_COUNT (r : Nat) : Fld := ⟨blkBase (.dec r) + 0x38, 0, 32⟩
/-! ENC_CB -/
def ENC_CB_COUNT (r : Nat) : Fld := ⟨blkBase (.enc r) + 0x30, 0, 32⟩
/-! NCE_STATUS -/
def NCE_STATUS_UNITS : Fld := ⟨blkBase .nce + 0x0, 0, 11⟩
def NCE_STATUS_CFG_ERR : Fld := ⟨blkBase .nce + 0x0, 16, 1⟩
def NCE_STATUS_START_FAIL : Fld := ⟨blkBase .nce + 0x0, 17, 1⟩
def NCE_STATUS_CAUSE : Fld := ⟨blkBase .nce + 0x0, 18, 3⟩
def NCE_STATUS_GROUP : Fld := ⟨blkBase .nce + 0x0, 21, 6⟩
def NCE_STATUS_QUAR : Fld := ⟨blkBase .nce + 0x0, 31, 1⟩
/-! NCE_CAPTURE_DB -/
def NCE_CAPTURE_DB_DB : Fld := ⟨blkBase .nce + 0x4, 0, 5⟩
/-! NCE_LULL -/
def NCE_LULL_LULL_SYMBOLS : Fld := ⟨blkBase .nce + 0x8, 0, 13⟩
/-! NCE_CH_CMD -/
def NCE_CH_CMD_CHANNEL : Fld := ⟨blkBase .nce + 0xC, 0, 11⟩
def NCE_CH_CMD_ABORT : Fld := ⟨blkBase .nce + 0xC, 16, 1⟩
/-! NCE_CAP_CFG -/
def NCE_CAP_CFG_EN (n : Nat) : Fld := ⟨blkBase .nce + 0x100 + n * 0x20, 0, 1⟩
def NCE_CAP_CFG_RATE (n : Nat) : Fld := ⟨blkBase .nce + 0x100 + n * 0x20, 1, 25⟩
/-! NCE_CAP_T0_LO -/
def NCE_CAP_T0_LO_T0 (n : Nat) : Fld := ⟨blkBase .nce + 0x104 + n * 0x20, 0, 32⟩
/-! NCE_CAP_T0_HI -/
def NCE_CAP_T0_HI_T0 (n : Nat) : Fld := ⟨blkBase .nce + 0x108 + n * 0x20, 0, 32⟩
/-! NCE_CAP_T0_FRAC -/
def NCE_CAP_T0_FRAC_FRAC (n : Nat) : Fld := ⟨blkBase .nce + 0x10C + n * 0x20, 0, 16⟩
/-! NCE_CAP_STALL -/
def NCE_CAP_STALL_STALL_US (n : Nat) : Fld := ⟨blkBase .nce + 0x110 + n * 0x20, 0, 16⟩
/-! NCE_CAP_CNT_LO -/
def NCE_CAP_CNT_LO_CNT (n : Nat) : Fld := ⟨blkBase .nce + 0x114 + n * 0x20, 0, 32⟩
/-! NCE_CAP_CNT_HI -/
def NCE_CAP_CNT_HI_CNT (n : Nat) : Fld := ⟨blkBase .nce + 0x118 + n * 0x20, 0, 32⟩
/-! NCE_TX_CFG -/
def NCE_TX_CFG_EN (n : Nat) : Fld := ⟨blkBase .nce + 0x200 + n * 0x20, 0, 1⟩
def NCE_TX_CFG_RATE (n : Nat) : Fld := ⟨blkBase .nce + 0x200 + n * 0x20, 1, 25⟩
def NCE_TX_CFG_NBIAS (n : Nat) : Fld := ⟨blkBase .nce + 0x200 + n * 0x20, 26, 3⟩
/-! NCE_TX_T0_LO -/
def NCE_TX_T0_LO_T0 (n : Nat) : Fld := ⟨blkBase .nce + 0x204 + n * 0x20, 0, 32⟩
/-! NCE_TX_T0_HI -/
def NCE_TX_T0_HI_T0 (n : Nat) : Fld := ⟨blkBase .nce + 0x208 + n * 0x20, 0, 32⟩
/-! NCE_TX_T0_FRAC -/
def NCE_TX_T0_FRAC_FRAC (n : Nat) : Fld := ⟨blkBase .nce + 0x20C + n * 0x20, 0, 16⟩
/-! NCE_TX_SAT -/
def NCE_TX_SAT_SAT (n : Nat) : Fld := ⟨blkBase .nce + 0x210 + n * 0x20, 0, 32⟩
/-! NCE_TX_CNT_LO -/
def NCE_TX_CNT_LO_CNT (n : Nat) : Fld := ⟨blkBase .nce + 0x214 + n * 0x20, 0, 32⟩
/-! NCE_TX_CNT_HI -/
def NCE_TX_CNT_HI_CNT (n : Nat) : Fld := ⟨blkBase .nce + 0x218 + n * 0x20, 0, 32⟩
/-! NCE_PROF_MOD -/
def NCE_PROF_MOD_MOD (n : Nat) : Fld := ⟨blkBase .nce + 0x1000 + n * 0x40, 0, 1⟩
def NCE_PROF_MOD_BT (n : Nat) : Fld := ⟨blkBase .nce + 0x1000 + n * 0x40, 2, 4⟩
def NCE_PROF_MOD_PULSE (n : Nat) : Fld := ⟨blkBase .nce + 0x1000 + n * 0x40, 6, 3⟩
def NCE_PROF_MOD_EQ (n : Nat) : Fld := ⟨blkBase .nce + 0x1000 + n * 0x40, 9, 1⟩
def NCE_PROF_MOD_BURST (n : Nat) : Fld := ⟨blkBase .nce + 0x1000 + n * 0x40, 10, 1⟩
def NCE_PROF_MOD_DEV (n : Nat) : Fld := ⟨blkBase .nce + 0x1000 + n * 0x40, 12, 16⟩
/-! NCE_PROF_RATE -/
def NCE_PROF_RATE_SYM_RATE3 (n : Nat) : Fld := ⟨blkBase .nce + 0x1004 + n * 0x40, 0, 20⟩
/-! NCE_PROF_SYNC -/
def NCE_PROF_SYNC_SYNC_LEN (n : Nat) : Fld := ⟨blkBase .nce + 0x1008 + n * 0x40, 0, 6⟩
def NCE_PROF_SYNC_SYNC_THR (n : Nat) : Fld := ⟨blkBase .nce + 0x1008 + n * 0x40, 8, 8⟩
def NCE_PROF_SYNC_ATTACK (n : Nat) : Fld := ⟨blkBase .nce + 0x1008 + n * 0x40, 16, 5⟩
def NCE_PROF_SYNC_TARGET (n : Nat) : Fld := ⟨blkBase .nce + 0x1008 + n * 0x40, 22, 6⟩
/-! NCE_PROF_HDR -/
def NCE_PROF_HDR_HDR_SYMS (n : Nat) : Fld := ⟨blkBase .nce + 0x1018 + n * 0x40, 0, 7⟩
def NCE_PROF_HDR_HDR_OFS (n : Nat) : Fld := ⟨blkBase .nce + 0x1018 + n * 0x40, 8, 7⟩
def NCE_PROF_HDR_SKIP (n : Nat) : Fld := ⟨blkBase .nce + 0x1018 + n * 0x40, 16, 6⟩
/-! NCE_PROF_LEN -/
def NCE_PROF_LEN_FRAME_SYMS (n : Nat) : Fld := ⟨blkBase .nce + 0x1020 + n * 0x40, 0, 16⟩
def NCE_PROF_LEN_LEN_POS (n : Nat) : Fld := ⟨blkBase .nce + 0x1020 + n * 0x40, 16, 6⟩
def NCE_PROF_LEN_LEN_BITS (n : Nat) : Fld := ⟨blkBase .nce + 0x1020 + n * 0x40, 22, 4⟩
def NCE_PROF_LEN_LEN_UNIT (n : Nat) : Fld := ⟨blkBase .nce + 0x1020 + n * 0x40, 26, 6⟩
/-! NCE_PROF_PAY -/
def NCE_PROF_PAY_PAY_BLOCKS (n : Nat) : Fld := ⟨blkBase .nce + 0x1028 + n * 0x40, 0, 6⟩
def NCE_PROF_PAY_INTLV (n : Nat) : Fld := ⟨blkBase .nce + 0x1028 + n * 0x40, 6, 2⟩
def NCE_PROF_PAY_ROWS (n : Nat) : Fld := ⟨blkBase .nce + 0x1028 + n * 0x40, 8, 6⟩
def NCE_PROF_PAY_COLS (n : Nat) : Fld := ⟨blkBase .nce + 0x1028 + n * 0x40, 14, 6⟩
def NCE_PROF_PAY_DEPTH (n : Nat) : Fld := ⟨blkBase .nce + 0x1028 + n * 0x40, 20, 3⟩
/-! NCE_PROF_WIN -/
def NCE_PROF_WIN_WIN_SYMS (n : Nat) : Fld := ⟨blkBase .nce + 0x102C + n * 0x40, 0, 9⟩
/-! NCE_PULSE -/
def NCE_PULSE_COEF (j i : Nat) : Fld := ⟨blkBase .nce + 0x2000 + j * 0x100 + i * 0x4, 0, 16⟩
/-! NCE_PROF_SW0 -/
def NCE_PROF_SW0_SW (n : Nat) : Fld := ⟨blkBase .nce + 0x100C + n * 0x40, 0, 32⟩
/-! NCE_PROF_SW1 -/
def NCE_PROF_SW1_SW (n : Nat) : Fld := ⟨blkBase .nce + 0x1010 + n * 0x40, 0, 32⟩
/-! NCE_PROF_SW2 -/
def NCE_PROF_SW2_SW (n : Nat) : Fld := ⟨blkBase .nce + 0x1014 + n * 0x40, 0, 32⟩
/-! NCE_PROF_HCODE -/
def NCE_PROF_HCODE_CODE (n : Nat) : Fld := ⟨blkBase .nce + 0x101C + n * 0x40, 0, 3⟩
def NCE_PROF_HCODE_N (n : Nat) : Fld := ⟨blkBase .nce + 0x101C + n * 0x40, 3, 8⟩
def NCE_PROF_HCODE_K (n : Nat) : Fld := ⟨blkBase .nce + 0x101C + n * 0x40, 11, 8⟩
def NCE_PROF_HCODE_CHASE (n : Nat) : Fld := ⟨blkBase .nce + 0x101C + n * 0x40, 19, 1⟩
def NCE_PROF_HCODE_FCR (n : Nat) : Fld := ⟨blkBase .nce + 0x101C + n * 0x40, 20, 1⟩
def NCE_PROF_HCODE_ERASE (n : Nat) : Fld := ⟨blkBase .nce + 0x101C + n * 0x40, 21, 3⟩
/-! NCE_PROF_PCODE -/
def NCE_PROF_PCODE_CODE (n : Nat) : Fld := ⟨blkBase .nce + 0x1024 + n * 0x40, 0, 3⟩
def NCE_PROF_PCODE_N (n : Nat) : Fld := ⟨blkBase .nce + 0x1024 + n * 0x40, 3, 8⟩
def NCE_PROF_PCODE_K (n : Nat) : Fld := ⟨blkBase .nce + 0x1024 + n * 0x40, 11, 8⟩
def NCE_PROF_PCODE_CHASE (n : Nat) : Fld := ⟨blkBase .nce + 0x1024 + n * 0x40, 19, 1⟩
def NCE_PROF_PCODE_FCR (n : Nat) : Fld := ⟨blkBase .nce + 0x1024 + n * 0x40, 20, 1⟩
def NCE_PROF_PCODE_ERASE (n : Nat) : Fld := ⟨blkBase .nce + 0x1024 + n * 0x40, 21, 3⟩
/-! NCE_CH_CFG -/
def NCE_CH_CFG_RX_EN (n : Nat) : Fld := ⟨blkBase .nce + 0x10000 + n * 0x20, 0, 1⟩
def NCE_CH_CFG_TX_EN (n : Nat) : Fld := ⟨blkBase .nce + 0x10000 + n * 0x20, 1, 1⟩
def NCE_CH_CFG_STREAM (n : Nat) : Fld := ⟨blkBase .nce + 0x10000 + n * 0x20, 2, 2⟩
def NCE_CH_CFG_TX_STREAM (n : Nat) : Fld := ⟨blkBase .nce + 0x10000 + n * 0x20, 4, 2⟩
def NCE_CH_CFG_SPACING (n : Nat) : Fld := ⟨blkBase .nce + 0x10000 + n * 0x20, 6, 2⟩
def NCE_CH_CFG_PROF (n : Nat) : Fld := ⟨blkBase .nce + 0x10000 + n * 0x20, 8, 5⟩
/-! NCE_CH_FREQ -/
def NCE_CH_FREQ_FREQ (n : Nat) : Fld := ⟨blkBase .nce + 0x10004 + n * 0x20, 0, 25⟩
/-! NCE_CH_TX -/
def NCE_CH_TX_TX_ATT (n : Nat) : Fld := ⟨blkBase .nce + 0x10008 + n * 0x20, 0, 7⟩
def NCE_CH_TX_RAMP (n : Nat) : Fld := ⟨blkBase .nce + 0x10008 + n * 0x20, 7, 4⟩
/-! NCE_CH_BURST -/
def NCE_CH_BURST_PERIOD_QS (n : Nat) : Fld := ⟨blkBase .nce + 0x1000C + n * 0x20, 0, 16⟩
def NCE_CH_BURST_SLOT_MASK (n : Nat) : Fld := ⟨blkBase .nce + 0x1000C + n * 0x20, 16, 8⟩
/-! NCE_CH_BT0_LO -/
def NCE_CH_BT0_LO_BT0 (n : Nat) : Fld := ⟨blkBase .nce + 0x10010 + n * 0x20, 0, 32⟩
/-! NCE_CH_BT0_HI -/
def NCE_CH_BT0_HI_BT0 (n : Nat) : Fld := ⟨blkBase .nce + 0x10014 + n * 0x20, 0, 32⟩
/-! NCE_CH_STATE -/
def NCE_CH_STATE_STATE (n : Nat) : Fld := ⟨blkBase .nce + 0x10018 + n * 0x20, 0, 3⟩
def NCE_CH_STATE_GAIN (n : Nat) : Fld := ⟨blkBase .nce + 0x10018 + n * 0x20, 4, 7⟩
def NCE_CH_STATE_LULL (n : Nat) : Fld := ⟨blkBase .nce + 0x10018 + n * 0x20, 16, 13⟩
/-! NCE_NOISE_FLOOR -/
def NCE_NOISE_FLOOR_FLOOR (n : Nat) : Fld := ⟨blkBase .nce + 0x1001C + n * 0x20, 0, 12⟩
/-! NCE_GRP_RX_BASE_LO -/
def NCE_GRP_RX_BASE_LO_BASE (n : Nat) : Fld := ⟨blkBase .nce + 0x20000 + n * 0x40, 6, 26⟩
/-! NCE_GRP_RX_BASE_HI -/
def NCE_GRP_RX_BASE_HI_BASE (n : Nat) : Fld := ⟨blkBase .nce + 0x20004 + n * 0x40, 0, 10⟩
/-! NCE_GRP_RX_CTRL -/
def NCE_GRP_RX_CTRL_EN (n : Nat) : Fld := ⟨blkBase .nce + 0x20008 + n * 0x40, 0, 1⟩
def NCE_GRP_RX_CTRL_SIZE (n : Nat) : Fld := ⟨blkBase .nce + 0x20008 + n * 0x40, 1, 4⟩
def NCE_GRP_RX_CTRL_REPORT_FALSE (n : Nat) : Fld := ⟨blkBase .nce + 0x20008 + n * 0x40, 5, 1⟩
/-! NCE_GRP_RX_PTR -/
def NCE_GRP_RX_PTR_WR (n : Nat) : Fld := ⟨blkBase .nce + 0x2000C + n * 0x40, 0, 16⟩
def NCE_GRP_RX_PTR_RD (n : Nat) : Fld := ⟨blkBase .nce + 0x2000C + n * 0x40, 16, 16⟩
/-! NCE_GRP_SOFT_BASE_LO -/
def NCE_GRP_SOFT_BASE_LO_BASE (n : Nat) : Fld := ⟨blkBase .nce + 0x20010 + n * 0x40, 6, 26⟩
/-! NCE_GRP_SOFT_BASE_HI -/
def NCE_GRP_SOFT_BASE_HI_BASE (n : Nat) : Fld := ⟨blkBase .nce + 0x20014 + n * 0x40, 0, 10⟩
/-! NCE_GRP_SOFT_CTRL -/
def NCE_GRP_SOFT_CTRL_EN (n : Nat) : Fld := ⟨blkBase .nce + 0x20018 + n * 0x40, 0, 1⟩
def NCE_GRP_SOFT_CTRL_SIZE (n : Nat) : Fld := ⟨blkBase .nce + 0x20018 + n * 0x40, 1, 4⟩
/-! NCE_GRP_SOFT_PTR -/
def NCE_GRP_SOFT_PTR_WR (n : Nat) : Fld := ⟨blkBase .nce + 0x2001C + n * 0x40, 0, 16⟩
def NCE_GRP_SOFT_PTR_RD (n : Nat) : Fld := ⟨blkBase .nce + 0x2001C + n * 0x40, 16, 16⟩
/-! NCE_GRP_TX_BASE_LO -/
def NCE_GRP_TX_BASE_LO_BASE (n : Nat) : Fld := ⟨blkBase .nce + 0x20020 + n * 0x40, 5, 27⟩
/-! NCE_GRP_TX_BASE_HI -/
def NCE_GRP_TX_BASE_HI_BASE (n : Nat) : Fld := ⟨blkBase .nce + 0x20024 + n * 0x40, 0, 10⟩
/-! NCE_GRP_TX_CTRL -/
def NCE_GRP_TX_CTRL_EN (n : Nat) : Fld := ⟨blkBase .nce + 0x20028 + n * 0x40, 0, 1⟩
def NCE_GRP_TX_CTRL_SIZE (n : Nat) : Fld := ⟨blkBase .nce + 0x20028 + n * 0x40, 1, 4⟩
/-! NCE_GRP_TX_PTR -/
def NCE_GRP_TX_PTR_WR (n : Nat) : Fld := ⟨blkBase .nce + 0x2002C + n * 0x40, 0, 16⟩
def NCE_GRP_TX_PTR_RD (n : Nat) : Fld := ⟨blkBase .nce + 0x2002C + n * 0x40, 16, 16⟩
/-! NCE_GRP_BUDGET -/
def NCE_GRP_BUDGET_MS (n : Nat) : Fld := ⟨blkBase .nce + 0x20030 + n * 0x40, 0, 16⟩
/-! NCE_GRP_CNT1 -/
def NCE_GRP_CNT1_FRAMES (n : Nat) : Fld := ⟨blkBase .nce + 0x20034 + n * 0x40, 0, 32⟩
/-! NCE_GRP_CNT2 -/
def NCE_GRP_CNT2_FALSE (n : Nat) : Fld := ⟨blkBase .nce + 0x20038 + n * 0x40, 0, 16⟩
def NCE_GRP_CNT2_PREEMPT (n : Nat) : Fld := ⟨blkBase .nce + 0x20038 + n * 0x40, 16, 16⟩
/-! NCE_GRP_CNT3 -/
def NCE_GRP_CNT3_LOST (n : Nat) : Fld := ⟨blkBase .nce + 0x2003C + n * 0x40, 0, 16⟩
def NCE_GRP_CNT3_TXLATE (n : Nat) : Fld := ⟨blkBase .nce + 0x2003C + n * 0x40, 16, 16⟩
/-! FH_PORT_CFG -/
def FH_PORT_CFG_MODE (p : Nat) : Fld := ⟨blkBase (.fh p) + 0x0, 0, 3⟩
def FH_PORT_CFG_FEC_OFF (p : Nat) : Fld := ⟨blkBase (.fh p) + 0x0, 3, 1⟩
def FH_PORT_CFG_TRUSTED (p : Nat) : Fld := ⟨blkBase (.fh p) + 0x0, 4, 1⟩
def FH_PORT_CFG_PROFILE (p : Nat) : Fld := ⟨blkBase (.fh p) + 0x0, 5, 1⟩
def FH_PORT_CFG_PCP (p : Nat) : Fld := ⟨blkBase (.fh p) + 0x0, 6, 3⟩
def FH_PORT_CFG_VLAN (p : Nat) : Fld := ⟨blkBase (.fh p) + 0x0, 9, 12⟩
def FH_PORT_CFG_MAX_DAB (p : Nat) : Fld := ⟨blkBase (.fh p) + 0x0, 21, 9⟩
/-! FH_PORT_STATUS -/
def FH_PORT_STATUS_LINK (p : Nat) : Fld := ⟨blkBase (.fh p) + 0x4, 0, 1⟩
def FH_PORT_STATUS_TS_VALID (p : Nat) : Fld := ⟨blkBase (.fh p) + 0x4, 1, 1⟩
def FH_PORT_STATUS_CFG_ERR (p : Nat) : Fld := ⟨blkBase (.fh p) + 0x4, 2, 1⟩
/-! FH_MAC_LO -/
def FH_MAC_LO_MAC (p : Nat) : Fld := ⟨blkBase (.fh p) + 0x8, 0, 32⟩
/-! FH_MAC_HI -/
def FH_MAC_HI_MAC (p : Nat) : Fld := ⟨blkBase (.fh p) + 0xC, 0, 16⟩
/-! FH_TS_BOARD_RX -/
def FH_TS_BOARD_RX_B (p : Nat) : Fld := ⟨blkBase (.fh p) + 0x10, 0, 24⟩
/-! FH_TS_BOARD_TX -/
def FH_TS_BOARD_TX_B (p : Nat) : Fld := ⟨blkBase (.fh p) + 0x14, 0, 24⟩
/-! FH_TS_CAL_RX -/
def FH_TS_CAL_RX_C (p : Nat) : Fld := ⟨blkBase (.fh p) + 0x18, 0, 24⟩
/-! FH_TS_CAL_TX -/
def FH_TS_CAL_TX_C (p : Nat) : Fld := ⟨blkBase (.fh p) + 0x1C, 0, 24⟩
/-! FH_TS_VAR_RX -/
def FH_TS_VAR_RX_V (p : Nat) : Fld := ⟨blkBase (.fh p) + 0x20, 0, 21⟩
/-! FH_TS_VAR_TX -/
def FH_TS_VAR_TX_V (p : Nat) : Fld := ⟨blkBase (.fh p) + 0x24, 0, 21⟩
/-! FH_TXRDY -/
def FH_TXRDY_CARRIER (p : Nat) : Fld := ⟨blkBase (.fh p) + 0x40, 0, 6⟩
def FH_TXRDY_QUEUE (p : Nat) : Fld := ⟨blkBase (.fh p) + 0x40, 6, 2⟩
def FH_TXRDY_SYMBOL (p : Nat) : Fld := ⟨blkBase (.fh p) + 0x40, 8, 4⟩
def FH_TXRDY_SLOT (p : Nat) : Fld := ⟨blkBase (.fh p) + 0x40, 12, 6⟩
def FH_TXRDY_SFN (p : Nat) : Fld := ⟨blkBase (.fh p) + 0x40, 18, 4⟩
/-! FH_TSCAP_CTRL -/
def FH_TSCAP_CTRL_ENTRY (p : Nat) : Fld := ⟨blkBase (.fh p) + 0x50, 0, 9⟩
def FH_TSCAP_CTRL_ARM (p : Nat) : Fld := ⟨blkBase (.fh p) + 0x50, 9, 1⟩
def FH_TSCAP_CTRL_VALID (p : Nat) : Fld := ⟨blkBase (.fh p) + 0x50, 10, 1⟩
/-! FH_TSCAP_NS_LO -/
def FH_TSCAP_NS_LO_NS (p : Nat) : Fld := ⟨blkBase (.fh p) + 0x54, 0, 32⟩
/-! FH_TSCAP_NS_HI -/
def FH_TSCAP_NS_HI_NS (p : Nat) : Fld := ⟨blkBase (.fh p) + 0x58, 0, 32⟩
/-! FH_TSCAP_FRAC -/
def FH_TSCAP_FRAC_FRAC (p : Nat) : Fld := ⟨blkBase (.fh p) + 0x5C, 0, 16⟩
/-! FH_PTP_TXTS_TAG -/
def FH_PTP_TXTS_TAG_TAG (p : Nat) : Fld := ⟨blkBase (.fh p) + 0x60, 0, 8⟩
def FH_PTP_TXTS_TAG_VALID (p : Nat) : Fld := ⟨blkBase (.fh p) + 0x60, 8, 1⟩
def FH_PTP_TXTS_TAG_LOST (p : Nat) : Fld := ⟨blkBase (.fh p) + 0x60, 9, 7⟩
/-! FH_PTP_TXTS_NS_LO -/
def FH_PTP_TXTS_NS_LO_NS (p : Nat) : Fld := ⟨blkBase (.fh p) + 0x64, 0, 32⟩
/-! FH_PTP_TXTS_NS_HI -/
def FH_PTP_TXTS_NS_HI_NS (p : Nat) : Fld := ⟨blkBase (.fh p) + 0x68, 0, 32⟩
/-! FH_PTP_TXTS_FRAC -/
def FH_PTP_TXTS_FRAC_FRAC (p : Nat) : Fld := ⟨blkBase (.fh p) + 0x6C, 0, 16⟩
/-! FH_SYNCE -/
def FH_SYNCE_EN (p : Nat) : Fld := ⟨blkBase (.fh p) + 0x70, 0, 1⟩
def FH_SYNCE_PORT (p : Nat) : Fld := ⟨blkBase (.fh p) + 0x70, 1, 4⟩
def FH_SYNCE_SQUELCHED (p : Nat) : Fld := ⟨blkBase (.fh p) + 0x70, 5, 1⟩
/-! FH_MGMT_PTR -/
def FH_MGMT_PTR_RX (p : Nat) : Fld := ⟨blkBase (.fh p) + 0x74, 0, 16⟩
def FH_MGMT_PTR_TX (p : Nat) : Fld := ⟨blkBase (.fh p) + 0x74, 16, 16⟩
/-! FH_RX_EARLY -/
def FH_RX_EARLY_COUNT (p : Nat) : Fld := ⟨blkBase (.fh p) + 0x80, 0, 32⟩
/-! FH_RX_EARLY_DROP -/
def FH_RX_EARLY_DROP_COUNT (p : Nat) : Fld := ⟨blkBase (.fh p) + 0x84, 0, 32⟩
/-! FH_RX_LATE -/
def FH_RX_LATE_COUNT (p : Nat) : Fld := ⟨blkBase (.fh p) + 0x88, 0, 32⟩
/-! FH_RX_OVF -/
def FH_RX_OVF_COUNT (p : Nat) : Fld := ⟨blkBase (.fh p) + 0x8C, 0, 32⟩
/-! FH_RX_SEQERR -/
def FH_RX_SEQERR_COUNT (p : Nat) : Fld := ⟨blkBase (.fh p) + 0x90, 0, 32⟩
/-! FH_RX_EXPBAD -/
def FH_RX_EXPBAD_COUNT (p : Nat) : Fld := ⟨blkBase (.fh p) + 0x94, 0, 32⟩
/-! FH_RX_UNMATCHED -/
def FH_RX_UNMATCHED_COUNT (p : Nat) : Fld := ⟨blkBase (.fh p) + 0x98, 0, 32⟩
/-! FH_TX_LATE -/
def FH_TX_LATE_COUNT (p : Nat) : Fld := ⟨blkBase (.fh p) + 0x9C, 0, 32⟩
/-! FH_TX_UNDERRUN -/
def FH_TX_UNDERRUN_COUNT (p : Nat) : Fld := ⟨blkBase (.fh p) + 0xA0, 0, 32⟩
/-! FH_WIN_EARLY -/
def FH_WIN_EARLY_EARLY_NS (p n : Nat) : Fld := ⟨blkBase (.fh p) + 0x100 + n * 0x10, 0, 32⟩
/-! FH_WIN_LATE -/
def FH_WIN_LATE_LATE_NS (p n : Nat) : Fld := ⟨blkBase (.fh p) + 0x104 + n * 0x10, 0, 32⟩
/-! FH_WIN_GUARD -/
def FH_WIN_GUARD_GUARD_NS (p n : Nat) : Fld := ⟨blkBase (.fh p) + 0x108 + n * 0x10, 0, 32⟩
/-! FH_WIN_DADV -/
def FH_WIN_DADV_DADV_NS (p n : Nat) : Fld := ⟨blkBase (.fh p) + 0x10C + n * 0x10, 0, 32⟩
/-! FH_STRM_CFG -/
def FH_STRM_CFG_PC_ID (p n : Nat) : Fld := ⟨blkBase (.fh p) + 0x1000 + n * 0x8, 0, 16⟩
def FH_STRM_CFG_CARRIER (p n : Nat) : Fld := ⟨blkBase (.fh p) + 0x1000 + n * 0x8, 16, 6⟩
def FH_STRM_CFG_DIR (p n : Nat) : Fld := ⟨blkBase (.fh p) + 0x1000 + n * 0x8, 22, 1⟩
def FH_STRM_CFG_EN (p n : Nat) : Fld := ⟨blkBase (.fh p) + 0x1000 + n * 0x8, 23, 1⟩
def FH_STRM_CFG_WIN (p n : Nat) : Fld := ⟨blkBase (.fh p) + 0x1000 + n * 0x8, 24, 3⟩
def FH_STRM_CFG_SR_DIV (p n : Nat) : Fld := ⟨blkBase (.fh p) + 0x1000 + n * 0x8, 27, 2⟩
/-! FH_STRM_STAT -/
def FH_STRM_STAT_LAST_SEQ (p n : Nat) : Fld := ⟨blkBase (.fh p) + 0x1004 + n * 0x8, 0, 8⟩
/-! TB_STATUS -/
def TB_STATUS_STATE : Fld := ⟨blkBase .tb + 0x0, 0, 3⟩
def TB_STATUS_HCAUSE : Fld := ⟨blkBase .tb + 0x0, 4, 6⟩
def TB_STATUS_JUMP_PEND : Fld := ⟨blkBase .tb + 0x0, 10, 1⟩
def TB_STATUS_STEPPING : Fld := ⟨blkBase .tb + 0x0, 11, 1⟩
def TB_STATUS_TRAFFIC : Fld := ⟨blkBase .tb + 0x0, 12, 1⟩
def TB_STATUS_STEP_REFUSED : Fld := ⟨blkBase .tb + 0x0, 13, 1⟩
def TB_STATUS_CFG_ERR : Fld := ⟨blkBase .tb + 0x0, 14, 1⟩
/-! TB_NOW_NS -/
def TB_NOW_NS_NS : Fld := ⟨blkBase .tb + 0x10, 0, 32⟩
/-! TB_NOW_SEC_LO -/
def TB_NOW_SEC_LO_SEC : Fld := ⟨blkBase .tb + 0x14, 0, 32⟩
/-! TB_NOW_SEC_HI -/
def TB_NOW_SEC_HI_SEC : Fld := ⟨blkBase .tb + 0x18, 0, 16⟩
/-! TB_NOW_FRAC -/
def TB_NOW_FRAC_FRAC : Fld := ⟨blkBase .tb + 0x1C, 0, 16⟩
/-! TB_STEP_NS -/
def TB_STEP_NS_NS : Fld := ⟨blkBase .tb + 0x20, 0, 32⟩
/-! TB_STEP_SEC_LO -/
def TB_STEP_SEC_LO_SEC : Fld := ⟨blkBase .tb + 0x24, 0, 32⟩
/-! TB_STEP_SEC_HI -/
def TB_STEP_SEC_HI_SEC : Fld := ⟨blkBase .tb + 0x28, 0, 32⟩
/-! TB_STEP_CMD -/
def TB_STEP_CMD_GO : Fld := ⟨blkBase .tb + 0x2C, 0, 1⟩
def TB_STEP_CMD_ABS : Fld := ⟨blkBase .tb + 0x2C, 1, 1⟩
/-! TB_OFFSET_IN_LO -/
def TB_OFFSET_IN_LO_OFS : Fld := ⟨blkBase .tb + 0x30, 0, 32⟩
/-! TB_OFFSET_IN_HI -/
def TB_OFFSET_IN_HI_OFS : Fld := ⟨blkBase .tb + 0x34, 0, 16⟩
/-! TB_LAST_OFFSET -/
def TB_LAST_OFFSET_NS : Fld := ⟨blkBase .tb + 0x38, 0, 32⟩
/-! TB_OFFSET_LOST -/
def TB_OFFSET_LOST_COUNT : Fld := ⟨blkBase .tb + 0x3C, 0, 32⟩
/-! TB_SERVO_CFG -/
def TB_SERVO_CFG_SRC : Fld := ⟨blkBase .tb + 0x40, 0, 1⟩
def TB_SERVO_CFG_OUT : Fld := ⟨blkBase .tb + 0x40, 1, 2⟩
def TB_SERVO_CFG_AUTO_STEP : Fld := ⟨blkBase .tb + 0x40, 3, 1⟩
def TB_SERVO_CFG_KP : Fld := ⟨blkBase .tb + 0x40, 4, 5⟩
def TB_SERVO_CFG_KI : Fld := ⟨blkBase .tb + 0x40, 9, 6⟩
def TB_SERVO_CFG_LOCK_NS : Fld := ⟨blkBase .tb + 0x40, 16, 8⟩
def TB_SERVO_CFG_LOCK_CNT : Fld := ⟨blkBase .tb + 0x40, 24, 4⟩
/-! TB_SLEW_MAX -/
def TB_SLEW_MAX_PPB : Fld := ⟨blkBase .tb + 0x44, 0, 6⟩
/-! TB_BACKSTEP_LIMIT -/
def TB_BACKSTEP_LIMIT_NS : Fld := ⟨blkBase .tb + 0x48, 0, 32⟩
/-! TB_STEP_LIMIT -/
def TB_STEP_LIMIT_NS : Fld := ⟨blkBase .tb + 0x4C, 0, 32⟩
/-! TB_HOLD_CFG -/
def TB_HOLD_CFG_TIMEOUT_MS : Fld := ⟨blkBase .tb + 0x50, 0, 16⟩
/-! TB_TRIM_CENTRE -/
def TB_TRIM_CENTRE_CENTRE : Fld := ⟨blkBase .tb + 0x54, 0, 16⟩
/-! TB_TRIM_SLOPE -/
def TB_TRIM_SLOPE_SLOPE : Fld := ⟨blkBase .tb + 0x58, 0, 24⟩
/-! TB_RATE -/
def TB_RATE_RATE : Fld := ⟨blkBase .tb + 0x5C, 0, 32⟩
/-! TB_FREQ -/
def TB_FREQ_F : Fld := ⟨blkBase .tb + 0x60, 0, 32⟩
/-! TB_REF_CFG -/
def TB_REF_CFG_SEL : Fld := ⟨blkBase .tb + 0x70, 0, 1⟩
def TB_REF_CFG_FREQ : Fld := ⟨blkBase .tb + 0x70, 1, 4⟩
def TB_REF_CFG_BW : Fld := ⟨blkBase .tb + 0x70, 5, 2⟩
/-! TB_REF_STAT -/
def TB_REF_STAT_LOCK : Fld := ⟨blkBase .tb + 0x74, 0, 1⟩
def TB_REF_STAT_LOSS : Fld := ⟨blkBase .tb + 0x74, 1, 1⟩
/-! TB_PPS_IN_CFG -/
def TB_PPS_IN_CFG_EN : Fld := ⟨blkBase .tb + 0x80, 0, 1⟩
def TB_PPS_IN_CFG_EDGE : Fld := ⟨blkBase .tb + 0x80, 1, 1⟩
def TB_PPS_IN_CFG_DELAY_NS : Fld := ⟨blkBase .tb + 0x80, 2, 16⟩
/-! TB_PPS_IN_NS -/
def TB_PPS_IN_NS_NS : Fld := ⟨blkBase .tb + 0x84, 0, 32⟩
/-! TB_PPS_IN_FRAC -/
def TB_PPS_IN_FRAC_FRAC : Fld := ⟨blkBase .tb + 0x88, 0, 16⟩
/-! TB_PPS_OUT_CFG -/
def TB_PPS_OUT_CFG_EN : Fld := ⟨blkBase .tb + 0x90, 0, 1⟩
def TB_PPS_OUT_CFG_WIDTH_MS : Fld := ⟨blkBase .tb + 0x90, 1, 8⟩
def TB_PPS_OUT_CFG_COMP_NS : Fld := ⟨blkBase .tb + 0x90, 9, 12⟩
/-! TB_GPIO_OWN -/
def TB_GPIO_OWN_OWN : Fld := ⟨blkBase .tb + 0x94, 0, 8⟩
/-! TB_TRIG_MISS -/
def TB_TRIG_MISS_TRIG : Fld := ⟨blkBase .tb + 0xA0, 0, 8⟩
def TB_TRIG_MISS_COUNT : Fld := ⟨blkBase .tb + 0xA0, 16, 16⟩
/-! TB_TRIG_SEC_LO -/
def TB_TRIG_SEC_LO_SEC (n : Nat) : Fld := ⟨blkBase .tb + 0x1000 + n * 0x20, 0, 32⟩
/-! TB_TRIG_SEC_HI -/
def TB_TRIG_SEC_HI_SEC (n : Nat) : Fld := ⟨blkBase .tb + 0x1004 + n * 0x20, 0, 16⟩
/-! TB_TRIG_NS -/
def TB_TRIG_NS_NS (n : Nat) : Fld := ⟨blkBase .tb + 0x1008 + n * 0x20, 0, 30⟩
/-! TB_TRIG_CTRL -/
def TB_TRIG_CTRL_EN (n : Nat) : Fld := ⟨blkBase .tb + 0x100C + n * 0x20, 0, 1⟩
def TB_TRIG_CTRL_ACT (n : Nat) : Fld := ⟨blkBase .tb + 0x100C + n * 0x20, 1, 5⟩
def TB_TRIG_CTRL_EVT (n : Nat) : Fld := ⟨blkBase .tb + 0x100C + n * 0x20, 6, 5⟩
def TB_TRIG_CTRL_GPIO (n : Nat) : Fld := ⟨blkBase .tb + 0x100C + n * 0x20, 11, 3⟩
def TB_TRIG_CTRL_TRIM (n : Nat) : Fld := ⟨blkBase .tb + 0x100C + n * 0x20, 14, 2⟩
def TB_TRIG_CTRL_PORT (n : Nat) : Fld := ⟨blkBase .tb + 0x100C + n * 0x20, 16, 4⟩
/-! TB_TRIG_ARG -/
def TB_TRIG_ARG_CODE (n : Nat) : Fld := ⟨blkBase .tb + 0x1010 + n * 0x20, 0, 16⟩
/-! TB_TRIG_LATE -/
def TB_TRIG_LATE_NS (n : Nat) : Fld := ⟨blkBase .tb + 0x1014 + n * 0x20, 0, 32⟩
/-! TB_TRIG_PERIOD -/
def TB_TRIG_PERIOD_PERIOD_NS (n : Nat) : Fld := ⟨blkBase .tb + 0x1018 + n * 0x20, 0, 32⟩
/-! TB_TRIG_STAT -/
def TB_TRIG_STAT_STATE (n : Nat) : Fld := ⟨blkBase .tb + 0x101C + n * 0x20, 0, 3⟩
def TB_TRIG_STAT_COUNT (n : Nat) : Fld := ⟨blkBase .tb + 0x101C + n * 0x20, 16, 16⟩
/-! GLZ_STATUS -/
def GLZ_STATUS_QUAR : Fld := ⟨blkBase .glz + 0x0, 0, 1⟩
def GLZ_STATUS_START_FAIL : Fld := ⟨blkBase .glz + 0x0, 1, 1⟩
def GLZ_STATUS_CAUSE : Fld := ⟨blkBase .glz + 0x0, 2, 3⟩
def GLZ_STATUS_COMM_DONE : Fld := ⟨blkBase .glz + 0x0, 5, 1⟩
def GLZ_STATUS_COMM_STEP : Fld := ⟨blkBase .glz + 0x0, 6, 3⟩
/-! GLZ_CFG -/
def GLZ_CFG_TX_DB : Fld := ⟨blkBase .glz + 0x4, 0, 6⟩
def GLZ_CFG_COMM_DB : Fld := ⟨blkBase .glz + 0x4, 6, 6⟩
def GLZ_CFG_RXP_DBFS : Fld := ⟨blkBase .glz + 0x4, 12, 6⟩
def GLZ_CFG_AVG : Fld := ⟨blkBase .glz + 0x4, 18, 4⟩
def GLZ_CFG_SWAP_EVT : Fld := ⟨blkBase .glz + 0x4, 22, 5⟩
def GLZ_CFG_MIN_PAR : Fld := ⟨blkBase .glz + 0x4, 27, 4⟩
/-! GLZ_FLOOR -/
def GLZ_FLOOR_FLOOR : Fld := ⟨blkBase .glz + 0x8, 0, 8⟩
def GLZ_FLOOR_WIN_US : Fld := ⟨blkBase .glz + 0x8, 8, 12⟩
def GLZ_FLOOR_TASK_US : Fld := ⟨blkBase .glz + 0x8, 20, 12⟩
/-! GLZ_MAX_AGE -/
def GLZ_MAX_AGE_SEC : Fld := ⟨blkBase .glz + 0xC, 0, 16⟩
/-! GLZ_SWAP_CFG -/
def GLZ_SWAP_CFG_LEAD_US : Fld := ⟨blkBase .glz + 0x10, 0, 16⟩
def GLZ_SWAP_CFG_HOLD_SLOTS : Fld := ⟨blkBase .glz + 0x10, 16, 4⟩
/-! GLZ_EST_CMD -/
def GLZ_EST_CMD_CARRIER : Fld := ⟨blkBase .glz + 0x14, 0, 6⟩
def GLZ_EST_CMD_DIR : Fld := ⟨blkBase .glz + 0x14, 6, 1⟩
def GLZ_EST_CMD_CLEAR : Fld := ⟨blkBase .glz + 0x14, 7, 1⟩
def GLZ_EST_CMD_GO : Fld := ⟨blkBase .glz + 0x14, 8, 1⟩
def GLZ_EST_CMD_BUSY : Fld := ⟨blkBase .glz + 0x14, 9, 1⟩
/-! GLZ_CAPT_CMD -/
def GLZ_CAPT_CMD_MAP : Fld := ⟨blkBase .glz + 0x18, 0, 10⟩
def GLZ_CAPT_CMD_BLOCKS : Fld := ⟨blkBase .glz + 0x18, 10, 4⟩
def GLZ_CAPT_CMD_SAME : Fld := ⟨blkBase .glz + 0x18, 14, 1⟩
def GLZ_CAPT_CMD_REGION : Fld := ⟨blkBase .glz + 0x18, 15, 4⟩
def GLZ_CAPT_CMD_FIFO : Fld := ⟨blkBase .glz + 0x18, 19, 2⟩
def GLZ_CAPT_CMD_GO : Fld := ⟨blkBase .glz + 0x18, 21, 1⟩
def GLZ_CAPT_CMD_BUSY : Fld := ⟨blkBase .glz + 0x18, 22, 4⟩
def GLZ_CAPT_CMD_OVF : Fld := ⟨blkBase .glz + 0x18, 26, 4⟩
/-! GLZ_CNT_FLOOR -/
def GLZ_CNT_FLOOR_COUNT : Fld := ⟨blkBase .glz + 0x20, 0, 32⟩
/-! GLZ_CNT_SAT -/
def GLZ_CNT_SAT_COUNT : Fld := ⟨blkBase .glz + 0x24, 0, 32⟩
/-! GLZ_CNT_FAIL -/
def GLZ_CNT_FAIL_COUNT : Fld := ⟨blkBase .glz + 0x28, 0, 32⟩
/-! GLZ_CNT_CAPT -/
def GLZ_CNT_CAPT_COUNT : Fld := ⟨blkBase .glz + 0x2C, 0, 32⟩
/-! GLZ_ROUND -/
def GLZ_ROUND_BANK (n : Nat) : Fld := ⟨blkBase .glz + 0x40 + n * 0x4, 0, 6⟩
def GLZ_ROUND_CH (n : Nat) : Fld := ⟨blkBase .glz + 0x40 + n * 0x4, 6, 6⟩
def GLZ_ROUND_EN (n : Nat) : Fld := ⟨blkBase .glz + 0x40 + n * 0x4, 12, 1⟩
def GLZ_ROUND_OWNED (n : Nat) : Fld := ⟨blkBase .glz + 0x40 + n * 0x4, 13, 1⟩
/-! GLZ_OCXO_CFG -/
def GLZ_OCXO_CFG_EN : Fld := ⟨blkBase .glz + 0x80, 0, 1⟩
def GLZ_OCXO_CFG_STEP : Fld := ⟨blkBase .glz + 0x80, 1, 14⟩
def GLZ_OCXO_CFG_DWELL_S : Fld := ⟨blkBase .glz + 0x80, 15, 10⟩
/-! GLZ_OCXO_SLOPE -/
def GLZ_OCXO_SLOPE_SLOPE : Fld := ⟨blkBase .glz + 0x84, 0, 24⟩
/-! GLZ_OCXO_RES -/
def GLZ_OCXO_RES_CENTRE : Fld := ⟨blkBase .glz + 0x88, 0, 16⟩
def GLZ_OCXO_RES_STAT : Fld := ⟨blkBase .glz + 0x88, 16, 3⟩
/-! GLZ_LOOP_CFG -/
def GLZ_LOOP_CFG_EN (n : Nat) : Fld := ⟨blkBase .glz + 0x100 + n * 0x10, 0, 1⟩
def GLZ_LOOP_CFG_SHARE (n : Nat) : Fld := ⟨blkBase .glz + 0x100 + n * 0x10, 1, 5⟩
/-! GLZ_LOOP_DELAY -/
def GLZ_LOOP_DELAY_D_LOOP (n : Nat) : Fld := ⟨blkBase .glz + 0x104 + n * 0x10, 0, 32⟩
/-! GLZ_LOOP_RES -/
def GLZ_LOOP_RES_E (n : Nat) : Fld := ⟨blkBase .glz + 0x108 + n * 0x10, 0, 32⟩
/-! GLZ_LOOP_STAT -/
def GLZ_LOOP_STAT_STAT (n : Nat) : Fld := ⟨blkBase .glz + 0x10C + n * 0x10, 0, 3⟩
def GLZ_LOOP_STAT_FRAMES (n : Nat) : Fld := ⟨blkBase .glz + 0x10C + n * 0x10, 8, 11⟩
/-! GLZ_CARR_CFG -/
def GLZ_CARR_CFG_EN (n : Nat) : Fld := ⟨blkBase .glz + 0x400 + n * 0x40, 0, 1⟩
def GLZ_CARR_CFG_NANT (n : Nat) : Fld := ⟨blkBase .glz + 0x400 + n * 0x40, 1, 9⟩
def GLZ_CARR_CFG_REF_ANT (n : Nat) : Fld := ⟨blkBase .glz + 0x400 + n * 0x40, 10, 8⟩
def GLZ_CARR_CFG_BASE (n : Nat) : Fld := ⟨blkBase .glz + 0x400 + n * 0x40, 18, 10⟩
/-! GLZ_CARR_REF -/
def GLZ_CARR_REF_REF_DB (n : Nat) : Fld := ⟨blkBase .glz + 0x404 + n * 0x40, 0, 7⟩
/-! GLZ_CARR_MAP -/
def GLZ_CARR_MAP_CALRX (n : Nat) : Fld := ⟨blkBase .glz + 0x408 + n * 0x40, 0, 10⟩
def GLZ_CARR_MAP_RXP (n : Nat) : Fld := ⟨blkBase .glz + 0x408 + n * 0x40, 16, 10⟩
/-! GLZ_CARR_LMASK -/
def GLZ_CARR_LMASK_SYM (n : Nat) : Fld := ⟨blkBase .glz + 0x40C + n * 0x40, 0, 14⟩
/-! GLZ_CARR_LSLOT_LO -/
def GLZ_CARR_LSLOT_LO_SLOT (n : Nat) : Fld := ⟨blkBase .glz + 0x410 + n * 0x40, 0, 32⟩
/-! GLZ_CARR_LSLOT_HI -/
def GLZ_CARR_LSLOT_HI_SLOT (n : Nat) : Fld := ⟨blkBase .glz + 0x414 + n * 0x40, 0, 8⟩
/-! GLZ_CARR_STAT -/
def GLZ_CARR_STAT_VALID (n : Nat) : Fld := ⟨blkBase .glz + 0x418 + n * 0x40, 0, 1⟩
def GLZ_CARR_STAT_PEND (n : Nat) : Fld := ⟨blkBase .glz + 0x418 + n * 0x40, 1, 1⟩
def GLZ_CARR_STAT_STALE (n : Nat) : Fld := ⟨blkBase .glz + 0x418 + n * 0x40, 2, 1⟩
def GLZ_CARR_STAT_RDY_TX (n : Nat) : Fld := ⟨blkBase .glz + 0x418 + n * 0x40, 3, 1⟩
def GLZ_CARR_STAT_RDY_RX (n : Nat) : Fld := ⟨blkBase .glz + 0x418 + n * 0x40, 4, 1⟩
def GLZ_CARR_STAT_HOLD (n : Nat) : Fld := ⟨blkBase .glz + 0x418 + n * 0x40, 5, 1⟩
def GLZ_CARR_STAT_SWAPS (n : Nat) : Fld := ⟨blkBase .glz + 0x418 + n * 0x40, 16, 16⟩
/-! GLZ_CARR_SWAP_T_LO -/
def GLZ_CARR_SWAP_T_LO_T (n : Nat) : Fld := ⟨blkBase .glz + 0x420 + n * 0x40, 0, 32⟩
/-! GLZ_CARR_SWAP_T_HI -/
def GLZ_CARR_SWAP_T_HI_T (n : Nat) : Fld := ⟨blkBase .glz + 0x424 + n * 0x40, 0, 31⟩
def GLZ_CARR_SWAP_T_HI_ACT (n : Nat) : Fld := ⟨blkBase .glz + 0x424 + n * 0x40, 31, 1⟩
/-! GLZ_CARR_NEXT_T_LO -/
def GLZ_CARR_NEXT_T_LO_T (n : Nat) : Fld := ⟨blkBase .glz + 0x428 + n * 0x40, 0, 32⟩
/-! GLZ_CARR_NEXT_T_HI -/
def GLZ_CARR_NEXT_T_HI_T (n : Nat) : Fld := ⟨blkBase .glz + 0x42C + n * 0x40, 0, 31⟩
/-! GLZ_CARR_AGE -/
def GLZ_CARR_AGE_MS (n : Nat) : Fld := ⟨blkBase .glz + 0x430 + n * 0x40, 0, 32⟩
/-! GLZ_MAP -/
def GLZ_MAP_ENTRY (n : Nat) : Fld := ⟨blkBase .glz + 0x10000 + n * 0x4, 0, 9⟩
def GLZ_MAP_PORT (n : Nat) : Fld := ⟨blkBase .glz + 0x10000 + n * 0x4, 9, 4⟩
def GLZ_MAP_ROLE (n : Nat) : Fld := ⟨blkBase .glz + 0x10000 + n * 0x4, 13, 2⟩
def GLZ_MAP_EN (n : Nat) : Fld := ⟨blkBase .glz + 0x10000 + n * 0x4, 15, 1⟩
def GLZ_MAP_CODE (n : Nat) : Fld := ⟨blkBase .glz + 0x10000 + n * 0x4, 16, 16⟩
/-! TRM_STATUS -/
def TRM_STATUS_SAFE : Fld := ⟨blkBase .trm + 0x0, 0, 4⟩
def TRM_STATUS_HIZ : Fld := ⟨blkBase .trm + 0x0, 4, 4⟩
def TRM_STATUS_CAUSE : Fld := ⟨blkBase .trm + 0x0, 8, 3⟩
/-! TRM_WDOG -/
def TRM_WDOG_TIMEOUT_MS : Fld := ⟨blkBase .trm + 0x4, 0, 16⟩
def TRM_WDOG_KICK : Fld := ⟨blkBase .trm + 0x4, 16, 1⟩
def TRM_WDOG_RUN : Fld := ⟨blkBase .trm + 0x4, 17, 1⟩
/-! TRM_CH_CFG -/
def TRM_CH_CFG_MODE (n : Nat) : Fld := ⟨blkBase .trm + 0x100 + n * 0x10, 0, 1⟩
def TRM_CH_CFG_SAFE (n : Nat) : Fld := ⟨blkBase .trm + 0x100 + n * 0x10, 16, 16⟩
/-! TRM_CH_CODE -/
def TRM_CH_CODE_REQ (n : Nat) : Fld := ⟨blkBase .trm + 0x104 + n * 0x10, 0, 16⟩
def TRM_CH_CODE_CUR (n : Nat) : Fld := ⟨blkBase .trm + 0x104 + n * 0x10, 16, 16⟩
/-! TRM_CH_CNT -/
def TRM_CH_CNT_UPDATES (n : Nat) : Fld := ⟨blkBase .trm + 0x108 + n * 0x10, 0, 16⟩
def TRM_CH_CNT_DROPPED (n : Nat) : Fld := ⟨blkBase .trm + 0x108 + n * 0x10, 16, 16⟩
/-! HST_ID -/
def HST_ID_PART : Fld := ⟨blkBase .hst + 0x0, 0, 16⟩
def HST_ID_STEP : Fld := ⟨blkBase .hst + 0x0, 16, 8⟩
/-! HST_SERIAL_LO -/
def HST_SERIAL_LO_SERIAL : Fld := ⟨blkBase .hst + 0x4, 0, 32⟩
/-! HST_SERIAL_HI -/
def HST_SERIAL_HI_SERIAL : Fld := ⟨blkBase .hst + 0x8, 0, 32⟩
/-! HST_STATUS -/
def HST_STATUS_LINK_UP : Fld := ⟨blkBase .hst + 0xC, 0, 1⟩
def HST_STATUS_SPEED : Fld := ⟨blkBase .hst + 0xC, 1, 3⟩
def HST_STATUS_WIDTH : Fld := ⟨blkBase .hst + 0xC, 4, 5⟩
def HST_STATUS_NO_IMAGE : Fld := ⟨blkBase .hst + 0xC, 9, 1⟩
def HST_STATUS_DORMANT : Fld := ⟨blkBase .hst + 0xC, 10, 1⟩
/-! HST_STAGE -/
def HST_STAGE_BYTES : Fld := ⟨blkBase .hst + 0x10, 0, 27⟩
def HST_STAGE_COMPLETE : Fld := ⟨blkBase .hst + 0x10, 27, 1⟩
/-! HST_TRIG_RANGE -/
def HST_TRIG_RANGE_FIRST : Fld := ⟨blkBase .hst + 0x14, 0, 8⟩
def HST_TRIG_RANGE_COUNT : Fld := ⟨blkBase .hst + 0x14, 8, 8⟩
/-! HST_DENY -/
def HST_DENY_ADDR : Fld := ⟨blkBase .hst + 0x18, 0, 26⟩
def HST_DENY_COUNT : Fld := ⟨blkBase .hst + 0x18, 26, 6⟩
/-! HST_MBOX_CMD -/
def HST_MBOX_CMD_CMD : Fld := ⟨blkBase .hst + 0x100, 0, 8⟩
/-! HST_MBOX_ARG -/
def HST_MBOX_ARG_ARG (n : Nat) : Fld := ⟨blkBase .hst + 0x104 + n * 0x4, 0, 32⟩
/-! HST_MBOX_CTRL -/
def HST_MBOX_CTRL_GO : Fld := ⟨blkBase .hst + 0x140, 0, 1⟩
def HST_MBOX_CTRL_BUSY : Fld := ⟨blkBase .hst + 0x140, 1, 1⟩
def HST_MBOX_CTRL_OVERRUN : Fld := ⟨blkBase .hst + 0x140, 2, 1⟩
def HST_MBOX_CTRL_VEC : Fld := ⟨blkBase .hst + 0x140, 3, 11⟩
/-! HST_MBOX_STATUS -/
def HST_MBOX_STATUS_STATUS : Fld := ⟨blkBase .hst + 0x144, 0, 3⟩
/-! HST_MBOX_RES -/
def HST_MBOX_RES_RES (n : Nat) : Fld := ⟨blkBase .hst + 0x148 + n * 0x4, 0, 32⟩
/-! HST_MSG_PEND -/
def HST_MSG_PEND_PEND (n : Nat) : Fld := ⟨blkBase .hst + 0x280 + n * 0x4, 0, 32⟩
/-! HST_VF -/
def HST_VF_VEC_BASE (n : Nat) : Fld := ⟨blkBase .hst + 0x300 + n * 0x4, 0, 11⟩
def HST_VF_VEC_CNT (n : Nat) : Fld := ⟨blkBase .hst + 0x300 + n * 0x4, 11, 8⟩
/-! HST_RING_H2D_LO -/
def HST_RING_H2D_LO_BASE (n : Nat) : Fld := ⟨blkBase .hst + 0x1000 + n * 0x20, 6, 26⟩
/-! HST_RING_H2D_HI -/
def HST_RING_H2D_HI_BASE (n : Nat) : Fld := ⟨blkBase .hst + 0x1004 + n * 0x20, 0, 32⟩
/-! HST_RING_D2H_LO -/
def HST_RING_D2H_LO_BASE (n : Nat) : Fld := ⟨blkBase .hst + 0x1008 + n * 0x20, 6, 26⟩
/-! HST_RING_D2H_HI -/
def HST_RING_D2H_HI_BASE (n : Nat) : Fld := ⟨blkBase .hst + 0x100C + n * 0x20, 0, 32⟩
/-! HST_RING_CFG -/
def HST_RING_CFG_EN (n : Nat) : Fld := ⟨blkBase .hst + 0x1010 + n * 0x20, 0, 1⟩
def HST_RING_CFG_TYPE (n : Nat) : Fld := ⟨blkBase .hst + 0x1010 + n * 0x20, 1, 2⟩
def HST_RING_CFG_FN (n : Nat) : Fld := ⟨blkBase .hst + 0x1010 + n * 0x20, 3, 5⟩
def HST_RING_CFG_SIZE (n : Nat) : Fld := ⟨blkBase .hst + 0x1010 + n * 0x20, 8, 4⟩
def HST_RING_CFG_VEC (n : Nat) : Fld := ⟨blkBase .hst + 0x1010 + n * 0x20, 12, 11⟩
def HST_RING_CFG_IRQ_EN (n : Nat) : Fld := ⟨blkBase .hst + 0x1010 + n * 0x20, 23, 1⟩
def HST_RING_CFG_ERR (n : Nat) : Fld := ⟨blkBase .hst + 0x1010 + n * 0x20, 24, 3⟩
/-! HST_RING_DQ -/
def HST_RING_DQ_ADDR (n : Nat) : Fld := ⟨blkBase .hst + 0x1014 + n * 0x20, 0, 32⟩
/-! HST_RING_DQ_IN -/
def HST_RING_DQ_IN_WR (n : Nat) : Fld := ⟨blkBase .hst + 0x1018 + n * 0x20, 0, 16⟩
def HST_RING_DQ_IN_RD (n : Nat) : Fld := ⟨blkBase .hst + 0x1018 + n * 0x20, 16, 16⟩
/-! HST_RING_DQ_OUT -/
def HST_RING_DQ_OUT_WR (n : Nat) : Fld := ⟨blkBase .hst + 0x101C + n * 0x20, 0, 16⟩
def HST_RING_DQ_OUT_RD (n : Nat) : Fld := ⟨blkBase .hst + 0x101C + n * 0x20, 16, 16⟩
/-! HST_DB_TAIL -/
def HST_DB_TAIL_TAIL (n : Nat) : Fld := ⟨blkBase .hst + 0xD000 + n * 0x8, 0, 16⟩
def HST_DB_TAIL_FREE (n : Nat) : Fld := ⟨blkBase .hst + 0xD000 + n * 0x8, 16, 16⟩
/-! HST_DB_HEAD -/
def HST_DB_HEAD_HEAD (n : Nat) : Fld := ⟨blkBase .hst + 0xD004 + n * 0x8, 0, 16⟩
def HST_DB_HEAD_DTAIL (n : Nat) : Fld := ⟨blkBase .hst + 0xD004 + n * 0x8, 16, 16⟩
/-! EUR_CFG -/
def EUR_CFG_ETHERTYPE : Fld := ⟨blkBase .eur + 0x0, 0, 16⟩
def EUR_CFG_TAGGED : Fld := ⟨blkBase .eur + 0x0, 16, 1⟩
def EUR_CFG_WIN : Fld := ⟨blkBase .eur + 0x0, 17, 6⟩
def EUR_CFG_RETRY : Fld := ⟨blkBase .eur + 0x0, 23, 4⟩
/-! EUR_STATUS -/
def EUR_STATUS_UP : Fld := ⟨blkBase .eur + 0x4, 0, 12⟩
def EUR_STATUS_CLASH : Fld := ⟨blkBase .eur + 0x4, 12, 1⟩
/-! EUR_DROP -/
def EUR_DROP_COUNT : Fld := ⟨blkBase .eur + 0x8, 0, 32⟩
/-! EUR_TIMING -/
def EUR_TIMING_RTO_US : Fld := ⟨blkBase .eur + 0xC, 0, 16⟩
def EUR_TIMING_HELLO_US : Fld := ⟨blkBase .eur + 0xC, 16, 16⟩
/-! EUR_EVT_SEND -/
def EUR_EVT_SEND_NODE : Fld := ⟨blkBase .eur + 0x10, 0, 14⟩
def EUR_EVT_SEND_INDEX : Fld := ⟨blkBase .eur + 0x10, 14, 4⟩
/-! EUR_IN_WIN_BASE -/
def EUR_IN_WIN_BASE_BASE (n : Nat) : Fld := ⟨blkBase .eur + 0x100 + n * 0x8, 0, 13⟩
/-! EUR_IN_WIN_LEN -/
def EUR_IN_WIN_LEN_LEN (n : Nat) : Fld := ⟨blkBase .eur + 0x104 + n * 0x8, 0, 14⟩
def EUR_IN_WIN_LEN_W (n : Nat) : Fld := ⟨blkBase .eur + 0x104 + n * 0x8, 14, 1⟩
/-! EUR_REF_STATUS -/
def EUR_REF_STATUS_VALID : Fld := ⟨blkBase .eur + 0x180, 0, 1⟩
def EUR_REF_STATUS_NODE : Fld := ⟨blkBase .eur + 0x180, 1, 14⟩
def EUR_REF_STATUS_WRITE : Fld := ⟨blkBase .eur + 0x180, 15, 1⟩
def EUR_REF_STATUS_COUNT : Fld := ⟨blkBase .eur + 0x180, 16, 16⟩
/-! EUR_REF_ADDR_LO -/
def EUR_REF_ADDR_LO_ADDR : Fld := ⟨blkBase .eur + 0x184, 0, 32⟩
/-! EUR_REF_ADDR_HI -/
def EUR_REF_ADDR_HI_ADDR : Fld := ⟨blkBase .eur + 0x188, 0, 10⟩
/-! EUR_PEER_CFG -/
def EUR_PEER_CFG_NODE (n : Nat) : Fld := ⟨blkBase .eur + 0x8000 + n * 0x10, 0, 14⟩
def EUR_PEER_CFG_PORT (n : Nat) : Fld := ⟨blkBase .eur + 0x8000 + n * 0x10, 14, 4⟩
def EUR_PEER_CFG_EN (n : Nat) : Fld := ⟨blkBase .eur + 0x8000 + n * 0x10, 18, 1⟩
def EUR_PEER_CFG_EVT_EN (n : Nat) : Fld := ⟨blkBase .eur + 0x8000 + n * 0x10, 19, 1⟩
/-! EUR_PEER_MAC_LO -/
def EUR_PEER_MAC_LO_MAC (n : Nat) : Fld := ⟨blkBase .eur + 0x8004 + n * 0x10, 0, 32⟩
/-! EUR_PEER_MAC_HI -/
def EUR_PEER_MAC_HI_MAC (n : Nat) : Fld := ⟨blkBase .eur + 0x8008 + n * 0x10, 0, 16⟩
/-! EUR_PEER_STAT -/
def EUR_PEER_STAT_UP (n : Nat) : Fld := ⟨blkBase .eur + 0x800C + n * 0x10, 0, 1⟩
def EUR_PEER_STAT_RETX (n : Nat) : Fld := ⟨blkBase .eur + 0x800C + n * 0x10, 16, 16⟩
/-! LC_STATUS -/
def LC_STATUS_LATCH : Fld := ⟨blkBase .lc + 0x0, 0, 1⟩
def LC_STATUS_SAFE : Fld := ⟨blkBase .lc + 0x0, 1, 1⟩
def LC_STATUS_KEY : Fld := ⟨blkBase .lc + 0x0, 2, 1⟩
/-! LC_CTRL -/
def LC_CTRL_IDENT : Fld := ⟨blkBase .lc + 0x4, 0, 1⟩
/-! LC_CFG -/
def LC_CFG_KEY_DRAIN_EN : Fld := ⟨blkBase .lc + 0x8, 0, 1⟩
def LC_CFG_CLOSE_RESUME : Fld := ⟨blkBase .lc + 0x8, 1, 1⟩
/-! LC_KEY -/
def LC_KEY_LAST_MS : Fld := ⟨blkBase .lc + 0xC, 0, 16⟩
def LC_KEY_LAST_ACT : Fld := ⟨blkBase .lc + 0xC, 16, 3⟩
def LC_KEY_IGNORED : Fld := ⟨blkBase .lc + 0xC, 24, 8⟩
/-! LC_LED -/
def LC_LED_ROLE (n : Nat) : Fld := ⟨blkBase .lc + 0x20 + n * 0x4, 0, 3⟩
def LC_LED_MA (n : Nat) : Fld := ⟨blkBase .lc + 0x20 + n * 0x4, 3, 5⟩
def LC_LED_PORT (n : Nat) : Fld := ⟨blkBase .lc + 0x20 + n * 0x4, 8, 4⟩
/-! LC_CAGE_CFG -/
def LC_CAGE_CFG_AUTO (n : Nat) : Fld := ⟨blkBase .lc + 0x100 + n * 0x10, 0, 1⟩
def LC_CAGE_CFG_TMO_S (n : Nat) : Fld := ⟨blkBase .lc + 0x100 + n * 0x10, 1, 7⟩
def LC_CAGE_CFG_SPEED (n : Nat) : Fld := ⟨blkBase .lc + 0x100 + n * 0x10, 8, 2⟩
/-! LC_CAGE_STAT -/
def LC_CAGE_STAT_STATE (n : Nat) : Fld := ⟨blkBase .lc + 0x104 + n * 0x10, 0, 3⟩
def LC_CAGE_STAT_PRS (n : Nat) : Fld := ⟨blkBase .lc + 0x104 + n * 0x10, 3, 1⟩
def LC_CAGE_STAT_INT (n : Nat) : Fld := ⟨blkBase .lc + 0x104 + n * 0x10, 4, 1⟩
def LC_CAGE_STAT_APP (n : Nat) : Fld := ⟨blkBase .lc + 0x104 + n * 0x10, 8, 8⟩
def LC_CAGE_STAT_INS (n : Nat) : Fld := ⟨blkBase .lc + 0x104 + n * 0x10, 16, 16⟩
/-! LC_CAGE_I2C -/
def LC_CAGE_I2C_OFFSET (n : Nat) : Fld := ⟨blkBase .lc + 0x108 + n * 0x10, 0, 8⟩
def LC_CAGE_I2C_WDATA (n : Nat) : Fld := ⟨blkBase .lc + 0x108 + n * 0x10, 8, 8⟩
def LC_CAGE_I2C_WRITE (n : Nat) : Fld := ⟨blkBase .lc + 0x108 + n * 0x10, 16, 1⟩
def LC_CAGE_I2C_GO (n : Nat) : Fld := ⟨blkBase .lc + 0x108 + n * 0x10, 17, 1⟩
def LC_CAGE_I2C_BUSY (n : Nat) : Fld := ⟨blkBase .lc + 0x108 + n * 0x10, 18, 1⟩
def LC_CAGE_I2C_NAK (n : Nat) : Fld := ⟨blkBase .lc + 0x108 + n * 0x10, 19, 1⟩
def LC_CAGE_I2C_RDATA (n : Nat) : Fld := ⟨blkBase .lc + 0x108 + n * 0x10, 24, 8⟩
/-! EVT_LOG_CFG -/
def EVT_LOG_CFG_MIN : Fld := ⟨blkBase .evt + 0x0, 0, 2⟩
/-! EVT_FAULT -/
def EVT_FAULT_SRC : Fld := ⟨blkBase .evt + 0x4, 0, 4⟩
def EVT_FAULT_FENCED : Fld := ⟨blkBase .evt + 0x4, 4, 4⟩
/-! EVT_SW_RAISE -/
def EVT_SW_RAISE_INDEX : Fld := ⟨blkBase .evt + 0x8, 0, 4⟩
/-! EVT_CE_CFG -/
def EVT_CE_CFG_STEP : Fld := ⟨blkBase .evt + 0xC, 0, 16⟩
/-! EVT_TRC_CTRL -/
def EVT_TRC_CTRL_EV_EN : Fld := ⟨blkBase .evt + 0x10, 0, 1⟩
def EVT_TRC_CTRL_EV_MIN : Fld := ⟨blkBase .evt + 0x10, 1, 2⟩
def EVT_TRC_CTRL_PC_EN : Fld := ⟨blkBase .evt + 0x10, 3, 1⟩
def EVT_TRC_CTRL_PC_SHIFT : Fld := ⟨blkBase .evt + 0x10, 4, 4⟩
def EVT_TRC_CTRL_PC_CORE : Fld := ⟨blkBase .evt + 0x10, 8, 9⟩
/-! EVT_TRC_LOST -/
def EVT_TRC_LOST_COUNT : Fld := ⟨blkBase .evt + 0x14, 0, 32⟩
/-! EVT_DBG -/
def EVT_DBG_OPEN : Fld := ⟨blkBase .evt + 0x18, 0, 1⟩
def EVT_DBG_LOCKED : Fld := ⟨blkBase .evt + 0x18, 1, 1⟩
def EVT_DBG_OPENS : Fld := ⟨blkBase .evt + 0x18, 16, 16⟩
/-! EVT_STAT -/
def EVT_STAT_STAT (n : Nat) : Fld := ⟨blkBase .evt + 0x100 + n * 0x4, 0, 32⟩
/-! EVT_CFG -/
def EVT_CFG_ROUTE (n : Nat) : Fld := ⟨blkBase .evt + 0x1000 + n * 0x4, 0, 3⟩
def EVT_CFG_SEV (n : Nat) : Fld := ⟨blkBase .evt + 0x1000 + n * 0x4, 3, 2⟩
def EVT_CFG_VEC (n : Nat) : Fld := ⟨blkBase .evt + 0x1000 + n * 0x4, 6, 11⟩
def EVT_CFG_CLUSTER (n : Nat) : Fld := ⟨blkBase .evt + 0x1000 + n * 0x4, 17, 7⟩
def EVT_CFG_LINE (n : Nat) : Fld := ⟨blkBase .evt + 0x1000 + n * 0x4, 24, 6⟩

end F

/-- The base of a Gust engine's block: region 0 to 15, or 16 for the hub engine. -/
def gstBase (e : Nat) : Nat := if e < 16 then blkBase (.gstr e) else blkBase .gsth

end Sys2Proof.Machine
end

