-- ==== Sys2Proof/Machine/Map.lean ====
section
/-! DEFINITION. Sparse maps: the one form in which the state holds sparse data.

A map is a list of (key, value) pairs with strictly rising keys. Memory, written by `set`, lists no
entry equal to what an unlisted key reads as, so equal memories are equal lists; a table, written by
`put`, keeps every key that was written. -/

namespace Sys2Proof.Machine

/-- A sparse map: (key, value) pairs, keys strictly rising. -/
abbrev SMap (α : Type) := List (Nat × α)

/-- The value at key `k`; `d` is what an unlisted key reads as. -/
def SMap.get {α : Type} (m : SMap α) (k : Nat) (d : α) : α :=
  match m with
  | [] => d
  | (k', v) :: t => if k' = k then v else SMap.get t k d

/-- Write `v` at key `k`, keeping the canonical form for default `d`. -/
def SMap.set {α : Type} [DecidableEq α] (m : SMap α) (k : Nat) (v d : α) : SMap α :=
  match m with
  | [] => if v = d then [] else [(k, v)]
  | (k', v') :: t =>
    if k < k' then (if v = d then (k', v') :: t else (k, v) :: (k', v') :: t)
    else if k = k' then (if v = d then t else (k, v) :: t)
    else (k', v') :: SMap.set t k v d

/-- Write `v` at key `k` of a table whose entries may hold any value. -/
def SMap.put {α : Type} (m : SMap α) (k : Nat) (v : α) : SMap α :=
  match m with
  | [] => [(k, v)]
  | (k', v') :: t =>
    if k < k' then (k, v) :: (k', v') :: t
    else if k = k' then (k, v) :: t
    else (k', v') :: SMap.put t k v

/-- Every key of the map is above `lo`. -/
def SMap.above {α : Type} (lo : Nat) (m : SMap α) : Bool :=
  m.all fun e => decide (lo < e.1)

/-- The canonical form, for a map whose unlisted key `k` reads as `d k`. -/
def SMap.wf {α : Type} [DecidableEq α] (d : Nat → α) (m : SMap α) : Bool :=
  match m with
  | [] => true
  | (k, v) :: t => decide (v ≠ d k) && SMap.above k t && SMap.wf d t

end Sys2Proof.Machine
end

