-- ==== Sys2Proof/Machine/State.lean ====
section
/-! DEFINITION. The state of the block: everything the spec gives the DX-9416, as plain data. -/

namespace Sys2Proof.Machine

/-- Why the model stops with a fault. No command of the table does: the spec's own faults are
effects on the state (R23 to R30). Safe: it is never raised. -/
inductive Fault where
  | unreachable
  deriving DecidableEq, Repr

/-- Why the model gives a command no meaning. -/
inductive Refusal where
  /-- Raised only by an arm of exec that has no meaning yet; safe (the model stops). -/
  | notModelled (mnemonic : String)
  deriving DecidableEq, Repr

/-! ## Events and what leaves the device -/

/-- One occurrence of an event (R590): number, raising unit, Gust channel, address, information. -/
structure Occ where
  num : Nat
  uid : Nat
  ch : Nat
  addr : Nat
  info : Nat
  deriving DecidableEq, Repr

/-! ## AK cores (chapters 04 to 06) -/

/-- A register write, with its physical register resolved at issue (R122); a vector write names the
byte lanes it writes (R163), and `vl` is VSETVL's write of VEC_VL (R165). -/
inductive RegWr where
  | g (r : Reg) (v : Word)
  | a (r : AReg) (v : BitVec 48)
  | p (r : PReg) (v : BitVec 64)
  | v (r : Reg) (lanes : BitVec 64) (v : BitVec 512)
  | vl (n : Nat)
  deriving DecidableEq, Repr

/-- A result in flight: `rem` bundles until it is written; `acc` marks a MAC-class or accumulating
result, and `fresh` that it issued in the immediately preceding bundle (R125 to R128). -/
structure InFlight where
  wr : RegWr
  rem : Nat
  acc : Bool
  fresh : Bool
  deriving DecidableEq, Repr

/-- Why a bundle waits (R132, R207), or why the core does not issue. -/
inductive Stall where
  | none | load | store | scoreboard | fence | submit
  deriving DecidableEq, Repr

/-- What a core does: halted until RUN, running, in WFI (R151), in an Easel wait (R296), or halted by
the debug port (R602). -/
inductive CoreMode where
  | halted | run | wfi | easel | debug
  deriving DecidableEq, Repr

/-- A CX operation under way: the registers it will write and the values (R206). -/
structure CxPend where
  res : List (Reg × Word)
  deriving DecidableEq, Repr

/-- A line of the L1 data cache (R153), tagged by device address. -/
structure Line where
  addr : Nat
  dirty : Bool
  data : List Byte
  deriving DecidableEq, Repr

/-- A write that has left a core's pipeline and not yet arrived (write buffer or port A queue): its
level, and whether it was issued after a drain request for its bank had reached the core (R250). -/
structure WbEnt where
  addr : Nat
  data : List Byte
  lvl : Nat
  late : Bool
  deriving DecidableEq, Repr

/-- What the core keeps of a LOOP body beside its registers: the first of its last three bundles and
STG of LOOP.S (R140, R143). -/
structure LoopInfo where
  tail : Nat
  stg : Nat
  deriving DecidableEq, Repr

/-- An AK core. Of the bundle that stalls: `got` the bytes its loads have brought, by access, none for one that met an
uncorrectable word; `fills` the L1 lines it has fetched, by line, none for one that was refused; `emitted` the
accesses of its store that have left; `eslDone` the results of its Easel instruction once that has acted. `was` is the
mode it was in when the debug port halted it, `step` that the port lets it issue one bundle (R602). -/
structure Core where
  g : SMap Word
  a : SMap (BitVec 48)
  p : SMap (BitVec 64)
  v : SMap (BitVec 512)
  pc : BitVec 16
  mode : CoreMode
  bundle : List Instr
  stall : Stall
  got : SMap (Option (List Byte))
  fills : SMap (Option (List Byte))
  emitted : Nat
  eslDone : Option (List InFlight)
  inflight : List InFlight
  ds : Nat
  target : Option (BitVec 16)
  loops : SMap (Option LoopInfo)
  cx : List CxPend
  l1 : SMap (Option Line)
  wb : List WbEnt
  portA : List WbEnt
  task : Option Nat
  kill : Bool
  resume : BitVec 16
  was : CoreMode
  step : Bool
  deriving DecidableEq, Repr

/-- A core with everything zero, empty and halted (log entry 6). -/
def Core.halted : Core :=
  { g := [], a := [], p := [], v := [], pc := 0, mode := .halted, bundle := [], stall := .none, got := [],
    fills := [], emitted := 0, eslDone := none, inflight := [], ds := 0, target := none, loops := [], cx := [], l1 := [], wb := [],
    portA := [], task := none, kill := false, resume := 0, was := .halted, step := false }

/-- A core at reset: hub core 0 (index 384) resets with RUN = 1, every other core is halted. -/
def Core.reset (k : Nat) : Core :=
  if k = 384 then { Core.halted with mode := .run } else Core.halted

/-- The operation a CS unit holds (R215): the core, the opcode, control and argument words, the device addresses of source
and destination, the length of the source, and the bytes of it that the unit has read (R217, R218). -/
structure CsOp where
  core : CoreIx
  op : Nat
  ctl : Word
  arg : Word
  src : Nat
  dst : Nat
  len : Nat
  got : List Byte
  deriving DecidableEq, Repr

/-- The try that a CS unit accepted last, while another core may still try in the same cycle (R215): when, whom the unit had
accepted before, and the predicate that says so. -/
structure CsTie where
  now : Nat
  prev : Nat
  pd : PReg
  deriving DecidableEq, Repr

/-- A cluster-shared coprocessor: the operation it holds and the core (in its cluster) it last accepted. -/
structure CsUnit where
  op : Option CsOp
  last : Nat
  tie : Option CsTie
  deriving DecidableEq, Repr

/-- A CS unit at reset. -/
def CsUnit.reset : CsUnit := { op := none, last := 3, tie := none }

/-! ## Palette banks, Wash and the extent map (chapter 07) -/

/-- The power phase of a bank (R259 to R262): waking from retention, and powering on, are changes. -/
inductive PwrPhase where
  | on | retention | waking | off | powering
  deriving DecidableEq, Repr

/-- A drain in progress: a handover to (uid, ch), or the end of a delegation; whether the drain request
has reached the owner and the delegate (R250, R255). -/
structure Drain where
  own : Bool
  uid : Nat
  ch : Nat
  oldIn : Bool
  delIn : Bool
  deriving DecidableEq, Repr

/-- An access that waits at a bank's port (R251, R261): `late` a write issued after a drain request, `wake` that it arrived
while the bank woke, `back` that its requester holds it and comes again. -/
structure BankAcc where
  q : Req
  a : Nat
  n : Nat
  write : Bool
  data : List Byte
  late : Bool
  wake : Bool
  back : Bool
  deriving DecidableEq, Repr

/-- A Palette bank beside its registers and contents: `held` the writes of PAL_OWNER_n that wait (R253),
`woken` that it woke from retention and has not entered it again, `used` the time of its last access (R260), `lastA` the
core that port A last served (R257). -/
structure Bank where
  drain : Option Drain
  held : List (Req × Word × Bool)
  waiting : List BankAcc
  phase : PwrPhase
  woken : Bool
  used : Nat
  lastA : Nat
  deriving DecidableEq, Repr

/-- A bank at reset. -/
def Bank.reset : Bank := { drain := none, held := [], waiting := [], phase := .on, woken := false, used := 0, lastA := 0 }

/-- A window or word that a Wash sequencer holds, with its saved contents (R265, R268). -/
structure WashHold where
  tgt : WashTgt
  save : List Byte
  deriving DecidableEq, Repr

/-! ## Easel (chapter 08) -/

/-- A descriptor-store slot beside its 64 bytes of descriptor: its state code (R277), the live dependency
count and POISON, the region and unit it was placed on, the completion status signalled and not yet
processed, the status a kill gives it (R303, R627), what happens once (DEFER, LATE_START, MISS, the spill
offer), the time of its dispatch, the peer and tag it was spilled with, and the peer and tag it came with. -/
structure Slot where
  st : Nat
  dep : Nat
  region : Option Nat
  unit : Nat
  fin : Option Nat
  kill : Option Nat
  deferred : Bool
  late : Bool
  missed : Bool
  offered : Bool
  held : Bool
  since : Nat
  spillTo : Option (Nat × Nat)
  spillFrom : Option (Nat × Nat)
  deriving DecidableEq, Repr

/-- A FREE slot. -/
def Slot.free : Slot :=
  { st := 0, dep := 0, region := none, unit := 0, fin := none, kill := none, deferred := false
    late := false, missed := false, offered := false, held := false, since := 0, spillTo := none, spillFrom := none }

/-- A region dispatcher beside its registers: the cluster it last dispatched to, the clusters held hot
since the entry to LATENCY, the time its region copy shows (R32, R292, R293), and its floor account: the window's
start and the time of the tasks completed in it (R506). -/
structure Disp where
  last : Nat
  hot : Nat
  copy : Nat
  floorAt : Nat
  floorAcc : Nat
  deriving DecidableEq, Repr

/-- A region dispatcher at reset; the cluster before the first is the model's choice (log entry 24). -/
def Disp.reset : Disp := { last := 5, hot := 0, copy := 0, floorAt := 0, floorAcc := 0 }

/-! ## Gust (chapter 09) -/

/-- A fetched descriptor (R320). -/
structure GDesc where
  at_ : Nat
  op : Nat
  delivered : Bool
  irq : Bool
  cmpPat : Bool
  cmpHalt : Bool
  last : Bool
  srcN : Nat
  dstN : Nat
  pat : Nat
  src : Nat
  dst : Nat
  next : Nat
  fence : Nat
  bad : Bool
  deriving DecidableEq, Repr

/-- A fetched list entry (R321) and the bytes of it already moved. -/
structure GEnt where
  addr : Nat
  len : Nat
  win : Option Nat
  fixed : Bool
  off : Nat
  deriving DecidableEq, Repr

/-- A burst in flight: its source and destination addresses, its length, the bytes it carries once they
have been read, and the offset of a difference a COMPARE has found. -/
structure GBurst where
  sa : Nat
  da : Nat
  n : Nat
  data : Option (List Byte)
  diff : Option Nat
  deriving DecidableEq, Repr

/-- A Gust channel beside its registers. `desc` is the current descriptor once fetched, `si`, `di` the list entries taken, `pos` the descriptor's byte offset,
`unitPos` the bytes of the paced unit already moved, `resp` that the descriptor waits for responses,
`refused` that one came back refused, `lost` that a posted write of the program did, `fenceOut` that the FENCE write is under way, `stop` the code of a
requested end (R344), `prio` the priority of an Easel run and `task` its slot, `seq` the program count. -/
structure GChan where
  desc : Option GDesc
  sEnt : Option GEnt
  dEnt : Option GEnt
  si : Nat
  di : Nat
  pos : Nat
  unitPos : Nat
  burst : Option GBurst
  resp : Bool
  refused : Bool
  lost : Bool
  fenceOut : Bool
  stop : Nat
  prio : Nat
  task : Option Nat
  seq : Nat
  dn : Nat
  deriving DecidableEq, Repr

/-- An idle channel. -/
def GChan.idle : GChan :=
  { desc := none, sEnt := none, dEnt := none, si := 0, di := 0, pos := 0
    unitPos := 0, burst := none, resp := false, refused := false, lost := false, fenceOut := false, stop := 0, prio := 0, task := none
    seq := 0, dn := 0 }

/-- A write that has left a Gust engine and not yet arrived: its channel, program and descriptor, whether it asks for
a response, and whether it was issued after a drain request reached the engine. -/
structure GWrite where
  ch : Nat
  seq : Nat
  dn : Nat
  a : Nat
  data : List Byte
  asks : Bool
  late : Bool
  deriving DecidableEq, Repr

/-! ## Channel engines (chapter 10) -/

/-- A write that an engine still has to make; `commit` marks a header of a HARQ soft buffer (R379). -/
structure EngOut where
  at_ : Nat
  data : List Byte
  commit : Bool
  deriving DecidableEq, Repr

/-- The task an engine runs: its slot, operation and descriptor bytes; the code it has ended with, if it has; the
headers a decoder's commit has overwritten, address and old bytes (R380); the writes still to make, and the code with
which it ends once they are made, if its computing is done (R352). -/
structure EngRun where
  slot : Nat
  op : Nat
  desc : List Byte
  code : Option Nat
  undo : List (Nat × List Byte)
  outs : List EngOut
  fin : Option Nat
  deriving DecidableEq, Repr

/-- An engine: its queue of slots, first in first out, the running task, and whether it is parked. -/
structure Eng where
  queue : List Nat
  run : Option EngRun
  parked : Bool
  deriving DecidableEq, Repr

/-- An engine at reset. -/
def Eng.idle : Eng := { queue := [], run := none, parked := false }

/-! ## Host link and Euril fabric (chapter 16) -/

/-- What a host sets of a PCI Express function in its configuration space: MSI-X enable and function mask,
D3hot; a VF also whether SR-IOV enables it. -/
structure FnCfg where
  msixEn : Bool
  msixMask : Bool
  d3 : Bool
  vf : Bool
  deriving DecidableEq, Repr

/-- A function's settings at reset. -/
def FnCfg.reset : FnCfg := { msixEn := false, msixMask := false, d3 := false, vf := false }

/-- A ring pair beside its registers: the H2D head, D2H entries that wait, and whether the entry at the head
is held for want of room (R306). -/
structure Ring where
  head : Nat
  out : List (List Byte)
  held : Bool
  deriving DecidableEq, Repr

/-- A ring pair at reset. -/
def Ring.idle : Ring := { head := 0, out := [], held := false }

/-- A sequenced Euril frame: type, tag, payload (R560, R561), and the time at which it was last sent. -/
structure EurFrame where
  type : Nat
  tag : Nat
  payload : List Byte
  at_ : Nat
  deriving DecidableEq, Repr

/-- A fabric peer beside its registers: whether one of our HELLOs has gone out, the next SEQ to send, the credit
limit, the next SEQ expected, retransmission rounds, whether an acknowledgement is due, frames that wait for
credit, frames not yet acknowledged (the first has SEQ tx minus their number), and the capacity last advertised
with its time. -/
structure Peer where
  hello : Bool
  tx : Nat
  limit : Nat
  rx : Nat
  rounds : Nat
  ackDue : Bool
  wait : List EurFrame
  unacked : List EurFrame
  adv : Option (Nat × Nat)
  deriving DecidableEq, Repr

/-- A peer at reset, and whenever it comes up. -/
def Peer.fresh : Peer :=
  { hello := false, tx := 0, limit := 0, rx := 0, rounds := 0, ackDue := false, wait := [], unacked := [], adv := none }

/-- One frame of a fabric request: its tag, length, and the answer once it has come (status, data). -/
structure FabPart where
  tag : Nat
  len : Nat
  ans : Option (Nat × List Byte)
  deriving DecidableEq, Repr

/-- An access in the fabric window under way: its requester, address, length, the peer, its frames; `tell` the
answer is sent to the requester when it is whole, else the requester fetches it. -/
structure FabReq where
  uid : Nat
  ch : Nat
  a : Nat
  n : Nat
  write : Bool
  peer : Nat
  parts : List FabPart
  tell : Bool
  deriving DecidableEq, Repr

/-- Where the boot stands (R56 to R61): off, running the loader (the next candidate to load, 0 active slot, 1 the
other, 2 factory region), verified, layers applied, DORMANT reached, or no image. -/
inductive BootAt where
  | off | load (cand : Nat) | verified | layers | dormant | noImage
  deriving DecidableEq, Repr

/-- The boot: where it stands, the flash offset of the accepted image, the time of its trigger, whether an image
committed since it has not booted, the slot that STAGE_IMAGE last wrote, whether the auto-start is still to act, the cause of a full reset that has
started and is to be executed, whether a FULL_RESET command waits its 1 ms, whether RESET_N is low, whether a full
reset preceded this boot, and the value to which the fuse rollback counter has been raised (R60, R87, R553, R607). -/
structure Boot where
  at_ : BootAt
  image : Nat
  since : Nat
  committed : Bool
  staged : Nat
  autoDue : Bool
  rst : Option Nat
  due : Bool
  rstLow : Bool
  again : Bool
  fuse : Option Nat
  deriving DecidableEq, Repr

/-- The boot before power good. -/
def Boot.off : Boot :=
  { at_ := .off, image := 0, since := 0, committed := false, staged := 0, autoDue := false, rst := none, due := false
    rstLow := false, again := false, fuse := none }

/-- The power-fail handling (R91, R92): PWRFAIL_N is low; the flush that runs (its slot and entries); whether the
pin rose again since it began; the slot under erase; and a flush that waits for it (its entries and TIME). -/
structure Pwrfail where
  low : Bool
  flush : Option (Nat × List (List Byte))
  back : Bool
  erase : Option Nat
  wait : Option (List (List Byte) × Nat)
  deriving DecidableEq, Repr

/-- No power failure. -/
def Pwrfail.idle : Pwrfail := { low := false, flush := none, back := false, erase := none, wait := none }

/-! ## Modes, line card, power and test access (chapters 02, 17, 18, 19) -/

/-- What hub firmware keeps of modes: COMMISSION was entered by the auto-start, it is complete (R67), and the
(carrier, slot) pairs already counted in MISS_SLOTS (R103), when DRAIN was entered (R71), and the functions whose
RESUME a FUNCTION_STOP cleared during the drain (R84). -/
structure Modes where
  autoComm : Bool
  commOver : Bool
  drainAt : Nat
  stays : List Nat
  missed : List (Nat × Nat)
  deriving DecidableEq, Repr

/-- The modes at reset. -/
def Modes.reset : Modes := { autoComm := false, commOver := false, drainAt := 0, stays := [], missed := [] }

/-- The line card beside its registers: a press of the service key is timed, it has started a full reset, and the time of
the press (R574, R578). -/
structure Lc where
  timed : Bool
  acted : Bool
  pressed : Nat
  deriving DecidableEq, Repr

/-- A module cage beside its registers: a module is present (debounced), MOD_RST_N_m is low, the applications the
module advertises, and the time of the sequencer's last change of state. -/
structure Cage where
  prs : Bool
  rst : Bool
  apps : List ModApp
  since : Nat
  deriving DecidableEq, Repr

/-- An empty cage. -/
def Cage.empty : Cage := { prs := false, rst := true, apps := [], since := 0 }

/-- Power: the clusters' clock by the mode in MHz, a rise of the core voltage that settles (the clock that
follows it), the time of the last change of its target, whether THERMTRIP_N is asserted, and the dies that have reported a temperature since MAX_C was last read
(R604, R605, R609, R611). -/
structure Pwr where
  clk : Nat
  rise : Option Nat
  since : Nat
  trip : Bool
  seen : List Nat
  deriving DecidableEq, Repr

/-- The power state at reset: the DORMANT clock. -/
def Pwr.reset : Pwr := { clk := 1000, rise := none, since := 0, trip := false, seen := [] }

/-- The JTAG instructions (R601, R602). -/
inductive JtagIr where
  | idcode | bypass | sample | extest | clamp | highz | pulse | train | debug
  deriving DecidableEq, Repr

/-- The TAP: its instruction, and whether the pins are taken from their functions. -/
structure Jtag where
  ir : JtagIr
  pins : Bool
  deriving DecidableEq, Repr

/-- The TAP at reset. -/
def Jtag.reset : Jtag := { ir := .idcode, pins := false }

/-! ## Timebase and trim outputs (chapters 13 and 15) -/

/-- The timebase and servo beside their registers: what a backward step still has to withhold (2^-48 ns), the
frequency term in units of 2^-85 × 10^-9 ppb (exact; log entry 32), the lock count, the time of the previous
applied sample, the pending correction and the committed sample (2^-16 ns), TB_OFFSET_IN_LO as written, the
functions whose start waits for a step (R486), the last whole second served on PPS_OUT and the time of its last rise (R488),
the time of the last committed sample or of the last entry to ACQUIRING (R480), the levels of PPS_OUT and GPIO_7 to GPIO_0, while Glaze averages it, the values TB_FREQ has taken with their times, and whether the step in
progress is the device's own (R482, R483). -/
structure Tb where
  withhold : Nat
  freq : Int
  lock : Nat
  last : Option Nat
  pend : Int
  sample : Option Int
  ofsLo : Nat
  starts : List Nat
  ppsSec : Nat
  ppsAt : Nat
  heard : Nat
  pps : Bool
  gpio : Nat
  flog : Option (List (Nat × Int))
  own : Bool
  deriving DecidableEq, Repr

/-- The timebase at power-up. -/
def Tb.reset : Tb :=
  { withhold := 0, freq := 0, lock := 0, last := none, pend := 0, sample := none, ofsLo := 0, starts := [], ppsSec := 0, ppsAt := 0
    heard := 0, pps := false, gpio := 0, flog := none, own := false }

/-- A trim channel beside its registers: the last code accepted since the boundary, whether its safe code is to
be latched there, the code at the pin, and the code a deglitch hold will release (R523, R524, R528). -/
structure TrimCh where
  next : Option Nat
  safe : Bool
  out : Nat
  hold : Option Nat
  deriving DecidableEq, Repr

/-- A trim channel at power-up. -/
def TrimCh.reset : TrimCh := { next := none, safe := false, out := 0, hold := none }

/-! ## Fronthaul ports (chapter 12) -/

/-- A stream-symbol under reception: table entry, symbol number, and the 33 wire bytes of each dab received. -/
structure RxSym where
  entry : Nat
  k : Nat
  dabs : SMap (List Byte)
  deriving DecidableEq, Repr

/-- A carrier-symbol of a transmit queue: carrier, symbol, the time its doorbell arrived, the outcome of its
readiness check, the bytes written for it and those kept, the entries sent, and whether it is over. -/
structure TxSym where
  c : Nat
  k : Nat
  bell : Option Nat
  chk : Option Bool
  cnt : Nat
  data : List Byte
  sent : Nat
  fin : Bool
  deriving DecidableEq, Repr

/-- A carrier on a queue position: the next symbol to close, to check and to fill, and the last symbols admitted
(up, down) once it stops. -/
structure FhFlow where
  ul : Nat
  dl : Nat
  fill : Nat
  lim : Option (Nat × Nat)
  deriving DecidableEq, Repr

/-- A queue position: stream-symbols under reception, bytes that wait in the receive FIFO, the carrier-symbol
under emission with the entries emitted, the carrier-symbols for which a late message has raised the event, and
the transmit carrier-symbols. -/
structure FhQueue where
  rx : List RxSym
  out : List Byte
  cur : Option (Nat × Nat)
  done : Nat
  late : List (Nat × Nat)
  tx : List TxSym
  deriving DecidableEq, Repr

/-- A queue position at reset. -/
def FhQueue.idle : FhQueue := { rx := [], out := [], cur := none, done := 0, late := [], tx := [] }

/-- A port beside its registers: the two-step queue (tag, time in 2^-16 ns), the entry a capture is armed for,
the receive window's write offset and the transmit window's read offset. -/
structure FhPort where
  txts : List (Nat × Nat)
  cap : Option Nat
  rxWr : Nat
  txRd : Nat
  deriving DecidableEq, Repr

/-- A port at reset. -/
def FhPort.idle : FhPort := { txts := [], cap := none, rxWr := 0, txRd := 0 }

/-! ## Narrowband engine (chapter 11) -/

/-- A symbol of a channel: the filter's output around it, and the soft symbol at each sample phase. -/
structure NceSymb where
  samp : List (Int × Int)
  soft : List Int
  deriving DecidableEq, Repr

/-- A frame under reception: its first sync symbol and phase, E_ref, T_SYNC (2^-16 ns), the noise floor and gain at
detection, the frequency error (2^-16 Hz), the equaliser's taps, the soft symbols received after the sync, the decoded
header (bits, corrected), its payload symbols, the flags, and the sync's place in a window. -/
structure NceFrame where
  sync : Nat
  phase : Nat
  eref : Int
  tsync : Nat
  noise : Nat
  gain : Nat
  ferr : Int
  eq : List (Int × Int)
  soft : List Int
  hdr : Option (List Nat × Nat)
  pay : Nat
  restarted : Bool
  stall : Bool
  pos : Nat
  deriving DecidableEq, Repr

/-- A receive channel beside its registers: the sample its run of symbols starts at, the symbols ended, the
pre-roll buffer or the window so far, the frame, the candidate (first sync symbol, phase, frequency error), the replay
(the new sync and the buffered symbols from ATTACK before it), the power of the Lull window, e of the previous
window, the schedule in force (BT0, mask) with the next window, and the payload soft bits of the last windows. -/
structure NceCh where
  base : Nat
  m : Nat
  hist : List NceSymb
  frame : Option NceFrame
  cand : Option (Nat × Nat × Int)
  replay : Option (Nat × Nat × Int × List NceSymb)
  lullPow : Nat
  e : Int
  bt0 : Nat
  mask : Nat
  win : Nat
  diag : List (List Int)
  deriving DecidableEq, Repr

/-- A channel that is OFF. -/
def NceCh.off : NceCh :=
  { base := 0, m := 0, hist := [], frame := none, cand := none, replay := none, lullPow := 0, e := 0, bt0 := 0, mask := 0
    win := 0, diag := [] }

/-- A record that waits to be written, with its frame's data. -/
structure NceRec where
  ch : Nat
  status : Nat
  flags : Nat
  tsync : Nat
  pos : Nat
  soft : List Int
  blocks : List Byte
  diag : Option (List Int)
  eref : Int
  noise : Nat
  gain : Nat
  hdrErr : Nat
  ferr : Int
  hdrBits : List Byte
  payOk : Nat
  tend : Nat
  deriving DecidableEq, Repr

/-- A transmit entry taken: its ring index, channel, flags, symbols, the device address of its bits, whether they have been
read (and failed to be read whole), and its STATUS once decided. -/
structure NceEnt where
  idx : Nat
  ch : Nat
  irq : Bool
  hold : Bool
  nsym : Nat
  bits : Nat
  got : Option Bool
  status : Option Nat
  deriving DecidableEq, Repr

/-- The writes of a record under way (R421): those still to be made, the soft units they take, and whether the data were
cut or the record has no room (R422). -/
structure NceJob where
  outs : List (Nat × List Byte)
  units : Nat
  trunc : Bool
  full : Bool
  deriving DecidableEq, Repr

/-- A group beside its registers: records to write and the writes of the first, transmit entries taken whose STATUS is not yet written in
ring order, entries taken, records counted, and the time it entered STOPPING. -/
structure NceGrp where
  recs : List NceRec
  job : Option NceJob
  ents : List NceEnt
  taken : Nat
  seq : Nat
  stopAt : Nat
  deriving DecidableEq, Repr

/-- A group at reset. -/
def NceGrp.idle : NceGrp := { recs := [], job := none, ents := [], taken := 0, seq := 0, stopAt := 0 }

/-- A burst that a channel has accepted, with the entries that continued it (R424 to R428): where its symbols begin and
end (in ns × 3R), 3R, the ramps in symbols, whether it holds and whether it has ended; its stream, FREQ and amplitude; the
deviation D as a fraction in Hz, the pulse, and its symbols' levels in units of D ÷ 3. -/
structure NceBurst where
  from_ : Nat
  stop : Nat
  r3 : Nat
  ramp : Nat
  hold : Bool
  ended : Bool
  strm : Nat
  freq : Int
  amp : Nat
  dev : Nat × Nat
  pulse : List Int
  levels : List Int
  deriving DecidableEq, Repr

/-- A capture or transmit stream: the bytes read from a transmit stream's FIFOs; the unpaired bytes in a capture stream's
FIFOs, the time since which each is empty, and the samples consumed since EN; whether the stall has been reported; and the
time of the last saturation event. -/
structure NceStrm where
  man : Nat
  exp : Nat
  mant : List Byte
  exps : List Byte
  mantAt : Nat
  expsAt : Nat
  samp : List (Int × Int)
  flag : Bool
  satAt : Option Nat
  deriving DecidableEq, Repr

/-- A stream at reset. -/
def NceStrm.idle : NceStrm :=
  { man := 0, exp := 0, mant := [], exps := [], mantAt := 0, expsAt := 0, samp := [], flag := false, satAt := none }

/-! ## Glaze (chapter 14) -/

/-- A capture FIFO of Glaze: whether its command waits for the bank or runs, its region, first map entry, blocks, SAME,
the block under way, its period (frame, index) and samples so far, the samples of its last dab, its exponents,
whether some were zero fill, and the bytes in the FIFO. -/
structure GlzCapt where
  run : Bool
  wait : Bool
  region : Nat
  map : Nat
  blocks : Nat
  same : Bool
  blk : Nat
  cur : Option (Nat × Nat)
  n : Nat
  part : List (Int × Int)
  exps : List Byte
  zero : Bool
  out : List Byte
  deriving DecidableEq, Repr

/-- An idle FIFO. -/
def GlzCapt.idle : GlzCapt :=
  { run := false, wait := false, region := 0, map := 0, blocks := 0, same := false, blk := 0, cur := none, n := 0, part := []
    exps := [], zero := false, out := [] }

/-- Glaze beside its registers: the estimate that waits (carrier, direction, CLEAR), the carriers that have flipped and
whose standby set has not been written since, swap events under way, the time COMM_STEP was entered, and the OCXO
step: the code it started from, the dwell, its start and the means so far (as fractions). -/
structure Glz where
  est : Option (Nat × Nat × Bool)
  flipped : List Nat
  swap : Nat
  since : Nat
  ocxo : Option (Nat × Nat × Nat × List (Int × Nat))
  deriving DecidableEq, Repr

/-- Glaze at reset. -/
def Glz.reset : Glz := { est := none, flipped := [], swap := 0, since := 0, ocxo := none }

/-! ## What leaves the device -/

/-- What the device has sent to a requester or to the outside, in order (log entry 9). -/
inductive Tx where
  | rsp (uid ch : Nat) (data : List Byte) (err : Bool)
  | msix (vec : Nat) (addr : Nat) (data : Word)
  | hostWrite (fn addr : Nat) (ns rlx : Bool) (data : List Byte)
  | hostRead (fn addr n : Nat) (ns rlx : Bool)
  | cfgRead (fn off : Nat) (w : Word)
  | bar2 (data : List Byte) (poison : Bool)
  | spdm (code : Nat) (data : List Byte)
  | eur (port mac : Nat) (tagged : Bool) (etherType type src dst seq ack credit tag : Nat) (payload : List Byte)
  | iq (port pcp vlan pcId seq : Nat) (payload : List Byte)
  | frame (port : Nat) (data : List Byte)
  | delay (port : Nat) (dst : List Byte) (id t2 egress : Nat)
  | loop (port n : Nat)
  | jtag (code : Nat)
  | pmbus (addr mv : Nat)
  deriving DecidableEq, Repr

/-! ## The device -/

/-- Everything but the queue, the time and the containment. `bad` lists the memory words, by address ÷ 8, whose check bits
find an error, and whether it is uncorrectable (R231). `washPos` is where each Wash sequencer stands in the pass,
`washAgain` the windows it has abandoned, with the times, `washSince` when the pass began (R264, R266); `scrub` the 32-byte
units that the HBM scrub has read in its pass, and `scrubSince` when that began (R237). Of the flash, `flash` holds the bytes programmed and `erased`
the ranges erased (log entry 7). -/
structure Dev where
  regs : SMap Word
  mem : SMap Byte
  bad : SMap Bool
  cores : SMap Core
  cs : SMap CsUnit
  banks : SMap Bank
  wash : SMap WashHold
  washPos : SMap Nat
  washAgain : List (WashTgt × Nat)
  washSince : Option Nat
  scrub : Nat
  scrubSince : Option Nat
  extCache : SMap Nat
  extInval : List Nat
  latch : SMap Word
  parked : List Nat
  slots : SMap Slot
  disp : SMap Disp
  gust : SMap GChan
  gustW : SMap (List GWrite)
  gustLast : SMap Nat
  eng : SMap Eng
  trc : List (List Byte)
  tb : Tb
  trim : SMap TrimCh
  trimDrop : Option Nat
  /-- When the trim watchdog's count began: the later of the last KICK and the last write of a non-zero TIMEOUT_MS (R530). -/
  wdogAt : Nat
  glz : Glz
  glzCapt : SMap GlzCapt
  nceCh : SMap NceCh
  nceGrp : SMap NceGrp
  nceBurst : SMap (List NceBurst)
  nceStrm : SMap NceStrm
  fh : SMap FhPort
  fhq : SMap FhQueue
  flow : SMap (Option FhFlow)
  perst : Bool
  fn : SMap FnCfg
  vfMbox : SMap Word
  mbox : List Nat
  msix : SMap Word
  msixPend : List Nat
  ring : SMap Ring
  tracePair : Nat
  peers : SMap Peer
  fab : List FabReq
  tag : Nat
  /-- The times of the last round of HELLOs and of the last advertisement of spill capacity (R563, R313). -/
  helloAt : Nat
  advAt : Nat
  flash : SMap Byte
  erased : List (Nat × Nat)
  boot : Boot
  pf : Pwrfail
  modes : Modes
  prog : SMap Nat
  lc : Lc
  cage : SMap Cage
  pwr : Pwr
  jtag : Jtag
  aonSent : List Nat
  meas : SMap (List Byte)
  log : SMap (List Byte)
  logSeq : Nat
  logFirst : Bool
  /-- The time of the trace unit's last PC sample (R600). -/
  pcAt : Nat
  evq : List Occ
  sent : List Tx
  free : Nat
  deriving DecidableEq, Repr

/-- What faults have taken out of service (R23 to R30). -/
structure Contain where
  units : List Nat
  chans : List (Nat × Nat)
  clusters : List Nat
  dies : List Nat
  pkg : Nat
  deriving DecidableEq, Repr

/-- Time and containment: what most commands cannot change. -/
structure Spine where
  now : Nat
  recent : List Nat
  contain : Contain
  deriving DecidableEq, Repr

/-- The state of the block: the commands that wait, first in first out, and the device. -/
structure State where
  pending : List Instr
  spine : Spine
  dev : Dev
  deriving DecidableEq, Repr

/-- Nothing is out of service. -/
def Contain.none : Contain := { units := [], chans := [], clusters := [], dies := [], pkg := 0 }

/-- The device at power-up. -/
def Dev.reset : Dev :=
  { regs := [], mem := [], bad := [], cores := [], cs := [], banks := [], wash := [], washPos := [], washAgain := [], washSince := none, scrub := 0, scrubSince := none, extCache := [], extInval := [], latch := [],
    parked := [], slots := [], disp := [], gust := [], gustW := [], gustLast := [], eng := [], trc := []
    tb := Tb.reset, trim := [], trimDrop := none, wdogAt := 0, glz := Glz.reset, glzCapt := [], nceCh := [], nceGrp := [], nceBurst := [], nceStrm := [], fh := [], fhq := [], flow := [], perst := false, fn := [], vfMbox := [], mbox := [], msix := [], msixPend := [], ring := [], tracePair := 0, peers := [], fab := [], tag := 0, helloAt := 0, advAt := 0
    flash := [], erased := [], boot := Boot.off, pf := Pwrfail.idle, modes := Modes.reset, prog := [], lc := { timed := false, acted := false, pressed := 0 }
    cage := [], pwr := Pwr.reset, jtag := Jtag.reset, aonSent := [], meas := [], log := [], logSeq := 0, logFirst := true, pcAt := 0, evq := [], sent := [], free := 0 }

/-- The block at power-up: every register at its reset value, nothing waiting. -/
def State.reset : State :=
  { pending := [], spine := { now := 0, recent := [], contain := Contain.none }, dev := Dev.reset }

/-- Apply a change of the device alone. -/
def State.onDev (s : State) (f : Dev → Dev) : State := { s with dev := f s.dev }

end Sys2Proof.Machine
end

