-- ==== Sys2Proof/Machine/Ops.lean ====
section
/-! DEFINITION. The named operations over registers, memory, events and units that every meaning uses. -/

namespace Sys2Proof.Machine

/-! ## Units (R2, R16 to R20, R40) -/

/-- The region of a compute core. -/
def coreRegion (k : Nat) : Nat := k / 24
/-- The device-wide cluster of a compute core (R4). -/
def coreCluster (k : Nat) : Nat := k / 4
/-- A hub cluster core? -/
def isHubCore (k : Nat) : Bool := decide (384 ≤ k)
/-- The UID of a core. -/
def coreUid (k : Nat) : Uid :=
  if k < 384 then mkUid (k / 96) (k / 24 % 4) (k % 24 / 4) (k % 4) else mkUid 4 0 0 (k - 384)
/-- The UID of unit `u` of region `r`'s slot (R18). -/
def regionUid (r u : Nat) : Uid := mkUid (r / 4) (r % 4) 6 u
/-- The region dispatcher d.r.6.5. -/
def dispatcherUid (r : Nat) : Uid := regionUid r 5
/-- Hub-die units 4.0.6.u (R20). -/
def hubUid (u : Nat) : Uid := mkUid 4 0 6 u
/-- The UID of bank n of region r (R245). -/
def bankUid (r n : Nat) : Uid :=
  if n < 48 then mkUid (r / 4) (r % 4) (n / 8) (8 + n % 8) else regionUid r (6 + (n - 48))
/-- The UID of a Gust engine: region 0 to 15, 16 the hub engine. -/
def gustUid (e : Nat) : Uid := if e < 16 then regionUid e 4 else hubUid 4
/-- Fields of a UID (R2). -/
def uidDie (u : Uid) : Nat := u / 512
def uidRegion (u : Uid) : Nat := u / 128 % 4
def uidCluster (u : Uid) : Nat := u / 16 % 8
def uidUnit (u : Uid) : Nat := u % 16

/-! ## Registers -/

/-- The value a register holds at reset; zero at an address of no register. -/
def regReset (a : Nat) : Word :=
  match blkOf a with
  | none => 0
  | some (b, o) =>
    match findReg (blkRegs b) o with
    | none => 0
    | some (r, i) =>
      match b with
      | .palr q => if o < 0xD0 then BitVec.ofNat 32 (dispatcherUid q) else BitVec.ofNat 32 r.reset
      | .eslr q =>
        if 0x44 ≤ o ∧ o < 0x80 then BitVec.ofNat 32 (dispatcherUid q) else BitVec.ofNat 32 r.reset
      | .evt => if 0x1000 ≤ o then BitVec.ofNat 32 (evtSeverity i * 8) else BitVec.ofNat 32 r.reset
      | _ => BitVec.ofNat 32 r.reset

/-- The reset value of a core's control register, whether or not it has a device address. -/
def cellReset (a : Nat) : Word :=
  if 0x40000000000 ≤ a then
    match findReg coreRegs ((a - 0x40000000000) % 0x1000) with
    | none => 0
    | some (r, _) => BitVec.ofNat 32 r.reset
  else regReset a

/-- The stored value of a register. -/
def Dev.reg (d : Dev) (a : Nat) : Word := SMap.get d.regs a (cellReset a)
/-- Store a register's value. -/
def Dev.setReg (d : Dev) (a : Nat) (v : Word) : Dev := { d with regs := SMap.put d.regs a v }

/-- A field's value. -/
def Dev.f (d : Dev) (x : Fld) : Nat := bitsOf (d.reg x.addr).toNat x.lo x.w
/-- Is a one-bit field 1? -/
def Dev.fb (d : Dev) (x : Fld) : Bool := d.f x == 1
/-- A field's value as a signed number. -/
def Dev.fs (d : Dev) (x : Fld) : Int := sx x.w (d.f x)
/-- Write a field, leaving the register's other bits. -/
def Dev.setF (d : Dev) (x : Fld) (v : Nat) : Dev :=
  d.setReg x.addr (BitVec.ofNat 32 (setBits (d.reg x.addr).toNat x.lo x.w v))
/-- Add to a counter field, saturating at its width. -/
def Dev.countF (d : Dev) (x : Fld) (n : Nat) : Dev := d.setF x (satAdd x.w (d.f x) n)

/-- The new value of a register after a write of `v`, field by field by access code (R11); reserved
bits stay zero (R14). -/
def applyAcc (fs : List FieldSpec) (old v : Nat) : Nat :=
  match fs with
  | [] => 0
  | f :: t =>
    let o := bitsOf old f.lo f.w
    let n := bitsOf v f.lo f.w
    let r := match f.acc with
      | .rw => n
      | .ro => o
      | .wo => 0
      | .w1c => o - Nat.land o n
      | .w1s => Nat.lor o n
      | .rcl => o
    r * 2 ^ f.lo + applyAcc t old v

/-- The value a read of a register returns: its readable fields; reserved and write-only bits zero. -/
def readAcc (fs : List FieldSpec) (old : Nat) : Nat :=
  match fs with
  | [] => 0
  | f :: t => (if f.acc = .wo then 0 else bitsOf old f.lo f.w * 2 ^ f.lo) + readAcc t old

/-- The value a read leaves behind: RCL fields are cleared (R11, R12). -/
def clearRcl (fs : List FieldSpec) (old : Nat) : Nat :=
  match fs with
  | [] => 0
  | f :: t => (if f.acc = .rcl then 0 else bitsOf old f.lo f.w * 2 ^ f.lo) + clearRcl t old

/-- The fields of the register at an address, or none where no register stands (R42). -/
def fieldsAt (a : Nat) : Option (List FieldSpec) :=
  if 0x40000000000 ≤ a then (findReg coreRegs ((a - 0x40000000000) % 0x1000)).map (·.1.fields)
  else
    match blkOf a with
    | none => none
    | some (b, o) =>
      let past := match b with
        | .gstr _ => decide (0x1800 ≤ o)
        | .fh p => decide (o = 0x70 ∧ p ≠ 0)
        | .palr _ => decide (0x400 ≤ o ∧ o < 0x1000 ∧ (o - 0x400) / 0x40 < 48 ∧ (o - 0x400) % 0x40 ≠ 0)
        | _ => false
      if past then none else (findReg (blkRegs b) o).map (·.1.fields)

/-- A write of a register by its access codes alone. -/
def Dev.plainWrite (d : Dev) (a : Nat) (v : Word) : Dev :=
  match fieldsAt a with
  | none => d
  | some fs => d.setReg a (BitVec.ofNat 32 (applyAcc fs (d.reg a).toNat v.toNat))

/-! ## Events -/

/-- Raise an event: the occurrence waits for the router (R590). -/
def Dev.raise (d : Dev) (num uid : Nat) (ch addr info : Nat := 0) : Dev :=
  { d with evq := d.evq ++ [{ num := num, uid := uid, ch := ch, addr := addr, info := info }] }

/-! ## Time -/

/-- One nanosecond in the units of Spine.now (2^-48 ns; log entry 3). -/
def nsUnit : Nat := 2 ^ 48

/-! ## Free values -/

/-- Take one open number below `n` (log entry 2). -/
def Dev.draw (d : Dev) (n : Nat) : Nat × Dev := (Config.free d.free % n, { d with free := d.free + 1 })

/-! ## Memory -/

/-- What a byte of memory that nothing has written reads as (log entry 4). -/
def memDefault : Byte := 0
/-- The canonical form of memory. -/
def Memory.wf (m : SMap Byte) : Bool := SMap.wf (fun _ => memDefault) m
/-- Read one byte of memory. -/
def Dev.byte (d : Dev) (a : Nat) : Byte := SMap.get d.mem a memDefault
/-- Write one byte of memory. -/
def Dev.setByte (d : Dev) (a : Nat) (b : Byte) : Dev := { d with mem := SMap.set d.mem a b memDefault }
/-- Read `n` bytes. -/
def Dev.bytes (d : Dev) (a n : Nat) : List Byte := (List.range n).map fun i => d.byte (a + i)
/-- Write bytes. -/
def Dev.setBytes (d : Dev) (a : Nat) (l : List Byte) : Dev :=
  match l with
  | [] => d
  | b :: t => (d.setByte a b).setBytes (a + 1) t
/-- Read a little-endian number of `n` bytes. -/
def Dev.rd (d : Dev) (a n : Nat) : Nat := ofLeBytes (d.bytes a n)
/-- Write a little-endian number of `n` bytes. -/
def Dev.wr (d : Dev) (a n v : Nat) : Dev := d.setBytes a (leBytes n v)
/-- Clear `n` bytes. -/
def Dev.clearMem (d : Dev) (a n : Nat) : Dev :=
  { d with mem := d.mem.filter fun e => !(decide (a ≤ e.1) && decide (e.1 < a + n)) }

/-! ## Cores -/

/-- A core. -/
def Dev.core (d : Dev) (k : Nat) : Core := SMap.get d.cores k (Core.reset k)
/-- Replace a core. -/
def Dev.setCore (d : Dev) (k : Nat) (c : Core) : Dev := { d with cores := SMap.put d.cores k c }
/-- Change a core. -/
def Dev.mapCore (d : Dev) (k : Nat) (f : Core → Core) : Dev := d.setCore k (f (d.core k))
/-- A CS unit (cluster, 0 or 1). -/
def Dev.csUnit (d : Dev) (c u : Nat) : CsUnit := SMap.get d.cs (c * 2 + u) CsUnit.reset
/-- Replace a CS unit. -/
def Dev.setCs (d : Dev) (c u : Nat) (x : CsUnit) : Dev := { d with cs := SMap.put d.cs (c * 2 + u) x }

/-! ## Containment -/

/-- Is a unit out of service: quarantined itself, in a quarantined cluster, on a fenced die, or the
package stopped (R23 to R28)? -/
def Contain.out (c : Contain) (uid : Uid) : Bool :=
  c.pkg != 0 || c.units.contains uid || c.dies.contains (uidDie uid) ||
    (decide (uidDie uid < 4) && decide (uidCluster uid < 6) &&
      c.clusters.contains (uidDie uid * 24 + uidRegion uid * 6 + uidCluster uid))

end Sys2Proof.Machine
end

