-- ==== Sys2Proof/Machine/Operands.lean ====
section
/-! DEFINITION. Operands of the AK core: registers with rotation and chaining, guards, segments, access
classes, and addresses with circular windows (R112 to R115, R118, R122, R128, R131 to R134). -/

namespace Sys2Proof.Machine

/-! ## Privilege and control registers -/

/-- Privilege levels: CORE_STATUS.PRIV 0 U, 1 S, 3 M. The code 2 is not a level of the spec; it acts
as U (log entry 12). -/
inductive Level where
  | u | s | m
  deriving DecidableEq, Repr

/-- The level a PRIV code names. -/
def levelOf (n : Nat) : Level := if n = 3 then .m else if n = 1 then .s else .u

/-- The level a core runs at. -/
def Dev.level (d : Dev) (k : Nat) : Level := levelOf (d.f (F.CORE_STATUS_PRIV k))

/-! ## Registers of a core -/

/-- Physical predicate of a logical one (R122). -/
def physP (rp : Nat) (l : PReg) : PReg :=
  if l.toNat < 4 then l else BitVec.ofNat 3 (4 + (l.toNat - 4 + rp) % 4)

/-- Physical vector register of a logical one (R122). -/
def physV (rv : Nat) (l : Reg) : Reg :=
  if l.toNat < 16 then l else BitVec.ofNat 5 (16 + (l.toNat - 16 + rv) % 16)

/-- The physical predicate a core's instruction names now. -/
def Dev.pp (d : Dev) (k : Nat) (l : PReg) : PReg := physP (d.f (F.CORE_LOOP_BASE_RP k)) l
/-- The physical vector register a core's instruction names now. -/
def Dev.pv (d : Dev) (k : Nat) (l : Reg) : Reg := physV (d.f (F.CORE_LOOP_BASE_RV k)) l

/-- General register. -/
def Core.rg (c : Core) (r : Reg) : Word := SMap.get c.g r.toNat 0
/-- Accumulator. -/
def Core.ra (c : Core) (r : AReg) : BitVec 48 := SMap.get c.a r.toNat 0
/-- Physical predicate. -/
def Core.rp (c : Core) (r : PReg) : BitVec 64 := SMap.get c.p r.toNat 0
/-- Physical vector register. -/
def Core.rv (c : Core) (r : Reg) : BitVec 512 := SMap.get c.v r.toNat 0

/-- Read a general register of a core. -/
def Dev.g (d : Dev) (k : Nat) (r : Reg) : Word := (d.core k).rg r
/-- Read a logical predicate. -/
def Dev.p (d : Dev) (k : Nat) (l : PReg) : BitVec 64 := (d.core k).rp (d.pp k l)
/-- Read a logical vector register. -/
def Dev.v (d : Dev) (k : Nat) (l : Reg) : BitVec 512 := (d.core k).rv (d.pv k l)

/-- Expand 64 byte-lane bits to a mask of 512 bits. -/
def laneMask (n : Nat) (lanes : Nat) : Nat :=
  match n with
  | 0 => 0
  | j + 1 => (if bitAt lanes j then 255 * 2 ^ (8 * j) else 0) + laneMask j lanes

/-- `old` with the named byte lanes taken from `new` (R163). -/
def mergeLanes (lanes : BitVec 64) (old new : BitVec 512) : BitVec 512 :=
  let m := BitVec.ofNat 512 (laneMask 64 lanes.toNat)
  (old &&& ~~~m) ||| (new &&& m)

/-- Accumulator source of a MAC-class instruction, with the chaining of R128. -/
def chainA (l : List InFlight) (r : AReg) (v : BitVec 48) : BitVec 48 :=
  match l with
  | [] => v
  | x :: t =>
    match x.wr with
    | .a r' v' => chainA t r (if x.fresh && x.acc && r' == r then v' else v)
    | _ => chainA t r v

/-- Value-and-index source of MAXI and MINI, with the chaining of R128. -/
def chainG (l : List InFlight) (r : Reg) (v : Word) : Word :=
  match l with
  | [] => v
  | x :: t =>
    match x.wr with
    | .g r' v' => chainG t r (if x.fresh && x.acc && r' == r then v' else v)
    | _ => chainG t r v

/-- Vector accumulator source, with the chaining of R128. -/
def chainV (l : List InFlight) (r : Reg) (v : BitVec 512) : BitVec 512 :=
  match l with
  | [] => v
  | x :: t =>
    match x.wr with
    | .v r' ls v' => chainV t r (if x.fresh && x.acc && r' == r then mergeLanes ls v v' else v)
    | _ => chainV t r v

/-- Does a guarded instruction execute (R118)? The rule's words: when bit 0 of the guard predicate is
1, or when that bit is 0 and GN is 1 (DEDUCED, log entry 13). -/
def Dev.guard (d : Dev) (h : Hd) : Bool :=
  h.pg == 0 || (d.p h.k h.pg).getLsbD 0 || (!(d.p h.k h.pg).getLsbD 0 && h.gn)

/-! ## Segments and access classes -/

/-- A core memory's base: data scratch at +0, instruction memory at +0x8_0000 (R40, R41). -/
def coreMem (k : Nat) : Nat :=
  if k < 384 then regionBase (k / 24) + k % 24 * 0x100000 else 0x02001000000 + (k - 384) * 0x100000

/-- Does an address lie in the core's own data scratch? -/
def inScratch (k a : Nat) : Bool := decide (coreMem k ≤ a) && decide (a < coreMem k + 0x40000)
/-- Does an address lie in the core's own instruction memory? -/
def inImem (k a : Nat) : Bool := decide (coreMem k + 0x80000 ≤ a) && decide (a < coreMem k + 0x90000)
/-- Does an address lie in the Palette banks of the core's own cluster? -/
def inOwnBanks (k a : Nat) : Bool :=
  let b := regionBase (k / 24) + 0x02000000 + k % 24 / 4 * 0x100000
  decide (k < 384) && decide (b ≤ a) && decide (a < b + 0x100000)
/-- Register space (R115). -/
def inRegSpace (a : Nat) : Bool :=
  (decide (0x01000000000 ≤ a) && decide (a < 0x02000000000) && decide (0x0F000000 ≤ a % 0x10000000)) ||
  (decide (0x02010000000 ≤ a) && decide (a < 0x02020000000))

/-- The path an access takes (R115). -/
inductive Path where
  | scratch | portA | regs | cached | uncached
  deriving DecidableEq, Repr

/-- The path of an access of core `k` to device address `a` through a segment whose C bit is `c`. -/
def pathOf (k a : Nat) (c : Bool) : Path :=
  if inScratch k a then .scratch
  else if inImem k a || inOwnBanks k a then .portA
  else if inRegSpace a then .regs
  else if c then .cached else .uncached

/-- A segment as R112 to R114 have it: BASE, V, C, W, SU, UU. -/
structure Seg where
  base : Nat
  v : Bool
  c : Bool
  w : Bool
  su : Bool
  uu : Bool
  deriving DecidableEq, Repr

/-- Segment n of a core: the fixed ones of R113, else CORE_SEG_n (R114). -/
def Dev.seg (d : Dev) (k n : Nat) : Seg :=
  if n = 0 then
    { base := if k < 384 then 0x100 + k / 24 else 0x200, v := true, c := true, w := true, su := true, uu := true }
  else if n = 1 ∧ 384 ≤ k then { base := 0x201, v := true, c := false, w := true, su := true, uu := false }
  else
    { base := d.f (F.CORE_SEG_BASE k n), v := d.fb (F.CORE_SEG_V k n), c := d.fb (F.CORE_SEG_C k n)
      w := d.fb (F.CORE_SEG_W k n), su := d.fb (F.CORE_SEG_SU k n), uu := d.fb (F.CORE_SEG_UU k n) }

/-- Map a core address at the core's level: the device address and its path, or none for
ACCESS_FAULT (R112 to R115). -/
def Dev.mapAddr (d : Dev) (k a : Nat) (write : Bool) : Option (Nat × Path) :=
  let n := a / 0x10000000 % 16
  let off := a % 0x10000000
  let s := d.seg k n
  let da := s.base * 0x10000000 + off
  let ok := match d.level k with
    | .m => true
    | .s => s.su
    | .u => s.uu && !inRegSpace da && (n != 0 || decide (off < 0x0F000000))
  if s.v && ok && (s.w || !write) then some (da, pathOf k da s.c) else none

/-! ## Addresses -/

/-- The outcome of an address computation: the address, the new base, or the trap with its value. -/
structure AddrOut where
  addr : Nat
  base : Nat
  bad : Bool
  win : Option (Nat × Nat)
  deriving DecidableEq, Repr

/-- Address and updated base of an access (R133, R134): `rb` the base register, `off` the signed byte
offset; with a window the base must lie in it. -/
def Dev.address (d : Dev) (k : Nat) (rb : Nat) (off : Int) (pi cwe : Bool) (cw : Nat) : AddrOut :=
  if cwe then
    let b := (d.reg (coreBase k + 0x80 + cw * 8)).toNat / 4 * 4
    let len := d.f (F.CORE_CWIN_LEN_LEN k cw) * 4
    if len = 0 ∨ rb < b ∨ b + len ≤ rb then { addr := 0, base := rb, bad := true, win := none }
    else
      let a := b + ((((rb : Int) - (b : Int) + off) % (len : Int)).toNat)
      { addr := if pi then rb else a, base := a % 2 ^ 32, bad := false, win := some (b, len) }
  else
    let a := wrapInt 32 ((rb : Int) + off)
    { addr := if pi then rb else a, base := a, bad := false, win := none }

/-- Byte `i` of an access at `a`, wrapped at the end of a window (R134) or modulo 2^32. -/
def AddrOut.at (o : AddrOut) (i : Nat) : Nat :=
  match o.win with
  | none => (o.addr + i) % 2 ^ 32
  | some (b, len) => b + (o.addr - b + i) % len

end Sys2Proof.Machine
end

