-- ==== Sys2Proof/Machine/Access.lean ====
section
/-! DEFINITION. Accesses to the memories: the address map, refusals and their capture, ECC, Wash windows,
and the ports of the Palette banks with ownership, power and drains (R27, R42, R229 to R274). -/

namespace Sys2Proof.Machine

/-! ## Requesters -/

/-- M-level hub firmware: a hub cluster core at M level, or the debug port (R602). -/
def reqFw (q : Req) : Bool :=
  q.dbg || (decide (2048 ≤ q.uid.toNat) && decide (q.uid.toNat < 2052) && q.lvl == 3)
/-- Is the requester this unit and channel? -/
def reqIs (q : Req) (uid ch : Nat) : Bool := !q.dbg && q.uid.toNat == uid && q.ch.toNat == ch
/-- The requester that a core is. -/
def coreReq (k lvl : Nat) : Req :=
  { uid := BitVec.ofNat 12 (coreUid k), ch := 0, lvl := BitVec.ofNat 2 lvl, dbg := false }
/-- The requester that another unit is. -/
def unitReq (uid ch : Nat) : Req := { uid := BitVec.ofNat 12 uid, ch := BitVec.ofNat 6 ch, lvl := 1, dbg := false }
/-- A unit or Gust channel out of service (R23 to R28). -/
def Contain.gone (c : Contain) (uid ch : Nat) : Bool := c.out uid || c.chans.contains (uid, ch)
/-- Can a requester issue no access: it is out of service, or a debug port that is closed? -/
def reqGone (sp : Spine) (d : Dev) (q : Req) : Bool :=
  if q.dbg then sp.contain.pkg != 0 || !d.fb F.EVT_DBG_OPEN else sp.contain.gone q.uid.toNat q.ch.toNat

/-! ## The address map (R40, R41, R229) -/

/-- What stands at a device address. -/
inductive Tgt where
  | hbm | sram | store | regs | host | fabric | bad
  | cmem (k : Nat)
  | bank (r n : Nat)
  deriving DecidableEq, Repr

/-- Does an offset in a core memory's stride hold memory (R40)? -/
def cmemOff (o : Nat) : Bool := decide (o < 0x40000) || (decide (0x80000 ≤ o) && decide (o < 0x90000))

/-- Does an address lie in a register block's range, whether or not a register stands there? -/
def inBlocks (a : Nat) : Bool :=
  (blkOf a).isSome ||
    (decide (0x01000000000 ≤ a) && decide (a < 0x01100000000) && decide (0x0F100000 ≤ a % 0x10000000)
      && decide (a % 0x10000000 < 0x0F160000))

/-- What stands at a device address. -/
def tgtOf (a : Nat) : Tgt :=
  if a < 0x00400000000 then .hbm
  else if a < 0x01000000000 then .bad
  else if a < 0x01100000000 then
    let r := (a - 0x01000000000) / 0x10000000
    let o := (a - 0x01000000000) % 0x10000000
    if o < 0x01800000 then (if cmemOff (o % 0x100000) then .cmem (r * 24 + o / 0x100000) else .bad)
    else if 0x02000000 ≤ o ∧ o < 0x02600000 then .bank r ((o - 0x02000000) / 0x20000)
    else if 0x08000000 ≤ o ∧ o < 0x08800000 then .bank r (48 + (o - 0x08000000) / 0x200000)
    else if inBlocks a then .regs else .bad
  else if a < 0x02000000000 then .bad
  else if a < 0x02000400000 then .store
  else if 0x02001000000 ≤ a ∧ a < 0x02001400000 then
    (if cmemOff ((a - 0x02001000000) % 0x100000) then .cmem (384 + (a - 0x02001000000) / 0x100000) else .bad)
  else if 0x02002000000 ≤ a ∧ a < 0x02002800000 then .sram
  else if a < 0x02020000000 then (if inBlocks a then .regs else .bad)
  else if 0x20000000000 ≤ a ∧ a < 0x30000000000 then .host
  else if 0x30000000000 ≤ a ∧ a < 0x40000000000 then .fabric
  else .bad

/-- The base of a bank. -/
def bankBase (r n : Nat) : Nat :=
  if n < 48 then regionBase r + 0x02000000 + n * 0x20000 else regionBase r + 0x08000000 + (n - 48) * 0x200000
/-- The size of a bank. -/
def bankSize (n : Nat) : Nat := if n < 48 then 0x20000 else 0x200000

/-- The region whose window holds an address. -/
def winRegion (a : Nat) : Option Nat :=
  if 0x01000000000 ≤ a ∧ a < 0x01100000000 then some ((a - 0x01000000000) / 0x10000000) else none
/-- The fenced die whose window holds an address (R27). -/
def fencedDie (sp : Spine) (a : Nat) : Option Nat :=
  match winRegion a with
  | some r => if sp.contain.dies.contains (r / 4) then some (r / 4) else none
  | none => none

/-- The unit that holds the memory at an address, for a Wash or ECC event; none for hub SRAM, which has
no UID. -/
def memUid (a : Nat) : Option Nat :=
  match tgtOf a with
  | .hbm => some (mkUid 4 2 0 (a / 256 % 16))
  | .store => some (hubUid 10)
  | .cmem k => some (coreUid k)
  | .bank r n => some (bankUid r n)
  | _ => none

/-- What orders two writes of one unit (R272): one bank, one pseudo-channel, one memory or block. -/
def destKey (a : Nat) : Nat :=
  match tgtOf a with
  | .hbm => a / 256 % 16
  | .sram => 16
  | .store => 17
  | .host => 18
  | .fabric => 19
  | .bad => 20
  | .cmem k => 100 + k
  | .bank r n => 1000 + r * 52 + n
  | .regs => 10000 + a / 0x1000

/-- Do two runs of bytes meet in something whose writes keep their order? No run crosses a bank or a register block without
touching it in every 256 bytes. -/
def destsMeet (a n b m : Nat) : Bool :=
  let keys := fun (a n : Nat) => (List.range ((a + max n 1 - 1) / 256 - a / 256 + 1)).map fun i => destKey (max a ((a / 256 + i) * 256))
  (keys a n).any fun x => (keys b m).contains x

/-! ## Refusals -/

/-- Write a 42-bit address into a pair of capture registers, the high part in bits [9:0]. -/
def Dev.setAddr (d : Dev) (lo hi : Fld) (a : Nat) : Dev := (d.setF lo (a % 2 ^ 32)).setF hi (a / 2 ^ 32)

/-- The capture of a refusal in a region's PAL_REF registers: the first until VALID is cleared; COUNT
counts every one. -/
def Dev.capRef (d : Dev) (r kind : Nat) (q : Req) (a : Nat) (write : Bool) : Dev :=
  let d' := if d.fb (F.PAL_REF_STATUS_VALID r) then d
    else (((((d.setF (F.PAL_REF_STATUS_VALID r) 1).setF (F.PAL_REF_STATUS_KIND r) kind).setF
      (F.PAL_REF_STATUS_WRITE r) (b2n write)).setF (F.PAL_REF_UID_UID r) q.uid.toNat).setF
      (F.PAL_REF_UID_SUB r) q.ch.toNat).setAddr (F.PAL_REF_ADDR_LO_ADDR r) (F.PAL_REF_ADDR_HI_ADDR r) a
  d'.countF (F.PAL_REF_STATUS_COUNT r) 1

/-- The event of a refusal kind: 6 POWER, 7 DECODE, every other EV_PAL_OWNER. -/
def refEvent (kind : Nat) : Nat := if kind = 6 then evPalPower else if kind = 7 then evPalDecode else evPalOwner

/-- Refuse an access: the event with the requester's UID and the address (R620, R622), and the capture
of the region whose window holds the address. -/
def Dev.refuse (d : Dev) (kind : Nat) (q : Req) (a : Nat) (write : Bool) : Dev :=
  let d' := d.raise (refEvent kind) q.uid.toNat q.ch.toNat a (kind + 8 * b2n write)
  match winRegion a with
  | some r => d'.capRef r kind q a write
  | none => d'

/-- Refuse an access into the window of a fenced die (R27). -/
def Dev.refuseFenced (d : Dev) (die : Nat) (q : Req) (a : Nat) (write : Bool) : Dev :=
  d.raise evPalFenced q.uid.toNat q.ch.toNat a (die + 8 * b2n write)

/-! ## ECC (R231, R232, R236) -/

/-- Did a count that went up by one reach a multiple of EVT_CE_CFG.STEP (R589, event 982)? -/
def passesStep (d : Dev) (old new : Nat) : Bool :=
  decide (old < new) && new % (max 1 (d.f F.EVT_CE_CFG_STEP)) == 0

/-- Count a corrected word at an address: the region's or the HBM's count; hub SRAM and the descriptor
store have none. -/
def Dev.eccCe (d : Dev) (a : Nat) : Dev :=
  let bump := fun (x : Fld) (uid : Nat) =>
    let d' := d.countF x 1
    if passesStep d (d.f x) (d'.f x) then d'.raise evPalEccCe uid else d'
  match winRegion a with
  | some r => bump (F.PAL_ECC_CE_COUNT r) ((memUid a).getD 0)
  | none => if a < 0x00400000000 then bump F.PAL_HBM_CE_COUNT (hubUid 5) else d

/-- Record an uncorrectable word at an address and raise EV_PAL_ECC_UE with it. -/
def Dev.eccUe (d : Dev) (a : Nat) : Dev :=
  let d := match memUid a with
    | some u => d.raise evPalEccUe u 0 a
    | none => (d.draw 4096).2.raise evPalEccUe (d.draw 4096).1 0 a
  match winRegion a with
  | some r =>
    if d.fb (F.PAL_ECC_UE_HI_VALID r) then d
    else (d.setAddr (F.PAL_ECC_UE_LO_ADDR r) (F.PAL_ECC_UE_HI_ADDR r) a).setF (F.PAL_ECC_UE_HI_VALID r) 1
  | none =>
    if a < 0x00400000000 ∧ d.fb F.PAL_HBM_UE_ADDR_HI_VALID = false then
      (d.setAddr F.PAL_HBM_UE_ADDR_LO_ADDR F.PAL_HBM_UE_ADDR_HI_ADDR a).setF F.PAL_HBM_UE_ADDR_HI_VALID 1
    else d

/-- The outcome of an access: its data, or that it waits, was refused, or met an uncorrectable word. -/
inductive AccOut where
  | ok (data : List Byte)
  | wait
  | refused
  | err
  deriving DecidableEq, Repr

/-- Memory words go bad: a correctable word turns uncorrectable when it is hit again (log entry 5). -/
def Dev.upset (d : Dev) (l : Ecc) : Dev :=
  l.foldl (fun d x =>
    let w := x.1.toNat / 8
    { d with bad := SMap.put d.bad w (x.2 || (d.bad.find? fun e => e.1 == w).isSome) }) d

/-- The bad words, by address ÷ 8, among those with a byte of [a, a + n). -/
def Dev.badIn (d : Dev) (a n : Nat) : SMap Bool :=
  d.bad.filter fun e => decide (n ≠ 0) && decide (a / 8 ≤ e.1) && decide (e.1 ≤ (a + n - 1) / 8)

/-- The address of the first uncorrectable word with a byte of [a, a + n). -/
def Dev.firstUe (d : Dev) (a n : Nat) : Option Nat := ((d.badIn a n).find? fun e => e.2).map (·.1 * 8)

/-- The words with a byte of [a, a + n) are good. -/
def Dev.mend (d : Dev) (a n : Nat) : Dev :=
  { d with bad := d.bad.filter fun e => !(decide (n ≠ 0) && decide (a / 8 ≤ e.1) && decide (e.1 ≤ (a + n - 1) / 8)) }

/-- What reading the words with a byte of [a, a + n) does: a correctable one is counted and written back, an
uncorrectable one is reported and left (R231). -/
def Dev.eccRead (d : Dev) (a n : Nat) : Dev :=
  (d.badIn a n).foldl (fun d e => if e.2 then d.eccUe (e.1 * 8) else (d.mend (e.1 * 8) 1).eccCe (e.1 * 8)) d

/-- The unit of a memory that a write of less reads first: 64 bits, of the HBM 32 bytes (R232, R235). -/
def eccUnit (a : Nat) : Nat := if a < 0x00400000000 then 32 else 8

/-- The units that a write covers in part. -/
def partUnits (a n : Nat) : List Nat :=
  let u := eccUnit a
  let lo := a / u * u
  let hi := (a + n - 1) / u * u
  if n = 0 then []
  else (if a ≠ lo ∨ a + n < lo + u then [lo] else []) ++ (if hi ≠ lo ∧ a + n ≠ hi + u then [hi] else [])

/-- A CS unit reads the next bytes of its source, in ascending order (R217). -/
def Dev.csTake (d : Dev) (c u m : Nat) : Dev :=
  match (d.csUnit c u).op with
  | none => d
  | some o =>
    let a := o.src + o.got.length
    (d.eccRead a m).setCs c u { d.csUnit c u with op := some { o with got := o.got ++ d.bytes a m } }

/-- A write to a core memory: of the source blocks that it meets, the CS units of the core have by then read bytes, how many
is open (R218; log entry 55). -/
def Dev.csReads (d : Dev) (a n : Nat) : Dev :=
  match tgtOf a with
  | .cmem k =>
    (List.range 2).foldl (fun d u =>
      match (d.csUnit (coreCluster k) u).op with
      | some o =>
        if o.core.val = k ∧ a < o.src + o.len ∧ o.src < a + n ∧ o.got.length < o.len then
          let r := d.draw (o.len - o.got.length + 1)
          r.2.csTake (coreCluster k) u r.1
        else d
      | none => d) d
  | _ => d

/-- A write of memory: a unit it covers in part is read first, and keeps its bytes where that read finds an uncorrectable
word; every other unit is written, and its words are good (R232). -/
def Dev.memPut (d : Dev) (a : Nat) (data : List Byte) : Bool × Dev :=
  let u := eccUnit a
  let d := d.csReads a data.length
  let ps := partUnits a data.length
  let lost := ps.filter fun b => (d.firstUe b u).isSome
  let d1 := ps.foldl (fun d b => d.eccRead b u) d
  if lost = [] then (true, (d1.setBytes a data).mend a data.length)
  else
    let keep := data.mapIdx fun i x => if lost.contains ((a + i) / u * u) then d1.byte (a + i) else x
    let d2 := d1.setBytes a keep
    (false, { d2 with bad := d2.bad.filter fun e => lost.contains (e.1 * 8 / u * u)
      || !(decide (a / u * u ≤ e.1 * 8) && decide (e.1 * 8 < a + data.length)) })

/-- An access applied to memory: a read, or a write. -/
def Dev.memAcc (d : Dev) (a n : Nat) (write : Bool) (data : List Byte) : AccOut × Dev :=
  if write then
    let r := d.memPut a data
    (if r.1 then .ok [] else .err, r.2)
  else (if (d.firstUe a n).isSome then .err else .ok (d.bytes a n), d.eccRead a n)

/-- Does the descriptor store take a write of a requester into a slot (R278, R279)? Only while the slot is FREE, and
a core's only outside the slots of the host and of peers. -/
def Dev.storeTakes (d : Dev) (q : Req) (s : Nat) : Bool :=
  let within := fun (first count : Nat) => decide ((s + 65536 - first) % 65536 < count)
  let core := decide (uidCluster q.uid.toNat < 6) && decide (uidUnit q.uid.toNat < 4)
  (SMap.get d.slots s Slot.free).st == 0 &&
    !(core && (within (d.f F.ESL_HOST_SLOTS_FIRST) (d.f F.ESL_HOST_SLOTS_COUNT)
      || within (d.f F.ESL_SPILL_IN_FIRST) (d.f F.ESL_SPILL_IN_COUNT)))

/-- Put what the descriptor store takes of a write, slot by slot; the fuel exceeds the slots it spans. -/
def Dev.storePut (d : Dev) (q : Req) (fuel a : Nat) (data : List Byte) : Bool × Dev :=
  match fuel with
  | 0 => (true, d)
  | n + 1 =>
    if data = [] then (true, d)
    else
      let m := 64 - a % 64
      let r := if d.storeTakes q ((a - 0x02000000000) / 64 % 65536) then d.memPut a (data.take m) else (true, d)
      let t := r.2.storePut q n (a + m) (data.drop m)
      (r.1 && t.1, t.2)

/-- An access to the descriptor store: what it does not take is dropped silently (R278). -/
def Dev.storeAcc (d : Dev) (q : Req) (a n : Nat) (write : Bool) (data : List Byte) : AccOut × Dev :=
  if write then
    let r := d.storePut q (data.length / 64 + 2) a data
    (if r.1 then .ok [] else .err, r.2)
  else d.memAcc a n false []

/-! ## Banks -/

/-- A bank. -/
def Dev.bank (d : Dev) (r n : Nat) : Bank := SMap.get d.banks (r * 52 + n) Bank.reset
/-- Replace a bank. -/
def Dev.setBank (d : Dev) (r n : Nat) (b : Bank) : Dev := { d with banks := SMap.put d.banks (r * 52 + n) b }
/-- Change a bank. -/
def Dev.mapBank (d : Dev) (r n : Nat) (f : Bank → Bank) : Dev := d.setBank r n (f (d.bank r n))

/-- Is a requester the bank's owner (R246)? -/
def Dev.isOwner (d : Dev) (r n : Nat) (q : Req) : Bool :=
  reqIs q (d.f (F.PAL_OWNER_OWNER r n)) (d.f (F.PAL_OWNER_OWNER_CH r n))
/-- Is a requester the delegate of a delegation in force (R254)? -/
def Dev.isDelegate (d : Dev) (r n : Nat) (q : Req) : Bool :=
  d.fb (F.PAL_DELEG_EN r n) && reqIs q (d.f (F.PAL_DELEG_DEL_UID r n)) (d.f (F.PAL_DELEG_DEL_CH r n))

/-- What ownership says of an access (R248, R250, R251, R254); `late` marks a write issued after the
drain request reached its unit. -/
inductive Admit where
  | ok | wait | refuse (kind : Nat)
  deriving DecidableEq, Repr

def Dev.judge (d : Dev) (r n : Nat) (q : Req) (write late : Bool) : Admit :=
  if reqFw q then .ok
  else
    let b := d.bank r n
    let plain : Admit :=
      if d.fb (F.PAL_DELEG_EN r n) then (if d.isDelegate r n q then .ok else .refuse 0)
      else if d.isOwner r n q then .ok else .refuse 0
    match b.drain with
    | none => plain
    | some dr =>
      let own := d.isOwner r n q
      let del := d.isDelegate r n q
      if dr.own then
        let asked := (dr.oldIn && own) || (dr.delIn && del)
        if asked && write && !late then .ok
        else if reqIs q dr.uid dr.ch && !(own || del) then .wait
        else if asked then .refuse 0
        else plain
      else if own then .wait
      else if dr.delIn && del then (if write && !late then .ok else .refuse 0)
      else plain

/-- The wash key of a target: a region's banks, a core memory, hub SRAM. -/
def washKey (t : WashTgt) : Nat :=
  match t with
  | .bank r _ _ => r
  | .core k _ _ => 16 + k
  | .sram _ => 404
/-- The address and size of a window or word. -/
def washSpan (t : WashTgt) : Nat × Nat :=
  match t with
  | .bank r n w => (bankBase r n + w.toNat * 256, 256)
  | .core k im w => (coreMem k + (if im then 0x80000 else 0) + w.toNat * 8, 8)
  | .sram w => (0x02002000000 + w.toNat * 8, 8)
/-- The window or word a sequencer holds. -/
def Dev.washAt (d : Dev) (key : Nat) : Option WashHold := (d.wash.find? fun e => e.1 == key).map (·.2)
/-- Restore a bank's held window and release it; a held word of another memory is its own current
contents (R268). -/
def Dev.washRelease (d : Dev) (key : Nat) : Dev :=
  match d.washAt key with
  | none => d
  | some h =>
    let d' := match h.tgt with
      | .bank _ _ _ => d.setBytes (washSpan h.tgt).1 h.save
      | _ => d
    { d' with wash := d.wash.filter fun e => e.1 != key }

/-- An admitted access to a borrowed window ends the borrow: the window is tested again later (R266). -/
def Dev.washAbort (sp : Spine) (d : Dev) (r a n : Nat) : Dev :=
  match d.washAt r with
  | none => d
  | some h =>
    let s := washSpan h.tgt
    if a < s.1 + s.2 ∧ s.1 < a + n then
      ({ d.washRelease r with washAgain := d.washAgain ++ [(h.tgt, sp.now)] } : Dev).countF F.PAL_WASH_ABORT_COUNT 1
    else d

/-- The core with a UID, if it is one. -/
def coreOfUid (uid : Nat) : Option Nat :=
  if uidDie uid < 4 ∧ uidCluster uid < 6 ∧ uidUnit uid < 4 then
    some ((uidDie uid * 4 + uidRegion uid) * 24 + uidCluster uid * 4 + uidUnit uid)
  else if 2048 ≤ uid ∧ uid < 2052 then some (384 + (uid - 2048)) else none

/-- Does an access come through port A: from a core of the bank's cluster, or of its region (R257)? -/
def viaPortA (r n : Nat) (q : Req) : Bool :=
  match coreOfUid q.uid.toNat with
  | some k => !q.dbg && decide (k < 384) && (if n < 48 then coreCluster k == r * 6 + n / 8 else coreRegion k == r)
  | none => false

/-- Does the requester of an access that waits still hold it: it is in service, and a core's load stalls it? -/
def Dev.holds (sp : Spine) (d : Dev) (x : BankAcc) : Bool :=
  !x.back || (!reqGone sp d x.q && (x.write || match coreOfUid x.q.uid.toNat with
    | some k => (d.core k).stall == .load
    | none => true))

/-- Is an access the one that waits as `x`? -/
def BankAcc.isOf (x : BankAcc) (q : Req) (a n : Nat) (write : Bool) : Bool :=
  x.q == q && x.a == a && x.n == n && x.write == write

/-- Does an access wait for its turn at a bank that has woken: one that arrived during the wake is before it at its port
(R261)? -/
def Dev.notTurn (sp : Spine) (d : Dev) (r n : Nat) (q : Req) (a len : Nat) (write : Bool) : Bool :=
  match (d.bank r n).waiting.find? fun x => x.wake && viaPortA r n x.q == viaPortA r n q && d.holds sp x with
  | some x => !x.isOf q a len write
  | none => false

/-- An access joins those that wait at a bank, unless it is there. -/
def Dev.waitAt (d : Dev) (r n : Nat) (x : BankAcc) : Dev :=
  if (d.bank r n).waiting.any fun y => y.isOf x.q x.a x.n x.write && y.back then d
  else d.mapBank r n fun b => { b with waiting := b.waiting ++ [x] }

/-- The access that waits as one of a requester that comes again has come. -/
def Dev.waitOver (d : Dev) (r n : Nat) (q : Req) (a len : Nat) (write : Bool) : Dev :=
  match (d.bank r n).waiting.find? fun y => y.isOf q a len write && y.back with
  | none => d
  | some y => d.mapBank r n fun b => { b with waiting := b.waiting.erase y }

/-- A requester gives up the reads it waits with. -/
def Dev.forgets (d : Dev) (uid ch : Nat) : Dev :=
  { d with banks := d.banks.map fun e =>
      (e.1, { e.2 with waiting := e.2.waiting.filter fun x => !(x.back && !x.write && reqIs x.q uid ch) }) }

/-- An access at a bank's port: fence, quarantine, power, retention, then ownership (R27, R248, R251,
R256, R261, R262); served, it ends a borrow and reaches the memory. One that waits at the port for the wake does so in
order; `back` says that its requester holds it and comes again. -/
def Dev.bankAcc (sp : Spine) (d : Dev) (r n : Nat) (q : Req) (a len : Nat) (write : Bool) (data : List Byte)
    (late back : Bool) : AccOut × Dev :=
  let size := if write then data.length else len
  let d0 := d.waitOver r n q a size write
  let tkt := fun (d : Dev) => d.waitAt r n
    { q := q, a := a, n := size, write := write, data := data, late := late, wake := true, back := back }
  match fencedDie sp a with
  | some die => (.refused, d0.refuseFenced die q a write)
  | none =>
    if sp.contain.units.contains (bankUid r n) then (.refused, d0.refuse 4 q a write)
    else
      match (d.bank r n).phase with
      | .off | .powering => (.refused, d0.refuse 6 q a write)
      | .waking => (.wait, tkt d)
      | .retention => (.wait, tkt (d.mapBank r n fun b => { b with phase := .waking }))
      | .on =>
        if d.notTurn sp r n q a size write then (.wait, tkt d)
        else
          match d.judge r n q write late with
          | .wait => (.wait, if back then d0 else d0.waitAt r n
              { q := q, a := a, n := size, write := write, data := data, late := late, wake := false, back := false })
          | .refuse kind => (.refused, d0.refuse kind q a write)
          | .ok => ((d0.mapBank r n fun b => { b with used := sp.now }).washAbort sp r a size).memAcc a len write data

/-- Is a requester admitted to a core memory (R233, R620)? -/
def cmemAdmits (k : Nat) (q : Req) : Bool :=
  let u := q.uid.toNat
  q.dbg || u == coreUid k || uidDie u == 4 ||
    (decide (k < 384) &&
      ((uidDie u * 4 + uidRegion u == coreRegion k && uidDie u < 4 && uidCluster u == 6) ||
       (u / 16 == coreUid k / 16 && (uidUnit u == 4 || uidUnit u == 5))))

/-- An external access to a core memory (R233, R620). -/
def Dev.cmemAcc (sp : Spine) (d : Dev) (k : Nat) (q : Req) (a len : Nat) (write : Bool) (data : List Byte) :
    AccOut × Dev :=
  match fencedDie sp a with
  | some die => (.refused, d.refuseFenced die q a write)
  | none => if cmemAdmits k q then d.memAcc a len write data else (.refused, d.refuse 1 q a write)

/-- An access of a unit to a memory: a bank, a core memory, HBM, hub SRAM or the descriptor store; an
address of none of these is a decode error here (R42, R230). `late` marks a write issued after a drain request, `back` an
access whose requester holds it and comes again if it waits. -/
def Dev.unitAcc (sp : Spine) (d : Dev) (q : Req) (a len : Nat) (write : Bool) (data : List Byte)
    (late back : Bool) : AccOut × Dev :=
  match tgtOf a with
  | .bank r n => d.bankAcc sp r n q a len write data late back
  | .cmem k => d.cmemAcc sp k q a len write data
  | .store => d.storeAcc q a len write data
  | .hbm | .sram => d.memAcc a len write data
  | _ =>
    match fencedDie sp a with
    | some die => (.refused, d.refuseFenced die q a write)
    | none => (.refused, d.refuse 7 q a write)

/-! ## Writes a Gust engine has under way -/

/-- The engine and whether (uid) is a Gust engine: region 0 to 15, 16 the hub engine. -/
def gustOfUid (uid : Nat) : Option Nat :=
  if uid = hubUid 4 then some 16
  else if uidDie uid < 4 ∧ uidCluster uid = 6 ∧ uidUnit uid = 4 then some (uidDie uid * 4 + uidRegion uid) else none

/-- The writes an engine has under way, oldest first. -/
def Dev.gustWrites (d : Dev) (e : Nat) : List GWrite := SMap.get d.gustW e []

/-- Has a Gust channel an outstanding write to a bank? -/
def Dev.gustOut (d : Dev) (uid ch r n : Nat) : Bool :=
  match gustOfUid uid with
  | some e => (d.gustWrites e).any fun w => w.ch == ch && !w.late && tgtOf w.a == .bank r n
  | none => false

/-- The writes a channel has under way to a bank were issued before the drain request. -/
def Dev.gustUnlate (d : Dev) (uid ch r n : Nat) : Dev :=
  match gustOfUid uid with
  | some e =>
    { d with gustW := SMap.put d.gustW e ((d.gustWrites e).map fun w =>
        if w.ch == ch && tgtOf w.a == .bank r n then { w with late := false } else w) }
  | none => d

/-- Has the drain request for a bank reached (uid, ch), its owner or delegate? -/
def Dev.drainAsked (d : Dev) (uid ch a : Nat) : Bool :=
  match tgtOf a with
  | .bank r n =>
    match (d.bank r n).drain with
    | some dr =>
      (dr.oldIn && uid == d.f (F.PAL_OWNER_OWNER r n) && ch == d.f (F.PAL_OWNER_OWNER_CH r n)) ||
      (dr.delIn && d.fb (F.PAL_DELEG_EN r n) && uid == d.f (F.PAL_DELEG_DEL_UID r n)
        && ch == d.f (F.PAL_DELEG_DEL_CH r n))
    | none => false
  | _ => false

/-- The access of a requester that waits at a bank's port. -/
def Dev.ticket (d : Dev) (q : Req) (a n : Nat) (write : Bool) : Option BankAcc :=
  match tgtOf a with
  | .bank r b => (d.bank r b).waiting.find? fun y => y.isOf q a n write && y.back
  | _ => none

/-- Was a write of a unit that comes, or comes again, issued after the drain request reached it? -/
def Dev.lateOf (d : Dev) (q : Req) (a n : Nat) : Bool :=
  match d.ticket q a n true with
  | some y => y.late
  | none => d.drainAsked q.uid.toNat q.ch.toNat a

/-! ## Arrivals -/

/-- An arriving access, with its requester: address, length, write data, and the queue entry it is. -/
structure Arr where
  q : Req
  a : Nat
  n : Nat
  write : Bool
  data : List Byte
  late : Bool
  from_ : Option (Nat × Bool × Nat)
  deriving DecidableEq, Repr

/-- The queue of a core that a MemAcc names. -/
def Core.queue (c : Core) (portA : Bool) : List WbEnt := if portA then c.portA else c.wb

/-- Do two writes of a core go to one destination in any part (R272)? -/
def sameDest (x y : WbEnt) : Bool :=
  destsMeet x.addr x.data.length y.addr y.data.length

/-- The access a MemAcc names; none where the queue has no such entry, or where an earlier entry of the
queue goes to the same destination (R272). -/
def Dev.arrival (d : Dev) (m : MemAcc) : Option Arr :=
  match m with
  | .read q a n => some { q := q, a := a.toNat, n := n.toNat, write := false, data := [], late := false, from_ := none }
  | .write q a data =>
    some { q := q, a := a.toNat, n := data.length, write := true, data := data, late := false, from_ := none }
  | .queued k p i =>
    let l := (d.core k).queue p
    match l[i.val]? with
    | none => none
    | some e =>
      if (l.take i.val).any fun x => sameDest x e then none
      else some { q := coreReq k e.lvl, a := e.addr, n := e.data.length, write := true, data := e.data, late := e.late
                  from_ := some (k.val, p, i.val) }

/-- Take an arrived entry out of its queue. -/
def Dev.popArr (d : Dev) (x : Arr) : Dev :=
  match x.from_ with
  | none => d
  | some (k, p, i) =>
    d.mapCore k fun c => if p then { c with portA := c.portA.eraseIdx i } else { c with wb := c.wb.eraseIdx i }

/-- Answer a read. -/
def Dev.answer (d : Dev) (x : Arr) (o : AccOut) : Dev :=
  if x.write then d
  else
    let r := match o with
      | .ok l => Tx.rsp x.q.uid.toNat x.q.ch.toNat l false
      | .err => Tx.rsp x.q.uid.toNat x.q.ch.toNat [] true
      | _ => Tx.rsp x.q.uid.toNat x.q.ch.toNat (List.replicate x.n 0) false
    { d with sent := d.sent ++ [r] }

end Sys2Proof.Machine
end

