-- ==== Sys2Proof/Machine/Fp.lean ====
section
/-! DEFINITION. Binary floating point as R184 has it: IEEE 754 binary16 and binary32, every
rounding toward zero, overflow to the largest finite value, one canonical quiet NaN. -/

namespace Sys2Proof.Machine

/-- A binary format: exponent bits and stored mantissa bits. -/
structure FFmt where
  eb : Nat
  mb : Nat
  deriving DecidableEq, Repr

/-- binary16 -/
def fp16 : FFmt := { eb := 5, mb := 10 }
/-- binary32 -/
def fp32 : FFmt := { eb := 8, mb := 23 }

/-- A floating-point datum; a finite one is (-1)^neg * m * 2^e, exactly. -/
inductive FVal where
  | nan
  | inf (neg : Bool)
  | fin (neg : Bool) (m : Nat) (e : Int)
  deriving DecidableEq, Repr

def FFmt.bias (f : FFmt) : Int := (2 ^ (f.eb - 1) - 1 : Nat)
/-- The number of bits of the format. -/
def FFmt.width (f : FFmt) : Nat := 1 + f.eb + f.mb
/-- The exponent of the unit of a subnormal. -/
def FFmt.eLow (f : FFmt) : Int := 1 - f.bias - (f.mb : Int)

/-- Read a bit pattern. -/
def FFmt.decode (f : FFmt) (x : Nat) : FVal :=
  let neg := bitAt x (f.eb + f.mb)
  let ex := bitsOf x f.mb f.eb
  let m := bitsOf x 0 f.mb
  if ex = 2 ^ f.eb - 1 then (if m = 0 then .inf neg else .nan)
  else if ex = 0 then .fin neg m f.eLow
  else .fin neg (m + 2 ^ f.mb) (f.eLow + (ex : Int) - 1)

/-- The magnitude bits of m * 2^e, rounded toward zero; overflow gives the largest finite (R184). -/
def FFmt.magBits (f : FFmt) (m : Nat) (e : Int) : Nat :=
  if m = 0 then 0
  else
    let top : Int := e + (Nat.log2 m : Int)
    if f.bias < top then (2 ^ f.eb - 2) * 2 ^ f.mb + (2 ^ f.mb - 1)
    else
      let l : Int := max (top - (f.mb : Int)) f.eLow
      let mant := if e ≤ l then m / 2 ^ (l - e).toNat else m * 2 ^ (e - l).toNat
      if mant < 2 ^ f.mb then mant
      else ((l - f.eLow).toNat + 1) * 2 ^ f.mb + (mant - 2 ^ f.mb)

/-- The bits of the infinity magnitude. -/
def FFmt.infBits (f : FFmt) : Nat := (2 ^ f.eb - 1) * 2 ^ f.mb
/-- The canonical quiet NaN (R179). -/
def FFmt.nanBits (f : FFmt) : Nat := f.infBits + 2 ^ (f.mb - 1)
/-- Put the sign above the magnitude. -/
def FFmt.withSign (f : FFmt) (neg : Bool) (mag : Nat) : Nat := b2n neg * 2 ^ (f.eb + f.mb) + mag

/-- The bit pattern of a datum, rounded toward zero. -/
def FFmt.encode (f : FFmt) (v : FVal) : Nat :=
  match v with
  | .nan => f.nanBits
  | .inf neg => f.withSign neg f.infBits
  | .fin neg m e => f.withSign neg (f.magBits m e)

/-- Signed mantissa of a finite datum. -/
def fsig (neg : Bool) (m : Nat) : Int := if neg then -(m : Int) else (m : Int)

/-- The exact datum s * 2^e; an exact zero takes the sign given. -/
def ffin (zneg : Bool) (s : Int) (e : Int) : FVal :=
  if s = 0 then .fin zneg 0 0 else .fin (decide (s < 0)) s.natAbs e

def fneg : FVal → FVal
  | .nan => .nan
  | .inf n => .inf (!n)
  | .fin n m e => .fin (!n) m e

/-- Exact sum. A zero sum of unlike signs is +0 under rounding toward zero. -/
def fadd (a b : FVal) : FVal :=
  match a, b with
  | .nan, _ => .nan
  | _, .nan => .nan
  | .inf x, .inf y => if x = y then .inf x else .nan
  | .inf x, .fin _ _ _ => .inf x
  | .fin _ _ _, .inf y => .inf y
  | .fin n1 m1 e1, .fin n2 m2 e2 =>
    let e := min e1 e2
    let s := fsig n1 m1 * (2 ^ (e1 - e).toNat : Nat) + fsig n2 m2 * (2 ^ (e2 - e).toNat : Nat)
    ffin (n1 && n2 && m1 == 0 && m2 == 0) s e

def fsub (a b : FVal) : FVal := fadd a (fneg b)

/-- Exact product. -/
def fmul (a b : FVal) : FVal :=
  match a, b with
  | .nan, _ => .nan
  | _, .nan => .nan
  | .inf x, .inf y => .inf (x != y)
  | .inf x, .fin y m _ => if m = 0 then .nan else .inf (x != y)
  | .fin x m _, .inf y => if m = 0 then .nan else .inf (x != y)
  | .fin n1 m1 e1, .fin n2 m2 e2 => .fin (n1 != n2) (m1 * m2) (e1 + e2)

/-- c + a * b, exact: one rounding at the end (VFMA). -/
def ffma (c a b : FVal) : FVal := fadd c (fmul a b)

/-- Is the datum a NaN? -/
def fisNan : FVal → Bool
  | .nan => true
  | _ => false

/-- a < b as numbers; false with a NaN, and -0 equals +0. -/
def flt (a b : FVal) : Bool :=
  match a, b with
  | .nan, _ => false
  | _, .nan => false
  | .inf x, .inf y => x && !y
  | .inf x, .fin _ _ _ => x
  | .fin _ _ _, .inf y => !y
  | .fin n1 m1 e1, .fin n2 m2 e2 =>
    let e := min e1 e2
    decide (fsig n1 m1 * (2 ^ (e1 - e).toNat : Nat) < fsig n2 m2 * (2 ^ (e2 - e).toNat : Nat))

/-- a = b as numbers; false with a NaN. -/
def feq (a b : FVal) : Bool := !fisNan a && !fisNan b && !flt a b && !flt b a

/-- The sign of a datum. -/
def fsign : FVal → Bool
  | .nan => false
  | .inf n => n
  | .fin n _ _ => n

/-- Minimum and maximum of R185: the non-NaN operand; -0 below +0. -/
def fmin (a b : FVal) : FVal :=
  if fisNan a then b else if fisNan b then a
  else if flt a b then a else if flt b a then b else if fsign a then a else b
def fmax (a b : FVal) : FVal :=
  if fisNan a then b else if fisNan b then a
  else if flt a b then b else if flt b a then a else if fsign a then b else a

/-- fp to i32, truncating; NaN gives 0 and a value out of range the nearest limit (R186). -/
def ftoi32 (a : FVal) : Int :=
  match a with
  | .nan => 0
  | .inf n => if n then -2147483648 else 2147483647
  | .fin n m e =>
    let mag := if 0 ≤ e then m * 2 ^ (min e 64).toNat else m / 2 ^ (-e).toNat
    clampInt (-2147483648) 2147483647 (fsig n mag)

/-- An integer as a datum, exactly. -/
def fofInt (i : Int) : FVal := ffin false i 0

/-- An integer fraction num / 2^fr as a datum. -/
def fofFix (num : Int) (fr : Nat) : FVal := ffin false num (-(fr : Int))

end Sys2Proof.Machine
end

