-- ==== Sys2Proof/Machine/ReadCsr.lean ====
section
/-! DEFINITION. The control registers of a core as reads see them: stored cells, and the fields that
show state held elsewhere (R108 to R113, R206, R228). -/

namespace Sys2Proof.Machine

/-- The bits of CP_SCB: the registers a pending CX result will write (R206). -/
def scbBits (l : List CxPend) : Nat :=
  l.foldl (fun n x => x.res.foldl (fun m e => Nat.lor m (2 ^ e.1.toNat)) n) 0

/-- The PEND, DONE, ERR and QUAR bits of CP_CSSTAT for unit u, with PEND and QUAR shown from state. -/
def csStatBits (sp : Spine) (d : Dev) (k u : Nat) : Nat :=
  let pend := match (d.csUnit (coreCluster k) u).op with
    | some o => b2n (o.core.val == k)
    | none => 0
  let uid := mkUid (k / 96) (k / 24 % 4) (k % 24 / 4) (4 + u)
  pend * 2 ^ (4 * u) + b2n (sp.contain.units.contains uid) * 2 ^ (4 * u + 3)

/-! ## Interrupt lines (R593, R594) -/

/-- The status bit of an event. -/
def Dev.evBit (d : Dev) (e : Nat) : Bool := bitAt (d.f (F.EVT_STAT_STAT (e / 32))) (e % 32)
/-- Does an event's route name a line of a controller: `c` a cluster index, or 96 for the hub cluster? Line 0 carries
only the Easel kill. -/
def Dev.routesTo (d : Dev) (e c line : Nat) : Bool :=
  line != 0 && d.f (F.EVT_CFG_LINE e) == line &&
    ((d.f (F.EVT_CFG_ROUTE e) == 2 && c == 96) ||
     (d.f (F.EVT_CFG_ROUTE e) == 3 && decide (c < 96) && d.f (F.EVT_CFG_CLUSTER e) == c))

/-- The events whose status bit is set, ascending. -/
def Dev.setEvents (d : Dev) : List Nat := (List.range 1024).filter fun e => d.evBit e

/-- The lowest event that asserts a line of a controller. -/
def Dev.lineSource (d : Dev) (c line : Nat) : Option Nat := d.setEvents.find? fun e => d.routesTo e c line
/-- CORE_CIC_SRC_l (R621's section). -/
def Dev.cicSrc (d : Dev) (c line : Nat) : Nat := ((d.lineSource c line).map fun e => e + 2 ^ 31).getD 0

/-- The controller of a core: its cluster, or the hub's. -/
def coreController (k : Nat) : Nat := if k < 384 then coreCluster k else 96

/-- The lines asserted at a core, as CORE_IPEND shows them: line 0 by the Easel kill, the others by the set events routed
to its controller. -/
def Dev.pendMask (d : Dev) (k : Nat) : Nat :=
  d.setEvents.foldl (fun m e =>
    if d.routesTo e (coreController k) (d.f (F.EVT_CFG_LINE e)) then Nat.lor m (2 ^ d.f (F.EVT_CFG_LINE e)) else m)
    (b2n (d.core k).kill)

/-- The value of a core's control register at offset `o` of its sub-block. -/
def csrValue (sp : Spine) (d : Dev) (k o : Nat) : Word :=
  let raw := d.reg (coreBase k + o)
  if o = 0 then
    BitVec.ofNat 32 (if k < 384 then coreUid k + k * 2 ^ 12 + 2 ^ 22 else coreUid k + 0x1FF * 2 ^ 12 + 2 ^ 21)
  else if o = 4 then
    BitVec.ofNat 32 (b2n ((d.core k).mode != .halted) + b2n ((d.core k).mode == .halted) * 2 + b2n ((d.core k).mode == .wfi || (d.core k).mode == .easel) * 4
      + b2n (sp.contain.out (coreUid k)) * 8)
  else if o = 0x50 then BitVec.ofNat 32 (d.pendMask k)
  else if o = 0x54 then BitVec.ofNat 32 (d.pendMask k / 2 ^ 32)
  else if o = 0x60 then BitVec.ofNat 32 (Config.coreCycle k sp.now)
  else if o = 0x64 then BitVec.ofNat 32 (Config.coreCycle k sp.now / 2 ^ 32)
  else if 0xC0 ≤ o ∧ o < 0x100 then
    let s := d.seg k ((o - 0xC0) / 4)
    BitVec.ofNat 32 (s.base + b2n s.v * 2 ^ 16 + b2n s.c * 2 ^ 17 + b2n s.w * 2 ^ 18 + b2n s.su * 2 ^ 19 + b2n s.uu * 2 ^ 20)
  else if 0x80 ≤ o ∧ o < 0xC0 ∧ o % 8 = 0 then BitVec.ofNat 32 (raw.toNat / 4 * 4)
  else if o = 0x804 then BitVec.ofNat 32 (scbBits (d.core k).cx)
  else if o = 0x808 then raw ||| BitVec.ofNat 32 (csStatBits sp d k 0 + csStatBits sp d k 1)
  else raw

/-- RCL fields are cleared (R12). -/
def Dev.rclClear (d : Dev) (a : Nat) : Dev :=
  match fieldsAt a with
  | none => d
  | some fs =>
    if fs.any fun f => f.acc == .rcl then d.setReg a (BitVec.ofNat 32 (clearRcl fs (d.reg a).toNat)) else d

/-- The value that a read of a control register returns: of a high word, what the read of its low word latched (R10). -/
def csrRead (sp : Spine) (d : Dev) (k o : Nat) : Word :=
  match d.latch.find? fun e => e.1 == coreBase k + o with
  | some (_, v) => v
  | none => csrValue sp d k o

/-- What a read of a control register leaves behind: the latch is used up; else RCL fields are cleared, and a low word
latches its high word (R10, R12). -/
def csrAfterRead (sp : Spine) (d : Dev) (k o : Nat) : Dev :=
  let a := coreBase k + o
  if d.latch.any fun e => e.1 == a then { d with latch := d.latch.filter fun e => e.1 != a }
  else if isPairLow (blkPairs (.core k)) o then { d with latch := SMap.put d.latch (a + 4) (csrValue sp d k (o + 4)) }
  else d.rclClear a

/-- The control register that number `csr` names for core k (R109, R110): the core it belongs to and
the offset; none where the numbers name no register. -/
def csrOf (k csr : Nat) : Option (Nat × Nat) :=
  let r := if csr < 0x400 then some (k, csr * 4)
    else if 384 ≤ k ∧ csr < 0x800 then some (384 + (csr - 0x400) / 0x100, csr % 0x100 * 4) else none
  match r with
  | none => none
  | some (k', o) =>
    if 384 ≤ k' ∧ 0x400 ≤ o then none
    else if (fieldsAt (coreBase k' + o)).isSome then some (k', o) else none

/-- The control registers of a core that the register tables reserve to M level. -/
def mOnly (k o : Nat) : Bool :=
  o == 0x004 || o == 0x404 || o == 0x800 || o == 0x00C || (decide (0x010 ≤ o) && decide (o ≤ 0x03C)) || o == 0x044 || o == 0x058 || o == 0x05C
    || (decide (0x0C4 ≤ o) && decide (o < 0x100) && !(o == 0x0C4 && isHubCore k))

/-- May an MTC to offset `o` of core `k` be made at this level (R123 and the register tables)? -/
def mtcAllowed (l : Level) (k o : Nat) : Bool :=
  match l with
  | .m => true
  | .s => !mOnly k o
  | .u => o == 0x008 || o == 0x040 || o == 0x400 || o == 0x408 || o == 0x808

/-- A write of a core's control register: its access codes, with the fields of CORE_STATUS that only
M level may write (R123). -/
def csrWrite (d : Dev) (l : Level) (k o : Nat) (v : Word) : Dev :=
  let a := coreBase k + o
  if o = 0x008 ∧ l ≠ .m then
    d.plainWrite a (BitVec.ofNat 32 (v.toNat / 64 * 64 + (d.reg a).toNat % 64))
  else if o = 0xC0 ∨ (o = 0xC4 ∧ 384 ≤ k) then d
  else if o = 0x004 then d
  else d.plainWrite a v

end Sys2Proof.Machine
end

