-- ==== Sys2Proof/Machine/Flags.lean ====
section
/-! DEFINITION. The flags of the AK core: accumulator and lane overflow, CS busy, saturation. -/

namespace Sys2Proof.Machine

/-- An exact accumulation, and whether it lies outside -2^47 .. 2^47 - 1 (R136). -/
def accOverflow (x : Int) : Bool := decide (x < -(2 ^ 47 : Int)) || decide ((2 ^ 47 : Int) - 1 < x)
/-- Does an exact lane value lie outside the signed range of `w` bits (R176)? -/
def laneOverflow (w : Nat) (x : Int) : Bool :=
  decide (x < -((2 ^ (w - 1) : Nat) : Int)) || decide (((2 ^ (w - 1) : Nat) : Int) - 1 < x)
/-- Saturate to the signed range of `w` bits (R180 to R182). -/
def satLane (w : Nat) (x : Int) : Int :=
  clampInt (-((2 ^ (w - 1) : Nat) : Int)) (((2 ^ (w - 1) : Nat) : Int) - 1) x

/-- Set the sticky flag AOV (R136). -/
def Dev.setAov (d : Dev) (k : Nat) : Dev := d.setF (F.CORE_STATUS_AOV k) 1
/-- Set the sticky flag VOV (R176). -/
def Dev.setVov (d : Dev) (k : Nat) : Dev := d.setF (F.CORE_STATUS_VOV k) 1
/-- Set the sticky flag QSAT (R183). -/
def Dev.setQsat (d : Dev) (k : Nat) : Dev := d.setF (F.VEC_STATUS_QSAT k) 1
/-- Write CSB (R214). -/
def Dev.setCsb (d : Dev) (k : Nat) (busy : Bool) : Dev := d.setF (F.CORE_STATUS_CSB k) (b2n busy)

end Sys2Proof.Machine
end

