-- ==== Sys2Proof/Machine/Imem.lean ====
section
/-! DEFINITION. Instruction memory as the model reads it: where bundles lie, and the words of which the spec lists no
instruction (R117 to R120, R139, R141, R166, R167, R187, R188, R203, R204, R212, R284). -/

namespace Sys2Proof.Machine

/-! ## Bundles -/

/-- The word at an offset of a core's instruction memory. -/
def Dev.iword (d : Dev) (k a : Nat) : Nat := d.rd (coreMem k + 0x80000 + a % 0x10000 / 4 * 4) 4

/-- The size in bytes of the bundle at an offset: up to the first word whose E bit is set; of a bundle of more than
four words, which never completes (R117), the first four (log entry 11). -/
def Dev.bundleSize (d : Dev) (k a : Nat) : Nat :=
  4 * (((List.range 3).find? fun i => bitAt (d.iword k (a + 4 * i)) 31).getD 3 + 1)

/-- The offset `n` bundles further on. -/
def Dev.bundleAt (d : Dev) (k a n : Nat) : Nat :=
  match n with
  | 0 => a
  | m + 1 => d.bundleAt k (a + d.bundleSize k a) m

/-- The offset of the bundle after the one that a core holds. -/
def Dev.nextPc (d : Dev) (k : Nat) : Nat := (d.core k).pc.toNat + 4 * (d.core k).bundle.length

/-! ## Words of no instruction -/

/-- The minor codes that the tables list for a major of the R, SYS and V formats (R120, R167). -/
def minorsOf (major : Nat) : List Nat :=
  match major with
  | 0x00 => [0x0, 0x1, 0x3, 0x4, 0x5, 0x6, 0x7, 0x8, 0x9, 0xA, 0xB, 0xC, 0xE]
  | 0x01 => List.range 0xE ++ [0x10, 0x11, 0x12, 0x13, 0x14, 0x15]
  | 0x06 => [0x5, 0x6, 0x7]
  | 0x09 => [0x0, 0x1, 0x2]
  | 0x0A => [0x0, 0x1, 0x2, 0x4, 0x5, 0x6, 0x7, 0x10, 0x11, 0x12, 0x13]
  | 0x0E => List.range 0xE ++ [0x10, 0x11, 0x12, 0x13]
  | 0x0F => List.range 0x7 ++ [0x8, 0x9, 0xA, 0xB, 0xC, 0xD, 0xE, 0xF, 0x10, 0x11, 0x12, 0x13, 0x18, 0x19]
  | 0x10 => List.range 0x5
  | 0x11 => List.range 0x6 ++ [0x8, 0x9, 0xA, 0xB]
  | 0x12 => List.range 0x4 ++ [0x8]
  | 0x13 => List.range 0xC ++ [0x10, 0x11, 0x12, 0x13, 0x14, 0x15, 0x16, 0x17, 0x18, 0x19]
  | 0x16 => [0x0, 0x1]
  | _ => []

/-- Are the bits that a V-class row marks zero all zero (R167)? -/
def vZeros (w major minor : Nat) : Bool :=
  let vd := bitsOf w 21 5
  let pair := major * 0x100 + minor
  if (major = 0x0E ∧ 0x10 ≤ minor) ∨ pair = 0x1306 ∨ pair = 0x1307 ∨ pair = 0x1316 ∨ pair = 0x1317 then vd / 8 == 0
  else if pair = 0x1105 then bitsOf w 11 5 == 0 && bitsOf w 8 3 == 0
  else if pair = 0x1200 ∨ pair = 0x1201 then bitsOf w 11 5 == 0
  else if pair = 0x1208 then bitsOf w 5 1 == 0
  else true

/-- Does a word hold an instruction that the spec lists: a major and minor code of the tables, and no bit set that a
row marks zero? -/
def listedWord (w : Nat) : Bool :=
  let major := bitsOf w 26 5
  if 0x1B ≤ major then false
  else if major = 0x01 then (minorsOf 1).contains (bitsOf w 0 7) && (decide (bitsOf w 0 7 < 0x10) || bitsOf w 24 2 == 0)
  else if major = 0x00 ∨ major = 0x06 ∨ major = 0x09 ∨ major = 0x0A ∨ major = 0x16 then
    (minorsOf major).contains (bitsOf w 0 7)
  else if major = 0x1A then decide (bitsOf w 0 5 < 5)
  else if major = 0x0D then
    decide (bitsOf w 5 3 < 6) && (decide (4 ≤ bitsOf w 5 3) || bitsOf w 0 2 == 0)
      && (decide (2 ≤ bitsOf w 5 3) || bitsOf w 11 1 == 0)
  else if 0x0E ≤ major ∧ major ≤ 0x13 then
    (minorsOf major).contains (bitsOf w 0 5) && vZeros w major (bitsOf w 0 5)
  else if major = 0x18 then
    decide (bitsOf w 0 3 < 6) && bitsOf w 3 4 == 0 && (bitsOf w 0 3 == 2 || bitsOf w 0 3 == 3 || bitsOf w 11 5 == 0)
  else if major = 0x19 then bitsOf w 5 3 == 0 && decide (bitsOf w 0 4 < (if bitsOf w 4 1 = 0 then 2 else 3))
  else true

/-- Does instruction memory hold a listed word at slot `i` of the bundle at a core's pc? -/
def Dev.listedAt (d : Dev) (k i : Nat) : Bool := listedWord (d.iword k ((d.core k).pc.toNat + 4 * i))

end Sys2Proof.Machine
end

