-- ==== Sys2Proof/Machine/Sem.lean ====
section
/-! DEFINITION. What one instruction of a bundle does, as data: its class, the registers it names, the
precise exception it raises, and its effects in order (R116 to R119, R144). -/

namespace Sys2Proof.Machine

/-- Slot classes (R116). -/
inductive Cls where
  | s | v | c
  deriving DecidableEq, Repr

/-- A register an instruction names as destination (R117). -/
inductive DReg where
  | g (r : Reg) | a (r : AReg) | p (r : PReg) | v (r : Reg)
  deriving DecidableEq, Repr

/-- One access of an instruction, of one element or of several neighbouring ones: core address of the first element,
device address, path, bytes, the size of an element, first byte lane of a vector register, and the data of a store. -/
structure Elem where
  ca : Nat
  da : Nat
  path : Path
  size : Nat
  unit : Nat
  lane : Nat
  data : List Byte
  deriving DecidableEq, Repr

/-- Where a load's data goes: a general register with its extension, a register pair, or a vector. -/
inductive LdDst where
  | g (r : Reg) (size : Nat) (signed : Bool)
  | pair (r : Reg)
  | v (r : Reg)
  deriving DecidableEq, Repr

/-- The Easel instructions (R284): the value of rs1 they carry, and the register and physical predicate they write. -/
inductive EslOp where
  | submit (slot : Word) (rd : Reg)
  | submitT (slot : Word) (rd : Reg) (pd : PReg)
  | cancel (taskId : Word) (rd : Reg)
  | wait
  | done (status : Word)
  deriving DecidableEq, Repr

/-- One effect of an instruction. -/
inductive Eff where
  | wr (w : RegWr) (lat : Nat) (acc : Bool)
  | ld (dst : LdDst) (es : List Elem) (lat : Nat)
  | st (es : List Elem)
  | aov (a : Nat)
  | vov
  | qsat
  | vstart (n : Nat)
  | mtc (a : Nat) (v : Word)
  | mfc (a : Nat)
  | branch (t : Option (BitVec 16))
  | loop (count le : Nat) (info : LoopInfo)
  | skip (next : Nat)
  | rpt (count : Nat)
  | trapEnd (code : Nat)
  | eret
  | wfi
  | fence
  | cache (clean inval : Bool) (ranges : List (Nat × Nat))
  | cacheAll (inval : Bool)
  | esl (op : EslOp)
  | cx (res : List (Reg × Word)) (draws : Nat)
  | cs (unit : Nat) (op : CsOp) (pd : PReg)
  deriving DecidableEq, Repr

/-- What the sequence rules of R140 distinguish. -/
inductive Seq where
  | none | branch | call | loop | eret | mtcStatus
  deriving DecidableEq, Repr

/-- The progress of a gather or scatter that an exception leaves standing: its accesses below the faulting element, and
the value of VSTART, the index of that element or the in-range count (R197, R199). -/
structure Partial where
  done : List Eff
  at_ : Nat
  count : Nat
  deriving DecidableEq, Repr

/-- The meaning of one instruction at the issue of its bundle: `mem` that it accesses memory and whether it stores, `vx`
that it is a VLDX or VSTX. -/
structure Sem where
  cls : Cls := .s
  word : Nat := 0
  run : Bool := true
  dests : List DReg := []
  srcs : List Reg := []
  mem : Option Bool := Option.none
  vx : Bool := false
  gather : Option Partial := Option.none
  seq : Seq := .none
  trap : Option (Nat × Nat) := Option.none
  eff : List Eff := []
  deriving DecidableEq, Repr

/-- Trap causes of R148. -/
def tIllegal : Nat := 1
def tIllegalBundle : Nat := 2
def tIllegalSeq : Nat := 3
def tPriv : Nat := 4
def tFetch : Nat := 5
def tAlign : Nat := 6
def tAccess : Nat := 7
def tWindow : Nat := 8
def tLoopCeil : Nat := 9
def tAccOvf : Nat := 10
def tVecOvf : Nat := 11
def tCopDisabled : Nat := 12
def tTrap : Nat := 13
def tDataError : Nat := 14
def tOperand : Nat := 15

/-- Encodings of R118: the E bit and major opcode, then the format's fields. -/
def encBase (h : Hd) (major : Nat) : Nat := b2n h.last * 2 ^ 31 + major * 2 ^ 26
def encR (h : Hd) (major : Nat) (rd rs1 rs2 : Reg) (minor : Nat) : Nat :=
  encBase h major + rd.toNat * 2 ^ 21 + rs1.toNat * 2 ^ 16 + rs2.toNat * 2 ^ 11 + h.pg.toNat * 2 ^ 8 +
    b2n h.gn * 2 ^ 7 + minor
def encI (h : Hd) (major : Nat) (rd rs1 : Reg) (imm : BitVec 13) : Nat :=
  encBase h major + rd.toNat * 2 ^ 21 + rs1.toNat * 2 ^ 16 + h.pg.toNat * 2 ^ 13 + imm.toNat
def encM (h : Hd) (major : Nat) (rd rb : Reg) (m : MForm) : Nat :=
  encBase h major + rd.toNat * 2 ^ 21 + rb.toNat * 2 ^ 16 + h.pg.toNat * 2 ^ 13 + m.sz.toNat * 2 ^ 11 +
    b2n m.u * 2 ^ 10 + b2n m.pi * 2 ^ 9 + b2n m.cwe * 2 ^ 8 + m.cw.toNat * 2 ^ 5 + m.imm.toNat
def encU (h : Hd) (major : Nat) (rd : Reg) (hi : Bool) (imm : BitVec 16) : Nat :=
  encBase h major + rd.toNat * 2 ^ 21 + b2n hi * 2 ^ 20 + imm.toNat
def encB (h : Hd) (major : Nat) (off : BitVec 22) : Nat :=
  encBase h major + h.pg.toNat * 2 ^ 23 + b2n h.gn * 2 ^ 22 + off.toNat
def encL (h : Hd) (rpt r : Bool) (stg : BitVec 2) (len1 : BitVec 8) (cnt : BitVec 14) : Nat :=
  encBase h 0x17 + b2n rpt * 2 ^ 25 + b2n r * 2 ^ 24 + stg.toNat * 2 ^ 22 + len1.toNat * 2 ^ 14 + cnt.toNat
def encSys (h : Hd) (rd rs1 rs2 : Reg) (minor : Nat) : Nat :=
  encBase h 0 + rd.toNat * 2 ^ 21 + rs1.toNat * 2 ^ 16 + rs2.toNat * 2 ^ 11 + minor
def encCsr (h : Hd) (rd : Reg) (csr : BitVec 12) (minor : Nat) : Nat :=
  encBase h 0 + rd.toNat * 2 ^ 21 + csr.toNat * 2 ^ 9 + minor
/-- The V-class format of R166, and the format of VMEM (R187). -/
def encV (h : Hd) (major : Nat) (vd vs1 vs2 : Reg) (t : BitVec 3) (minor : Nat) : Nat :=
  encBase h major + vd.toNat * 2 ^ 21 + vs1.toNat * 2 ^ 16 + vs2.toNat * 2 ^ 11 + h.pg.toNat * 2 ^ 8 +
    t.toNat * 2 ^ 5 + minor
def encVm (h : Hd) (vd rb rx : Reg) (op sz md : Nat) : Nat :=
  encBase h 0x0D + vd.toNat * 2 ^ 21 + rb.toNat * 2 ^ 16 + rx.toNat * 2 ^ 11 + h.pg.toNat * 2 ^ 8 +
    op * 2 ^ 5 + sz * 2 ^ 3 + md
/-- The CX and CS formats (R203, R212). -/
def encCx (h : Hd) (rd rs1 rs2 : Reg) (op : Nat) : Nat :=
  encBase h 0x18 + rd.toNat * 2 ^ 21 + rs1.toNat * 2 ^ 16 + rs2.toNat * 2 ^ 11 + h.pg.toNat * 2 ^ 8 +
    b2n h.gn * 2 ^ 7 + op
def encCs (h : Hd) (rc rs rt : Reg) (pd : PReg) (unit op : Nat) : Nat :=
  encBase h 0x19 + rc.toNat * 2 ^ 21 + rs.toNat * 2 ^ 16 + rt.toNat * 2 ^ 11 + pd.toNat * 2 ^ 8 + unit * 2 ^ 4 + op

/-- A register number one higher, for the pairs. -/
def Reg.next (r : Reg) : Reg := r + 1
/-- Is a register number odd? -/
def Reg.odd (r : Reg) : Bool := r.getLsbD 0

end Sys2Proof.Machine
end

