-- ==== Sys2Proof/Machine/Scalar.lean ====
section
/-! DEFINITION. Scalar arithmetic of the AK core: major opcodes ALU, the immediates, SHI, CMPI, MOVI, MUL
and MAC (R119, R120, R135 to R138). -/

namespace Sys2Proof.Machine

/-- An S-class instruction that computes one general register, with the latency given. -/
def semG (d : Dev) (h : Hd) (word : Nat) (rd : Reg) (srcs : List Reg) (lat : Nat) (v : Word) : Sem :=
  { cls := .s, word := word, run := d.guard h, dests := [.g rd], srcs := rd :: srcs
    eff := [.wr (.g rd v) lat false] }

/-- A register-register ALU instruction: rd := op rs1 rs2, usable in the next bundle. -/
def semAlu (d : Dev) (h : Hd) (minor : Nat) (rd rs1 rs2 : Reg) (op : Word → Word → Word) : Sem :=
  semG d h (encR h 1 rd rs1 rs2 minor) rd [rs1, rs2] 1 (op (d.g h.k rs1) (d.g h.k rs2))

/-- All ones or all zeros in a predicate. -/
def predOf (b : Bool) : BitVec 64 := if b then BitVec.allOnes 64 else 0

/-- An instruction that computes a whole predicate, usable in the next bundle. -/
def semP (d : Dev) (h : Hd) (word : Nat) (pd : PReg) (srcs : List Reg) (b : Bool) : Sem :=
  { cls := .s, word := word, run := d.guard h, dests := [.p pd], srcs := srcs
    eff := [.wr (.p (d.pp h.k pd) (predOf b)) 1 false] }

def semAdd (d : Dev) (h : Hd) (rd rs1 rs2 : Reg) : Sem := semAlu d h 0 rd rs1 rs2 (· + ·)
def semSub (d : Dev) (h : Hd) (rd rs1 rs2 : Reg) : Sem := semAlu d h 1 rd rs1 rs2 (· - ·)
def semAnd (d : Dev) (h : Hd) (rd rs1 rs2 : Reg) : Sem := semAlu d h 2 rd rs1 rs2 (· &&& ·)
def semOr (d : Dev) (h : Hd) (rd rs1 rs2 : Reg) : Sem := semAlu d h 3 rd rs1 rs2 (· ||| ·)
def semXor (d : Dev) (h : Hd) (rd rs1 rs2 : Reg) : Sem := semAlu d h 4 rd rs1 rs2 (· ^^^ ·)
def semShl (d : Dev) (h : Hd) (rd rs1 rs2 : Reg) : Sem := semAlu d h 5 rd rs1 rs2 fun a b => a <<< (b.toNat % 32)
def semShr (d : Dev) (h : Hd) (rd rs1 rs2 : Reg) : Sem := semAlu d h 6 rd rs1 rs2 fun a b => a >>> (b.toNat % 32)
def semSra (d : Dev) (h : Hd) (rd rs1 rs2 : Reg) : Sem := semAlu d h 7 rd rs1 rs2 fun a b => a.sshiftRight (b.toNat % 32)
def semMin (d : Dev) (h : Hd) (rd rs1 rs2 : Reg) : Sem := semAlu d h 8 rd rs1 rs2 fun a b => if a.toInt ≤ b.toInt then a else b
def semMax (d : Dev) (h : Hd) (rd rs1 rs2 : Reg) : Sem := semAlu d h 9 rd rs1 rs2 fun a b => if a.toInt ≤ b.toInt then b else a
def semMinu (d : Dev) (h : Hd) (rd rs1 rs2 : Reg) : Sem := semAlu d h 10 rd rs1 rs2 fun a b => if a.toNat ≤ b.toNat then a else b
def semMaxu (d : Dev) (h : Hd) (rd rs1 rs2 : Reg) : Sem := semAlu d h 11 rd rs1 rs2 fun a b => if a.toNat ≤ b.toNat then b else a
/-- ABS modulo 2^32. -/
def semAbs (d : Dev) (h : Hd) (rd rs1 : Reg) : Sem :=
  semG d h (encR h 1 rd rs1 0 12) rd [rs1] 1 (if (d.g h.k rs1).msb then -(d.g h.k rs1) else d.g h.k rs1)
/-- Leading zeros, 0 to 32. -/
def clz32 (x : Nat) : Nat := if x = 0 then 32 else 31 - Nat.log2 x
def semClz (d : Dev) (h : Hd) (rd rs1 : Reg) : Sem :=
  semG d h (encR h 1 rd rs1 0 13) rd [rs1] 1 (BitVec.ofNat 32 (clz32 (d.g h.k rs1).toNat))

/-- A register-register compare. -/
def semCmp (d : Dev) (h : Hd) (minor : Nat) (pd : PReg) (rs1 rs2 : Reg) (op : Word → Word → Bool) : Sem :=
  semP d h (encR h 1 (BitVec.ofNat 5 pd.toNat) rs1 rs2 minor) pd [rs1, rs2] (op (d.g h.k rs1) (d.g h.k rs2))
def semCmpeq (d : Dev) (h : Hd) (pd : PReg) (rs1 rs2 : Reg) : Sem := semCmp d h 16 pd rs1 rs2 (· == ·)
def semCmpne (d : Dev) (h : Hd) (pd : PReg) (rs1 rs2 : Reg) : Sem := semCmp d h 17 pd rs1 rs2 (· != ·)
def semCmplt (d : Dev) (h : Hd) (pd : PReg) (rs1 rs2 : Reg) : Sem := semCmp d h 18 pd rs1 rs2 fun a b => a.slt b
def semCmpltu (d : Dev) (h : Hd) (pd : PReg) (rs1 rs2 : Reg) : Sem := semCmp d h 19 pd rs1 rs2 fun a b => a.ult b
def semCmple (d : Dev) (h : Hd) (pd : PReg) (rs1 rs2 : Reg) : Sem := semCmp d h 20 pd rs1 rs2 fun a b => a.sle b
def semCmpleu (d : Dev) (h : Hd) (pd : PReg) (rs1 rs2 : Reg) : Sem := semCmp d h 21 pd rs1 rs2 fun a b => a.ule b

def semAddi (d : Dev) (h : Hd) (rd rs1 : Reg) (imm : BitVec 13) : Sem :=
  semG d h.noGn (encI h.noGn 2 rd rs1 imm) rd [rs1] 1 (d.g h.k rs1 + imm.signExtend 32)
def semAndi (d : Dev) (h : Hd) (rd rs1 : Reg) (imm : BitVec 13) : Sem :=
  semG d h.noGn (encI h.noGn 3 rd rs1 imm) rd [rs1] 1 (d.g h.k rs1 &&& imm.setWidth 32)
def semOri (d : Dev) (h : Hd) (rd rs1 : Reg) (imm : BitVec 13) : Sem :=
  semG d h.noGn (encI h.noGn 4 rd rs1 imm) rd [rs1] 1 (d.g h.k rs1 ||| imm.setWidth 32)
def semXori (d : Dev) (h : Hd) (rd rs1 : Reg) (imm : BitVec 13) : Sem :=
  semG d h.noGn (encI h.noGn 5 rd rs1 imm) rd [rs1] 1 (d.g h.k rs1 ^^^ imm.setWidth 32)
def semShli (d : Dev) (h : Hd) (rd rs1 : Reg) (sh : BitVec 5) : Sem :=
  semG d h (encR h 6 rd rs1 sh 5) rd [rs1] 1 (d.g h.k rs1 <<< sh.toNat)
def semShri (d : Dev) (h : Hd) (rd rs1 : Reg) (sh : BitVec 5) : Sem :=
  semG d h (encR h 6 rd rs1 sh 6) rd [rs1] 1 (d.g h.k rs1 >>> sh.toNat)
def semSrai (d : Dev) (h : Hd) (rd rs1 : Reg) (sh : BitVec 5) : Sem :=
  semG d h (encR h 6 rd rs1 sh 7) rd [rs1] 1 ((d.g h.k rs1).sshiftRight sh.toNat)
/-- CMPI: condition 0 EQ, 1 LT, 2 LTU, 3 NE against sext(imm13) (R119). -/
def semCmpi (d : Dev) (h : Hd) (cond : BitVec 2) (pd : PReg) (rs1 : Reg) (imm : BitVec 13) : Sem :=
  let a := d.g h.k rs1
  let b := imm.signExtend 32
  let r := if cond = 0 then a == b else if cond = 1 then a.slt b else if cond = 2 then a.ult b else a != b
  semP d h.noGn (encI h.noGn 7 (BitVec.ofNat 5 (cond.toNat * 8 + pd.toNat)) rs1 imm) pd [rs1] r
/-- MOVI: H = 0 sext(imm16), H = 1 the upper half of rd. -/
def semMovi (d : Dev) (h : Hd) (rd : Reg) (hi : Bool) (imm : BitVec 16) : Sem :=
  let h' := { h with pg := 0, gn := false }
  semG d h' (encU h' 8 rd hi imm) rd [] 1
    (if hi then BitVec.ofNat 32 (imm.toNat * 2 ^ 16 + (d.g h.k rd).toNat % 2 ^ 16) else imm.signExtend 32)

def semMul (d : Dev) (h : Hd) (rd rs1 rs2 : Reg) : Sem :=
  semG d h (encR h 9 rd rs1 rs2 0) rd [rs1, rs2] 2 (d.g h.k rs1 * d.g h.k rs2)
def semMulh (d : Dev) (h : Hd) (rd rs1 rs2 : Reg) : Sem :=
  semG d h (encR h 9 rd rs1 rs2 1) rd [rs1, rs2] 2
    (BitVec.ofInt 32 ((d.g h.k rs1).toInt * (d.g h.k rs2).toInt / 2 ^ 32))
def semMulhu (d : Dev) (h : Hd) (rd rs1 rs2 : Reg) : Sem :=
  semG d h (encR h 9 rd rs1 rs2 2) rd [rs1, rs2] 2
    (BitVec.ofNat 32 ((d.g h.k rs1).toNat * (d.g h.k rs2).toNat / 2 ^ 32))

/-- An accumulator field as a register field. -/
def aField (r : AReg) : Reg := BitVec.ofNat 5 r.toNat

/-- An instruction of the MAC class that writes an accumulator with the exact value `x` (R136). -/
def semAcc (d : Dev) (h : Hd) (word : Nat) (ad : AReg) (srcs : List Reg) (x : Int) : Sem :=
  { cls := .s, word := word, run := d.guard h, dests := [.a ad], srcs := srcs
    eff := .wr (.a ad (BitVec.ofInt 48 x)) 2 true :: (if accOverflow x then [.aov ad.toNat] else []) }

/-- The accumulator source of a MAC-class instruction (R128). -/
def accSrc (d : Dev) (k : Nat) (ad : AReg) : Int := (chainA (d.core k).inflight ad ((d.core k).ra ad)).toInt
/-- sext(rs1[15:0]) * sext(rs2[15:0]). -/
def halfProduct (a b : Word) : Int := sx 16 a.toNat * sx 16 b.toNat
/-- The sum of the four signed byte products. -/
def byteDot (a b : Word) : Int :=
  sx 8 a.toNat * sx 8 b.toNat + sx 8 (a.toNat / 2 ^ 8) * sx 8 (b.toNat / 2 ^ 8) +
    sx 8 (a.toNat / 2 ^ 16) * sx 8 (b.toNat / 2 ^ 16) + sx 8 (a.toNat / 2 ^ 24) * sx 8 (b.toNat / 2 ^ 24)

def semMacaHh (d : Dev) (h : Hd) (ad : AReg) (rs1 rs2 : Reg) : Sem :=
  semAcc d h (encR h 10 (aField ad) rs1 rs2 0) ad [rs1, rs2]
    (accSrc d h.k ad + halfProduct (d.g h.k rs1) (d.g h.k rs2))
def semMsuaHh (d : Dev) (h : Hd) (ad : AReg) (rs1 rs2 : Reg) : Sem :=
  semAcc d h (encR h 10 (aField ad) rs1 rs2 1) ad [rs1, rs2]
    (accSrc d h.k ad - halfProduct (d.g h.k rs1) (d.g h.k rs2))
def semMacaB4 (d : Dev) (h : Hd) (ad : AReg) (rs1 rs2 : Reg) : Sem :=
  semAcc d h (encR h 10 (aField ad) rs1 rs2 2) ad [rs1, rs2]
    (accSrc d h.k ad + byteDot (d.g h.k rs1) (d.g h.k rs2))
def semAclr (d : Dev) (h : Hd) (ad : AReg) : Sem := semAcc d h (encR h 10 (aField ad) 0 0 4) ad [] 0
def semAmovg (d : Dev) (h : Hd) (ad : AReg) (rs1 : Reg) : Sem :=
  semAcc d h (encR h 10 (aField ad) rs1 0 5) ad [rs1] (d.g h.k rs1).toInt
/-- ANARROW: a shift above 16 raises OPERAND (R137). -/
def semAnarrow (d : Dev) (h : Hd) (rd : Reg) (as : AReg) (sh : BitVec 5) : Sem :=
  { semG d h (encR h 10 rd (aField as) sh 6) rd [] 2
      (((d.core h.k).ra as).sshiftRight sh.toNat |>.setWidth 32) with
    trap := if 16 < sh.toNat then some (tOperand, sh.toNat) else none }
def semAhi (d : Dev) (h : Hd) (rd : Reg) (as : AReg) : Sem :=
  semG d h (encR h 10 rd (aField as) 0 7) rd [] 2 (((d.core h.k).ra as).extractLsb' 32 16 |>.signExtend 32)

/-- The value-and-index searches of R138: `better` says that rs1 beats the value held. -/
def semIdx (d : Dev) (h : Hd) (minor : Nat) (rd rs1 rs2 : Reg) (better : Word → Word → Bool) : Sem :=
  let c := d.core h.k
  let v := chainG c.inflight rd (c.rg rd)
  let i := chainG c.inflight (Reg.next rd) (c.rg (Reg.next rd))
  let nv := d.g h.k rs1
  let ni := d.g h.k rs2
  let take := better nv v || (nv == v && ni.ult i)
  { cls := .s, word := encR h 10 rd rs1 rs2 minor, run := d.guard h, dests := [.g rd, .g (Reg.next rd)]
    srcs := [rd, Reg.next rd, rs1, rs2]
    trap := if Reg.odd rd then some (tIllegal, encR h 10 rd rs1 rs2 minor) else none
    eff := [.wr (.g rd (if take then nv else v)) 2 true, .wr (.g (Reg.next rd) (if take then ni else i)) 2 true] }
def semMaxi (d : Dev) (h : Hd) (rd rs1 rs2 : Reg) : Sem := semIdx d h 16 rd rs1 rs2 fun a b => b.slt a
def semMini (d : Dev) (h : Hd) (rd rs1 rs2 : Reg) : Sem := semIdx d h 17 rd rs1 rs2 fun a b => a.slt b
def semMaxiu (d : Dev) (h : Hd) (rd rs1 rs2 : Reg) : Sem := semIdx d h 18 rd rs1 rs2 fun a b => b.ult a
def semMiniu (d : Dev) (h : Hd) (rd rs1 rs2 : Reg) : Sem := semIdx d h 19 rd rs1 rs2 fun a b => a.ult b

end Sys2Proof.Machine
end

