-- ==== Sys2Proof/Machine/Cx.lean ====
section
/-! DEFINITION. The private coprocessor CX (R201 to R209): its six functions. A result is the exact value
rounded toward zero, moved by a free number of units in the last place that keeps it within the
accuracy of R204; the special operands of R205 are exact. -/

namespace Sys2Proof.Machine

/-- Move a finite magnitude by a free number of ulps within the accuracy: a truncated inexact value has
-(k-1) .. k, an exact one -k .. k; it stays finite. -/
def ulpMove (k mag : Nat) (exact : Bool) (fr : Nat) : Nat :=
  let lo := if exact then k else k - 1
  let m := mag + fr % (lo + k + 1)
  min (m - lo) (fp32.infBits - 1)

/-- A dyadic magnitude m * 2^e as binary32 magnitude bits, within `k` ulp; an overflow gives the largest finite (R184). -/
def cxMag (k : Nat) (m : Nat) (e : Int) (exact : Bool) (fr : Nat) : Nat :=
  if m ≠ 0 ∧ 128 ≤ e + (Nat.log2 m : Int) then fp32.infBits - 1 else ulpMove k (fp32.magBits m e) exact fr

/-! ## Transcendental functions in fixed point -/

/-- The fraction bits of log2: repeated squaring of y in [1, 2), in units of 2^-160. -/
def log2Bits (n : Nat) (y acc : Nat) : Nat :=
  match n with
  | 0 => acc
  | k + 1 =>
    let z := y * y / 2 ^ 160
    if 2 ^ 161 ≤ z then log2Bits k (z / 2) (acc * 2 + 1) else log2Bits k z (acc * 2)
/-- log2 of m * 2^e (m > 0), in units of 2^-60, rounded down. -/
def log2Fix (m : Nat) (e : Int) : Int :=
  let b := Nat.log2 m
  (e + (b : Int)) * ((2 ^ 60 : Nat) : Int) + (log2Bits 60 (m * 2 ^ 160 / 2 ^ b) 0 : Int)

/-- The product of 2^(2^-i) over the set bits of an 80-bit fraction, in units of 2^-160; `c` is the
current power 2^(2^-i). -/
def exp2Prod (n : Nat) (c f acc : Nat) : Nat :=
  match n with
  | 0 => acc
  | k + 1 =>
    let c' := isqrt (c * 2 ^ 160)
    exp2Prod k c' f (if bitAt f k then acc * c' / 2 ^ 160 else acc)
/-- 2^(f / 2^80) for a fraction f below 2^80, in units of 2^-160. -/
def exp2Frac (f : Nat) : Nat := exp2Prod 80 (2 * 2 ^ 160) f (2 ^ 160)

/-- The arctangent series at t (units of 2^-400): the terms from index n on. -/
def atanSeries (n i : Nat) (pw t2 : Nat) (acc : Int) : Int :=
  match n with
  | 0 => acc
  | k + 1 =>
    let term : Int := ((pw / (2 * i + 1) : Nat) : Int)
    atanSeries k (i + 1) (pw * t2 / 2 ^ 400) t2 (if i % 2 = 0 then acc + term else acc - term)
/-- Arctangent of a small t, both in units of 2^-400. -/
def atanSmall (t : Nat) : Nat := (atanSeries 80 0 t (t * t / 2 ^ 400) 0).toNat
/-- Halve an angle: tan(a/2) = t / (1 + sqrt(1 + t^2)). -/
def halfTan (t : Nat) : Nat := t * 2 ^ 400 / (2 ^ 400 + isqrt (2 ^ 800 + t * t))
/-- Arctangent of t from 0 to 1, in units of 2^-400. -/
def atanFix (t : Nat) : Nat := 4 * atanSmall (halfTan (halfTan t))
/-- Pi in units of 2^-400 (Machin's formula). -/
def piFix : Nat := 16 * atanSmall (2 ^ 400 / 5) - 4 * atanSmall (2 ^ 400 / 239)

/-- A finite magnitude times a power of two so large that it stands for infinity in atan2. -/
def atanMag (v : FVal) : Nat × Int :=
  match v with
  | .nan => (0, 0)
  | .inf _ => (1, 1000)
  | .fin _ m e => (m, e)
/-- a / b of two magnitudes, in units of 2^-400. -/
def ratioFix (a b : Nat × Int) : Nat :=
  let sh := 400 + a.2 - b.2
  if 0 ≤ sh then a.1 * 2 ^ sh.toNat / b.1 else a.1 / (b.1 * 2 ^ (-sh).toNat)
/-- Is magnitude a at most b? -/
def magLe (a b : Nat × Int) : Bool :=
  let e := min a.2 b.2
  decide (a.1 * 2 ^ (a.2 - e).toNat ≤ b.1 * 2 ^ (b.2 - e).toNat)
/-- |atan2(y, x)| in units of 2^-400, for operands not both zero. -/
def atan2Fix (y x : FVal) : Nat :=
  let my := atanMag y
  let mx := atanMag x
  let a := if magLe my mx then atanFix (ratioFix my mx) else piFix / 2 - atanFix (ratioFix mx my)
  if fsign x then piFix - a else a

/-! ## The functions -/

/-- RCP. -/
def cxRcp (x : Nat) (fr : Nat) : Nat :=
  match fp32.decode x with
  | .nan => fp32.nanBits
  | .inf n => fp32.withSign n 0
  | .fin n m e =>
    if m = 0 then fp32.withSign n fp32.infBits
    else fp32.withSign n (cxMag 1 (2 ^ 128 / m) (-e - 128) (2 ^ 128 % m == 0) fr)

/-- RSQRT. -/
def cxRsqrt (x : Nat) (fr : Nat) : Nat :=
  match fp32.decode x with
  | .nan => fp32.nanBits
  | .inf n => if n then fp32.nanBits else 0
  | .fin n m e =>
    if m = 0 then fp32.withSign n fp32.infBits
    else if n then fp32.nanBits
    else
      let m' := if e % 2 = 0 then m else 2 * m
      let e' := if e % 2 = 0 then e else e - 1
      let r := isqrt (2 ^ 160 / m')
      cxMag 1 r (-(e' / 2) - 80) (r * r * m' == 2 ^ 160) fr

/-- ATAN2. -/
def cxAtan2 (yb xb : Nat) (fr : Nat) : Nat :=
  let y := fp32.decode yb
  let x := fp32.decode xb
  if fisNan y || fisNan x then fp32.nanBits
  else if feq y (.fin false 0 0) && !fsign x then fp32.withSign (fsign y) 0
  else fp32.withSign (fsign y)
    (if feq y (.fin false 0 0) && feq x (.fin false 0 0) then fp32.magBits piFix (-400)
     else cxMag 2 (atan2Fix y x) (-400) false fr)

/-- floor(x * 2^fr) of a finite datum. -/
def floorFix (x : FVal) (fr : Nat) : Int :=
  match x with
  | .fin n m e =>
    if 0 ≤ e + (fr : Int) then fsig n m * ((2 ^ (e + (fr : Int)).toNat : Nat) : Int)
    else fsig n m / ((2 ^ (-(e + (fr : Int))).toNat : Nat) : Int)
  | _ => 0

/-- LOG2: within 2^-22 for operands from 0.5 to 2, within 2 ulp elsewhere. -/
def cxLog2 (x : Nat) (fr : Nat) : Nat :=
  match fp32.decode x with
  | .nan => fp32.nanBits
  | .inf n => if n then fp32.nanBits else fp32.infBits
  | .fin n m e =>
    if m = 0 then fp32.withSign true fp32.infBits
    else if n then fp32.nanBits
    else
      let l := log2Fix m e
      if -((2 ^ 60 : Nat) : Int) ≤ l ∧ l ≤ ((2 ^ 60 : Nat) : Int) then
        let r := fp32.encode (fofFix (l + (fr % (2 ^ 39 + 1) : Nat) - ((2 ^ 38 : Nat) : Int)) 60)
        if (floorFix (fp32.decode r) 60 - l).natAbs ≤ 2 ^ 38 then r else r + 1
      else fp32.withSign (decide (l < 0)) (cxMag 2 l.natAbs (-60) (l % ((2 ^ 60 : Nat) : Int) == 0) fr)

/-- EXP2. -/
def cxExp2 (x : Nat) (fr : Nat) : Nat :=
  match fp32.decode x with
  | .nan => fp32.nanBits
  | .inf n => if n then 0 else fp32.infBits - 1
  | .fin n m e =>
    let mag := if 0 ≤ e + 80 then m * 2 ^ (min (e + 80) 200).toNat else m / 2 ^ (-(e + 80)).toNat
    let sticky := decide (e + 80 < 0) && m % 2 ^ (-(e + 80)).toNat != 0
    let f : Int := if n then -(mag : Int) - (if sticky then 1 else 0) else (mag : Int)
    let ip := f / ((2 ^ 80 : Nat) : Int)
    let fp := (f % ((2 ^ 80 : Nat) : Int)).toNat
    if 128 ≤ ip then fp32.infBits - 1
    else if ip < -151 then cxMag 2 1 (-200) false fr
    else cxMag 2 (exp2Frac fp) (ip - 160) (fp == 0) fr

/-- An open binary32 result; if it is a NaN, the canonical one (R184). -/
def anyFp32 (fr : Nat) : Nat := if fisNan (fp32.decode (fr % 2 ^ 32)) then fp32.nanBits else fr % 2 ^ 32

/-- CDIV: real and imaginary parts; within 2 ulp of the larger component. An infinite operand leaves the
result open, but for a denominator of zero (log entry 19). -/
def cxCdiv (ar ai br bi : Nat) (fr1 fr2 : Nat) : Nat × Nat :=
  let f := fp32.decode
  if fisNan (f ar) || fisNan (f ai) || fisNan (f br) || fisNan (f bi) then (fp32.nanBits, fp32.nanBits)
  else if feq (f br) (.fin false 0 0) && feq (f bi) (.fin false 0 0) then (fp32.nanBits, fp32.nanBits)
  else match f ar, f ai, f br, f bi with
    | .fin n1 m1 e1, .fin n2 m2 e2, .fin n3 m3 e3, .fin n4 m4 e4 =>
        let en := min e1 e2
        let ed := min e3 e4
        let a := fsig n1 m1 * (2 ^ (e1 - en).toNat : Nat)
        let b := fsig n2 m2 * (2 ^ (e2 - en).toNat : Nat)
        let c := fsig n3 m3 * (2 ^ (e3 - ed).toNat : Nat)
        let d := fsig n4 m4 * (2 ^ (e4 - ed).toNat : Nat)
        let den := (c * c + d * d).natAbs
        let sh := Nat.log2 den + 80
        let q := fun (x : Int) => fsig (decide (x < 0)) (x.natAbs * 2 ^ sh / den)
        let re := q (a * c + b * d)
        let im := q (b * c - a * d)
        let e := en - ed - (sh : Int)
        let big := max re.natAbs im.natAbs
        let ulp : Int := max (e + (Nat.log2 big : Int) - 23) fp32.eLow
        let move := fun (x : Int) (fr : Nat) =>
          let v := fadd (ffin false x e) (ffin false ((fr % 5 : Nat) - 2) ulp)
          if x ≠ 0 ∧ 128 ≤ e + (Nat.log2 x.natAbs : Int) then fp32.withSign (decide (x < 0)) (fp32.infBits - 1)
          else min (fp32.encode v % 2 ^ 31) (fp32.infBits - 1) + b2n (fsign v) * 2 ^ 31
        if big = 0 then (0, 0) else (move re fr1, move im fr2)
    | _, _, _, _ => (anyFp32 fr1, anyFp32 fr2)

/-! ## The instructions -/

/-- Is a coprocessor unit (0 CX, 1 CS_0, 2 CS_1) enabled at the core's level (R202)? -/
def Dev.copOn (d : Dev) (k u : Nat) : Bool :=
  let off := match d.level k with
    | .u => 0
    | .s => 1
    | .m => 2
  bitAt (d.reg (coreBase k + 0x800)).toNat (4 * u + off)

/-- A CX instruction: ILLEGAL for an odd pair, COP_DISABLED when the unit is off. -/
def semCx (d : Dev) (h : Hd) (op : Nat) (rd rs1 rs2 : Reg) (pairs : Bool) (srcs : List Reg) (res : List (Reg × Word))
    (draws : Nat) : Sem :=
  let word := encCx h rd rs1 rs2 op
  { cls := .c, word := word, run := d.guard h, dests := res.map fun x => .g x.1
    srcs := srcs ++ res.map (·.1)
    trap := if pairs && (Reg.odd rd || Reg.odd rs1 || Reg.odd rs2) then some (tIllegal, word)
      else if d.copOn h.k 0 then none else some (tCopDisabled, word)
    eff := [.cx res draws] }

/-- A one-operand CX instruction. -/
def semCx1 (d : Dev) (h : Hd) (op : Nat) (rd rs1 : Reg) (f : Nat → Nat → Nat) : Sem :=
  semCx d h op rd rs1 0 false [rs1] [(rd, BitVec.ofNat 32 (f (d.g h.k rs1).toNat (Config.free d.free)))] 1
def semRcp (d : Dev) (h : Hd) (rd rs1 : Reg) : Sem := semCx1 d h 0 rd rs1 cxRcp
def semRsqrt (d : Dev) (h : Hd) (rd rs1 : Reg) : Sem := semCx1 d h 1 rd rs1 cxRsqrt
def semAtan2 (d : Dev) (h : Hd) (rd rs1 rs2 : Reg) : Sem :=
  semCx d h 2 rd rs1 rs2 false [rs1, rs2]
    [(rd, BitVec.ofNat 32 (cxAtan2 (d.g h.k rs1).toNat (d.g h.k rs2).toNat (Config.free d.free)))] 1
def semCdiv (d : Dev) (h : Hd) (rd rs1 rs2 : Reg) : Sem :=
  let r := cxCdiv (d.g h.k rs1).toNat (d.g h.k (Reg.next rs1)).toNat (d.g h.k rs2).toNat (d.g h.k (Reg.next rs2)).toNat
    (Config.free d.free) (Config.free (d.free + 1))
  semCx d h 3 rd rs1 rs2 true [rs1, Reg.next rs1, rs2, Reg.next rs2]
    [(rd, BitVec.ofNat 32 r.1), (Reg.next rd, BitVec.ofNat 32 r.2)] 2
def semLog2 (d : Dev) (h : Hd) (rd rs1 : Reg) : Sem := semCx1 d h 4 rd rs1 cxLog2
def semExp2 (d : Dev) (h : Hd) (rd rs1 : Reg) : Sem := semCx1 d h 5 rd rs1 cxExp2

end Sys2Proof.Machine
end

