-- ==== Sys2Proof/Machine/Cs.lean ====
section
/-! DEFINITION. The cluster-shared coprocessors CS_0 and CS_1 (R212 to R228): the try, and what a unit
writes at its commit. Matrices are factored exactly, over Gaussian integers. -/

namespace Sys2Proof.Machine

/-! ## The try -/

/-- The control fields of an operation (R222, R225): CS_0 op 0 CHOL, 1 INV; CS_1 op 0 SORT, 1 TOPK, 2 SEARCH. -/
def csN (ctl : Word) : Nat := bitsOf ctl.toNat 0 5
def csEin (ctl : Word) : Int := sx 8 (bitsOf ctl.toNat 8 8)
def csCount (ctl : Word) : Nat := bitsOf ctl.toNat 0 13
def csDir (ctl : Word) : Bool := bitAt ctl.toNat 16

/-- Are the control and argument words in range (R222, R225)? -/
def csLegal (unit op : Nat) (ctl arg : Word) : Bool :=
  if unit = 0 then
    decide (1 ≤ csN ctl) && decide (csN ctl ≤ 16) && bitsOf ctl.toNat 5 3 == 0 && bitsOf ctl.toNat 16 16 == 0
      && bitsOf arg.toNat 16 16 == 0
  else
    decide (1 ≤ csCount ctl) && decide (csCount ctl ≤ 4096) && bitsOf ctl.toNat 13 3 == 0
      && bitsOf ctl.toNat 17 15 == 0
      && (if op = 0 then arg == 0 else if op = 1 then decide (1 ≤ arg.toNat) && decide (arg.toNat ≤ csCount ctl) else true)

/-- The sizes of the source and destination blocks. -/
def csSizes (unit op : Nat) (ctl arg : Word) : Nat × Nat :=
  if unit = 0 then (csN ctl * csN ctl * 4, 8 + csN ctl * csN ctl * 4)
  else (4 * csCount ctl, 8 + (if op = 0 then 8 * csCount ctl else if op = 1 then 8 * arg.toNat else 0))

/-- Does a block lie wholly within the core's own data scratch; its device address. -/
def csBlock (d : Dev) (k : Nat) (ca n : Nat) : Option Nat :=
  match d.mapAddr k ca false with
  | none => none
  | some (da, _) => if inScratch k da && decide (da + n ≤ coreMem k + 0x40000) then some da else none

/-- The precise exceptions of a CS instruction (R202, R212, R213, R228). -/
def csTrap (sp : Spine) (d : Dev) (h : Hd) (word unit op : Nat) (rc rs rt : Reg) : Option (Nat × Nat) :=
  let ctl := d.g h.k rc
  let arg := d.g h.k (Reg.next rc)
  let sz := csSizes unit op ctl arg
  let s := (d.g h.k rs).toNat
  let t := (d.g h.k rt).toNat
  if Reg.odd rc then some (tIllegal, word)
  else if !d.copOn h.k (1 + unit)
      || sp.contain.units.contains (mkUid (h.k.val / 96) (h.k.val / 24 % 4) (h.k.val % 24 / 4) (4 + unit)) then
    some (tCopDisabled, word)
  else if !csLegal unit op ctl arg then some (tOperand, ctl.toNat)
  else if (csBlock d h.k s sz.1).isNone then some (tAccess, s)
  else if (csBlock d h.k t sz.2).isNone then some (tAccess, t)
  else if s % 8 ≠ 0 then some (tAlign, s)
  else if t % 8 ≠ 0 then some (tAlign, t)
  else none

/-- A CS instruction: it carries no guard. -/
def semCs (sp : Spine) (d : Dev) (h : Hd) (unit op : Nat) (rc rs rt : Reg) (pd : PReg) : Sem :=
  let word := encCs h rc rs rt pd unit op
  let ctl := d.g h.k rc
  let arg := d.g h.k (Reg.next rc)
  let sz := csSizes unit op ctl arg
  { cls := .c, word := word, dests := [.p pd], srcs := [rc, Reg.next rc, rs, rt]
    trap := csTrap sp d h word unit op rc rs rt
    eff := [.cs unit { core := h.k, op := op, ctl := ctl, arg := arg
                       src := (csBlock d h.k (d.g h.k rs).toNat sz.1).getD 0
                       dst := (csBlock d h.k (d.g h.k rt).toNat sz.2).getD 0, len := sz.1, got := [] } (d.pp h.k pd)] }
def semChol (sp : Spine) (d : Dev) (h : Hd) (rc rs rt : Reg) (pd : PReg) : Sem := semCs sp d h 0 0 rc rs rt pd
def semInv (sp : Spine) (d : Dev) (h : Hd) (rc rs rt : Reg) (pd : PReg) : Sem := semCs sp d h 0 1 rc rs rt pd
def semSort (sp : Spine) (d : Dev) (h : Hd) (rc rs rt : Reg) (pd : PReg) : Sem := semCs sp d h 1 0 rc rs rt pd
def semTopk (sp : Spine) (d : Dev) (h : Hd) (rc rs rt : Reg) (pd : PReg) : Sem := semCs sp d h 1 1 rc rs rt pd
def semSearch (sp : Spine) (d : Dev) (h : Hd) (rc rs rt : Reg) (pd : PReg) : Sem := semCs sp d h 1 2 rc rs rt pd

/-! ## CS_1: sort, top-K and search (R225, R226) -/

/-- Does record (key, index) come before another: by key in the direction, then the lower index. -/
def recBefore (asc : Bool) (a b : Int × Nat) : Bool :=
  if a.1 = b.1 then decide (a.2 ≤ b.2) else if asc then decide (a.1 < b.1) else decide (b.1 < a.1)
/-- Insert a record into a sorted list. -/
def recInsert (asc : Bool) (x : Int × Nat) (l : List (Int × Nat)) : List (Int × Nat) :=
  match l with
  | [] => [x]
  | y :: t => if recBefore asc x y then x :: y :: t else y :: recInsert asc x t
/-- The records of a key list in order. -/
def recSort (asc : Bool) (l : List (Int × Nat)) : List (Int × Nat) := l.foldr (recInsert asc) []
/-- A record's eight bytes. -/
def recBytes (r : Int × Nat) : List Byte := leBytes 4 (wrapInt 32 r.1) ++ leBytes 4 r.2

/-- The binary search of R226; `fuel` bounds its halvings. -/
def csSearch (key : Nat → Int) (probe : Int) (fuel lo hi : Nat) : Nat :=
  match fuel with
  | 0 => lo
  | f + 1 =>
    if lo < hi then
      let mid := (lo + hi) / 2
      if key mid < probe then csSearch key probe f (mid + 1) hi else csSearch key probe f lo mid
    else lo

/-- Bytes of the source that a unit has read. -/
def CsOp.word (o : CsOp) (at_ n : Nat) : Nat := ofLeBytes ((o.got.drop at_).take n)

/-- What CS_1 writes: the records and header bytes 4 to 7. -/
def cs1Result (o : CsOp) : List Byte × Nat :=
  let n := csCount o.ctl
  let key := fun i => sx 32 (o.word (4 * i) 4)
  let recs := (List.range n).map fun i => (key i, i)
  if o.op = 0 then ((recSort (csDir o.ctl) recs).flatMap recBytes, n)
  else if o.op = 1 then (((recSort (csDir o.ctl) recs).take o.arg.toNat).flatMap recBytes, o.arg.toNat)
  else ([], csSearch key o.arg.toInt 14 0 n)

/-! ## CS_0: Hermitian factorisation and inversion (R221 to R224) -/

/-- A Gaussian integer. -/
abbrev GInt := Int × Int
def gmul (a b : GInt) : GInt := (a.1 * b.1 - a.2 * b.2, a.1 * b.2 + a.2 * b.1)
def gsub (a b : GInt) : GInt := (a.1 - b.1, a.2 - b.2)
def gdiv (a : GInt) (n : Int) : GInt := (a.1 / n, a.2 / n)
def gscale (a : GInt) (n : Int) : GInt := (a.1 * n, a.2 * n)
/-- |a|^2. -/
def gnorm (a : GInt) : Nat := (a.1 * a.1 + a.2 * a.2).toNat

/-- The loaded matrix: the lower triangle read, mirrored by conjugation, LAMBDA on the diagonal. -/
def csMatrix (o : CsOp) : List (List GInt) :=
  let n := csN o.ctl
  let el := fun i j => (sx 16 (o.word (4 * (i * n + j)) 2), sx 16 (o.word (4 * (i * n + j) + 2) 2))
  (List.range n).map fun i => (List.range n).map fun j =>
    if i = j then ((el i i).1 + (bitsOf o.arg.toNat 0 16 : Nat), 0)
    else if j < i then el i j else ((el j i).1, -(el j i).2)

/-- The fraction-free elimination: at step k the pivot, the column k below it, and the reduced rows. -/
structure CsElim where
  rows : List (List GInt)
  prev : Int
  pivots : List Int
  cols : List (List GInt)
  bad : Option Nat
  deriving DecidableEq, Repr

/-- One step: every row but k is reduced by row k, and divided exactly by the previous pivot. -/
def csStep (e : CsElim) (k : Nat) : CsElim :=
  if e.bad.isSome then e
  else
    let rk := e.rows.getD k []
    let p := (rk.getD k (0, 0)).1
    if p ≤ 0 then { e with bad := some k }
    else
      { rows := e.rows.mapIdx fun i r =>
          if i = k then r
          else (r.zip rk).map fun x => gdiv (gsub (gscale x.1 p) (gmul (r.getD k (0, 0)) x.2)) e.prev
        prev := p, pivots := e.pivots ++ [p], bad := none
        cols := e.cols ++ [e.rows.map fun r => r.getD k (0, 0)] }

/-- Eliminate the matrix extended by the identity. -/
def csElim (m : List (List GInt)) : CsElim :=
  let n := m.length
  let ext := m.mapIdx fun i r => r ++ (List.range n).map fun j => if i = j then (1, 0) else (0, 0)
  (List.range n).foldl csStep { rows := ext, prev := 1, pivots := [], cols := [], bad := none }

/-- floor(sign * sqrt(num / den) * 2^sh), for sh of either sign. -/
def floorSqrt (neg : Bool) (num den : Nat) (sh : Int) : Int :=
  let a := if 0 ≤ sh then num * 2 ^ (2 * sh).toNat else num
  let b := if 0 ≤ sh then den else den * 2 ^ (-(2 * sh)).toNat
  let r := isqrt (a / b)
  if neg then (if r * r * b = a then -(r : Int) else -(r : Int) - 1) else (r : Int)

/-- floor(num / den * 2^sh). -/
def floorRat (num : Int) (den : Nat) (sh : Int) : Int :=
  if 0 ≤ sh then num * ((2 ^ sh.toNat : Nat) : Int) / (den : Int) else num / ((den * 2 ^ (-sh).toNat : Nat) : Int)

/-- A result component: floor of its exact value times 2^sh. -/
inductive CsComp where
  | rat (num : Int) (den : Nat) (e : Int)
  | root (neg : Bool) (num den : Nat)
  deriving DecidableEq, Repr

/-- floor(x * 2^sh) of a component. -/
def csFloor (c : CsComp) (sh : Int) : Int :=
  match c with
  | .rat n d e => floorRat n d (sh + e)
  | .root neg n d => floorSqrt neg n d sh

/-- The exact components of a result, row by row, real before imaginary. -/
def csExact (o : CsOp) (e : CsElim) : List CsComp :=
  let n := csN o.ctl
  let sc := csEin o.ctl - 15
  if o.op = 0 then
    (List.range n).flatMap fun i => (List.range n).flatMap fun j =>
      if i < j then [.rat 0 1 0, .rat 0 1 0]
      else
        let x := (e.cols.getD j []).getD i (0, 0)
        let dd := ((e.pivots.getD j 1) * (if j = 0 then 1 else e.pivots.getD (j - 1) 1)).toNat
        let num := fun (y : Int) => y.natAbs * y.natAbs * (if 0 ≤ sc then 2 ^ sc.toNat else 1)
        let den := dd * (if 0 ≤ sc then 1 else 2 ^ (-sc).toNat)
        [.root (decide (x.1 < 0)) (num x.1) den, .root (decide (x.2 < 0)) (num x.2) den]
  else
    e.rows.flatMap fun r => (r.drop n).flatMap fun x => [.rat x.1 e.prev.toNat (-sc), .rat x.2 e.prev.toNat (-sc)]

/-- Do all components lie in -lo to hi for an EOUT, in units of 2^(EOUT - 15)? -/
def csFits (lo hi : Int) (l : List CsComp) (eout : Int) : Bool :=
  l.all fun c => let x := csFloor c (15 - eout); decide (-lo ≤ x) && decide (x ≤ hi)

/-- -128 to 127. -/
def csEouts : List Int := (List.range 256).map fun i => (i : Int) - 128

/-- The smallest EOUT for which every component fits (R223). -/
def csEout (l : List CsComp) : Option Int := csEouts.find? (csFits 32768 32767 l)

/-- One step of the test whether a Hermitian matrix has no negative eigenvalue: a pivot is not negative, and one of zero has a
zero column. -/
def psdStep (x : List (List GInt) × Int × Bool) (k : Nat) : List (List GInt) × Int × Bool :=
  let rk := x.1.getD k []
  let p := (rk.getD k (0, 0)).1
  if !x.2.2 || decide (p < 0) then (x.1, x.2.1, false)
  else if p = 0 then (x.1, x.2.1, (x.1.drop k).all fun r => r.getD k (0, 0) == (0, 0))
  else
    (x.1.mapIdx fun i r =>
      if i ≤ k then r
      else (r.zip rk).map fun y => gdiv (gsub (gscale y.1 p) (gmul (r.getD k (0, 0)) y.2)) x.2.1, p, true)

/-- Has a Hermitian matrix no negative eigenvalue? -/
def psd (m : List (List GInt)) : Bool := ((List.range m.length).foldl psdStep (m, 1, true)).2.2

/-- Is the 2-norm condition number of a positive definite matrix at most 1,000 (R223)? Its eigenvalues x, y give those of the
matrix here, 1000 y - x. -/
def csGood (m : List (List GInt)) : Bool :=
  let n := m.length
  let el := fun (i j : Nat) => (m.getD i []).getD j (0, 0)
  psd ((List.range (n * n)).map fun a => (List.range (n * n)).map fun b =>
    gsub (gscale (if a / n = b / n then el (a % n) (b % n) else (0, 0)) 1000)
      (if a % n = b % n then el (a / n) (b / n) else (0, 0)))

/-- Is a component one above the diagonal of a CHOL result? -/
def csUpper (o : CsOp) (i : Nat) : Bool := decide (o.op = 0) && decide (i / 2 / csN o.ctl < i / 2 % csN o.ctl)

/-- Written components of which one at least needs this EOUT: if none of them does, one that may is moved to where it does. -/
def csForce (exact : List Int) (l : List Int) : List Int :=
  if l.any fun y => decide (16384 ≤ y) || decide (y < -16384) then l
  else
    match exact.findIdx? fun x => decide (16382 ≤ x) || decide (x ≤ -16383) with
    | some i => l.set i (if 0 ≤ exact.getD i 0 then 16384 else -16385)
    | none => l

/-- The components and EOUT written within the condition bound: EOUT is the smallest that the computed components fit, each of
which lies within 2 of the exact one; none is RANGE. -/
def csWithin (o : CsOp) (l : List CsComp) (fr : Nat → Nat) : Option (List Int × Int) :=
  let may := csEouts.filter fun e => csFits 32770 32769 l e && (e == -128 || !csFits 32764 32763 l (e - 1))
  let opts := may.map some ++ (if csFits 32764 32763 l 127 then [] else [none])
  match (opts.getD (fr 0 % opts.length) none) with
  | none => none
  | some e =>
    let x := l.map fun c => csFloor c (15 - e)
    let y := x.mapIdx fun i v => if csUpper o i then 0 else clampInt (-32768) 32767 (v + (fr (i + 1) % 5 : Nat) - 2)
    some (if e = -128 then y else csForce x y, e)

/-- The components and EOUT written beyond the condition bound: what CS_0 computes is open, any binary32 values. -/
def csBeyond (o : CsOp) (l : List CsComp) (fr : Nat → Nat) : Option (List Int × Int) :=
  let x := l.mapIdx fun i _ =>
    if csUpper o i then CsComp.rat 0 1 0
    else match fp32.decode (fr (i + 1) % fp32.infBits) with
      | .fin _ m e => CsComp.rat (if fr (i + 1) / fp32.infBits % 2 = 1 then -(m : Int) else (m : Int)) 1 e
      | _ => CsComp.rat 0 1 0
  (csEout x).map fun e => (x.map fun c => csFloor c (15 - e), e)

/-- What CS_0 writes: the records' bytes, status, EOUT and the NOT_PD index, and how many free values it took (log
entry 20). -/
def cs0Result (d : Dev) (o : CsOp) : List Byte × Nat × Nat × Nat × Nat :=
  let n := csN o.ctl
  let m := csMatrix o
  let e := csElim m
  let zeros := List.replicate (4 * n * n) (0 : Byte)
  match e.bad with
  | some k => (zeros, 2, 0, k, 0)
  | none =>
    let l := csExact o e
    let fr := fun i => Config.free (d.free + i)
    match (if csGood m then csWithin o l fr else csBeyond o l fr) with
    | none => (zeros, 3, 0, 0, 2 * n * n + 1)
    | some (y, eo) => (y.flatMap fun v => leBytes 2 (wrapInt 16 v), 1, wrapInt 8 eo, 0, 2 * n * n + 1)

/-- The commit of a CS unit (R217, R219): it has read all of its source; the records in ascending order, then the header;
DONE for the issuing core; the unit is free. -/
def csCommit (c u : Nat) (d : Dev) : Dev :=
  match (d.csUnit c u).op with
  | none => d
  | some o =>
    let d1 := d.csTake c u (o.len - o.got.length)
    match (d1.csUnit c u).op with
    | none => d1
    | some o =>
      let put := fun (d : Dev) (recs head : List Byte) => ((d.memPut (o.dst + 8) recs).2.memPut o.dst head).2
      let d2 :=
        if u = 0 then
          let r := cs0Result d1 o
          put { d1 with free := d1.free + r.2.2.2.2 } r.1
            (leBytes 2 r.2.1 ++ leBytes 1 r.2.2.1 ++ [0] ++ leBytes 2 r.2.2.2.1 ++ [0, 0])
        else
          let r := cs1Result o
          put d1 r.1 ([1, 0, 0, 0] ++ leBytes 4 r.2)
      (d2.setF ⟨coreBase o.core + 0x808, 4 * u + 1, 1⟩ 1).setCs c u { d2.csUnit c u with op := none, tie := none }

end Sys2Proof.Machine
end

