-- ==== Sys2Proof/Machine/Codes.lean ====
section
/-! DEFINITION. The channel codes of 3GPP TS 38.212 and TS 36.212 (R367, R370, R382): checksums, segmentation, rate
matching and encoding. The spec takes the standards "unchanged" and prints none of them: what stands here is
PRESUMED (log entry 26); the LDPC shift values are open. -/

namespace Sys2Proof.Machine

/-- What the code-block procedures of 3GPP TS 38.212 and TS 36.212 take from a descriptor (R367, R370): the
operation (0 LDPC, 1 polar, 2 turbo, 3 small or convolutional, 4 the rest) and whether it encodes, and the
descriptor's fields (log entry 26). -/
structure CodePar where
  enc : Bool
  op : Nat
  kind : Nat
  bg : Nat
  rat : Nat
  a : Nat
  g : Nat
  nl : Nat
  qm : Nat
  rv : Nat
  lbrm : Bool
  nref : Nat
  deriving DecidableEq, Repr

/-- The `n` bits of a number, highest first. -/
def indexBits (n i : Nat) : List Bool := (List.range n).map fun k => bitAt i (n - 1 - k)

/-- Exclusive or, bit by bit. -/
def xorBits (a b : List Bool) : List Bool := List.zipWith xor a b

/-- The exponent of the smallest power of two not below n. -/
def clog2 (n : Nat) : Nat := if n ≤ 1 then 0 else Nat.log2 (n - 1) + 1

/-- Division with rounding up. -/
def cdiv (a b : Nat) : Nat := (a + (b - 1)) / b

/-! ## Checksums -/

/-- The remainder of a bit string by a generator of degree `len`. -/
def crcRem (poly len : Nat) (l : List Bool) : Nat :=
  l.foldl (fun r b =>
    let s := 2 * r + b2n b
    if bitAt s len then Nat.xor s poly else s) 0
/-- The parity bits of a bit string. -/
def crcBits (poly len : Nat) (l : List Bool) : List Bool :=
  indexBits len (crcRem poly len (l ++ List.replicate len false))
/-- Does a bit string with its parity bits at the end check? -/
def crcHolds (poly len : Nat) (l : List Bool) : Bool := crcRem poly len l == 0

/-- The generators, with the leading term. -/
def crc24A : Nat := 0x1864CFB
def crc24B : Nat := 0x1800063
def crc24C : Nat := 0x1B2B117
def crc16 : Nat := 0x11021
def crc11 : Nat := 0xE21
def crc6 : Nat := 0x61

/-- Is the transport block LTE's? -/
def CodePar.lte (p : CodePar) : Bool := if p.op = 4 then p.rat == 1 else p.op == 2
/-- Length of the transport block CRC: 16 for an NR block of up to 3,824 bits. -/
def CodePar.tbLen (p : CodePar) : Nat := if p.lte || decide (3824 < p.a) then 24 else 16
/-- The transport block CRC over a block, and its check over the block with it. -/
def tbCrc (p : CodePar) (l : List Bool) : List Bool := if p.tbLen = 24 then crcBits crc24A 24 l else crcBits crc16 16 l
def tbCrcOk (p : CodePar) (l : List Bool) : Bool := if p.tbLen = 24 then crcHolds crc24A 24 l else crcHolds crc16 16 l

/-! ## Segmentation -/

/-- A segmentation: C; the sizes K+ and K- of the code blocks and how many have the smaller one (the first); the filler
bits (of each NR block, of the first LTE block); Z_c of an LDPC code; whether the sizes come out whole. -/
structure CbSeg where
  c : Nat
  big : Nat
  small : Nat
  nSmall : Nat
  fill : Nat
  z : Nat
  whole : Bool
  deriving DecidableEq, Repr

/-- The odd part of a number below 512. -/
def oddPart (fuel n : Nat) : Nat :=
  match fuel with
  | 0 => n
  | k + 1 => if n % 2 = 0 then oddPart k (n / 2) else n
/-- The lifting sizes: 2 to 384 with an odd part of at most 15. -/
def liftSizes : List Nat := (List.range 385).filter fun z => decide (2 ≤ z) && decide (oddPart 9 z ≤ 15)
/-- The set index of a lifting size. -/
def liftSet (z : Nat) : Nat := (oddPart 9 z - 1) / 2

/-- The columns of information bits that a base graph's lifting size is chosen for. -/
def baseCols (bg b : Nat) : Nat :=
  if bg = 0 then 22 else if 640 < b then 10 else if 560 < b then 9 else if 192 < b then 8 else 6
/-- The NR segmentation of `b` bits. -/
def nrSeg (bg b : Nat) : CbSeg :=
  let kcb := if bg = 0 then 8448 else 3840
  let c := if b ≤ kcb then 1 else cdiv b (kcb - 24)
  let all := if c = 1 then b else b + 24 * c
  let k1 := all / c
  let z := (liftSizes.find? fun z => decide (k1 ≤ baseCols bg b * z)).getD 384
  let k := (if bg = 0 then 22 else 10) * z
  { c := c, big := k, small := k, nSmall := 0, fill := k - k1, z := z, whole := all % c == 0 }

/-- The LTE segmentation of `b` bits. -/
def lteSeg (b : Nat) : CbSeg :=
  let c := if b ≤ 6144 then 1 else cdiv b 6120
  let all := if c = 1 then b else b + 24 * c
  let sizes := turboQpp.map (·.1)
  let kp := (sizes.find? fun k => decide (all ≤ c * k)).getD 6144
  let km := if c = 1 then 0 else ((sizes.filter fun k => decide (k < kp)).getLast?).getD 0
  let cm := if c = 1 then 0 else (c * kp - all) / (kp - km)
  { c := c, big := kp, small := km, nSmall := cm, fill := (c - cm) * kp + cm * km - all, z := 0, whole := true }

/-- The segmentation of a task's transport block, its CRC included. -/
def CodePar.seg (p : CodePar) : CbSeg := if p.lte then lteSeg (p.a + p.tbLen) else nrSeg p.bg (p.a + p.tbLen)

/-- The size K of code block r. -/
def CbSeg.size (s : CbSeg) (r : Nat) : Nat := if r < s.nSmall then s.small else s.big
/-- The filler bits of code block r. -/
def CodePar.fill (p : CodePar) (r : Nat) : Nat := if p.lte ∧ r ≠ 0 then 0 else p.seg.fill
/-- The information bits of code block r with its CRC, fillers left out. -/
def CodePar.infoLen (p : CodePar) (r : Nat) : Nat := p.seg.size r - p.fill r
/-- The payload bits of code block r (R372). -/
def CodePar.payLen (p : CodePar) (r : Nat) : Nat := p.infoLen r - (if p.seg.c = 1 then 0 else 24)

/-! ## The LDPC code -/

/-- Rows and columns of a base graph. -/
def baseRows (bg : Nat) : Nat := if bg = 0 then 46 else 42
def baseWidth (bg : Nat) : Nat := if bg = 0 then 68 else 52
/-- The checks of row `i` of the base graph, in order: the bits of each. -/
def ldpcRow (bg z i : Nat) : List (List Nat) :=
  let es := (List.range (baseWidth bg)).filterMap fun j => (Config.ldpcShift bg (liftSet z) i j).map fun v => (j, v)
  (List.range z).map fun x => es.map fun e => e.1 * z + (x + e.2) % z
/-- The parity checks of the code in base-graph row order. -/
def ldpcChecks (p : CodePar) : List (List Nat) :=
  (List.range (baseRows p.bg)).flatMap fun i => ldpcRow p.bg p.seg.z i

/-- One column of an elimination: rows with their pivot columns, rows without. A row is a number whose bit j is its
coefficient of unknown j; bit `n` is the right side. -/
def elimCol (st : List (Nat × Nat) × List Nat) (j : Nat) : List (Nat × Nat) × List Nat :=
  match st.2.find? fun r => bitAt r j with
  | none => st
  | some p =>
    let f := fun r => if bitAt r j then Nat.xor r p else r
    ((j, p) :: st.1.map fun x => (x.1, f x.2), (st.2.erase p).map f)
/-- The solution of a linear system of `n` unknowns over bits; an unknown without a pivot is 0. -/
def solveBits (n : Nat) (rows : List Nat) : List Bool :=
  let st := (List.range n).foldl elimCol ([], rows)
  (List.range n).map fun j => st.1.any fun x => x.1 == j && bitAt x.2 n

/-- The parity bits that complete the information bits `c` to a codeword. -/
def ldpcParity (p : CodePar) (c : List Bool) : List Bool :=
  let k := p.seg.big
  let n := baseWidth p.bg * p.seg.z - k
  let a := c.toArray
  solveBits n ((ldpcChecks p).map fun l =>
    l.foldl (fun r i => if i < k then (if a.getD i false then Nat.xor r (2 ^ n) else r) else Nat.xor r (2 ^ (i - k))) 0)

/-! ## The turbo code -/

/-- The interleaver: the input position of output position i. -/
def turboPi (k i : Nat) : Nat :=
  match turboQpp.find? fun x => x.1 == k with
  | some x => (x.2.1 * i + x.2.2 * i * i) % k
  | none => i

/-- A bit of a constituent encoder's state: 2 the newest. -/
def rscFb (s : Nat) : Bool := xor (bitAt s 1) (bitAt s 0)
/-- The parity bit and the next state of a constituent encoder for input bit `u`. -/
def rscStep (s : Nat) (u : Bool) : Bool × Nat :=
  let a := xor u (rscFb s)
  (xor a (xor (bitAt s 2) (bitAt s 0)), 4 * b2n a + s / 2)
/-- A constituent encoder over its input: the parity bits and the last state. -/
def rscRun (l : List Bool) : List Bool × Nat :=
  l.foldl (fun st u =>
    let x := rscStep st.2 u
    (st.1 ++ [x.1], x.2)) ([], 0)
/-- The termination of a constituent encoder: three pairs of input and parity bits. -/
def rscTail (n s : Nat) : List (Bool × Bool) :=
  match n with
  | 0 => []
  | k + 1 =>
    let x := rscStep s (rscFb s)
    (rscFb s, x.1) :: rscTail k x.2

/-- The three output streams of K + 4 bits each. -/
def turboStreams (c : List Bool) : List (List Bool) :=
  let a := c.toArray
  let one := rscRun c
  let two := rscRun ((List.range c.length).map fun i => a.getD (turboPi c.length i) false)
  let tail := ((rscTail 3 one.2 ++ rscTail 3 two.2).flatMap fun x => [x.1, x.2]).toArray
  let pick := fun (s : Nat) => (List.range 4).map fun i => tail.getD (3 * i + s) false
  [c ++ pick 0, one.1 ++ pick 1, two.1 ++ pick 2]

/-- Position y of a stream of `d` bits behind its dummies; none for a dummy. -/
def lteReal (d y : Nat) : Option Nat :=
  let nd := cdiv d 32 * 32 - d
  if y < nd then none else some (y - nd)
/-- What the sub-block interleaver reads at place k: the third turbo stream's is shifted by one. -/
def lteRead (col : Nat → Nat) (d k shift : Nat) : Option Nat :=
  let r := cdiv d 32
  lteReal d ((col (k / r) + 32 * (k % r) + shift) % (32 * r))

/-- The circular buffer of an LTE turbo block: the stream and the bit at each place; none for dummies and fillers. -/
def turboBuf (k fill : Nat) : List (Option (Nat × Nat)) :=
  let kp := 32 * cdiv (k + 4) 32
  let at_ := fun (s j : Nat) =>
    match lteRead turboCol (k + 4) j (if s = 2 then 1 else 0) with
    | some i => if s < 2 ∧ i < fill then none else some (s, i)
    | none => none
  (List.range (3 * kp)).map fun i =>
    if i < kp then at_ 0 i else if (i - kp) % 2 = 0 then at_ 1 ((i - kp) / 2) else at_ 2 ((i - kp) / 2)

/-! ## Rate matching (R370, R371) -/

/-- N_cb for a block of K bits. -/
def CodePar.ncbOf (p : CodePar) (k : Nat) : Nat :=
  if p.lte then min (p.nref / p.seg.c) (96 * cdiv (k + 4) 32)
  else
    let n := (baseWidth p.bg - 2) * p.seg.z
    if p.lbrm then min n p.nref else n
/-- N_cb of code block r. -/
def codeNcb (p : CodePar) (r : Nat) : Nat := p.ncbOf (p.seg.size r)
/-- N_cb of the larger block size K+ (R376). -/
def codeNcbMax (p : CodePar) : Nat := p.ncbOf p.seg.big

/-- E_r: the coded bits in units of NL times QM, shared by the code blocks, the last ones taking the rest. -/
def codeE (p : CodePar) (r : Nat) : Nat :=
  let u := p.nl * p.qm
  let n := p.g / u
  u * (if r < p.seg.c - n % p.seg.c then n / p.seg.c else cdiv n p.seg.c)

/-- k0 of a redundancy version. -/
def codeK0 (p : CodePar) (r : Nat) : Nat :=
  let ncb := codeNcb p r
  if p.lte then
    let rows := cdiv (p.seg.size r + 4) 32
    rows * (2 * cdiv ncb (8 * rows) * p.rv + 2)
  else
    let f := ((if p.bg = 0 then [0, 17, 33, 56] else [0, 13, 25, 43])[p.rv]?).getD 0
    f * ncb / ((baseWidth p.bg - 2) * p.seg.z) * p.seg.z

/-- Which places of the circular buffer are bits that are sent. -/
def codeSent (p : CodePar) (r : Nat) : List Bool :=
  let s := p.seg
  if p.lte then (turboBuf (s.size r) (p.fill r)).map (·.isSome)
  else (List.range (codeNcb p r)).map fun i => !(decide (s.big - s.fill ≤ i + 2 * s.z) && decide (i + 2 * s.z < s.big))
/-- The places of the circular buffer that are sent, from k0 round. -/
def codeOrder (p : CodePar) (r : Nat) : List Nat :=
  let n := codeNcb p r
  let k0 := codeK0 p r
  let sent := (codeSent p r).toArray
  ((List.range n).map fun i => (k0 + i) % n).filter fun i => sent.getD i false
/-- The place in the circular buffer of each of the E_r bits, in the order they are sent: NR interleaves by QM. -/
def codePos (p : CodePar) (r : Nat) : List Nat :=
  let a := (codeOrder p r).toArray
  let e := codeE p r
  (List.range e).map fun x => a.getD ((if p.lte then x else x % p.qm * (e / p.qm) + x / p.qm) % a.size) 0

/-- Do the values derived for a transport block lie within the standard's range? -/
def tbRange (p : CodePar) : Bool :=
  decide (1 ≤ p.a) && p.seg.whole && p.g % (p.nl * p.qm) == 0 && decide (p.seg.c ≤ p.g / (p.nl * p.qm))
    && !(codeOrder p 0).isEmpty && !(codeOrder p (p.seg.c - 1)).isEmpty

/-! ## Encoding of transport blocks (R382) -/

/-- The bits of code block r of a transport block with its CRC; a CRC of its own where there are several. -/
def blockInfo (p : CodePar) (tb : List Bool) (r : Nat) : List Bool :=
  let skip := ((List.range r).map p.payLen).foldl (· + ·) 0
  let l := (tb.drop skip).take (p.payLen r)
  if p.seg.c = 1 then l else l ++ crcBits crc24B 24 l

/-- The circular buffer of code block r. -/
def blockBuf (p : CodePar) (tb : List Bool) (r : Nat) : List Bool :=
  let info := blockInfo p tb r
  let zeros := List.replicate (p.fill r) false
  if p.lte then
    let s := (turboStreams (zeros ++ info)).map List.toArray
    (turboBuf (p.seg.size r) (p.fill r)).map fun x =>
      match x with
      | some (j, i) => ((s[j]?).getD #[]).getD i false
      | none => false
  else
    let c := info ++ zeros
    (c ++ ldpcParity p c).drop (2 * p.seg.z)

/-- The rate-matched bits of code block r. -/
def encodedBlock (p : CodePar) (r : Nat) (bits : List Bool) : List Bool :=
  let a := (blockBuf p (bits ++ tbCrc p bits) r).toArray
  (codePos p r).map fun i => a.getD i false

/-! ## The polar code -/

/-- A polar code: K bits in E with the most stages allowed, n, the parity-check bits, and how many of these go to rows of
least weight. -/
structure Polar where
  k : Nat
  e : Nat
  n : Nat
  pc : Nat
  wm : Nat
  deriving DecidableEq, Repr

/-- The code for K bits in E (TS 38.212, 5.3.1); `uci` where parity-check bits are used. -/
def polarCode (uci : Bool) (k e nmax : Nat) : Polar :=
  let l := clog2 e
  let n1 := if 8 * e ≤ 9 * 2 ^ (l - 1) ∧ 16 * k < 9 * e then l - 1 else l
  let n := max (min n1 (min (clog2 (8 * k)) nmax)) 5
  let pc := if uci && decide (18 ≤ k) && decide (k ≤ 25) then 3 else 0
  { k := k, e := e, n := n, pc := pc, wm := if pc = 3 ∧ 192 + k < e + 3 then 1 else 0 }

/-- The sub-block interleaver J. -/
def Polar.sub (c : Polar) (i : Nat) : Nat :=
  let m := 2 ^ c.n / 32
  (polarSub[i / m]?).getD 0 * m + i % m
/-- Does rate matching puncture, rather than shorten? -/
def Polar.punct (c : Polar) : Bool := decide (16 * c.k ≤ 7 * c.e)
/-- The input bits frozen by rate matching. -/
def Polar.cut (c : Polar) : List Nat :=
  let n := 2 ^ c.n
  if n ≤ c.e then []
  else if c.punct then
    List.range (if 3 * n ≤ 4 * c.e then cdiv (3 * n - 2 * c.e) 4 else cdiv (9 * n - 4 * c.e) 16) ++
      (List.range (n - c.e)).map c.sub
  else (List.range (n - c.e)).map fun i => c.sub (c.e + i)
/-- The input bits that carry information and parity checks, least reliable first. -/
def Polar.info (c : Polar) : List Nat :=
  let cut := c.cut
  let l := polarSeq.filter fun i => decide (i < 2 ^ c.n) && !cut.contains i
  l.drop (l.length - (c.k + c.pc))
/-- How many ones a number has. -/
def popCount (n : Nat) : Nat := ((List.range 16).filter fun i => bitAt n i).length
/-- The input bits that are parity checks. -/
def Polar.checks (c : Polar) : List Nat :=
  let l := c.info
  let good := l.drop c.pc
  let least := good.foldl (fun m i => min m (popCount i)) 16
  l.take (c.pc - c.wm) ++ if c.wm = 0 then [] else ((good.filter fun i => popCount i == least).getLast?).toList

/-- The value of parity-check bit i, from the input bits before it (newest first). -/
def pcValue (info checks : List Nat) (before : List Bool) : Bool :=
  let i := before.length
  (before.zipIdx.filter fun x =>
    let m := i - 1 - x.2
    x.1 && m % 5 == i % 5 && info.contains m && !checks.contains m).length % 2 == 1
/-- The input bits, newest first, of the code's bits. -/
def Polar.input (c : Polar) (bits : List Bool) : List Bool :=
  let info := c.info
  let checks := c.checks
  ((List.range (2 ^ c.n)).foldl (fun (st : List Bool × List Bool) i =>
    if checks.contains i then (pcValue info checks st.1 :: st.1, st.2)
    else if info.contains i then ((st.2.headD false) :: st.1, st.2.tail)
    else (false :: st.1, st.2)) ([], bits)).1

/-- The transform of 2^n bits. -/
def polarX (n : Nat) (u : List Bool) : List Bool :=
  match n with
  | 0 => u
  | k + 1 =>
    let b := polarX k (u.drop (2 ^ k))
    xorBits (polarX k (u.take (2 ^ k))) b ++ b

/-- The interleaving of up to 164 bits before the code. -/
def polarMix (l : List Bool) : List Bool :=
  let a := l.toArray
  (polarIl.filter fun m => decide (164 - a.size ≤ m)).map fun m => a.getD (m - (164 - a.size)) false

/-- The place behind the sub-block interleaver of rate-matched bit k. -/
def Polar.pos (c : Polar) (k : Nat) : Nat :=
  let n := 2 ^ c.n
  if n ≤ c.e then k % n else if c.punct then k + n - c.e else k
/-- The triangular interleaver's order of E bits. -/
def triOrder (e : Nat) : List Nat :=
  let t := ((List.range (e + 1)).find? fun t => decide (2 * e ≤ t * (t + 1))).getD 0
  (List.range t).flatMap fun j => (List.range (t - j)).filterMap fun i =>
    let x := i * t - i * (i - 1) / 2 + j
    if x < e then some x else none

/-- The rate-matched bits of a polar code without the triangular interleaver. -/
def Polar.encode (c : Polar) (bits : List Bool) : List Bool :=
  let d := (polarX c.n (c.input bits).reverse).toArray
  (List.range c.e).map fun k => d.getD (c.sub (c.pos k)) false

/-- Are a code's lengths within the standard's range? -/
def polarRange (k e nmax : Nat) : Bool := decide (k ≤ e) && decide (e ≤ 8192) && decide (k < 2 ^ nmax)

/-! ### Uplink control (decoder OP 1) -/

/-- Is uplink control of A bits in E cut in two? -/
def uciTwo (p : CodePar) : Bool := (decide (360 ≤ p.a) && decide (1088 ≤ p.g)) || decide (1013 ≤ p.a)
/-- The code blocks of a polar task. -/
def uciBlocks (p : CodePar) : Nat := if uciTwo p then 2 else 1
/-- The CRC bits and the code of each block. -/
def uciCrc (p : CodePar) : Nat := if p.a < 20 then 6 else 11
def uciCode (p : CodePar) : Polar :=
  polarCode true (cdiv p.a (uciBlocks p) + uciCrc p) (p.g / uciBlocks p) 10

/-! ### The encoder's polar codes (OP 1) -/

/-- DCI: the CRC over 24 ones and the payload, its last 16 bits scrambled by RNTI. -/
def dciBits (rnti : Nat) (bits : List Bool) : List Bool :=
  let c := crcBits crc24C 24 (List.replicate 24 true ++ bits)
  bits ++ c.take 8 ++ xorBits (c.drop 8) (indexBits 16 rnti)
/-- The rate-matched bits of DCI (KIND 0) and PBCH (KIND 1). -/
def encodedPolar (p : CodePar) (rnti : Nat) (bits : List Bool) : List Bool :=
  let l := if p.kind = 0 then dciBits rnti bits else bits ++ crcBits crc24C 24 bits
  (polarCode false (p.a + 24) p.g 9).encode (polarMix l)

/-! ## The tail-biting convolutional code (OP 3) -/

/-- Output stream s at bit k: the delays that its generator taps. -/
def convTaps (s : Nat) : List Nat := if s = 0 then [0, 2, 3, 5, 6] else if s = 1 then [0, 1, 2, 3, 6] else [0, 1, 2, 4, 6]
/-- The stream's bits; the register begins with the last six. -/
def convStream (c : List Bool) (s : Nat) : List Bool :=
  let a := c.toArray
  (List.range a.size).map fun k =>
    ((convTaps s).filter fun t => a.getD ((k + 6 * a.size - t) % a.size) false).length % 2 == 1
/-- The rate-matched bits of DCI (KIND 0, CRC masked by RNTI) and PBCH (KIND 1, masked by ANT). -/
def encodedConv (p : CodePar) (rnti ant : Nat) (bits : List Bool) : List Bool :=
  let mask := if p.kind = 0 then rnti else Config.antMask ant
  let c := bits ++ xorBits (crcBits crc16 16 bits) (indexBits 16 mask)
  let kp := 32 * cdiv c.length 32
  let w := ((List.range 3).flatMap fun s =>
    let d := (convStream c s).toArray
    (List.range kp).filterMap fun k => (lteRead convCol c.length k 0).map fun i => d.getD i false).toArray
  (List.range p.g).map fun k => w.getD (k % w.size) false

/-! ## Small block codes -/

/-- The codeword of a code whose basis sequences are given, for the payload index `i` of `a` bits, first bit highest. -/
def basisWord (basis : List Nat) (a i : Nat) : List Bool :=
  basis.map fun m => ((List.range a).filter fun n => bitAt m n && bitAt i (a - 1 - n)).length % 2 == 1
/-- The NR codes of one and two bits with QM bits a symbol; none where the standard puts a placeholder. -/
def nrSmall (a qm i : Nat) : List (Option Bool) :=
  if a = 1 then some (bitAt i 0) :: List.replicate (qm - 1) none
  else
    let c := fun (n : Nat) => some (if n % 3 = 2 then xor (bitAt i 1) (bitAt i 0) else bitAt i (1 - n % 3))
    if qm = 1 then [c 0, c 1, c 2]
    else (List.range 3).flatMap fun s => [c (2 * s), c (2 * s + 1)] ++ List.replicate (qm - 2) none
/-- The codeword of decoder OP 3 for a payload index, repeated to E bits. -/
def smallWord (p : CodePar) (i : Nat) : List (Option Bool) :=
  let w := (if p.kind = 0 then nrSmall p.a p.qm i
    else (basisWord (if p.kind = 1 then basis32 else basis20) p.a i).map some).toArray
  (List.range p.g).map fun k => w.getD (k % w.size) none

/-- The encoder's small codes (OP 4): CFI, whose value A picks the word, and RM (32, A). -/
def encodedSmall (p : CodePar) (bits : List Bool) : List Bool :=
  if p.kind = 0 then (List.range 32).map fun k => k % 3 != p.a - 1
  else basisWord basis32 p.a (bits.foldl (fun n b => 2 * n + b2n b) 0)

/-! ## The encoder's output and its range (R382, R383) -/

/-- The rate-matched bits of block r of an encoder task. -/
def encoded (p : CodePar) (r rnti ant : Nat) (bits : List Bool) : List Bool :=
  if p.op = 0 ∨ p.op = 2 then encodedBlock p r bits
  else if p.op = 1 then encodedPolar p rnti bits
  else if p.op = 3 then encodedConv p rnti ant bits
  else encodedSmall p bits

/-- C, the number of code blocks of a task. -/
def codeBlocks (p : CodePar) : Nat :=
  if p.op = 0 ∨ p.op = 2 ∨ p.op = 4 then p.seg.c else if p.op = 1 ∧ p.enc = false then uciBlocks p else 1

/-- Does every derived value lie in the standard's range (R370)? -/
def codeOk (p : CodePar) : Bool :=
  if p.op = 0 ∨ p.op = 2 then tbRange p
  else if p.op = 1 then
    if p.enc then polarRange (p.a + 24) p.g 9 && decide (p.a ≤ 140) && (p.kind == 1 || decide (12 ≤ p.a))
    else polarRange (uciCode p).k (uciCode p).e 10
  else if p.op = 3 then decide (1 ≤ p.a) && decide (1 ≤ p.g) && (p.enc || p.kind != 2 || p.g == 20)
  else decide (1 ≤ p.a)

end Sys2Proof.Machine
end

