-- ==== Sys2Proof/Machine/Coding.lean ====
section
/-! DEFINITION. The arithmetic of the decoder and encoder engines (R367 to R374, R376, R378, R382, R383): what
the spec itself says of it, over the standards' codes. -/

namespace Sys2Proof.Machine

/-! ## Descriptors -/

/-- A word of a descriptor. -/
def dw (l : List Byte) (o n : Nat) : Nat := ofLeBytes ((l.drop o).take n)
/-- An address field of a descriptor: bits [41:0]. -/
def dAddr (l : List Byte) (o : Nat) : Nat := dw l o 8 % 2 ^ 42
/-- Are an address field's bits [63:42] zero? -/
def dAddrOk (l : List Byte) (o : Nat) : Bool := decide (dw l o 8 < 2 ^ 42)

/-- A coding descriptor (R369, R383). -/
structure CodeDesc where
  par : CodePar
  new : Bool
  et : Nat
  maxIter : Nat
  proc : Nat
  first : Nat
  num : Nat
  stride : Nat
  inp : Nat
  out : Nat
  result : Nat
  rnti : Nat
  ant : Nat
  deriving DecidableEq, Repr

/-- The fields that 64 bytes spell. -/
def codeDesc (enc : Bool) (op : Nat) (l : List Byte) : CodeDesc :=
  let w0 := dw l 0 4
  { par := { enc := enc, op := op, kind := bitsOf w0 24 2, bg := bitsOf w0 0 1, rat := bitsOf w0 26 1
             a := bitsOf (dw l 4 4) 0 21, g := dw l 8 4, nl := bitsOf w0 16 4, qm := bitsOf w0 12 4
             rv := bitsOf w0 2 2, lbrm := bitAt w0 4, nref := bitsOf (dw l 0x10 4) 0 24 }
    new := bitAt w0 1, et := bitsOf w0 5 2, maxIter := bitsOf w0 7 5, proc := bitsOf w0 20 4
    first := bitsOf (dw l 0xC 4) 0 8, num := bitsOf (dw l 0xC 4) 8 8, stride := dw l 0x14 4
    inp := dAddr l 0x18, out := dAddr l 0x20, result := dAddr l 0x28
    rnti := bitsOf (dw l 0x10 4) 0 16, ant := bitsOf (dw l 0x10 4) 16 2 }

/-- A number of bits per symbol that the table allows. -/
def qmOk (q : Nat) : Bool := [1, 2, 4, 6, 8, 10].contains q

/-- The checks that every coding descriptor passes: address fields, reserved fields. -/
def codeShape (l : List Byte) : Bool :=
  dAddrOk l 0x18 && dAddrOk l 0x20 && dAddrOk l 0x28 && bitsOf (dw l 0 4) 27 5 == 0 && bitsOf (dw l 4 4) 21 11 == 0
    && bitsOf (dw l 0xC 4) 16 16 == 0 && bitsOf (dw l 0x10 4) 24 8 == 0 && dw l 0x30 16 == 0

/-- The fields of the block range and the output stride. -/
def codeRange (x : CodeDesc) : Bool :=
  decide (1 ≤ x.num) && decide (x.num ≤ 64) && x.stride != 0 && x.stride % 64 == 0

/-- Is the task's range within its transport block's C code blocks? -/
def blocksOk (x : CodeDesc) : Bool := codeRange x && decide (x.first + x.num ≤ codeBlocks x.par)

/-- TB_CRC covers all C blocks. Its descriptor names no base graph: the C of either is taken (log entry 91). -/
def tbAllOk (x : CodeDesc) : Bool :=
  codeRange x && x.first == 0 &&
    ((x.num == codeBlocks x.par && x.par.seg.whole)
      || (let q := { x.par with bg := 1 - x.par.rat }; x.num == codeBlocks q && q.seg.whole))

/-- The payload bits of block i of a TB_CRC task. -/
def tbPayLen (x : CodeDesc) (i : Nat) : Nat := if x.par.lte then x.par.payLen i else (x.par.a + x.par.tbLen) / x.num

/-- Is the field list of bits of word 0 outside `mask` zero? -/
def w0Within (l : List Byte) (mask : Nat) : Bool := Nat.land (dw l 0 4) mask == dw l 0 4

/-- The bits of word 0 that an operation of the decoder uses. -/
def decMask (op : Nat) : Nat :=
  if op = 0 then 0xFFFFFF else if op = 1 then 0 else if op = 2 then 0xFFFFEE else if op = 3 then 0x300F000 else 0x4000000

/-- A decoder descriptor passes the checks of R369 and R370. -/
def decOk (op : Nat) (l : List Byte) : Bool :=
  let x := codeDesc false op l
  let p := x.par
  let harq := qmOk p.qm && decide (1 ≤ p.nl ∧ p.nl ≤ 4) && blocksOk x
  codeShape l && w0Within l (decMask op) && x.result % 32 == 0 && codeOk p &&
    (if op = 0 then harq && decide (1 ≤ x.maxIter ∧ x.maxIter ≤ 20) && (p.lbrm || p.nref == 0)
     else if op = 1 then decide (12 ≤ p.a ∧ p.a ≤ 1706) && dw l 0xC 4 == 0 && dw l 0x10 4 == 0 && x.stride == 0
     else if op = 2 then harq && decide (1 ≤ x.maxIter ∧ x.maxIter ≤ 8) && (x.et == 0 || x.et == 2)
     else if op = 3 then
       qmOk p.qm && dw l 0xC 4 == 0 && dw l 0x10 4 == 0 && x.stride == 0
         && (if p.kind = 0 then decide (1 ≤ p.a ∧ p.a ≤ 2) else if p.kind = 1 then decide (3 ≤ p.a ∧ p.a ≤ 11)
             else p.kind == 2 && decide (1 ≤ p.a ∧ p.a ≤ 13))
     else p.g == 0 && dw l 0x10 4 == 0 && dw l 0x20 8 == 0 && tbAllOk x)

/-- The bits of word 0 that an operation of the encoder uses. -/
def encMask (op : Nat) : Nat :=
  if op = 0 then 0x0FF01D else if op = 2 then 0x0FF00C else if op = 3 then 0x300F000 else 0x3000000

/-- An encoder descriptor passes the checks of R383. -/
def encOk (op : Nat) (l : List Byte) : Bool :=
  let x := codeDesc true op l
  let p := x.par
  let tb := qmOk p.qm && decide (1 ≤ p.nl ∧ p.nl ≤ 4) && blocksOk x
    && (List.range x.num).all fun i => decide ((codeE p (x.first + i) + 511) / 512 * 64 ≤ x.stride)
  codeShape l && w0Within l (encMask op) && dw l 0x28 8 == 0 && codeOk p &&
    (if op = 0 then tb && (p.lbrm || p.nref == 0)
     else if op = 2 then tb
     else
       dw l 0xC 4 == 0 && x.stride == 0 && decide (p.kind ≤ 1)
         && (if op = 4 then dw l 0x10 4 == 0 && p.g == 0
               && (if p.kind = 0 then decide (1 ≤ p.a ∧ p.a ≤ 3) else decide (1 ≤ p.a ∧ p.a ≤ 11))
             else if p.kind = 0 then bitsOf (dw l 0x10 4) 16 8 == 0
             else if op = 3 then bitsOf (dw l 0x10 4) 0 16 == 0 && bitsOf (dw l 0x10 4) 18 6 == 0
             else dw l 0x10 4 == 0)
         && (op != 3 || qmOk p.qm))

/-! ## Bits -/

/-- Pack bits, the first in bit 7 of the first byte, padded with zeros (R372). -/
def packBits (l : List Bool) : List Byte :=
  (List.range ((l.length + 7) / 8)).map fun i =>
    BitVec.ofNat 8 (((l.drop (8 * i)).take 8).zipIdx.foldl (fun n x => n + b2n x.1 * 2 ^ (7 - x.2)) 0)
/-- The first `n` bits of packed bytes. -/
def unpackBits (n : Nat) (l : List Byte) : List Bool :=
  let a := l.toArray
  (List.range n).map fun i => bitAt (a.getD (i / 8) 0).toNat (7 - i % 8)

/-- An input LLR (R368): −128 is taken as −127. -/
def llrIn (b : Byte) : Int := max (-127) (sx 8 b.toNat)

/-! ## Rate recovery and HARQ combining (R368, R371, R378) -/

/-- One soft value added, saturated to −127 to 127. -/
def sat127 (x : Int) : Int := clampInt (-127) 127 x

/-- LLRs added into the places they belong to. -/
def softPlace (n : Nat) (at_ : List Nat) (l : List Int) : List Int :=
  ((at_.zip l).foldl (fun (a : Array Int) x => a.set! x.1 (sat127 (a.getD x.1 0 + x.2)))
    (List.replicate n (0 : Int)).toArray).toList

/-- The circular buffer of a code block from its LLRs. -/
def rateRecover (p : CodePar) (r : Nat) (llr : List Byte) : List Int :=
  softPlace (codeNcb p r) (codePos p r) (llr.map llrIn)

/-- The recovered values and the old soft values combined. -/
def combine (new old : List Int) : List Int := (new.zip old).map fun x => sat127 (x.1 + x.2)

/-- The channel values of the LDPC code's bits: filler +127, punctured and not sent 0. -/
def ldpcSoft (p : CodePar) (buf : List Int) : List Int :=
  let a := buf.toArray
  let g := p.seg
  (List.range (baseWidth p.bg * g.z)).map fun i =>
    if i < 2 * g.z then 0
    else if g.big - g.fill ≤ i ∧ i < g.big then 127
    else a.getD (i - 2 * g.z) 0

/-! ## Layered min-sum (R371) -/

/-- The message of a check to each of its bits, from the bits' values without that check's old message:
the product of the other signs, times floor(3 × min ÷ 4) of the other magnitudes. -/
def checkMsgs (q : List Int) : List Int :=
  (List.range q.length).map fun i =>
    let o := (q.zipIdx.filter fun x => x.2 != i).map (·.1)
    let mag := match o.map Int.natAbs with
      | [] => 0
      | h :: t => 3 * t.foldl min h / 4
    if (o.filter fun x => decide (x < 0)).length % 2 = 1 then -(mag : Int) else (mag : Int)

/-- One check: the posteriors are updated, saturating in 10 bits, and the new messages kept. -/
def ldpcCheck (post : Array Int) (bits : List Nat) (old : List Int) : Array Int × List Int :=
  let q := (bits.zip old).map fun x => post.getD x.1 0 - x.2
  let m := checkMsgs q
  (((bits.zip q).zip m).foldl (fun a x => a.set! x.1.1 (clampInt (-512) 511 (x.1.2 + x.2))) post, m)

/-- One iteration over every check. -/
def ldpcIter (checks : List (List Nat)) (post : Array Int) (msgs : List (List Int)) : Array Int × List (List Int) :=
  (checks.zip msgs).foldl (fun s x =>
    let r := ldpcCheck s.1 x.1 x.2
    (r.1, s.2 ++ [r.2])) (post, [])

/-- The hard decisions. -/
def hardBits (post : Array Int) : List Bool := post.toList.map fun x => decide (x < 0)
/-- Does every parity check hold? -/
def parityHolds (checks : List (List Nat)) (bits : List Bool) : Bool :=
  let a := bits.toArray
  checks.all fun c => (c.filter fun i => a.getD i false).length % 2 == 0

/-- The information bits of a code block with their CRC among the decoded bits: an LTE block has its fillers in front. -/
def infoBits (p : CodePar) (r : Nat) (bits : List Bool) : List Bool :=
  (if p.lte then bits.drop (p.fill r) else bits).take (p.infoLen r)

/-- The CRC of a decoded code block: its own when the transport block has more than one, else the transport
block's. -/
def blockCrc (p : CodePar) (info : List Bool) : Bool :=
  if 1 < codeBlocks p then crcHolds crc24B 24 info else tbCrcOk p info

/-- Early termination after an iteration (R371). -/
def etStops (p : CodePar) (r et : Nat) (bits : List Bool) : Bool :=
  let syn := parityHolds (ldpcChecks p) bits
  let crc := blockCrc p (infoBits p r bits)
  if et = 1 then syn else if et = 2 then crc else if et = 3 then syn && crc else false

/-- The LDPC decoder: up to `fuel` more iterations; the bits and the iterations used. -/
def ldpcRun (p : CodePar) (r et : Nat) (fuel done : Nat) (post : Array Int) (msgs : List (List Int)) : List Bool × Nat :=
  match fuel with
  | 0 => (hardBits post, done)
  | k + 1 =>
    let s := ldpcIter (ldpcChecks p) post msgs
    if etStops p r et (hardBits s.1) then (hardBits s.1, done + 1) else ldpcRun p r et k (done + 1) s.1 s.2

/-! ## Max-log-MAP (R371) -/

/-- A path metric; none for a state that no path reaches. -/
abbrev Metric := Option Int

/-- The better of two metrics. -/
def Metric.best (a b : Metric) : Metric :=
  match a, b with
  | some x, some y => some (max x y)
  | some x, none => some x
  | none, y => y

/-- What bit `b` gains from a value that favours 0. -/
def gain (b : Bool) (l : Int) : Int := if b then 0 else l
/-- The metric of a branch from state `s` by input `u`, for the values of its input and parity bits. -/
def branch (s : Nat) (u : Bool) (x : Int × Int) : Int := gain u x.1 + gain (rscStep s u).1 x.2

/-- The metrics of the eight states after a branch, from those before it. -/
def forward (m : List Metric) (x : Int × Int) : List Metric :=
  (List.range 8).map fun t => (List.range 8).foldl (fun b s =>
    [false, true].foldl (fun b u =>
      if (rscStep s u).2 = t then b.best (((m[s]?).getD none).map (· + branch s u x)) else b) b) none
/-- The metrics of the eight states before a branch, from those after it. -/
def backward (m : List Metric) (x : Int × Int) : List Metric :=
  (List.range 8).map fun s => [false, true].foldl (fun b u =>
    b.best (((m[(rscStep s u).2]?).getD none).map (· + branch s u x))) none

/-- The paths that end in state 0 by three termination branches; their input bit closes the feedback. -/
def backTail (m : List Metric) (x : Int × Int) : List Metric :=
  (List.range 8).map fun s => (((m[(rscStep s (rscFb s)).2]?).getD none).map (· + branch s (rscFb s) x))

/-- The metrics of state 0 alone. -/
def atZero : List Metric := some 0 :: List.replicate 7 none

/-- The forward metrics before each branch. -/
def forwards (l : List (Int × Int)) (m : List Metric) : List (List Metric) :=
  match l with
  | [] => []
  | x :: t => m :: forwards t (forward m x)
/-- The backward metrics after each branch, ending with those of the end. -/
def backwards (l : List (Int × Int)) (m : List Metric) : List (List Metric) :=
  match l with
  | [] => [m]
  | x :: t =>
    let r := backwards t m
    backward (r.headD []) x :: r

/-- The posterior of a branch's input bit, positive for 0. -/
def posterior (f b : List Metric) (x : Int × Int) : Int :=
  let m := fun (u : Bool) => (List.range 8).foldl (fun (c : Metric) s =>
    match (f[s]?).getD none, (b[(rscStep s u).2]?).getD none with
    | some y, some z => c.best (some (y + branch s u x + z))
    | _, _ => c) none
  (m false).getD 0 - (m true).getD 0

/-- A constituent decoder: the posteriors from systematic, a priori and parity values and the tail's. -/
def mapDecode (sys pri par : List Int) (tail : List (Int × Int)) : List Int :=
  let l := ((sys.zip pri).map fun x => x.1 + x.2).zip par
  let f := forwards l atZero
  let b := (backwards l (tail.foldr (fun x m => backTail m x) atZero)).tail
  ((f.zip b).zip l).map fun x => posterior x.1.1 x.1.2 x.2

/-- The soft values of the three streams of K + 4 bits from the circular buffer: fillers +127, dummies and bits not sent 0. -/
def turboSoft (p : CodePar) (r : Nat) (buf : List Int) : List (Array Int) :=
  let k := p.seg.size r
  let n := codeNcb p r
  let a := buf.toArray
  let l := (turboBuf k (p.fill r)).zipIdx.filterMap fun x => if x.2 < n then x.1.map fun y => (y, a.getD x.2 0) else none
  (List.range 3).map fun s =>
    (l.filter fun y => y.1.1 == s).foldl (fun (v : Array Int) y => v.set! y.1.2 y.2)
      ((List.range (k + 4)).map fun i => if s < 2 ∧ i < p.fill r then (127 : Int) else 0).toArray

/-- The termination values in the order of their sending, in pairs. -/
def tailSoft (s : List (Array Int)) (k first : Nat) : List (Int × Int) :=
  let v := fun (i : Nat) => ((s[i % 3]?).getD #[]).getD (k + i / 3) 0
  (List.range 3).map fun j => (v (first + 2 * j), v (first + 2 * j + 1))

/-- Scaling of extrinsic values. -/
def extScale (x : Int) : Int := 3 * x / 4

/-- One turbo iteration from the a priori values of the first decoder: the next ones and the bits. -/
def turboIter (s : List (Array Int)) (k : Nat) (pri : List Int) : List Int × List Bool :=
  let str := fun (i : Nat) => (((s[i]?).getD #[]).toList).take k
  let perm := (List.range k).map (turboPi k)
  let mix := fun (l : List Int) => let a := l.toArray; perm.map fun i => a.getD i 0
  let unmix := fun (l : List Int) => ((perm.zip l).foldl (fun (a : Array Int) x => a.set! x.1 x.2) (Array.replicate k 0)).toList
  let ext := fun (app sys pri : List Int) => (app.zip (sys.zip pri)).map fun x => extScale (x.1 - x.2.1 - x.2.2)
  let sys := str 0
  let one := mapDecode sys pri (str 1) (tailSoft s k 0)
  let pri2 := mix (ext one sys pri)
  let sys2 := mix sys
  let two := mapDecode sys2 pri2 (str 2) (tailSoft s k 6)
  (unmix (ext two sys2 pri2), (unmix two).map fun x => decide (x < 0))

/-- The turbo decoder: ET is tested after each iteration. -/
def turboRun (p : CodePar) (r et : Nat) (s : List (Array Int)) (fuel done : Nat) (pri : List Int) (bits : List Bool) :
    List Bool × Nat :=
  match fuel with
  | 0 => (bits, done)
  | k + 1 =>
    let x := turboIter s (p.seg.size r) pri
    if et = 2 ∧ blockCrc p (infoBits p r x.2) then (x.2, done + 1) else turboRun p r et s k (done + 1) x.1 x.2

/-- A decoded code block: its information bits and the iterations. -/
def decodeBlock (p : CodePar) (r et maxIter : Nat) (buf : List Int) : List Bool × Nat :=
  let x := if p.op = 0 then
      ldpcRun p r et maxIter 0 (ldpcSoft p buf).toArray ((ldpcChecks p).map fun l => l.map fun _ => 0)
    else turboRun p r et (turboSoft p r buf) maxIter 0 (List.replicate (p.seg.size r) 0) []
  (infoBits p r x.1, x.2)

/-- The payload of a code block: its information bits without the code-block CRC. -/
def payloadOf (p : CodePar) (r : Nat) (info : List Bool) : List Bool := info.take (p.payLen r)

/-! ## Polar list decoding (R371) -/

/-- A path: its input bits, newest first, and its metric, the less the better. -/
structure PolarPath where
  bits : List Bool
  metric : Nat
  deriving DecidableEq, Repr

/-- The value of input bit i of 2^n, given the values of the code's bits and the input bits before i, oldest first. How
two values combine is open (log entry 26). -/
def polarValue (n : Nat) (l : List Int) (before : List Bool) (i : Nat) : Int :=
  match n with
  | 0 => l.headD 0
  | k + 1 =>
    let h := 2 ^ k
    let p := (l.take h).zip (l.drop h)
    if i < h then polarValue k (p.map fun x => Config.polarF x.1 x.2) before i
    else polarValue k ((p.zip (polarX k (before.take h))).map fun x => Config.polarG x.1.1 x.1.2 x.2) (before.drop h) (i - h)

/-- A path goes on with bit `u` where the value is `v`: a bit against the sign costs the magnitude. -/
def PolarPath.push (p : PolarPath) (v : Int) (u : Bool) : PolarPath :=
  { bits := u :: p.bits, metric := p.metric + (if u != decide (v < 0) then v.natAbs else 0) }

/-- Insert a path before the first that is worse. -/
def pathInsert (p : PolarPath) (l : List PolarPath) : List PolarPath :=
  match l with
  | [] => [p]
  | q :: t => if p.metric < q.metric then p :: q :: t else q :: pathInsert p t
/-- The paths, best first. -/
def pathSort (l : List PolarPath) : List PolarPath := l.foldl (fun s p => pathInsert p s) []

/-- One input bit: frozen bits and parity checks have their value, others both; eight paths stay. -/
def polarStep (c : Polar) (info checks : List Nat) (l : List Int) (ps : List PolarPath) (i : Nat) : List PolarPath :=
  let next := ps.flatMap fun p =>
    let v := polarValue c.n l p.bits.reverse i
    if checks.contains i then [p.push v (pcValue info checks p.bits)]
    else if info.contains i then [p.push v false, p.push v true]
    else [p.push v false]
  if next.length ≤ 8 then next else (pathSort next).take 8

/-- List decoding of a polar code with an uplink CRC: the information bits with their CRC, and whether it holds. -/
def polarDecode (c : Polar) (crc : Nat) (l : List Int) : List Bool × Bool :=
  let info := c.info
  let checks := c.checks
  let ps := pathSort ((List.range (2 ^ c.n)).foldl (polarStep c info checks l) [{ bits := [], metric := 0 }])
  let words := ps.map fun p =>
    p.bits.reverse.zipIdx.filterMap fun x => if info.contains x.2 && !checks.contains x.2 then some x.1 else none
  let ok := fun (w : List Bool) => crcHolds (if crc = 6 then crc6 else crc11) crc w
  match words.find? ok with
  | some w => (w, true)
  | none => (words.headD [], false)

/-- The values of the polar code's bits from the E LLRs: uplink control goes through the triangular interleaver. A bit
that shortening leaves out is a known 0 and taken as filler; one that is punctured is 0 (log entry 26). -/
def polarSoft (c : Polar) (l : List Int) : List Int :=
  let n := 2 ^ c.n
  let known := if n ≤ c.e ∨ c.punct then [] else (List.range (n - c.e)).map fun i => c.sub (c.e + i)
  softPlace n ((triOrder c.e).map (fun k => c.sub (c.pos k)) ++ known) (l.take c.e ++ known.map fun _ => 127)

/-- Uplink control from its LLRs: the A payload bits, and whether each block's CRC holds. -/
def uciDecode (p : CodePar) (llr : List Int) : List Bool × List Bool :=
  let c := uciCode p
  let n := uciCrc p
  let res := (List.range (uciBlocks p)).map fun b => polarDecode c n (polarSoft c ((llr.drop (b * c.e)).take c.e))
  let bits := res.flatMap fun x => x.1.take (c.k - n)
  (bits.drop (bits.length - p.a), res.map (·.2))

/-! ## Small block codes (R371) -/

/-- The correlation of LLRs with a codeword: a positive LLR favours bit 0; a placeholder adds nothing. -/
def correlate (llr : List Byte) (w : List (Option Bool)) : Int :=
  (llr.zip w).foldl (fun s x =>
    match x.2 with
    | some true => s - llrIn x.1
    | some false => s + llrIn x.1
    | none => s) 0
/-- The payload index of the largest correlation; the lowest index wins a tie. -/
def smallDecode (p : CodePar) (llr : List Byte) : Nat :=
  ((List.range (2 ^ p.a)).foldl (fun (s : Nat × Int) i =>
    let c := correlate llr (smallWord p i)
    if s.2 < c then (i, c) else s) (0, correlate llr (smallWord p 0))).1

/-! ## Records and headers (R374, R376) -/

/-- P of a soft buffer: N_cb rounded up to a multiple of 64. -/
def softP (p : CodePar) : Nat := ((if p.op = 2 then codeNcbMax p else codeNcb p 0) + 63) / 64 * 64
/-- CODE of a header. -/
def softCode (p : CodePar) : Nat := if p.op = 2 then 2 else p.bg
/-- The header of a code-block area. -/
def softHeader (act combines ncb : Nat) (p : CodePar) : List Byte :=
  [BitVec.ofNat 8 (act + 2), BitVec.ofNat 8 combines] ++ leBytes 2 ncb ++ leBytes 4 p.a ++ [BitVec.ofNat 8 (softCode p)]
    ++ List.replicate 23 0
/-- A result record. -/
def decRecord (taskId status tbCrc first num cbPass sumIt maxIt harq c : Nat) : List Byte :=
  leBytes 4 taskId ++ [BitVec.ofNat 8 status, BitVec.ofNat 8 tbCrc, BitVec.ofNat 8 first, BitVec.ofNat 8 num]
    ++ leBytes 8 cbPass ++ leBytes 2 sumIt ++ [BitVec.ofNat 8 maxIt, BitVec.ofNat 8 harq, BitVec.ofNat 8 c]
    ++ List.replicate 11 0

end Sys2Proof.Machine
end

