-- ==== Sys2Proof/Machine/Vector.lean ====
section
/-! DEFINITION. The V-class instructions: integer, products, fallback path, moves, reductions, dabs and
floating point (R158 to R186). -/

namespace Sys2Proof.Machine

/-! ## Elements, length and masks -/

/-- The element size of a type code (R160); 0 for the code 7. -/
def tSize (t : BitVec 3) : Nat :=
  match t.toNat with
  | 0 => 1 | 1 => 2 | 2 => 4 | 3 => 2 | 4 => 4 | 5 => 2 | 6 => 4 | _ => 0

/-- The vector length of R161: values above 64 act as 64. -/
def Dev.vl (d : Dev) (k : Nat) : Nat := min (d.f (F.VEC_VL_VL k)) 64

/-- Element `i` of size `s` bytes (R158). -/
def lane (v : BitVec 512) (s i : Nat) : Nat := bitsOf v.toNat (8 * s * i) (8 * s)
/-- Element `i` as a signed number. -/
def laneS (v : BitVec 512) (s i : Nat) : Int := sx (8 * s) (lane v s i)

/-- The in-range elements that the mask makes active (R161, R162): size `s`, at most `n`. -/
def Dev.active (d : Dev) (k : Nat) (pm : PReg) (s n : Nat) : List Nat :=
  let m := (d.p k pm).toNat
  (List.range (min (d.vl k) n)).filter fun i => pm == 0 || bitAt m (s * i)

/-- The byte lanes of elements of size `s` at byte offset `o` (R163). -/
def lanesAt (s o : Nat) (l : List Nat) : BitVec 64 :=
  BitVec.ofNat 64 (l.foldl (fun a i => a + (2 ^ s - 1) * 2 ^ (o + s * i)) 0)
/-- A register value that holds `f i` in element `i` of size `s` at byte offset `o`. -/
def buildV (s o : Nat) (l : List Nat) (f : Nat → Nat) : BitVec 512 :=
  BitVec.ofNat 512 (l.foldl (fun a i => a + f i % 2 ^ (8 * s) * 2 ^ (8 * (o + s * i))) 0)

/-- A V-class instruction that writes the active elements of a vector register. `legal` is the type
check of R160; with no active element nothing happens (R164). -/
def semVecAt (d : Dev) (h : Hd) (word : Nat) (legal : Bool) (vd : Reg) (s o : Nat) (act : List Nat) (lat : Nat)
    (acc : Bool) (f : Nat → Nat) (flags : List Eff) : Sem :=
  { cls := .v, word := word, dests := [.v vd]
    trap := if legal then none else some (tIllegal, word)
    eff := if act = [] then [] else .wr (.v (d.pv h.k vd) (lanesAt s o act) (buildV s o act f)) lat acc :: flags }

/-- The common case: elements of the counting type from byte 0. -/
def semVec (d : Dev) (h : Hd) (word : Nat) (legal : Bool) (vd : Reg) (s n lat : Nat) (f : Nat → Nat) : Sem :=
  semVecAt d h word legal vd s 0 (d.active h.k h.pg s n) lat false f []

/-- Is T one of i8, i16, i32? -/
def tInt (t : BitVec 3) : Bool := decide (t.toNat ≤ 2)
/-- Is T one of the five types of VADD? -/
def tIntC (t : BitVec 3) : Bool := decide (t.toNat ≤ 4)
/-- Is T one of fp16, fp32? -/
def tFp (t : BitVec 3) : Bool := decide (t.toNat = 5) || decide (t.toNat = 6)

/-- Apply an operation to the components of an element: c8 and c16 have two. -/
def byComponent (t : BitVec 3) (op : Nat → Nat → Nat → Nat) (a b : Nat) : Nat :=
  if t.toNat = 3 then op 8 (a % 2 ^ 8) (b % 2 ^ 8) + op 8 (a / 2 ^ 8) (b / 2 ^ 8) * 2 ^ 8
  else if t.toNat = 4 then op 16 (a % 2 ^ 16) (b % 2 ^ 16) + op 16 (a / 2 ^ 16) (b / 2 ^ 16) * 2 ^ 16
  else op (8 * tSize t) a b

/-! ## Major 0x0E: the integer ALU -/

/-- A vector ALU instruction on T elements. -/
def semVAlu (d : Dev) (h : Hd) (minor : Nat) (legal : Bool) (vd vs1 vs2 : Reg) (t : BitVec 3) (op : Nat → Nat → Nat) : Sem :=
  let s := tSize t
  semVec d h (encV h 0x0E vd vs1 vs2 t minor) legal vd s (64 / s) 2
    fun i => op (lane (d.v h.k vs1) s i) (lane (d.v h.k vs2) s i)

def semVadd (d : Dev) (h : Hd) (vd vs1 vs2 : Reg) (t : BitVec 3) : Sem :=
  semVAlu d h 0 (tIntC t) vd vs1 vs2 t (byComponent t fun w a b => (a + b) % 2 ^ w)
def semVsub (d : Dev) (h : Hd) (vd vs1 vs2 : Reg) (t : BitVec 3) : Sem :=
  semVAlu d h 1 (tIntC t) vd vs1 vs2 t (byComponent t fun w a b => (a + 2 ^ w - b) % 2 ^ w)
def semVand (d : Dev) (h : Hd) (vd vs1 vs2 : Reg) (t : BitVec 3) : Sem :=
  semVAlu d h 2 (tIntC t) vd vs1 vs2 t Nat.land
def semVor (d : Dev) (h : Hd) (vd vs1 vs2 : Reg) (t : BitVec 3) : Sem :=
  semVAlu d h 3 (tIntC t) vd vs1 vs2 t Nat.lor
def semVxor (d : Dev) (h : Hd) (vd vs1 vs2 : Reg) (t : BitVec 3) : Sem :=
  semVAlu d h 4 (tIntC t) vd vs1 vs2 t Nat.xor

/-- Shifts of a `w`-bit element; the amount is taken modulo w. -/
def shlLane (w a n : Nat) : Nat := a * 2 ^ (n % w) % 2 ^ w
def shrLane (w a n : Nat) : Nat := a / 2 ^ (n % w)
def sraLane (w a n : Nat) : Nat := wrapInt w (sx w a / ((2 ^ (n % w) : Nat) : Int))

def semVshl (d : Dev) (h : Hd) (vd vs1 vs2 : Reg) (t : BitVec 3) : Sem :=
  semVAlu d h 5 (tInt t) vd vs1 vs2 t (shlLane (8 * tSize t))
def semVshr (d : Dev) (h : Hd) (vd vs1 vs2 : Reg) (t : BitVec 3) : Sem :=
  semVAlu d h 6 (tInt t) vd vs1 vs2 t (shrLane (8 * tSize t))
def semVsra (d : Dev) (h : Hd) (vd vs1 vs2 : Reg) (t : BitVec 3) : Sem :=
  semVAlu d h 7 (tInt t) vd vs1 vs2 t (sraLane (8 * tSize t))
def semVshli (d : Dev) (h : Hd) (vd vs1 : Reg) (imm : BitVec 5) (t : BitVec 3) : Sem :=
  semVAlu d h 8 (tInt t) vd vs1 imm t fun a _ => shlLane (8 * tSize t) a imm.toNat
def semVshri (d : Dev) (h : Hd) (vd vs1 : Reg) (imm : BitVec 5) (t : BitVec 3) : Sem :=
  semVAlu d h 9 (tInt t) vd vs1 imm t fun a _ => shrLane (8 * tSize t) a imm.toNat
def semVsrai (d : Dev) (h : Hd) (vd vs1 : Reg) (imm : BitVec 5) (t : BitVec 3) : Sem :=
  semVAlu d h 10 (tInt t) vd vs1 imm t fun a _ => sraLane (8 * tSize t) a imm.toNat
def semVmin (d : Dev) (h : Hd) (vd vs1 vs2 : Reg) (t : BitVec 3) : Sem :=
  semVAlu d h 11 (tInt t) vd vs1 vs2 t fun a b => if sx (8 * tSize t) a ≤ sx (8 * tSize t) b then a else b
def semVmax (d : Dev) (h : Hd) (vd vs1 vs2 : Reg) (t : BitVec 3) : Sem :=
  semVAlu d h 12 (tInt t) vd vs1 vs2 t fun a b => if sx (8 * tSize t) a ≤ sx (8 * tSize t) b then b else a
def semVabs (d : Dev) (h : Hd) (vd vs1 : Reg) (t : BitVec 3) : Sem :=
  semVAlu d h 13 (tInt t) vd vs1 0 t fun a _ => wrapInt (8 * tSize t) ((sx (8 * tSize t) a).natAbs : Int)

/-- A compare into a predicate: the s bits of an active element are set to the result and every other
bit is written 0. -/
def semVCmp (d : Dev) (h : Hd) (word : Nat) (legal : Bool) (pd : PReg) (s lat : Nat) (act : List Nat)
    (f : Nat → Bool) : Sem :=
  { cls := .v, word := word, dests := [.p pd]
    trap := if legal then none else some (tIllegal, word)
    eff := if act = [] then [] else [.wr (.p (d.pp h.k pd) (lanesAt s 0 (act.filter f))) lat false] }

def semVCmpI (d : Dev) (h : Hd) (minor : Nat) (pd : PReg) (vs1 vs2 : Reg) (t : BitVec 3) (op : Int → Int → Bool) : Sem :=
  let s := tSize t
  semVCmp d h (encV h 0x0E (BitVec.ofNat 5 pd.toNat) vs1 vs2 t minor) (tInt t) pd s 2 (d.active h.k h.pg s (64 / s))
    fun i => op (laneS (d.v h.k vs1) s i) (laneS (d.v h.k vs2) s i)
def semVcmpeq (d : Dev) (h : Hd) (pd : PReg) (vs1 vs2 : Reg) (t : BitVec 3) : Sem :=
  semVCmpI d h 16 pd vs1 vs2 t fun a b => decide (a = b)
def semVcmpne (d : Dev) (h : Hd) (pd : PReg) (vs1 vs2 : Reg) (t : BitVec 3) : Sem :=
  semVCmpI d h 17 pd vs1 vs2 t fun a b => decide (a ≠ b)
def semVcmplt (d : Dev) (h : Hd) (pd : PReg) (vs1 vs2 : Reg) (t : BitVec 3) : Sem :=
  semVCmpI d h 18 pd vs1 vs2 t fun a b => decide (a < b)
def semVcmple (d : Dev) (h : Hd) (pd : PReg) (vs1 vs2 : Reg) (t : BitVec 3) : Sem :=
  semVCmpI d h 19 pd vs1 vs2 t fun a b => decide (a ≤ b)

/-! ## Major 0x0F: the products -/

def semVmul (d : Dev) (h : Hd) (vd vs1 vs2 : Reg) (t : BitVec 3) : Sem :=
  let s := tSize t
  semVec d h (encV h 0x0F vd vs1 vs2 t 0) (tInt t) vd s (64 / s) 3
    fun i => lane (d.v h.k vs1) s i * lane (d.v h.k vs2) s i % 2 ^ (8 * s)

def semVmulw (d : Dev) (h : Hd) (hi : Bool) (vd vs1 vs2 : Reg) (t : BitVec 3) : Sem :=
  let o := b2n hi * 32
  semVec d h (encV h 0x0F vd vs1 vs2 t (1 + b2n hi)) (t == 0) vd 2 32 3
    fun i => wrapInt 16 (laneS (d.v h.k vs1) 1 (o + i) * laneS (d.v h.k vs2) 1 (o + i))

/-- The in-phase and quadrature parts of c8 element `i`. -/
def c8I (v : BitVec 512) (i : Nat) : Int := laneS v 1 (2 * i)
def c8Q (v : BitVec 512) (i : Nat) : Int := laneS v 1 (2 * i + 1)
/-- The product a * b of c8 elements, or a * conj b. -/
def c8Mul (cj : Bool) (a b : BitVec 512) (i : Nat) : Int × Int :=
  if cj then (c8I a i * c8I b i + c8Q a i * c8Q b i, c8Q a i * c8I b i - c8I a i * c8Q b i)
  else (c8I a i * c8I b i - c8Q a i * c8Q b i, c8I a i * c8Q b i + c8Q a i * c8I b i)

/-- VOV when any exact component leaves its lane (R176). -/
def vovIf (act : List Nat) (f : Nat → Bool) : List Eff := if act.any f then [.vov] else []

def semVcmulw (d : Dev) (h : Hd) (hi cj : Bool) (vd vs1 vs2 : Reg) (t : BitVec 3) : Sem :=
  let o := b2n hi * 16
  let act := d.active h.k h.pg 4 16
  let p := fun i => c8Mul cj (d.v h.k vs1) (d.v h.k vs2) (o + i)
  semVecAt d h (encV h 0x0F vd vs1 vs2 t (3 + b2n cj * 2 + b2n hi)) (t == 3) vd 4 0 act 3 false
    (fun i => wrapInt 16 (p i).1 + wrapInt 16 (p i).2 * 2 ^ 16)
    (vovIf act fun i => laneOverflow 16 (p i).1 || laneOverflow 16 (p i).2)

/-- The sum of the products of `n` signed elements of size `s`, for 32-bit lane `i`. -/
def dotLane (s n : Nat) (a b : BitVec 512) (i : Nat) : Int :=
  (List.range n).foldl (fun x j => x + laneS a s (n * i + j) * laneS b s (n * i + j)) 0

/-- The vector accumulator source, with chaining (R128). -/
def Dev.vacc (d : Dev) (k : Nat) (vd : Reg) : BitVec 512 :=
  chainV (d.core k).inflight (d.pv k vd) ((d.core k).rv (d.pv k vd))

/-- DOT4 and DOT2, plain or accumulating (R174). -/
def semDot (d : Dev) (h : Hd) (minor s n : Nat) (legal acc : Bool) (vd vs1 vs2 : Reg) (t : BitVec 3) : Sem :=
  let act := d.active h.k h.pg 4 16
  let x := fun i => (if acc then laneS (d.vacc h.k vd) 4 i else 0) + dotLane s n (d.v h.k vs1) (d.v h.k vs2) i
  semVecAt d h (encV h 0x0F vd vs1 vs2 t minor) legal vd 4 0 act 3 acc (fun i => wrapInt 32 (x i))
    (vovIf act fun i => laneOverflow 32 (x i))
def semDot4 (d : Dev) (h : Hd) (vd vs1 vs2 : Reg) (t : BitVec 3) : Sem := semDot d h 8 1 4 (t == 0) false vd vs1 vs2 t
def semDot4A (d : Dev) (h : Hd) (vd vs1 vs2 : Reg) (t : BitVec 3) : Sem := semDot d h 9 1 4 (t == 0) true vd vs1 vs2 t
def semDot2 (d : Dev) (h : Hd) (vd vs1 vs2 : Reg) (t : BitVec 3) : Sem := semDot d h 10 2 2 (t == 1) false vd vs1 vs2 t
def semDot2A (d : Dev) (h : Hd) (vd vs1 vs2 : Reg) (t : BitVec 3) : Sem := semDot d h 11 2 2 (t == 1) true vd vs1 vs2 t

/-- CDOT in its eight forms (R175): the minor opcodes 0x0C to 0x13. -/
def semCdot (d : Dev) (h : Hd) (hi cj acc : Bool) (vd vs1 vs2 : Reg) (t : BitVec 3) : Sem :=
  let o := b2n hi * 16
  let act := d.active h.k h.pg 8 8
  let old := d.vacc h.k vd
  let p := fun i =>
    let x := c8Mul cj (d.v h.k vs1) (d.v h.k vs2) (o + 2 * i)
    let y := c8Mul cj (d.v h.k vs1) (d.v h.k vs2) (o + 2 * i + 1)
    ((if acc then laneS old 4 (2 * i) else 0) + x.1 + y.1, (if acc then laneS old 4 (2 * i + 1) else 0) + x.2 + y.2)
  semVecAt d h (encV h 0x0F vd vs1 vs2 t (12 + b2n cj * 4 + b2n acc * 2 + b2n hi)) (t == 3) vd 8 0 act 3 acc
    (fun i => wrapInt 32 (p i).1 + wrapInt 32 (p i).2 * 2 ^ 32)
    (vovIf act fun i => laneOverflow 32 (p i).1 || laneOverflow 32 (p i).2)

/-- VDAB.X (R170): no mask and no T field. -/
def semVdabX (d : Dev) (h : Hd) (hi : Bool) (vd vs1 gs : Reg) (sh : BitVec 4) : Sem :=
  let o := b2n hi * 32
  let e := if hi then bitsOf (d.g h.k gs).toNat 8 4 else bitsOf (d.g h.k gs).toNat 0 4
  let act := d.active h.k 0 2 32
  let x := fun i => laneS (d.v h.k vs1) 1 (o + i) * ((2 ^ e : Nat) : Int) / ((2 ^ sh.toNat : Nat) : Int)
  { semVecAt d h (encBase h 0x0F + vd.toNat * 2 ^ 21 + vs1.toNat * 2 ^ 16 + gs.toNat * 2 ^ 11 + sh.toNat * 2 ^ 7 + 24 + b2n hi)
      true vd 2 0 act 3 false (fun i => wrapInt 16 (x i)) (vovIf act fun i => laneOverflow 16 (x i)) with srcs := [gs] }

/-! ## Major 0x10: the fallback path -/

/-- QSAT when any exact value leaves the range of T (R183). -/
def qsatIf (w : Nat) (act : List Nat) (x : Nat → Int) : List Eff :=
  if act.any fun i => laneOverflow w (x i) then [.qsat] else []

/-- A saturating instruction on T elements. -/
def semVq (d : Dev) (h : Hd) (minor lat : Nat) (vd vs1 vs2 : Reg) (t : BitVec 3) (op : Int → Int → Int) : Sem :=
  let s := tSize t
  let act := d.active h.k h.pg s (64 / s)
  let x := fun i => op (laneS (d.v h.k vs1) s i) (laneS (d.v h.k vs2) s i)
  semVecAt d h (encV h 0x10 vd vs1 vs2 t minor) (tInt t) vd s 0 act lat false
    (fun i => wrapInt (8 * s) (satLane (8 * s) (x i))) (qsatIf (8 * s) act x)
def semVqadd (d : Dev) (h : Hd) (vd vs1 vs2 : Reg) (t : BitVec 3) : Sem := semVq d h 0 2 vd vs1 vs2 t (· + ·)
def semVqsub (d : Dev) (h : Hd) (vd vs1 vs2 : Reg) (t : BitVec 3) : Sem := semVq d h 1 2 vd vs1 vs2 t (· - ·)
def semVqmul (d : Dev) (h : Hd) (vd vs1 vs2 : Reg) (t : BitVec 3) : Sem :=
  let q := 8 * tSize t - 1
  semVq d h 2 3 vd vs1 vs2 t fun a b => (a * b + ((2 ^ (q - 1) : Nat) : Int)) / ((2 ^ q : Nat) : Int)
def semVqnarrow (d : Dev) (h : Hd) (hi : Bool) (vd vs1 : Reg) (sh : BitVec 5) (t : BitVec 3) : Sem :=
  let s := tSize t
  let o := b2n hi * 32
  let r := s / 2
  let act := d.active h.k h.pg r (32 / r)
  let n := sh.toNat
  let x := fun i =>
    let v := laneS (d.v h.k vs1) s i
    if n = 0 then v else (v + ((2 ^ (n - 1) : Nat) : Int)) / ((2 ^ n : Nat) : Int)
  let word := encV h 0x10 vd vs1 sh t (3 + b2n hi)
  let m := semVecAt d h word (t == 1 || t == 2) vd r o act 2 false
    (fun i => wrapInt (8 * r) (satLane (8 * r) (x i))) (qsatIf (8 * r) act x)
  if m.trap.isNone && t == 1 && decide (15 < n) && !(act == []) then { m with trap := some (tOperand, n) } else m

/-! ## Major 0x11: moves and predicates -/

def semVmov (d : Dev) (h : Hd) (vd vs1 : Reg) (t : BitVec 3) : Sem :=
  let s := tSize t
  semVec d h (encV h 0x11 vd vs1 0 t 0) (t != 7) vd s (64 / s) 2 fun i => lane (d.v h.k vs1) s i
/-- VSEL writes every in-range element, by its mask bit; pm = 0 raises ILLEGAL (log entry 18). -/
def semVsel (d : Dev) (h : Hd) (vd vs1 vs2 : Reg) (t : BitVec 3) : Sem :=
  let s := tSize t
  let m := (d.p h.k h.pg).toNat
  semVecAt d h (encV h 0x11 vd vs1 vs2 t 1) (t != 7 && h.pg != 0) vd s 0 (d.active h.k 0 s (64 / s)) 2 false
    (fun i => if bitAt m (s * i) then lane (d.v h.k vs1) s i else lane (d.v h.k vs2) s i) []
def semVperm (d : Dev) (h : Hd) (vd vs1 vs2 : Reg) (t : BitVec 3) : Sem :=
  let s := tSize t
  semVec d h (encV h 0x11 vd vs1 vs2 t 2) (tInt t) vd s (64 / s) 2
    fun i => lane (d.v h.k vs1) s (lane (d.v h.k vs2) s i % (64 / s))
def semVbcast (d : Dev) (h : Hd) (vd gs : Reg) (t : BitVec 3) : Sem :=
  let s := tSize t
  { semVec d h (encV h 0x11 vd gs 0 t 3) (tInt t || tFp t) vd s (64 / s) 2 (fun _ => (d.g h.k gs).toNat) with
    srcs := [gs] }
/-- A V-class instruction that writes one general register. -/
def semVG (word : Nat) (legal : Bool) (gd : Reg) (srcs : List Reg) (lat : Nat) (v : Nat) : Sem :=
  { cls := .v, word := word, dests := [.g gd], srcs := gd :: srcs
    trap := if legal then none else some (tIllegal, word)
    eff := [.wr (.g gd (BitVec.ofNat 32 v)) lat false] }
def semVext (d : Dev) (h : Hd) (gd vs1 gs : Reg) (t : BitVec 3) : Sem :=
  let s := tSize t
  let i := (d.g h.k gs).toNat % (64 / s)
  semVG (encV h 0x11 gd vs1 gs t 4) (tInt t || tFp t) gd [gs] 2
    (if tInt t then wrapInt 32 (laneS (d.v h.k vs1) s i) else lane (d.v h.k vs1) s i)
def semVsetvl (d : Dev) (h : Hd) (gd gs : Reg) (t : BitVec 3) : Sem :=
  let n := min (d.g h.k gs).toNat (64 / tSize t)
  let m := semVG (encV h 0x11 gd gs 0 t 5) (t != 7 && h.pg == 0) gd [gs] 2 n
  { m with eff := m.eff ++ [.wr (.vl n) 2 false] }
/-- Predicate logic on all 64 bits. -/
def semPlog (d : Dev) (h : Hd) (minor : Nat) (pd ps1 ps2 : PReg) (op : BitVec 64 → BitVec 64 → BitVec 64) : Sem :=
  { cls := .v, dests := [.p pd]
    word := encV h 0x11 (BitVec.ofNat 5 pd.toNat) (BitVec.ofNat 5 ps1.toNat) (BitVec.ofNat 5 ps2.toNat) 0 minor
    eff := [.wr (.p (d.pp h.k pd) (op (d.p h.k ps1) (d.p h.k ps2))) 2 false] }
def semPand (d : Dev) (h : Hd) (pd ps1 ps2 : PReg) : Sem := semPlog d h 8 pd ps1 ps2 (· &&& ·)
def semPor (d : Dev) (h : Hd) (pd ps1 ps2 : PReg) : Sem := semPlog d h 9 pd ps1 ps2 (· ||| ·)
def semPxor (d : Dev) (h : Hd) (pd ps1 ps2 : PReg) : Sem := semPlog d h 10 pd ps1 ps2 (· ^^^ ·)
def semPandn (d : Dev) (h : Hd) (pd ps1 ps2 : PReg) : Sem := semPlog d h 11 pd ps1 ps2 fun a b => a &&& ~~~b

/-! ## Major 0x12: reductions and dab normalisation -/

/-- The floating-point format of a type. -/
def tFmt (t : BitVec 3) : FFmt := if t = 5 then fp16 else fp32
/-- Does element value `x` beat `y` in the search: greater for a maximum, less for a minimum? -/
def beats (t : BitVec 3) (mx : Bool) (x y : Nat) : Bool :=
  if tFp t then
    let a := (tFmt t).decode x
    let b := (tFmt t).decode y
    if mx then flt b a else flt a b
  else
    let a := sx (8 * tSize t) x
    let b := sx (8 * tSize t) y
    if mx then decide (b < a) else decide (a < b)
/-- Is an element a NaN of a floating-point type? -/
def laneNan (t : BitVec 3) (x : Nat) : Bool := tFp t && fisNan ((tFmt t).decode x)
/-- An element as the g register value of a search: sign-extended, or zero-extended for fp (R177). -/
def laneToG (t : BitVec 3) (x : Nat) : Nat := if tFp t then x else wrapInt 32 (sx (8 * tSize t) x)

/-- The best of the elements that are not NaN, the lowest index among equals. -/
def bestOf (t : BitVec 3) (mx : Bool) (v : BitVec 512) (l : List Nat) : Option Nat :=
  l.foldl (fun b i =>
    if laneNan t (lane v (tSize t) i) then b
    else match b with
      | none => some i
      | some j => if beats t mx (lane v (tSize t) i) (lane v (tSize t) j) then some i else some j) none

/-- A search instruction's frame: gd even (if any element is active, R164), value and index four bundles later. -/
def semSearchV (word : Nat) (legal : Bool) (gd : Reg) (srcs : List Reg) (res : Option (Nat × Nat)) : Sem :=
  { cls := .v, word := word, dests := [.g gd, .g (Reg.next gd)], srcs := gd :: Reg.next gd :: srcs
    trap := if legal && (!Reg.odd gd || res.isNone) then none else some (tIllegal, word)
    eff := match res with
      | none => []
      | some (v, i) => [.wr (.g gd (BitVec.ofNat 32 v)) 4 false, .wr (.g (Reg.next gd) (BitVec.ofNat 32 i)) 4 false] }

def semVred (d : Dev) (h : Hd) (minor : Nat) (mx : Bool) (gd vs1 : Reg) (t : BitVec 3) : Sem :=
  let s := tSize t
  let act := d.active h.k h.pg s (64 / s)
  let v := d.v h.k vs1
  semSearchV (encV h 0x12 gd vs1 0 t minor) (tInt t || tFp t) gd []
    (match act with
      | [] => none
      | i0 :: _ => match bestOf t mx v act with
        | some i => some (laneToG t (lane v s i), i)
        | none => some ((tFmt t).nanBits, i0))
def semVmaxi (d : Dev) (h : Hd) (gd vs1 : Reg) (t : BitVec 3) : Sem := semVred d h 0 true gd vs1 t
def semVmini (d : Dev) (h : Hd) (gd vs1 : Reg) (t : BitVec 3) : Sem := semVred d h 1 false gd vs1 t

/-- One candidate of a continued search against the running pair (R178, R179). -/
def contStep (t : BitVec 3) (mx : Bool) (run : Nat × Nat) (val idx : Nat) : Nat × Nat :=
  let w := 8 * tSize t
  let rv := if tFp t then run.1 % 2 ^ w else run.1
  if laneNan t val then run
  else if laneNan t rv then (laneToG t val, idx)
  else
    let cv := laneToG t val
    let bet := if tFp t then beats t mx val rv
      else if mx then decide (sx 32 run.1 < sx 32 cv) else decide (sx 32 cv < sx 32 run.1)
    let eq := if tFp t then feq ((tFmt t).decode val) ((tFmt t).decode rv) else cv == run.1
    if bet || (eq && decide (idx < run.2)) then (cv, idx) else run

def semVcont (d : Dev) (h : Hd) (minor : Nat) (mx : Bool) (gd vs1 gs : Reg) (t : BitVec 3) : Sem :=
  let s := tSize t
  let act := d.active h.k h.pg s (64 / s)
  let v := d.v h.k vs1
  let start := ((d.g h.k gd).toNat, (d.g h.k (Reg.next gd)).toNat)
  semSearchV (encV h 0x12 gd vs1 gs t minor) (tInt t || tFp t) gd [gs]
    (if act = [] then none
     else some (act.foldl (fun r i => contStep t mx r (lane v s i) (((d.g h.k gs).toNat + i) % 2 ^ 32)) start))
def semVmaxiC (d : Dev) (h : Hd) (gd vs1 gs : Reg) (t : BitVec 3) : Sem := semVcont d h 2 true gd vs1 gs t
def semVminiC (d : Dev) (h : Hd) (gd vs1 gs : Reg) (t : BitVec 3) : Sem := semVcont d h 3 false gd vs1 gs t

/-- mag(x) of R171. -/
def dabMag (x : Int) : Nat := if 0 ≤ x then x.toNat else (-x - 1).toNat
/-- The number of bits needed to write a number; 0 for 0. -/
def bitlen (n : Nat) : Nat := if n = 0 then 0 else Nat.log2 n + 1
/-- The exponent of a dab from its 32 values (R171). -/
def dabExp (l : List Int) : Nat := bitlen (l.foldl (fun m x => max m (dabMag x)) 0) - 7

/-- VDAB.N (R171): ignores VL, no mask, gd in bits [10:6]. -/
def semVdabN (d : Dev) (h : Hd) (vd vs1 vs2 gd : Reg) : Sem :=
  let x0 := (List.range 32).map (laneS (d.v h.k vs1) 2)
  let x1 := (List.range 32).map (laneS (d.v h.k vs2) 2)
  let e0 := dabExp x0
  let e1 := dabExp x1
  let nb := d.f (F.VEC_DABCFG_NBIAS h.k)
  let m := x0.map (fun x => wrapInt 8 (x / ((2 ^ e0 : Nat) : Int))) ++ x1.map (fun x => wrapInt 8 (x / ((2 ^ e1 : Nat) : Int)))
  { cls := .v, dests := [.v vd, .g gd], srcs := [gd]
    word := encBase h 0x12 + vd.toNat * 2 ^ 21 + vs1.toNat * 2 ^ 16 + vs2.toNat * 2 ^ 11 + gd.toNat * 2 ^ 6 + 8
    eff := [.wr (.v (d.pv h.k vd) (BitVec.allOnes 64) (BitVec.ofNat 512 (ofLeBytes (m.map (BitVec.ofNat 8))))) 4 false,
      .wr (.g gd (BitVec.ofNat 32 (e0 + nb + (e1 + nb) * 2 ^ 8))) 4 false] }

/-! ## Major 0x13: floating point -/

/-- A floating-point operation on two element patterns. -/
def fop2 (t : BitVec 3) (op : FVal → FVal → FVal) (a b : Nat) : Nat :=
  (tFmt t).encode (op ((tFmt t).decode a) ((tFmt t).decode b))
/-- The fused multiply-add c + a * b with one rounding. -/
def fop3 (t : BitVec 3) (c a b : Nat) : Nat :=
  (tFmt t).encode (ffma ((tFmt t).decode c) ((tFmt t).decode a) ((tFmt t).decode b))

def semVf (d : Dev) (h : Hd) (minor : Nat) (vd vs1 vs2 : Reg) (t : BitVec 3) (op : FVal → FVal → FVal) : Sem :=
  let s := tSize t
  semVec d h (encV h 0x13 vd vs1 vs2 t minor) (tFp t) vd s (64 / s) 4
    fun i => fop2 t op (lane (d.v h.k vs1) s i) (lane (d.v h.k vs2) s i)
def semVfadd (d : Dev) (h : Hd) (vd vs1 vs2 : Reg) (t : BitVec 3) : Sem := semVf d h 0 vd vs1 vs2 t fadd
def semVfsub (d : Dev) (h : Hd) (vd vs1 vs2 : Reg) (t : BitVec 3) : Sem := semVf d h 1 vd vs1 vs2 t fsub
def semVfmul (d : Dev) (h : Hd) (vd vs1 vs2 : Reg) (t : BitVec 3) : Sem := semVf d h 2 vd vs1 vs2 t fmul
def semVfma (d : Dev) (h : Hd) (vd vs1 vs2 : Reg) (t : BitVec 3) : Sem :=
  let s := tSize t
  semVec d h (encV h 0x13 vd vs1 vs2 t 3) (tFp t) vd s (64 / s) 4
    fun i => fop3 t (lane (d.v h.k vd) s i) (lane (d.v h.k vs1) s i) (lane (d.v h.k vs2) s i)
def semVfmin (d : Dev) (h : Hd) (vd vs1 vs2 : Reg) (t : BitVec 3) : Sem := semVf d h 4 vd vs1 vs2 t fmin
def semVfmax (d : Dev) (h : Hd) (vd vs1 vs2 : Reg) (t : BitVec 3) : Sem := semVf d h 5 vd vs1 vs2 t fmax
/-- A floating-point compare of two element patterns. -/
def fcmp (t : BitVec 3) (op : FVal → FVal → Bool) (a b : Nat) : Bool := op ((tFmt t).decode a) ((tFmt t).decode b)
def semVfc (d : Dev) (h : Hd) (minor : Nat) (pd : PReg) (vs1 vs2 : Reg) (t : BitVec 3) (op : FVal → FVal → Bool) : Sem :=
  let s := tSize t
  semVCmp d h (encV h 0x13 (BitVec.ofNat 5 pd.toNat) vs1 vs2 t minor) (tFp t) pd s 4 (d.active h.k h.pg s (64 / s))
    fun i => fcmp t op (lane (d.v h.k vs1) s i) (lane (d.v h.k vs2) s i)
def semVfcmpeq (d : Dev) (h : Hd) (pd : PReg) (vs1 vs2 : Reg) (t : BitVec 3) : Sem := semVfc d h 6 pd vs1 vs2 t feq
def semVfcmplt (d : Dev) (h : Hd) (pd : PReg) (vs1 vs2 : Reg) (t : BitVec 3) : Sem := semVfc d h 7 pd vs1 vs2 t flt
def semVfcvtFi (d : Dev) (h : Hd) (vd vs1 : Reg) (t : BitVec 3) : Sem :=
  semVec d h (encV h 0x13 vd vs1 0 t 8) (t == 6) vd 4 16 4 fun i => wrapInt 32 (ftoi32 (fp32.decode (lane (d.v h.k vs1) 4 i)))
def semVfcvtIf (d : Dev) (h : Hd) (vd vs1 : Reg) (t : BitVec 3) : Sem :=
  semVec d h (encV h 0x13 vd vs1 0 t 9) (t == 2) vd 4 16 4 fun i => fp32.encode (fofInt (laneS (d.v h.k vs1) 4 i))
def semVfcvtW (d : Dev) (h : Hd) (vd vs1 : Reg) (t : BitVec 3) : Sem :=
  semVec d h (encV h 0x13 vd vs1 0 t 10) (t == 5) vd 4 16 4 fun i => fp32.encode (fp16.decode (lane (d.v h.k vs1) 2 i))
def semVfcvtN (d : Dev) (h : Hd) (vd vs1 : Reg) (t : BitVec 3) : Sem :=
  semVec d h (encV h 0x13 vd vs1 0 t 11) (t == 6) vd 2 16 4 fun i => fp16.encode (fp32.decode (lane (d.v h.k vs1) 4 i))

/-- A scalar floating-point result: the low bits of the register, zero elsewhere (R159). -/
def fWrite (d : Dev) (k : Nat) (fd : Reg) (v lat : Nat) : Eff :=
  .wr (.v (d.pv k fd) (BitVec.allOnes 64) (BitVec.ofNat 512 v)) lat false
/-- The minor opcode of a scalar form. -/
def fopMinor : FOp → Nat
  | .add => 16 | .sub => 17 | .mul => 18 | .fma => 19 | .min => 20 | .max => 21 | .cmpeq => 22 | .cmplt => 23

/-- The scalar forms: element 0 of f registers, VL ignored, pm a guard with GN = 0 (R118, R159). -/
def semScalarForms (d : Dev) (h : Hd) (op : FOp) (fd fs1 fs2 : Reg) (t : BitVec 3) : Sem :=
  let h' := h.noGn
  let word := encV h' 0x13 fd fs1 fs2 t (fopMinor op)
  let s := tSize t
  let a := lane (d.v h.k fs1) s 0
  let b := lane (d.v h.k fs2) s 0
  let pd : PReg := fd.setWidth 3
  let cmp := fun (r : Bool) => Eff.wr (.p (d.pp h.k pd) (if r then lanesAt s 0 [0] else 0)) 4 false
  let isCmp := op == .cmpeq || op == .cmplt
  { cls := .v, word := word, run := d.guard h'
    dests := if isCmp then [.p pd] else [.v fd]
    trap := if tFp t && !(isCmp && decide (8 ≤ fd.toNat)) then none else some (tIllegal, word)
    eff := [match op with
      | .add => fWrite d h.k fd (fop2 t fadd a b) 4
      | .sub => fWrite d h.k fd (fop2 t fsub a b) 4
      | .mul => fWrite d h.k fd (fop2 t fmul a b) 4
      | .fma => fWrite d h.k fd (fop3 t (lane (d.v h.k fd) s 0) a b) 4
      | .min => fWrite d h.k fd (fop2 t fmin a b) 4
      | .max => fWrite d h.k fd (fop2 t fmax a b) 4
      | .cmpeq => cmp (fcmp t feq a b)
      | .cmplt => cmp (fcmp t flt a b)] }

def semFmvFg (d : Dev) (h : Hd) (fd gs : Reg) (t : BitVec 3) : Sem :=
  let h' := h.noGn
  let word := encV h' 0x13 fd gs 0 t 0x18
  { cls := .v, word := word, run := d.guard h', dests := [.v fd], srcs := [gs]
    trap := if t == 6 then none else some (tIllegal, word)
    eff := [fWrite d h.k fd (d.g h.k gs).toNat 2] }
def semFmvGf (d : Dev) (h : Hd) (gd fs : Reg) (t : BitVec 3) : Sem :=
  let h' := h.noGn
  let word := encV h' 0x13 gd fs 0 t 0x19
  { cls := .v, word := word, run := d.guard h', dests := [.g gd], srcs := [gd]
    trap := if t == 6 then none else some (tIllegal, word)
    eff := [.wr (.g gd (BitVec.ofNat 32 (lane (d.v h.k fs) 4 0))) 2 false] }

end Sys2Proof.Machine
end

