-- ==== Sys2Proof/Machine/Fft.lean ====
section
/-! DEFINITION. The arithmetic of the FFT engines (R358 to R366): exact integers throughout. A complex
value carries the number of its components that were clamped on the way. -/

namespace Sys2Proof.Machine

/-! ## Constants (R361, R365) -/

/-- pi as a multiple of 2^-96. -/
def pi96 : Nat := piFix / 2 ^ 304

/-- The Taylor series of the cosine (`odd` false) or sine of x, all in multiples of 2^-96, from term `k` on. -/
def trigSeries (n : Nat) (k : Nat) (term : Int) (x2 : Int) (acc : Int) : Int :=
  match n with
  | 0 => acc
  | m + 1 => trigSeries m (k + 2) (-(term * x2 / 2 ^ 96) / (((k + 1) * (k + 2) : Nat) : Int)) x2 (acc + term)

/-- (cos, sin) of an angle x of 0 .. pi / 4, in multiples of 2^-96. -/
def trigSmall (x : Nat) : Int × Int :=
  let x2 : Int := ((x * x / 2 ^ 96 : Nat) : Int)
  (trigSeries 24 0 (2 ^ 96) x2 0, trigSeries 24 1 (x : Int) x2 0)

/-- (cos, sin) of 2 pi num / den, in multiples of 2^-96. -/
def trig96 (num den : Nat) : Int × Int :=
  let m := num % den
  let q := 4 * m / den
  let r := 4 * m % den
  let small := fun (r : Nat) => trigSmall (pi96 * r / (2 * den))
  let cs := if 2 * r ≤ den then small r else ((small (den - r)).2, (small (den - r)).1)
  if q = 0 then cs else if q = 1 then (-cs.2, cs.1) else if q = 2 then (-cs.1, -cs.2) else (cs.2, -cs.1)

/-- Round a multiple of 2^-96 times 2^b to the nearest integer. -/
def round96 (x : Int) (b : Nat) : Int := (x * ((2 ^ b : Nat) : Int) + 2 ^ 95) / 2 ^ 96

/-- (round(2^17 cos), round(2^17 sin)) of 2 pi num / den. -/
def trig17 (num den : Nat) : Int × Int := (round96 (trig96 num den).1 17, round96 (trig96 num den).2 17)

/-- The rotation factor T of an angle in units of 2^-32 turn (R361). -/
def rotT (theta : Int) : Int × Int := trig17 (wrapInt 32 theta / 2 ^ 18) 16384

/-- A twiddle factor: minus sign for `neg`, plus otherwise. -/
def tw (neg : Bool) (len m : Nat) : Int × Int :=
  let c := trig17 m len
  if neg then (c.1, -c.2) else c

/-! ## Values -/

/-- A complex value and the count of its clamped components. -/
structure CVal where
  re : Int
  im : Int
  sat : Nat
  deriving DecidableEq, Repr

def CVal.zero : CVal := { re := 0, im := 0, sat := 0 }
/-- Clamp to the signed range of `w` bits, and count. -/
def clampCount (w : Nat) (x : Int) : Int × Nat :=
  let y := satLane w x
  (y, if y = x then 0 else 1)
/-- A value of these components, clamped to 24 bits. -/
def mkSat24 (re im : Int) (sat : Nat) : CVal :=
  let a := clampCount 24 re
  let b := clampCount 24 im
  { re := a.1, im := b.1, sat := sat + a.2 + b.2 }
/-- Multiply by a factor (R361). -/
def CVal.mulF (x : CVal) (f : Int × Int) : CVal :=
  mkSat24 ((x.re * f.1 - x.im * f.2) / 2 ^ 17) ((x.re * f.2 + x.im * f.1) / 2 ^ 17) x.sat
/-- Add, without a clamp. -/
def CVal.add (x y : CVal) : CVal := { re := x.re + y.re, im := x.im + y.im, sat := x.sat + y.sat }

/-- A value times omega(r, m) = exp(∓j 2 pi m / r): exact for r of 2 and 4, by the factor rule for 3 (R362). -/
def CVal.omega (neg : Bool) (r m : Nat) (x : CVal) : CVal :=
  let k := m % r
  let sg : Int := if neg then -1 else 1
  if k = 0 then x
  else if r = 2 then { x with re := -x.re, im := -x.im }
  else if r = 4 then
    if k = 2 then { x with re := -x.re, im := -x.im }
    else
      let s := if k = 1 then sg else -sg
      { x with re := -s * x.im, im := s * x.re }
  else x.mulF (-(2 ^ 16), (if k = 1 then sg else -sg) * 113512)

/-! ## The transform (R362) -/

/-- The stages of a transform by SIZE code (R358); none for a reserved code. -/
def fftRadices (size : Nat) : Option (List Nat) :=
  if 4 ≤ size ∧ size ≤ 12 then
    some ((if size % 2 = 1 then [2] else []) ++ List.replicate (size / 2) 4)
  else if size = 13 then some [3, 4, 4, 4, 4, 2]
  else if size = 14 then some [3, 4, 4, 4, 4, 4]
  else none
/-- The length of a transform with these stages. -/
def fftLen (rs : List Nat) : Nat := rs.foldl (· * ·) 1

/-- One stage: groups of `len`, radix `r`, shift `sigma`. Every output reads the values before the stage. -/
def fftStage (neg : Bool) (x : Array CVal) (len r sigma : Nat) : Array CVal :=
  let span := len / r
  ((List.range x.size).map fun i =>
    let base := i / len * len
    let p := i % len / span
    let j := i % len % span
    let b := (List.range r).foldl (fun s q => s.add ((x.getD (base + j + q * span) CVal.zero).omega neg r (p * q))) CVal.zero
    let t := mkSat24 (b.re / ((2 ^ sigma : Nat) : Int)) (b.im / ((2 ^ sigma : Nat) : Int)) 0
    t.mulF (tw neg len (p * j))).toArray

/-- The components clamped in one stage: in the butterflies of three, its shifts and its twiddles. -/
def fftStageSat (neg : Bool) (x : Array CVal) (len r sigma : Nat) : Nat :=
  let span := len / r
  (List.range x.size).foldl (fun n i =>
    let base := i / len * len
    let p := i % len / span
    let j := i % len % span
    let b := (List.range r).foldl (fun s q =>
      s.add ({ x.getD (base + j + q * span) CVal.zero with sat := 0 }.omega neg r (p * q))) CVal.zero
    let t := mkSat24 (b.re / ((2 ^ sigma : Nat) : Int)) (b.im / ((2 ^ sigma : Nat) : Int)) b.sat
    n + (t.mulF (tw neg len (p * j))).sat) 0

/-- The stages of a transform: the values and the clamped components. -/
def fftStages (neg : Bool) (scale : Nat) (rs : List Nat) (s len : Nat) (x : Array CVal) (sat : Nat) : Array CVal × Nat :=
  match rs with
  | [] => (x, sat)
  | r :: t =>
    let sg := bitsOf scale (2 * s) 2
    fftStages neg scale t (s + 1) (len / r) ((fftStage neg x len r sg).map fun v => { v with sat := 0 })
      (sat + fftStageSat neg x len r sg)

/-- The mixed-radix digit reversal ρ (R362). -/
def digitRev (rs : List Nat) (n k : Nat) : Nat :=
  match rs with
  | [] => 0
  | r :: t => k % r * (n / r) + digitRev t (n / r) (k / r)

/-- Sum of the clamps of a list of values. -/
def satSum (l : List CVal) : Nat := l.foldl (fun n v => n + v.sat) 0

/-! ## The operations -/

/-- The parameters of an FFT or IFFT (R359). -/
structure FftPar where
  rs : List Nat
  hs : Bool
  cp : Bool
  scale : Nat
  cpLen : Nat
  wofs : Nat
  phase : Nat
  first : Nat
  count : Nat
  deriving DecidableEq, Repr

/-- The forward FFT of the input samples (R362): the output values k = SC_FIRST - N/2 on, and the clamps, those of every
bin's rotation among them (R366). -/
def fftForward (p : FftPar) (inp : List (Int × Int)) : List CVal × Nat :=
  let n := fftLen p.rs
  let src := inp.toArray
  let ofs := if p.cp then p.cpLen - p.wofs else 0
  let x := (List.range n).map fun i =>
    let v := src.getD (ofs + i) (0, 0)
    let c : CVal := { re := v.1, im := v.2, sat := 0 }
    if p.hs then c.mulF (rotT (-(((2 ^ 32 * i / (2 * n) : Nat)) : Int))) else c
  let st := fftStages true p.scale p.rs 0 n (x.map fun v => { v with sat := 0 }).toArray (satSum x)
  let y := (List.range n).map fun (i : Nat) =>
    let k : Int := (i : Int) - ((n / 2 : Nat) : Int)
    let v := st.1.getD (digitRev p.rs n ((k % (n : Int)).toNat)) CVal.zero
    if p.phase ≠ 0 ∨ p.wofs ≠ 0 ∨ p.hs then
      v.mulF (rotT ((p.phase : Int) + 2 ^ 32 * (2 * k + (b2n p.hs : Int)) * (p.wofs : Int) / ((2 * n : Nat) : Int)))
    else v
  ((y.drop p.first).take p.count, st.2 + satSum y)

/-- The IFFT of the input bins (R363): the output samples in time order, and the clamps. -/
def fftInverse (p : FftPar) (inp : List (Int × Int)) : List CVal × Nat :=
  let n := fftLen p.rs
  let src := inp.toArray
  let x := (List.range n).map fun b =>
    let i := (b + n / 2) % n
    if p.first ≤ i ∧ i < p.first + p.count then
      let v := src.getD (i - p.first) (0, 0)
      ({ re := v.1, im := v.2, sat := 0 } : CVal)
    else CVal.zero
  let st := fftStages false p.scale p.rs 0 n x.toArray 0
  let c := if p.cp then p.cpLen else 0
  let y := (List.range (n + c)).map fun (i : Nat) =>
    let t : Int := (i : Int) - (c : Int)
    let v := st.1.getD (digitRev p.rs n ((t % (n : Int)).toNat)) CVal.zero
    if p.phase = 0 ∧ p.hs = false then v
    else v.mulF (rotT ((p.phase : Int) + 2 ^ 32 * t * (b2n p.hs : Int) / ((2 * n : Nat) : Int)))
  (y, st.2 + satSum y)

/-! ## The chirp transform (R365) -/

/-- Length, transform stages of a CZT size code. -/
def cztLen (size : Nat) : Option (Nat × List Nat) :=
  if size = 0 then some (139, [2, 4, 4, 4, 4])
  else if size = 1 then some (571, [3, 4, 4, 4, 4, 2])
  else if size = 2 then some (839, [2, 4, 4, 4, 4, 4])
  else if size = 3 then some (1151, [3, 4, 4, 4, 4, 4])
  else none

/-- The chirp constant c[n] = round(2^17 exp(∓jπ n² / L)). -/
def chirp (inv : Bool) (l n : Nat) : Int × Int :=
  let c := trig17 (n * n % (2 * l)) (2 * l)
  if inv then c else (c.1, -c.2)

/-- G: the M-point DFT of the conjugate chirp, in multiples of 2^-96 (R365). -/
def chirpDft (inv : Bool) (l m k : Nat) : Int × Int :=
  (List.range m).foldl (fun s n =>
    let a := if m / 2 < n then m - n else n
    let e0 := trig96 (a * a % (2 * l)) (2 * l)
    let e := if inv then (e0.1, -e0.2) else e0
    let w := trig96 (n * k % m) m
    (s.1 + (e.1 * w.1 + e.2 * w.2) / 2 ^ 96, s.2 + (e.2 * w.1 - e.1 * w.2) / 2 ^ 96)) (0, 0)

/-- A multiple of 2^-96 times 2^(17 - q), rounded. -/
def chirpScale (x : Int) (q : Nat) : Int :=
  if q ≤ 17 then round96 x (17 - q) else (x + 2 ^ (95 + (q - 17))) / ((2 ^ (96 + (q - 17)) : Nat) : Int)

/-- D, with the smallest q for which every component fits in 19 bits. -/
def chirpD (inv : Bool) (l m : Nat) : List (Int × Int) :=
  let g := (List.range m).map (chirpDft inv l m)
  let fits := fun (q : Nat) => g.all fun x =>
    !laneOverflow 19 (chirpScale x.1 q) && !laneOverflow 19 (chirpScale x.2 q)
  let q := ((List.range 40).find? fits).getD 0
  g.map fun x => (chirpScale x.1 q, chirpScale x.2 q)

/-- The CZT of the L input samples. -/
def cztRun (inv : Bool) (l : Nat) (rs : List Nat) (scale scale2 : Nat) (inp : List (Int × Int)) : List CVal × Nat :=
  let m := fftLen rs
  let src := inp.toArray
  let x := (List.range m).map fun n =>
    if n < l then
      let v := src.getD n (0, 0)
      ({ re := v.1, im := v.2, sat := 0 } : CVal).mulF (chirp inv l n)
    else CVal.zero
  let s1 := fftStages true scale rs 0 m (x.map fun v => { v with sat := 0 }).toArray (satSum x)
  let dk := (chirpD inv l m).toArray
  let z := (List.range m).map fun k => (s1.1.getD (digitRev rs m k) CVal.zero).mulF (dk.getD k (0, 0))
  let s2 := fftStages false scale2 rs 0 m (z.map fun v => { v with sat := 0 }).toArray (s1.2 + satSum z)
  let y := (List.range l).map fun k => (s2.1.getD (digitRev rs m k) CVal.zero).mulF (chirp inv l k)
  (y, s2.2 + satSum y)

/-! ## Formats (R169, R171, R364) -/

/-- c16 samples from bytes. -/
def c16In (l : List Byte) (n : Nat) : List (Int × Int) :=
  let a := l.toArray
  (List.range n).map fun i =>
    (sx 16 ((a.getD (4 * i) 0).toNat + 256 * (a.getD (4 * i + 1) 0).toNat),
     sx 16 ((a.getD (4 * i + 2) 0).toNat + 256 * (a.getD (4 * i + 3) 0).toNat))

/-- Dab samples from a mantissa and an exponent plane: m * 2^e, exact. -/
def dabIn (mant exp_ : List Byte) (n : Nat) : List (Int × Int) :=
  let a := mant.toArray
  let e := exp_.toArray
  (List.range n).map fun i =>
    let sc : Int := ((2 ^ ((e.getD (i / 16) 0).toNat % 16) : Nat) : Int)
    (sx 8 (a.getD (2 * i) 0).toNat * sc, sx 8 (a.getD (2 * i + 1) 0).toNat * sc)

/-- The output values v, shifted and clamped to i16, and the clamps (R364). -/
def fftOut (shift : Nat) (l : List CVal) : List (Int × Int) × Nat :=
  let f := fun (x : Int) => clampCount 16 (x / ((2 ^ shift : Nat) : Int))
  (l.map fun v => ((f v.re).1, (f v.im).1), l.foldl (fun n v => n + (f v.re).2 + (f v.im).2) 0)

/-- c16 bytes. -/
def c16Out (l : List (Int × Int)) : List Byte :=
  l.flatMap fun v => leBytes 2 (wrapInt 16 v.1) ++ leBytes 2 (wrapInt 16 v.2)

/-- Dab planes: each 16 values packed by R171, padded with zeros to a whole dab. -/
def dabOut (bias : Nat) (l : List (Int × Int)) : List Byte × List Byte :=
  let a := l.toArray
  let dabs := (List.range ((l.length + 15) / 16)).map fun k =>
    (List.range 16).flatMap fun i => [(a.getD (16 * k + i) (0, 0)).1, (a.getD (16 * k + i) (0, 0)).2]
  (dabs.flatMap fun v => v.map fun x => BitVec.ofNat 8 (wrapInt 8 (x / ((2 ^ dabExp v : Nat) : Int))),
    dabs.map fun v => BitVec.ofNat 8 (dabExp v + bias))

end Sys2Proof.Machine
end

