-- ==== Sys2Proof/Machine/BlockCodes.lean ====
section
/-! DEFINITION. The block codes of the narrowband engine: BCH with Chase-2, Reed-Solomon, Golay and Hamming
(R406, R407), and power levels in decibels (R398). -/

namespace Sys2Proof.Machine

/-! ## Levels (R398) -/

/-- The largest x in [lo, lo + n] with 10^x ≤ (a / b)^k, by halving. -/
def decibelGo (a b k fuel : Nat) (lo hi : Int) : Int :=
  match fuel with
  | 0 => lo
  | f + 1 =>
    if hi ≤ lo + 1 then lo
    else
      let m := (lo + hi) / 2
      if b ^ k * 10 ^ m.toNat ≤ a ^ k * 10 ^ (-m).toNat then decibelGo a b k f m hi else decibelGo a b k f lo m
/-- floor(r × 10 log10(a ÷ b)), limited to `lo` and above; `lo` for zero power. -/
def decibels (r a b : Nat) (lo : Int) : Int := if a = 0 then lo else decibelGo a b (10 * r) 20 lo (-lo)
/-- The reported level of a mean power `sum / n`: floor(4P), P in dBFS. -/
def level4 (sum n : Nat) : Int := decibels 4 sum (max 1 n * 2 ^ 44) (-2048)
/-- floor(2P). -/
def level2 (sum n : Nat) : Int := decibels 2 sum (max 1 n * 2 ^ 44) (-1024)

/-! ## Finite fields and polynomials (lowest coefficient first) -/

/-- A field GF(2^m): m and its polynomial. -/
structure Gf where
  m : Nat
  poly : Nat
  deriving DecidableEq, Repr

/-- Multiply by α. -/
def Gf.twice (g : Gf) (a : Nat) : Nat := if a * 2 < 2 ^ g.m then a * 2 else Nat.xor (a * 2) g.poly
/-- Product. -/
def Gf.mulGo (g : Gf) (fuel a b : Nat) : Nat :=
  match fuel with
  | 0 => 0
  | f + 1 => Nat.xor (if b % 2 = 1 then a else 0) (g.mulGo f (g.twice a) (b / 2))
def Gf.mul (g : Gf) (a b : Nat) : Nat := g.mulGo g.m a b
/-- Power. -/
def Gf.powGo (g : Gf) (fuel a e : Nat) : Nat :=
  match fuel with
  | 0 => 1
  | f + 1 => if e = 0 then 1 else g.mul (if e % 2 = 1 then a else 1) (g.powGo f (g.mul a a) (e / 2))
def Gf.pow (g : Gf) (a e : Nat) : Nat := g.powGo 16 a e
/-- α^e. -/
def Gf.alpha (g : Gf) (e : Nat) : Nat := g.pow 2 (e % (2 ^ g.m - 1))
/-- α^(-e). -/
def Gf.alphaInv (g : Gf) (e : Nat) : Nat := g.alpha ((2 ^ g.m - 1) - e % (2 ^ g.m - 1))
/-- Inverse. -/
def Gf.inv (g : Gf) (a : Nat) : Nat := g.pow a (2 ^ g.m - 2)
/-- Value of a polynomial. -/
def Gf.eval (g : Gf) (p : List Nat) (x : Nat) : Nat := p.foldr (fun c acc => Nat.xor c (g.mul acc x)) 0
/-- Sum. -/
def polyAdd (p q : List Nat) : List Nat :=
  (List.range (max p.length q.length)).map fun i => Nat.xor (p.getD i 0) (q.getD i 0)
/-- Scale. -/
def Gf.scale (g : Gf) (c : Nat) (p : List Nat) : List Nat := p.map (g.mul c)
/-- Product of polynomials. -/
def Gf.polyMul (g : Gf) (p q : List Nat) : List Nat :=
  p.zipIdx.foldl (fun acc x => polyAdd acc (List.replicate x.2 0 ++ g.scale x.1 q)) []
/-- Degree. -/
def polyDeg (p : List Nat) : Nat := ((List.range p.length).filter fun i => p.getD i 0 != 0).getLastD 0

/-! ## Errors and erasures -/

/-- Berlekamp-Massey from the erasure locator: syndromes `s`, step `r`, locator, correction polynomial, length. -/
def Gf.bm (g : Gf) (s : List Nat) (v : Nat) (fuel r : Nat) (lam b : List Nat) (l : Nat) : List Nat × Nat :=
  match fuel with
  | 0 => (lam, l)
  | f + 1 =>
    if s.length < r then (lam, l)
    else
      let delta := (List.range (min r lam.length)).foldl (fun acc j => Nat.xor acc (g.mul (lam.getD j 0) (s.getD (r - 1 - j) 0))) 0
      if delta = 0 then g.bm s v f (r + 1) lam (0 :: b) l
      else
        let t := polyAdd lam (g.scale delta (0 :: b))
        if 2 * l ≤ r + v - 1 then g.bm s v f (r + 1) t (g.scale (g.inv delta) lam) (r + v - l)
        else g.bm s v f (r + 1) t (0 :: b) l

/-- The errors (degree, value) of a received word (lowest degree first) with erased degrees, for `nr` roots from
α^fcr; none outside the correcting power. -/
def Gf.solve (g : Gf) (fcr nr : Nat) (word : List Nat) (erased : List Nat) : Option (List (Nat × Nat)) :=
  let s := (List.range nr).map fun i => g.eval word (g.alpha (fcr + i))
  if nr < erased.length then none
  else if s.all (· == 0) then some []
  else
    let gamma := erased.foldl (fun p e => g.polyMul p [1, g.alpha e]) [1]
    let v := erased.length
    let r := g.bm s v (nr + 1) (v + 1) gamma gamma v
    let deg := polyDeg r.1
    let pos := (List.range word.length).filter fun i => g.eval r.1 (g.alphaInv i) == 0
    if nr < 2 * (deg - v) + v ∨ pos.length ≠ deg ∨ r.2 ≠ deg then none
    else
      let omega := (g.polyMul s r.1).take nr
      let dlam := (r.1.drop 1).zipIdx.map fun x => if x.2 % 2 = 0 then x.1 else 0
      let errs := pos.map fun i =>
        let xi := g.alphaInv i
        let scale := if fcr = 0 then g.alpha i else 1
        (i, g.mul scale (g.mul (g.eval omega xi) (g.inv (g.eval dlam xi))))
      let fixed := word.zipIdx.map fun x => Nat.xor x.1 (((errs.find? fun e => e.1 == x.2).map (·.2)).getD 0)
      if (List.range nr).all (fun i => g.eval fixed (g.alpha (fcr + i)) == 0) then some errs else none

/-! ## The codes (R406) -/

/-- A code selection: CODE, N, K, CHASE, FCR, ERASE. -/
structure BlockCode where
  code : Nat
  n : Nat
  k : Nat
  chase : Bool
  fcr : Nat
  erase : Nat
  deriving DecidableEq, Repr

/-- A hard bit: 1 for a negative soft bit. -/
def hard (s : Int) : Nat := if s < 0 then 1 else 0
/-- The number that bits spell, first bit highest. -/
def bitsNum (l : List Nat) : Nat := l.foldl (fun a b => 2 * a + b) 0
/-- The `n` bits of a number, highest first. -/
def numBits (n x : Nat) : List Nat := ((List.range n).map fun i => x / 2 ^ i % 2).reverse

/-- How many of α^1 .. α^d are roots of the generator with designed roots 1 .. d of a primitive BCH code: the
size of the union of their cyclotomic cosets. -/
def bchRoots (m d : Nat) : Nat :=
  let n := 2 ^ m - 1
  ((List.range n).filter fun e => (List.range m).any fun i => let x := e * 2 ^ i % n; decide (1 ≤ x) && decide (x ≤ d)).length
/-- The parents of CODE 1: m and the field polynomial. -/
def bchFields : List Gf := [⟨4, 0x13⟩, ⟨5, 0x25⟩, ⟨6, 0x43⟩]
/-- The field and t of a BCH code (N, K): the smallest parent that matches. -/
def bchOf (n k : Nat) : Option (Gf × Nat) :=
  (bchFields.filterMap fun g =>
    let p := 2 ^ g.m - 1
    if n ≤ p ∧ 0 < k ∧ k < n then
      ((List.range (p / 2 + 1)).reverse.find? fun t => decide (0 < t) && bchRoots g.m (2 * t) == n - k).map fun t => (g, t)
    else none).head?

/-- The parity part of (24, 12) Golay for the 12 information bits: the remainder and the overall parity. -/
def golayParity (info : Nat) : Nat :=
  let r := (List.range 12).reverse.foldl (fun a i => if bitAt a (i + 11) then Nat.xor a (0xC75 * 2 ^ i) else a) (info * 2 ^ 11)
  let w := info * 2 ^ 11 + r
  r * 2 + ((List.range 23).map fun i => w / 2 ^ i % 2).foldl (· + ·) 0 % 2
/-- The parity of cyclic (15, 11) Hamming. -/
def hammingParity (info : Nat) : Nat :=
  (List.range 11).reverse.foldl (fun a i => if bitAt a (i + 4) then Nat.xor a (0x13 * 2 ^ i) else a) (info * 2 ^ 4)

/-- Is a code selection valid (R389, R406)? -/
def BlockCode.ok (c : BlockCode) : Bool :=
  match c.code with
  | 0 => true
  | 1 => (bchOf c.n c.k).isSome
  | 2 => decide (c.n ≤ 63) && decide (1 ≤ c.k) && decide (c.k + 2 ≤ c.n)
  | 3 => decide (c.n ≤ 255) && decide (1 ≤ c.k) && decide (c.k + 2 ≤ c.n)
  | 4 => decide (1 ≤ c.k) && decide (c.k ≤ 12) && c.n == c.k + 12
  | 5 => decide (1 ≤ c.k) && decide (c.k ≤ 11) && c.n == c.k + 4
  | _ => false
/-- Bits of a codeword, and of its information part. -/
def BlockCode.bits (c : BlockCode) : Nat := if c.code = 2 then 6 * c.n else if c.code = 3 then 8 * c.n else c.n

/-- Indices of the four least reliable bits, ties to the lower index. -/
def leastFour (soft : List Int) : List Nat :=
  ((soft.zipIdx.map fun x => (Int.natAbs x.1, x.2)).mergeSort fun a b => decide (a.1 < b.1) || (a.1 == b.1 && decide (a.2 ≤ b.2))).map (·.2)
    |>.take 4
/-- Flip a bit of a word. -/
def flipAt (w : List Nat) (i : Nat) : List Nat := w.set i (1 - w.getD i 0)

/-- Hard decoding of a binary word: the codeword. -/
def BlockCode.hardDecode (c : BlockCode) (w : List Nat) : Option (List Nat) :=
  match c.code with
  | 1 =>
    match bchOf c.n c.k with
    | none => none
    | some (g, t) =>
      match g.solve 1 (2 * t) w.reverse [] with
      | none => none
      | some errs => if errs.length ≤ t then some (errs.foldl (fun w e => flipAt w (w.length - 1 - e.1)) w) else none
  | 4 =>
    let good := fun (x : List Nat) => golayParity (bitsNum (x.take c.k)) == bitsNum (x.drop c.k)
    let idx := List.range c.n
    let pats : List (List Nat) := [[]] ++ (idx.map fun i => [i]) ++ (idx.flatMap fun i => (List.range i).map fun j => [i, j]) ++
      (idx.flatMap fun i => (List.range i).flatMap fun j => (List.range j).map fun k => [i, j, k])
    (pats.find? fun p => good (p.foldl flipAt w)).map fun p => p.foldl flipAt w
  | 5 =>
    let good := fun (x : List Nat) => hammingParity (bitsNum (x.take c.k)) == bitsNum (x.drop c.k)
    let pats : List (List Nat) := [[]] ++ (List.range c.n).map fun i => [i]
    (pats.find? fun p => good (p.foldl flipAt w)).map fun p => p.foldl flipAt w
  | _ => some w

/-- Chase-2 over the four least reliable bits (R407). -/
def BlockCode.chase2 (c : BlockCode) (soft : List Int) : Option (List Nat) :=
  let w := soft.map hard
  let four := leastFour soft
  let cands := (List.range (2 ^ four.length)).filterMap fun m =>
    c.hardDecode (four.zipIdx.foldl (fun w x => if bitAt m x.2 then flipAt w x.1 else w) w)
  let cost := fun (x : List Nat) => ((x.zip w).zip soft).foldl (fun a y => a + if y.1.1 = y.1.2 then 0 else Int.natAbs y.2) 0
  cands.foldl (fun b x => match b with
    | none => some x
    | some y => if cost x < cost y then some x else some y) none

/-- Reed-Solomon with erasures (R407). -/
def BlockCode.rsDecode (c : BlockCode) (soft : List Int) : Option (List Nat) :=
  let m := if c.code = 2 then 6 else 8
  let g : Gf := if c.code = 2 then ⟨6, 0x43⟩ else ⟨8, 0x11D⟩
  let sym := fun i => (soft.drop (m * i)).take m
  let w := (List.range c.n).map fun i => bitsNum ((sym i).map hard)
  let erased := (List.range c.n).filter fun i =>
    c.erase != 0 && (sym i).any fun s => decide (Int.natAbs s < 4 * c.erase)
  match g.solve c.fcr (c.n - c.k) w.reverse (erased.map fun i => c.n - 1 - i) with
  | none => none
  | some errs =>
    let fixed := errs.foldl (fun w e => w.set (c.n - 1 - e.1) (Nat.xor (w.getD (c.n - 1 - e.1) 0) e.2)) w
    some (fixed.flatMap fun x => numBits m x)

/-- Decode a codeword from its soft bits: the information bits and the number of corrected bits. -/
def BlockCode.decode (c : BlockCode) (soft : List Int) : Option (List Nat × Nat) :=
  let w := soft.map hard
  let out := match c.code with
    | 0 => some w
    | 1 => if c.chase then c.chase2 soft else c.hardDecode w
    | 2 => c.rsDecode soft
    | 3 => c.rsDecode soft
    | _ => c.hardDecode w
  out.map fun x =>
    let k := if c.code = 0 then w.length else if c.code = 2 then 6 * c.k else if c.code = 3 then 8 * c.k else c.k
    (x.take k, ((x.zip w).filter fun y => y.1 != y.2).length)

end Sys2Proof.Machine
end

