-- ==== Sys2Proof/Machine/Banks.lean ====
section
/-! DEFINITION. Palette bank registers and changes: handover, delegation, power, no-lend pages, Wash
windows, the HBM scrub and the extent map's cache (R237, R240 to R270). -/

namespace Sys2Proof.Machine

/-! ## Who may own, and be a delegate -/

/-- May a unit own a bank of region r (R22, R246)? -/
def mayOwn (r uid ch : Nat) : Bool :=
  if uidDie uid = 4 then
    (uid == hubUid 4) || (ch == 0 && (decide (2048 ≤ uid ∧ uid < 2052) || uid == hubUid 0 || uid == hubUid 1))
  else
    uidDie uid * 4 + uidRegion uid == r && decide (uidDie uid < 4) &&
      ((decide (uidCluster uid < 6) && decide (uidUnit uid < 4) && ch == 0) ||
       (uidCluster uid == 6 && ((uidUnit uid == 4 && decide (ch < 32)) ||
          ((decide (uidUnit uid < 4) || uidUnit uid == 5) && ch == 0))))

/-- May a unit be a delegate for a bank of region r (R254)? -/
def mayDelegate (r uid ch : Nat) : Bool :=
  uid == hubUid 4 ||
    (uidDie uid * 4 + uidRegion uid == r && decide (uidDie uid < 4) && uidCluster uid == 6 &&
      ((uidUnit uid == 4 && decide (ch < 32)) || (decide (uidUnit uid < 4) && ch == 0)))

/-! ## Outstanding writes (R250) -/

/-- Does a queue hold a write to bank n of region r that is not late? -/
def queueHolds (l : List WbEnt) (r n : Nat) : Bool := l.any fun e => !e.late && tgtOf e.addr == .bank r n

/-- Has a unit an outstanding write to a bank, outside its L1 cache: in a core's or Gust engine's queue, or at the bank's
port? -/
def Dev.outstanding (d : Dev) (uid ch r n : Nat) : Bool :=
  ((d.bank r n).waiting.any fun x => x.write && !x.late && reqIs x.q uid ch) ||
  match coreOfUid uid with
  | some k => queueHolds (d.core k).wb r n || queueHolds (d.core k).portA r n
  | none => d.gustOut uid ch r n

/-- The writes a unit has under way to a bank become outstanding: it issued them before the request. -/
def unlate (l : List WbEnt) (r n : Nat) : List WbEnt :=
  l.map fun e => if tgtOf e.addr == .bank r n then { e with late := false } else e

/-- The drain request reaches a unit. -/
def Dev.drainReaches (d0 : Dev) (uid ch r n : Nat) : Dev :=
  let d := d0.mapBank r n fun b =>
    { b with waiting := b.waiting.map fun x => if reqIs x.q uid ch then { x with late := false } else x }
  match coreOfUid uid with
  | some k => d.mapCore k fun c => { c with wb := unlate c.wb r n, portA := unlate c.portA r n }
  | none => d.gustUnlate uid ch r n

/-! ## Handover (R249 to R253) -/

/-- May a requester write PAL_OWNER_n, beside the owner: the region's dispatcher or hub firmware. -/
def palMaster (r : Nat) (q : Req) : Bool := reqFw q || reqIs q (dispatcherUid r) 0

/-- Start the drain of a handover to (uid, ch); `gone` the old owner is out of service. -/
def Dev.startHandover (d : Dev) (r n uid ch : Nat) (gone : Bool) : Dev :=
  d.mapBank r n fun b =>
    let delIn := match b.drain with
      | some dr => dr.delIn
      | none => false
    { b with drain := some { own := true, uid := uid, ch := ch, oldIn := gone
                             delIn := delIn || !d.fb (F.PAL_DELEG_EN r n) } }

/-- A write of a register of a bank, at `a`: refused where the die is fenced or the bank is out of service; else `d'`. -/
def Dev.bankWrite (sp : Spine) (d : Dev) (q : Req) (r n a : Nat) (d' : Dev) : Dev :=
  match fencedDie sp a with
  | some die => d.refuseFenced die q a true
  | none => if sp.contain.units.contains (bankUid r n) then d.refuse 4 q a true else d'

/-- A write of PAL_OWNER_n that is not held (R249); `self` what the dispatcher does when its return of a grant to a unit
that may not own the bank is refused (R299). -/
def Dev.ownerWrite (sp : Spine) (d : Dev) (q : Req) (r n uid ch : Nat) (self : Dev → Dev) : Dev :=
  let a := blkBase (.palr r) + 4 * n
  if !(palMaster r q || d.isOwner r n q) then d.refuse 2 q a true
  else if !mayOwn r uid ch || sp.contain.gone uid ch then self (d.refuse 3 q a true)
  else if uid = d.f (F.PAL_OWNER_OWNER r n) ∧ ch = d.f (F.PAL_OWNER_OWNER_CH r n) then d
  else d.startHandover r n uid ch (sp.contain.gone (d.f (F.PAL_OWNER_OWNER r n)) (d.f (F.PAL_OWNER_OWNER_CH r n)))

/-- A write of PAL_OWNER_n: held while a handover is pending, else checked (R249, R253); `ret` for the dispatcher's return of
a grant, after whose refusal it names itself (R299). -/
def Dev.handover (sp : Spine) (d : Dev) (q : Req) (r n : Nat) (v : Word) (ret : Bool) : Dev :=
  d.bankWrite sp q r n (blkBase (.palr r) + 4 * n)
    (if ((d.bank r n).drain.map (·.own)) = some true then
      d.mapBank r n fun b => { b with held := b.held ++ [(q, v, ret)] }
    else d.ownerWrite sp q r n (bitsOf v.toNat 0 12) (bitsOf v.toNat 12 6) fun d =>
      if ret then d.ownerWrite sp q r n (dispatcherUid r) 0 id else d)

/-- The place that R253 gives a writer among the writes of one cycle. -/
def ownerRank (r : Nat) (q : Req) : Nat := if reqFw q then 0 else if reqIs q (dispatcherUid r) 0 then 1 else 2

/-- Writes of PAL_OWNER_n that arrive in one cycle, in the order of R253. -/
def ownerOrder (r : Nat) (l : List (Req × Word)) : List (Req × Word) :=
  [0, 1, 2].flatMap fun i => l.filter fun x => ownerRank r x.1 == i

/-- A quarantined unit's banks pass to the region's dispatcher once its writes have landed (R24); a
handover that is pending completes to the unit it names (R274). -/
def Dev.handBack (d : Dev) (r n : Nat) : Dev :=
  match (d.bank r n).drain with
  | some dr =>
    if dr.own then d.mapBank r n fun b => { b with drain := some { dr with oldIn := true } }
    else d.startHandover r n (dispatcherUid r) 0 true
  | none => d.startHandover r n (dispatcherUid r) 0 true

/-- All banks, as (region, number). -/
def allBanks : List (Nat × Nat) := (List.range 16).flatMap fun r => (List.range 52).map fun n => (r, n)

/-- Hand back every bank that (uid, ch) owns. -/
def Dev.handBackAll (d : Dev) (uid ch : Nat) : Dev :=
  allBanks.foldl (fun d x =>
    if d.f (F.PAL_OWNER_OWNER x.1 x.2) = uid ∧ d.f (F.PAL_OWNER_OWNER_CH x.1 x.2) = ch then d.handBack x.1 x.2 else d) d

/-- Serve one access that waited; one whose requester comes again waits on. -/
def serveOne (sp : Spine) (r n : Nat) (d : Dev) (x : BankAcc) : Dev :=
  if x.back then (if d.holds sp x then d.mapBank r n fun b => { b with waiting := b.waiting ++ [x] } else d)
  else
    let o := d.bankAcc sp r n x.q x.a x.n x.write x.data x.late false
    o.2.answer { q := x.q, a := x.a, n := x.n, write := x.write, data := x.data, late := x.late, from_ := none } o.1

/-- Serve the accesses that wait, in arrival order. -/
def Dev.serveWaiting (sp : Spine) (d : Dev) (r n : Nat) : Dev :=
  (d.bank r n).waiting.foldl (serveOne sp r n) (d.mapBank r n fun b => { b with waiting := [] })

/-- The end of a handover's drain: the named owner, or the dispatcher where that unit is out of service;
then the writes that were held, and the accesses that waited (R250, R253, R274). -/
def Dev.finishHandover (sp : Spine) (d : Dev) (r n : Nat) (dr : Drain) : Dev :=
  let gone := sp.contain.gone dr.uid dr.ch
  let d1 := (((d.setF (F.PAL_OWNER_OWNER r n) (if gone then dispatcherUid r else dr.uid)).setF
    (F.PAL_OWNER_OWNER_CH r n) (if gone then 0 else dr.ch)).setF (F.PAL_DELEG_EN r n) 0).mapBank r n fun b =>
      { b with drain := none, held := [] }
  (((d.bank r n).held.foldl (fun d x => d.handover sp x.1 r n x.2.1 x.2.2) d1)).serveWaiting sp r n

/-- Is the drain done: the request has reached each unit in service, and no outstanding write is left? -/
def Dev.drained (sp : Spine) (d : Dev) (r n : Nat) (dr : Drain) : Bool :=
  let o := d.f (F.PAL_OWNER_OWNER r n)
  let oc := d.f (F.PAL_OWNER_OWNER_CH r n)
  let g := d.f (F.PAL_DELEG_DEL_UID r n)
  let gc := d.f (F.PAL_DELEG_DEL_CH r n)
  let del := d.fb (F.PAL_DELEG_EN r n)
  (!dr.own || ((dr.oldIn || sp.contain.gone o oc) && !d.outstanding o oc r n)) &&
  (!del || ((dr.delIn || sp.contain.gone g gc) && !d.outstanding g gc r n))

/-! ## Delegation (R254, R255) -/

/-- End the delegation of a bank: its drain starts. -/
def Dev.endDelegation (d : Dev) (r n : Nat) : Dev :=
  if d.fb (F.PAL_DELEG_EN r n) ∧ (d.bank r n).drain = none then
    d.mapBank r n fun b => { b with drain := some { own := false, uid := 0, ch := 0, oldIn := true, delIn := false } }
  else d

/-- A delegate completes a program or a task: every delegation to it ends (R255). -/
def Dev.delegateDone (d : Dev) (uid ch : Nat) : Dev :=
  allBanks.foldl (fun d x =>
    if d.fb (F.PAL_DELEG_EN x.1 x.2) ∧ d.f (F.PAL_DELEG_DEL_UID x.1 x.2) = uid ∧ d.f (F.PAL_DELEG_DEL_CH x.1 x.2) = ch then
      d.endDelegation x.1 x.2
    else d) d

/-- A write of PAL_DELEG_n; one that meets a drain changes nothing (log entry 22). -/
def Dev.delegWrite (sp : Spine) (d : Dev) (q : Req) (r n : Nat) (v : Word) : Dev :=
  let a := blkBase (.palr r) + 0x100 + 4 * n
  let uid := bitsOf v.toNat 0 12
  let ch := bitsOf v.toNat 12 6
  d.bankWrite sp q r n a
    (if !d.isOwner r n q then d.refuse 2 q a true
    else if bitAt v.toNat 18 && !mayDelegate r uid ch then d.refuse 3 q a true
    else if (d.bank r n).drain.isSome then d
    else if bitAt v.toNat 18 then
      ((d.setF (F.PAL_DELEG_DEL_UID r n) uid).setF (F.PAL_DELEG_DEL_CH r n) ch).setF (F.PAL_DELEG_EN r n) 1
    else if d.fb (F.PAL_DELEG_EN r n) then d.endDelegation r n
    else (d.setF (F.PAL_DELEG_DEL_UID r n) uid).setF (F.PAL_DELEG_DEL_CH r n) ch)

/-- The power state asked of a bank: 3 acts as 0, 2 as 1 on a cluster bank, and a parked cluster's
banks go to retention whatever REQ holds. -/
def Dev.pwrReq (d : Dev) (r n : Nat) : Nat :=
  let q := d.f (F.PAL_PWR_REQ r n)
  if n < 48 then
    if d.parked.contains (r * 6 + n / 8) then 1 else if q = 3 then 0 else min q 1
  else if q = 3 then 0 else q

/-- Let a bank follow its request upward: retention wakes, off powers on. -/
def Dev.pwrRaise (d : Dev) (r n : Nat) : Dev :=
  d.mapBank r n fun b =>
    if b.phase = .retention ∧ d.pwrReq r n = 0 then { b with phase := .waking }
    else if b.phase = .off ∧ d.pwrReq r n ≠ 2 then { b with phase := .powering }
    else b

/-- A write of PAL_PWR_n. -/
def Dev.pwrWrite (sp : Spine) (d : Dev) (q : Req) (r n : Nat) (v : Word) : Dev :=
  let a := blkBase (.palr r) + 0x200 + 4 * n
  d.bankWrite sp q r n a
    (if !(palMaster r q || d.isOwner r n q) then d.refuse 5 q a true
    else
      ((if d.pwrReq r n = 1 then d else d.mapBank r n fun b => { b with woken := false }).setF (F.PAL_PWR_REQ r n)
        (v.toNat % 4)).pwrRaise r n)

/-- Is a bank idle: no access waits, no write is outstanding, no drain, no borrowed window (R260, R262)? -/
def Dev.bankIdle (d : Dev) (r n : Nat) : Bool :=
  let b := d.bank r n
  b.waiting.isEmpty && b.drain.isNone
    && !d.outstanding (d.f (F.PAL_OWNER_OWNER r n)) (d.f (F.PAL_OWNER_OWNER_CH r n)) r n
    && !(d.fb (F.PAL_DELEG_EN r n) &&
          d.outstanding (d.f (F.PAL_DELEG_DEL_UID r n)) (d.f (F.PAL_DELEG_DEL_CH r n)) r n)
    && (match d.washAt r with
        | some { tgt := .bank _ n' _, .. } => n'.val != n
        | _ => true)

/-- May a bank change its power state: its die runs and it is in service. A cluster's quarantine is that of its
cores: its banks go on. -/
def bankLive (sp : Spine) (r n : Nat) : Bool :=
  sp.contain.pkg == 0 && !sp.contain.dies.contains (r / 4) && !sp.contain.units.contains (bankUid r n)

/-- RETENTION_ENTRY, and after a wake RETENTION_HOLD_EXPIRE once PAL_RET_HOLD.US have passed without an access (R260). -/
def Dev.retentionEntry (sp : Spine) (d : Dev) (r n : Nat) (held : Bool) : Dev :=
  let b := d.bank r n
  if bankLive sp r n && b.phase == .on && b.woken == held && d.pwrReq r n == 1 && d.bankIdle r n
      && (!held || decide (b.used + d.f (F.PAL_RET_HOLD_US r) * 1000 * nsUnit ≤ sp.now)) then
    d.setBank r n { b with phase := .retention, woken := false }
  else d

def Dev.wakeDone (sp : Spine) (d : Dev) (r n : Nat) : Dev :=
  if bankLive sp r n && (d.bank r n).phase == .waking then
    (d.mapBank r n fun b => { b with phase := .on, woken := true }).serveWaiting sp r n
  else d

def Dev.powerOff (sp : Spine) (d : Dev) (r n : Nat) : Dev :=
  let b := d.bank r n
  let d1 := match d.washAt r with
    | some { tgt := .bank _ n' _, .. } => if n'.val = n then d.washRelease r else d
    | _ => d
  if bankLive sp r n && (b.phase == .on || b.phase == .retention) && d.pwrReq r n == 2 && d1.bankIdle r n then
    (d1.clearMem (bankBase r n) (bankSize n)).setBank r n { b with phase := .off, woken := false }
  else d

def Dev.powerOnDone (sp : Spine) (d : Dev) (r n : Nat) : Dev :=
  if bankLive sp r n && (d.bank r n).phase == .powering then
    (d.clearMem (bankBase r n) (bankSize n)).mapBank r n fun b => { b with phase := .on }
  else d

/-- Park clusters (R263): their banks go to retention; the others of `old` return to REQ. -/
def Dev.setParked (sp : Spine) (d : Dev) (l : List Nat) : Dev :=
  let old := d.parked
  let d1 := { d with parked := l }
  (old ++ l).foldl (fun d c => (List.range 8).foldl (fun d b =>
    let r := c / 6
    let n := c % 6 * 8 + b
    if l.contains c then d.mapBank r n fun x => { x with phase := .retention, woken := false }
    else if d.pwrReq r n = 0 ∨ (d.bank r n).phase = .waking then
      (d.mapBank r n fun x => { x with phase := .on, woken := d.pwrReq r n == 1 }).serveWaiting sp r n
    else d) d) d1

/-! ## Wash (R264 to R270) -/

/-- Does Wash run: it is on, and the mode is one in which it runs (R68, R264)? -/
def Dev.washRuns (sp : Spine) (d : Dev) : Bool :=
  sp.contain.pkg == 0 && d.f F.PAL_WASH_CFG_PASS_H != 0 && d.f F.GSO_MODE_MODE != 3 && d.f F.GSO_MODE_MODE != 5

/-- Is the 4 KiB page of a bank's window lent: its no-lend bit is 0, or the mode is DORMANT (R267)? -/
def Dev.pageLent (d : Dev) (r n w : Nat) : Bool :=
  d.f F.GSO_MODE_MODE == 0 || !bitAt (d.f (F.PAL_NOLEND_PAGES r (n * 16 + w / 16 / 32))) (w / 16 % 32)

/-- Can the memory of a window or word be tested now: it is on, in service, and of a page that is lent? -/
def Dev.washable (sp : Spine) (d : Dev) (t : WashTgt) : Bool :=
  match t with
  | .bank r n w =>
    bankLive sp r n && (d.bank r n).phase == .on && decide (w.toNat * 256 < bankSize n) && d.pageLent r n w.toNat
  | .core k im w =>
    !sp.contain.out (coreUid k) && !d.parked.contains (coreCluster k)
      && decide (w.toNat * 8 < if im then 0x10000 else 0x40000)
  | .sram _ => true

/-- The place of a window or word in its sequencer's pass: ascending addresses, the scratch before the instruction memory
(log entry 85). -/
def washIndex (t : WashTgt) : Nat :=
  match t with
  | .bank _ n w => if n.val < 48 then n.val * 512 + w.toNat else 24576 + (n.val - 48) * 8192 + w.toNat
  | .core _ im w => if im then 32768 + w.toNat else w.toNat
  | .sram w => w.toNat
/-- The window or word at a place of the pass of a sequencer. -/
def washTgt (key i : Nat) : WashTgt :=
  if key < 16 then
    (if i < 24576 then .bank (Fin.ofNat 16 key) (Fin.ofNat 52 (i / 512)) (BitVec.ofNat 13 (i % 512))
    else .bank (Fin.ofNat 16 key) (Fin.ofNat 52 (48 + (i - 24576) / 8192)) (BitVec.ofNat 13 ((i - 24576) % 8192)))
  else if key < 404 then
    (if i < 32768 then .core (Fin.ofNat 388 (key - 16)) false (BitVec.ofNat 15 i)
    else .core (Fin.ofNat 388 (key - 16)) true (BitVec.ofNat 15 (i - 32768)))
  else .sram (BitVec.ofNat 20 i)
/-- How many windows or words a sequencer's pass has. -/
def washCount (key : Nat) : Nat := if key < 16 then 57344 else if key < 404 then 40960 else 0x100000

/-- Is there no window or word to test at `n` places of a sequencer's pass, from place `i` on? -/
def Dev.washNone (sp : Spine) (d : Dev) (key i n : Nat) : Bool :=
  match n with
  | 0 => true
  | m + 1 => !d.washable sp (washTgt key (i + m)) && d.washNone sp key i m
/-- Where a sequencer stands. -/
def Dev.washPlace (d : Dev) (key : Nat) : Nat := SMap.get d.washPos key 0
/-- Has a sequencer nothing left to test in the pass? -/
def Dev.washIdle (sp : Spine) (d : Dev) (key : Nat) : Bool :=
  (d.washAt key).isNone && !(d.washAgain.any fun x => washKey x.1 == key && d.washable sp x.1)
    && d.washNone sp key (d.washPlace key) (washCount key - d.washPlace key)
/-- Have the sequencers below `n` nothing left to test? -/
def Dev.washAllIdle (sp : Spine) (d : Dev) (n : Nat) : Bool :=
  match n with
  | 0 => true
  | m + 1 => d.washIdle sp m && d.washAllIdle sp m

/-- May a pass begin: none runs, and PASS_H hours have passed since the last began (log entry 85)? -/
def Dev.washDue (sp : Spine) (d : Dev) : Bool :=
  !d.fb F.PAL_WASH_STAT_RUN && match d.washSince with
    | none => true
    | some t => decide (t + d.f F.PAL_WASH_CFG_PASS_H * 3600 * 10 ^ 9 * nsUnit ≤ sp.now)
/-- Begin a pass if one is due: every sequencer starts over. -/
def Dev.washBegin (sp : Spine) (d : Dev) : Dev :=
  if d.washDue sp then
    { d.setF F.PAL_WASH_STAT_RUN 1 with washPos := [], washAgain := [], washSince := some sp.now }
  else d

/-- May a sequencer take a window or word now: the next of its pass that can be tested, or one it abandoned RETRY_US ago or
earlier (R264, R266)? -/
def Dev.washMay (sp : Spine) (d : Dev) (t : WashTgt) : Bool :=
  let key := washKey t
  let i := washIndex t
  d.washRuns sp && d.fb F.PAL_WASH_STAT_RUN && (d.washAt key).isNone && d.washable sp t &&
    ((decide (d.washPlace key ≤ i) && d.washNone sp key (d.washPlace key) (i - d.washPlace key)) ||
      d.washAgain.any fun x => x.1 == t && decide (x.2 + d.f F.PAL_WASH_CFG_RETRY_US * 1000 * nsUnit ≤ sp.now))

/-- The pass ends once every sequencer has nothing left to test. -/
def Dev.washEnded (sp : Spine) (d : Dev) : Dev :=
  if d.fb F.PAL_WASH_STAT_RUN ∧ d.washAllIdle sp 405 then
    (d.setF F.PAL_WASH_STAT_RUN 0).countF F.PAL_WASH_STAT_PASSES 1
  else d

/-- A window or word has been taken in its place of the pass. -/
def Dev.washTaken (d : Dev) (t : WashTgt) : Dev :=
  { d with washPos := SMap.put d.washPos (washKey t) (max (d.washPlace (washKey t)) (washIndex t + 1))
           washAgain := d.washAgain.filter fun x => x.1 != t }

/-- Borrow a window or hold a word: its copy is taken; a window whose copy meets an uncorrectable word is
not tested (R265). -/
def Dev.washBorrow (sp : Spine) (d : Dev) (t : WashTgt) : Dev :=
  let d0 := if d.washRuns sp then d.washBegin sp else d
  if d0.washMay sp t then
    let s := washSpan t
    let d1 := d0.washTaken t
    let d2 := d1.eccRead s.1 s.2
    if (d1.firstUe s.1 s.2).isSome then d2.washEnded sp
    else { d2 with wash := SMap.put d2.wash (washKey t) { tgt := t, save := d2.bytes s.1 s.2 } }
  else d0

/-- The end of a window's or word's test, without the fault of a failed one. -/
def Dev.washDone (sp : Spine) (d : Dev) (t : WashTgt) : Dev := (d.washRelease (washKey t)).washEnded sp

/-- The record of a failed word (R270): the first is captured. -/
def Dev.washFail (d : Dev) (t : WashTgt) : Dev :=
  let u := match memUid (washSpan t).1 with
    | some u => (u, d)
    | none => d.draw 4096
  let d1 := u.2.raise evPalWashFail u.1
  if d1.fb F.PAL_WASH_FAIL_VALID then d1
  else (d1.setF F.PAL_WASH_FAIL_UID u.1).setF F.PAL_WASH_FAIL_VALID 1

/-- Entry to LATENCY or DRAIN (R269): every sequencer restores and stops; a pass under way is suspended. -/
def Dev.washSuspend (d : Dev) : Dev :=
  let d1 := d.wash.foldl (fun d e => { d.washRelease e.1 with washAgain := d.washAgain ++ [(e.2.tgt, 0)] }) d
  d1.setF F.PAL_WASH_STAT_SUSP (d1.f F.PAL_WASH_STAT_RUN)
/-- Entry to a mode in which Wash runs: the pass resumes. -/
def Dev.washResume (d : Dev) : Dev := d.setF F.PAL_WASH_STAT_SUSP 0

/-- A write of PAL_NOLEND_n_w; of other writers it is dropped (log entry 23). -/
def Dev.nolendWrite (sp : Spine) (d : Dev) (q : Req) (r n w : Nat) (v : Word) : Dev :=
  let a := blkBase (.palr r) + 0x400 + 0x40 * n + 4 * w
  let d1 := d.setF (F.PAL_NOLEND_PAGES r (n * 16 + w)) v.toNat
  d.bankWrite sp q r n a
    (if !(palMaster r q || d.isOwner r n q) then d
    else
      match d.washAt r with
      | some { tgt := .bank _ n' w', .. } =>
        if n'.val = n ∧ w'.toNat / 16 / 32 = w ∧ bitAt v.toNat (w'.toNat / 16 % 32) then
          { d1.washRelease r with washAgain := d1.washAgain ++ [(.bank (Fin.ofNat 16 r) n' w', sp.now)] }
        else d1
      | _ => d1)

/-! ## HBM scrub and the extent map -/

/-- The controller reads the next `n` 32-byte units of its pass and writes back the words it corrects. A pass begins once
HOURS hours have passed since the last began (R237; log entry 85). -/
def Dev.hbmScrub (sp : Spine) (d : Dev) (n : Nat) : Dev :=
  let hours := d.f F.PAL_HBM_SCRUB_HOURS
  if sp.contain.pkg = 0 ∧ hours ≠ 0 then
    let due : Bool := match d.scrubSince with
      | none => true
      | some t => decide (2 ^ 29 ≤ d.scrub) && decide (t + hours * 3600 * 10 ^ 9 * nsUnit ≤ sp.now)
    let d0 := if due then { d with scrub := 0, scrubSince := some sp.now } else d
    let m := min n (2 ^ 29 - d0.scrub)
    let d1 := d0.eccRead (d0.scrub * 32) (m * 32)
    ({ d1 with scrub := d0.scrub + m } : Dev).setF F.PAL_HBM_STATUS_SCRUB_ACT (b2n (decide (d0.scrub + m < 2 ^ 29)))
  else d

/-- A write of PAL_EXT_INVAL by M-level hub firmware (R243). -/
def Dev.extInvalWrite (d : Dev) (q : Req) (v : Word) : Dev :=
  if reqFw q then
    { d.setF F.PAL_EXT_INVAL_BUSY 1 with
      extInval := d.extInval ++ [if bitAt v.toNat 30 then 2 ^ 20 else v.toNat % 2 ^ 20] }
  else d

/-- The invalidations end and BUSY clears. -/
def Dev.extInvalDone (d : Dev) : Dev :=
  if d.fb F.PAL_EXT_INVAL_BUSY then
    { d.setF F.PAL_EXT_INVAL_BUSY 0 with
      extInval := []
      extCache := if d.extInval.contains (2 ^ 20) then [] else d.extCache.filter fun e => !d.extInval.contains e.1 }
  else d

/-- The extent entry of a window address, through the translation cache of 4,096 entries (R240, R243);
which entry a full cache gives up is open. -/
def Dev.extEntry (d : Dev) (a : Nat) : Nat × Dev :=
  let i := (a - 0x20000000000) / 0x200000
  match d.extCache.find? fun e => e.1 == i with
  | some e => (e.2, d)
  | none =>
    let base := d.f F.PAL_EXT_BASE_LO_BASE * 0x800000 + d.f F.PAL_EXT_BASE_HI_BASE * 2 ^ 32
    let v := d.rd (base + 8 * i) 8
    let d1 := if d.extCache.length < 4096 then d
      else { (d.draw 4096).2 with extCache := d.extCache.eraseIdx (d.draw 4096).1 }
    (v, { d1 with extCache := SMap.put d1.extCache i v })

/-- A refused window access (R242): cause, requester and address, the first until VALID is cleared. -/
def Dev.extRefuse (d : Dev) (cause : Nat) (q : Req) (a : Nat) (write : Bool) : Dev :=
  let d1 := d.raise evPalExtent q.uid.toNat q.ch.toNat a (cause + 8 * b2n write)
  let d2 := if d1.fb F.PAL_EXT_REF_STATUS_VALID then d1
    else ((((d1.setF F.PAL_EXT_REF_STATUS_VALID 1).setF F.PAL_EXT_REF_STATUS_CAUSE cause).setF
      F.PAL_EXT_REF_UID_UID q.uid.toNat).setF F.PAL_EXT_REF_UID_SUB q.ch.toNat).setAddr
      F.PAL_EXT_REF_ADDR_LO_ADDR F.PAL_EXT_REF_ADDR_HI_ADDR a
  d2.countF F.PAL_EXT_REF_STATUS_COUNT 1

end Sys2Proof.Machine
end

