-- ==== Sys2Proof/Machine/Rings.lean ====
section
/-! DEFINITION. The functions of the host link and its ring pairs, as the units that write to them see them (R535, R541,
R542, R544). -/

namespace Sys2Proof.Machine

/-! ## Functions (R535, R541) -/

/-- The settings of a PCI Express function. -/
def Dev.fnCfg (d : Dev) (f : Nat) : FnCfg := SMap.get d.fn f FnCfg.reset
/-- Replace them. -/
def Dev.setFn (d : Dev) (f : Nat) (x : FnCfg) : Dev := { d with fn := SMap.put d.fn f x }
/-- Is a function enabled: the physical function, or a virtual one that SR-IOV enables? -/
def Dev.fnEnabled (d : Dev) (f : Nat) : Bool := f == 0 || (decide (f ≤ 16) && (d.fnCfg f).vf)
/-- May a function send requests: the link is up and it is not in D3hot? -/
def Dev.fnSends (d : Dev) (f : Nat) : Bool := d.fb F.HST_STATUS_LINK_UP && !(d.fnCfg f).d3

/-! ## Ring pairs (R542, R544) -/

/-- A ring pair. -/
def Dev.ringAt (d : Dev) (k : Nat) : Ring := SMap.get d.ring k Ring.idle
/-- Change a ring pair. -/
def Dev.mapRing (d : Dev) (k : Nat) (f : Ring → Ring) : Dev := { d with ring := SMap.put d.ring k (f (d.ringAt k)) }
/-- 2^SIZE of a pair; sizes outside 4 to 15 do not occur in a register written by the rules, and 0 to 3 act as
they read. -/
def Dev.ringLen (d : Dev) (k : Nat) : Nat := 2 ^ d.f (F.HST_RING_CFG_SIZE k)
/-- A pair works: it is enabled, of type `t`, and its function may send. -/
def Dev.ringWorks (d : Dev) (k t : Nat) : Bool :=
  d.fb (F.HST_RING_CFG_EN k) && d.f (F.HST_RING_CFG_TYPE k) == t && d.fnSends (d.f (F.HST_RING_CFG_FN k))
    && d.fnEnabled (d.f (F.HST_RING_CFG_FN k))
/-- How many entries of a pair's D2H ring the host has not taken. -/
def Dev.d2hFill (d : Dev) (k : Nat) : Nat :=
  (d.f (F.HST_DB_HEAD_DTAIL k) + 65536 - d.f (F.HST_DB_HEAD_HEAD k)) % 65536

end Sys2Proof.Machine
end

