-- ==== Sys2Proof/Machine/Slots.lean ====
section
/-! DEFINITION. Device time, Easel's descriptor-store slots, trace records and the signalling of a task's
end (R32, R275 to R281, R298, R314, R315). -/

namespace Sys2Proof.Machine

/-! ## Time -/

/-- The clock of a cluster in MHz: its mode's, lowered by its die's throttling; 0 while parked (R34, R610). -/
def Dev.clusterMhz (d : Dev) (c : Nat) : Nat :=
  if d.parked.contains c then 0
  else match d.f (F.GSO_THERM_THROT (c / 24)) with
    | 1 => min d.pwr.clk 1200
    | 2 => min d.pwr.clk 1000
    | _ => d.pwr.clk

/-- The timebase's nanoseconds (R275). -/
def timeNs (sp : Spine) : Nat := sp.now / nsUnit
/-- A time truncated to the 1.25 ns of the region copies (R32). -/
def truncTick (t : Nat) : Nat := t / (5 * 2 ^ 46) * (5 * 2 ^ 46)
/-- A value the timebase held at most `lag` ticks (of 1.25 ns) earlier. -/
def laggedTime (sp : Spine) (lag : Nat) : Nat := truncTick ((sp.now :: sp.recent).getD lag sp.now)

/-- A region dispatcher. -/
def Dev.disp_ (d : Dev) (r : Nat) : Disp := SMap.get d.disp r Disp.reset
/-- Change a region dispatcher. -/
def Dev.mapDisp (d : Dev) (r : Nat) (f : Disp → Disp) : Dev := { d with disp := SMap.put d.disp r (f (d.disp_ r)) }
/-- The region copy shows a value of at most 5 ns ago, and never decreases (R32). -/
def Dev.showCopy (sp : Spine) (d : Dev) (r lag : Nat) : Dev :=
  d.mapDisp r fun x => { x with copy := max x.copy (laggedTime sp lag) }

/-! ## Slots and descriptors (R276 to R281) -/

/-- A slot. -/
def Dev.slot (d : Dev) (s : Nat) : Slot := SMap.get d.slots s Slot.free
/-- Replace a slot. -/
def Dev.setSlot (d : Dev) (s : Nat) (x : Slot) : Dev := { d with slots := SMap.set d.slots s x Slot.free }
/-- Change a slot. -/
def Dev.mapSlot (d : Dev) (s : Nat) (f : Slot → Slot) : Dev := d.setSlot s (f (d.slot s))
/-- The device address of a slot's descriptor. -/
def slotAddr (s : Nat) : Nat := 0x02000000000 + s * 64
/-- A field of a slot's descriptor: the word at `off`, bits [lo + w - 1 : lo]. -/
def Dev.df (d : Dev) (s off lo w : Nat) : Nat := bitsOf (d.rd (slotAddr s + off) 4) lo w

def Dev.dTag (d : Dev) (s : Nat) : Nat := d.df s 0 16 16
/-- The task ID as the descriptor spells it: a task spilled in keeps its origin's SLOT (R313). -/
def Dev.dTaskId (d : Dev) (s : Nat) : Nat := d.df s 0 0 32
def Dev.dType (d : Dev) (s : Nat) : Nat := d.df s 4 0 2
def Dev.dPrio (d : Dev) (s : Nat) : Nat := d.df s 4 2 4
def Dev.dRel (d : Dev) (s : Nat) : Nat := d.df s 4 6 2
def Dev.dSpillable (d : Dev) (s : Nat) : Bool := d.df s 4 8 1 == 1
def Dev.dKillOnMiss (d : Dev) (s : Nat) : Bool := d.df s 4 9 1 == 1
/-- POISON, set by Easel (R309). -/
def Dev.dPoison (d : Dev) (s : Nat) : Bool := d.df s 4 11 1 == 1
def Dev.dPoisonOk (d : Dev) (s : Nat) : Bool := d.df s 4 10 1 == 1
def Dev.dEventIn (d : Dev) (s : Nat) : Nat := d.df s 4 20 10
def Dev.dRegions (d : Dev) (s : Nat) : Nat := d.df s 8 0 16
def Dev.dClusters (d : Dev) (s : Nat) : Nat := d.df s 8 16 6
def Dev.dAccels (d : Dev) (s : Nat) : Nat := d.df s 8 22 4
def Dev.dGustCh (d : Dev) (s : Nat) : Nat := d.df s 8 26 5
def Dev.dContext (d : Dev) (s : Nat) : Nat := d.df s 0x0C 0 17
def Dev.dDeadline (d : Dev) (s : Nat) : Nat := d.rd (slotAddr s + 0x10) 8
def Dev.dLead (d : Dev) (s : Nat) : Nat := d.df s 0x18 0 32
def Dev.dWcet (d : Dev) (s : Nat) : Nat := d.df s 0x1C 0 24
def Dev.dBuf0 (d : Dev) (s : Nat) : Nat := d.df s 0x28 0 32 * 64
/-- The successors of a task. -/
def Dev.dSuccs (d : Dev) (s : Nat) : List Nat :=
  ([d.df s 0x30 0 16, d.df s 0x30 16 16, d.df s 0x34 0 16, d.df s 0x34 16 16]).take (d.df s 0x0C 28 3)
/-- The valid grants of a task: bank and return code (R281). -/
def Dev.dGrants (d : Dev) (s : Nat) : List (Nat × Nat) :=
  ([d.df s 0x38 0 11, d.df s 0x38 11 11, d.df s 0x3C 0 11, d.df s 0x3C 11 11]).filterMap fun g =>
    if bitAt g 0 then some (bitsOf g 1 6, bitsOf g 7 4) else none
/-- The release time DEADLINE − LEAD. -/
def Dev.dRelease (d : Dev) (s : Nat) : Int := (d.dDeadline s : Int) - (d.dLead s : Int)

/-- A unit signals the end of a task (R298): the first status stands, and a kill's status replaces the
unit's own code (R627). -/
def Dev.signalEnd (d : Dev) (s status : Nat) : Dev :=
  d.mapSlot s fun x => if x.fin = none ∧ x.st ≠ 0 then { x with fin := some (x.kill.getD status) } else x

/-! ## Trace (R314, R315) -/

/-- log2 of the trace ring's size. -/
def Dev.trcSize (d : Dev) : Nat :=
  let s := d.f F.ESL_TRC_CTRL_SIZE
  if 8 ≤ s ∧ s ≤ 25 then s else 8

/-- Does the host stream take a record (R315, R547; log entry 25): the TRACE pair is on, and its ring has room for the entry
that the record will be part of? -/
def Dev.trcOpen (d : Dev) : Bool :=
  d.ringWorks d.tracePair 3 && decide (d.d2hFill d.tracePair + d.trc.length / 3 < d.ringLen d.tracePair)

/-- The trace unit's UID. -/
def trcUid : Uid := hubUid 12

/-- Put a 16-byte record into the trace's sink; `lost` is the counter of a record dropped. A trace unit out of service takes
none (R23). -/
def Dev.putTrace (sp : Spine) (d : Dev) (lost : Fld) (rec_ : List Byte) : Dev :=
  if sp.contain.out trcUid then d
  else if d.fb F.ESL_TRC_CTRL_SINK then
    if d.trcOpen then { d with trc := d.trc ++ [rec_] } else d.countF lost 1
  else
    let wr := d.f F.ESL_TRC_WR_WR
    let n := 2 ^ d.trcSize
    if (wr + 2 ^ 26 - d.f F.ESL_TRC_RD_RD) % 2 ^ 26 = n then d.countF lost 1
    else
      let base := d.f F.ESL_TRC_BASE_LO_BASE * 4096 + d.f F.ESL_TRC_BASE_HI_BASE * 2 ^ 32
      (d.memPut (base + wr % n * 16) rec_).2.setF F.ESL_TRC_WR_WR ((wr + 1) % 2 ^ 26)

/-- An Easel record: decider's time `t`, unit, decision code, task ID and deadline (R314). -/
def Dev.trace (sp : Spine) (d : Dev) (t uid code id deadline : Nat) : Dev :=
  if d.fb F.ESL_TRC_CTRL_EN && bitAt (d.f F.ESL_TRC_CTRL_CODES) code then
    let slack := clampInt (-(2 ^ 31)) (2 ^ 31 - 1) ((((deadline * nsUnit : Nat) : Int) - (t : Int)) / (nsUnit : Int))
    d.putTrace sp F.ESL_TRC_LOST_COUNT
      (leBytes 6 (t / nsUnit) ++ leBytes 2 (uid % 4096 + code * 4096) ++ leBytes 4 id ++ leBytes 4 (wrapInt 32 slack))
  else d

/-- An Easel record about a slot's task. -/
def Dev.traceSlot (sp : Spine) (d : Dev) (t uid code s : Nat) : Dev := d.trace sp t uid code (d.dTaskId s) (d.dDeadline s)

end Sys2Proof.Machine
end

