-- ==== Sys2Proof/Machine/Engines.lean ====
section
/-! DEFINITION. The channel engines' queues, kills, faults and parking (R348 to R357, R385, R386). -/

namespace Sys2Proof.Machine

/-! ## Engines: 0 and 1 the FFT engines of a region, 2 its decoder, 3 its encoder -/

/-- An engine. -/
def Dev.engine (d : Dev) (r e : Nat) : Eng := SMap.get d.eng (r * 4 + e) Eng.idle
/-- Replace an engine. -/
def Dev.setEngine (d : Dev) (r e : Nat) (x : Eng) : Dev := { d with eng := SMap.put d.eng (r * 4 + e) x }
/-- Change an engine. -/
def Dev.mapEngine (d : Dev) (r e : Nat) (f : Eng → Eng) : Dev := d.setEngine r e (f (d.engine r e))
/-- The depth of an engine's queue (R350). -/
def engDepth (e : Nat) : Nat := if e < 2 then 8 else 16
/-- The class of an engine's tasks (R348). -/
def engClass (e : Nat) : Nat := if e < 2 then 0 else e - 1
/-- A field of one of the registers that all engines have. -/
def engF (r e off lo w : Nat) : Fld := ⟨regionBase r + 0x0F020000 + e * 0x10000 + off, lo, w⟩

/-- Set ALERT bits; an enabled bit that goes from 0 to 1 raises the engine's event (R385). -/
def Dev.engAlert (d : Dev) (r e mask : Nat) : Dev :=
  let old := d.f (engF r e 4 0 6)
  let new := Nat.lor old mask
  let d1 := d.setF (engF r e 4 0 6) new
  if Nat.land (new - old) (d.f (engF r e 8 0 6)) ≠ 0 then d1.raise (evEngAlert r e) (regionUid r e) else d1

/-- The ALERT bit of an error code: 1 to 5 ERROR (5 also HARQ), 6 KILLED, 7 FAULT. -/
def engAlertOf (code : Nat) : Nat :=
  if code = 0 then 0 else if code = 5 then 17 else if code < 6 then 1 else if code = 6 then 2 else 4
/-- The Easel status of an error code (R353): OK, ERROR, MISSED, FAULT. -/
def engStatus (code : Nat) : Nat := if code = 0 then 0 else if code < 6 then 1 else if code = 6 then 3 else 4

/-- A task of an engine ends with a code: LAST_ERR, the alert, and its completion (R298, R353). -/
def Dev.engEndTask (d : Dev) (r e s code : Nat) : Dev :=
  let d1 := if code = 0 then d else ((d.setF (engF r e 0xC 0 3) code).setF (engF r e 0xC 16 16) s).engAlert r e (engAlertOf code)
  let d2 := if code = 0 ∧ e < 2 then d1.countF (F.FFT_TASKS_COUNT r e) 1 else d1
  d2.signalEnd s (engStatus code)

/-- Is an engine idle in the sense of R292, and in service? -/
def Dev.engTakes (sp : Spine) (d : Dev) (r e : Nat) : Bool :=
  !sp.contain.out (regionUid r e) && !(d.engine r e).parked && decide ((d.engine r e).queue.length < engDepth e)

/-- A dispatched task joins an engine's queue. -/
def Dev.engPush (d : Dev) (r e s : Nat) : Dev := d.mapEngine r e fun x => { x with queue := x.queue ++ [s] }

/-- Write back the headers that a decoder's commit replaced (R380). -/
def Dev.engUndo (d : Dev) (u : List (Nat × List Byte)) : Dev := u.foldl (fun d x => d.setBytes x.1 x.2) d

/-- Has an engine issued a write, which waits at a bank's port? -/
def Dev.engSent (d : Dev) (r e : Nat) (o : EngOut) : Bool :=
  (d.ticket (unitReq (regionUid r e) 0) o.at_ o.data.length true).isSome

/-- A kill reaches an engine (R354, R380): a queued task is removed; a running task stops, and a decoder's
headers are restored; a task whose code is already an error keeps it. -/
def Dev.engKill (d : Dev) (r e s : Nat) : Dev :=
  let x := d.engine r e
  if x.queue.contains s then
    (d.setEngine r e { x with queue := x.queue.filter fun t => t != s }).engEndTask r e s 6
  else
    match x.run with
    | none => d
    | some t =>
      if t.slot = s ∧ (t.code = none ∨ (t.code = some 0 ∧ e = 2)) then
        ((d.engUndo t.undo).forgets (regionUid r e) 0).setEngine r e
          { x with run := some { t with code := some 6, undo := [], outs := (t.outs.take 1).filter (d.engSent r e) } }
      else d

/-- The engine's fault without the quarantine: every task of it ends FAULT (R355). -/
def Dev.engFault (d : Dev) (r e : Nat) : Dev :=
  let x := d.engine r e
  let l := (x.run.map fun t => t.slot).toList ++ x.queue
  let d1 := d.setEngine r e { x with queue := [], run := none }
  (l.foldl (fun d s => d.engEndTask r e s 7) d1).engAlert r e 4

/-- Are all six clusters of a region parked? -/
def Dev.regionParked (d : Dev) (r : Nat) : Bool := (List.range 6).all fun c => d.parked.contains (r * 6 + c)

/-- Park an engine whose queue is empty and which runs nothing (R356). -/
def Dev.engPark (d : Dev) (r e : Nat) : Dev :=
  let x := d.engine r e
  if d.regionParked r && x.queue.isEmpty && x.run.isNone then d.setEngine r e { x with parked := true }
  else d

/-- The engines of regions whose clusters are no longer all parked run again (R356). -/
def Dev.engUnpark (d : Dev) : Dev :=
  { d with eng := d.eng.map fun x => (x.1, if d.regionParked (x.1 / 4) then x.2 else { x.2 with parked := false }) }

end Sys2Proof.Machine
end

