-- ==== Sys2Proof/Machine/Gust.lean ====
section
/-! DEFINITION. The Gust engines, without the movement of data: starting and stopping a channel program,
its descriptors and list entries, arbitration, completion and faults (R317 to R347). -/

namespace Sys2Proof.Machine

/-! ## Engines and channels -/

/-- The base of an engine's registers: region 0 to 15, 16 the hub engine. -/
def gstBaseOf (e : Nat) : Nat := if e < 16 then blkBase (.gstr e) else blkBase .gsth
/-- How many channels an engine has. -/
def gstChans (e : Nat) : Nat := if e < 16 then 32 else 64
/-- MAXF of R317. -/
def gstMaxF (e : Nat) : Nat := if e < 16 then 16 else 32
/-- A channel. -/
def Dev.chan (d : Dev) (e n : Nat) : GChan := SMap.get d.gust (e * 64 + n) GChan.idle
/-- Replace a channel. -/
def Dev.setChan (d : Dev) (e n : Nat) (c : GChan) : Dev := { d with gust := SMap.put d.gust (e * 64 + n) c }
/-- Change a channel. -/
def Dev.mapChan (d : Dev) (e n : Nat) (f : GChan → GChan) : Dev := d.setChan e n (f (d.chan e n))
/-- The state code of a channel: 0 IDLE, 1 RUNNING, 3 WAIT_RESP, 4 STOPPING, 5 QUAR as stored; WAIT_REQ is
a view (see ReadReg). -/
def Dev.chState (d : Dev) (e n : Nat) : Nat := d.f (F.GST_CH_STATUS_STATE (gstBaseOf e) n)
/-- A MODE 1 channel; MODE is ignored on the hub engine (R318). -/
def Dev.chMode1 (d : Dev) (e n : Nat) : Bool := decide (16 ≤ e) || d.f (F.GST_CH_CFG_MODE (gstBaseOf e) n) == 1
/-- The burst size B (7 acts as 6). -/
def Dev.chBurst (d : Dev) (e n : Nat) : Nat := 64 * 2 ^ (min 6 (d.f (F.GST_CH_CFG_BURST (gstBaseOf e) n)))
/-- The arbitration priority of a channel (R319, R331). -/
def Dev.chPrio (d : Dev) (e n : Nat) : Nat :=
  if d.chMode1 e n then d.f (F.GST_CH_CFG_PRIO (gstBaseOf e) n) else (d.chan e n).prio

/-- Raise an event of an engine for a channel. -/
def Dev.gstEvent (d : Dev) (e n k : Nat) : Dev := d.raise (evGst e k) (gustUid e) n

/-- A write that a channel ignores (R345). -/
def Dev.gstCfgErr (d : Dev) (e n : Nat) : Dev := (d.setF (F.GST_CH_STATUS_CFG_ERR (gstBaseOf e) n) 1).gstEvent e n 4

/-- Start a program at PTR: counts cleared, CUR at the first descriptor. -/
def Dev.gstBegin (d : Dev) (e n prio : Nat) (task : Option Nat) : Dev :=
  let b := gstBaseOf e
  let d1 := (((d.setF (F.GST_CH_STATUS_STATE b n) 1).setF (F.GST_CH_STATUS_DESC_CNT b n) 0).setF (F.GST_CH_BYTES_BYTES b n) 0)
  let d2 := (d1.setF (F.GST_CH_CUR_LO_ADDR b n) (d.f (F.GST_CH_PTR_LO_ADDR b n))).setF (F.GST_CH_CUR_HI_ADDR b n)
    (d.f (F.GST_CH_PTR_HI_ADDR b n))
  d2.setChan e n { GChan.idle with prio := prio, task := task, seq := (d.chan e n).seq + 1 }

/-- START (R318, R345): only an idle channel that registers may start. -/
def Dev.gstStart (sp : Spine) (d : Dev) (e n : Nat) : Dev :=
  if sp.contain.gone (gustUid e) n then d.gstCfgErr e n
  else if d.chMode1 e n && d.chState e n == 0 then d.gstBegin e n 0 none
  else d.gstCfgErr e n

/-- Easel starts a MODE 0 channel at BUF0 with the priority of R319. -/
def Dev.gstEaselStart (d : Dev) (e n a prio s : Nat) : Dev :=
  let b := gstBaseOf e
  ((d.setF (F.GST_CH_PTR_LO_ADDR b n) (a % 2 ^ 32 / 64)).setF (F.GST_CH_PTR_HI_ADDR b n) (a / 2 ^ 32)).gstBegin e n prio (some s)

/-- The Easel status of an error code (R342). -/
def gstStatus (err : Nat) : Nat := if err = 0 then 0 else if err = 10 then 3 else if err = 11 then 4 else 1

/-- The program ends (R333, R342): idle, DONE, the code, its event, the delegations to the channel, and
the completion of an Easel task. `st` is the state it goes to: 0 IDLE, 5 QUAR. -/
def Dev.gstEnd (d : Dev) (e n err st : Nat) : Dev :=
  let b := gstBaseOf e
  let c := d.chan e n
  let d1 := ((d.setF (F.GST_CH_STATUS_STATE b n) st).setF (F.GST_CH_STATUS_ERR b n) err).setF (F.GST_CH_STATUS_DONE b n) 1
  let d2 := d1.setChan e n { GChan.idle with seq := c.seq }
  let d3 := if 1 ≤ err ∧ err ≤ 7 then d2.gstEvent e n 1 else if err = 9 then d2.gstEvent e n 5 else d2
  let d4 := d3.delegateDone (gustUid e) n
  match c.task with
  | some s => d4.signalEnd s (gstStatus err)
  | none => d4

/-- A requested end (R344): the burst in flight completes first. -/
def Dev.gstHalt (d : Dev) (e n err : Nat) : Dev :=
  if (d.chan e n).burst.isSome then
    (d.setF (F.GST_CH_STATUS_STATE (gstBaseOf e) n) 4).mapChan e n fun c => { c with stop := err }
  else d.gstEnd e n err 0

/-- Is a program running on a channel? -/
def Dev.chRuns (d : Dev) (e n : Nat) : Bool := d.chState e n != 0 && d.chState e n != 5

/-- STOP (R344): a running MODE 1 or hub channel. -/
def Dev.gstStop (d : Dev) (e n : Nat) : Dev :=
  if d.chRuns e n && d.chMode1 e n && (d.chan e n).stop == 0 then d.gstHalt e n 9 else d

/-- A kill by Easel of the program that runs a slot's task. -/
def Dev.gstKill (d : Dev) (e n s : Nat) : Dev :=
  if d.chRuns e n && (d.chan e n).task == some s && (d.chan e n).stop == 0 then d.gstHalt e n 10 else d

/-- A write of GST_CH_n_CTRL: STOP wins over START (R345). -/
def Dev.gstCtrl (sp : Spine) (d : Dev) (e n : Nat) (v : Word) : Dev :=
  if bitAt v.toNat 1 then d.gstStop e n else if bitAt v.toNat 0 then d.gstStart sp e n else d

/-- The core, of the region of engine `e` and at S or M level, that a requester is? -/
def regionCore (e : Nat) (q : Req) : Bool :=
  match coreOfUid q.uid.toNat with
  | some k => decide (k < 384) && coreRegion k == e && (q.lvl == 1 || q.lvl == 3) && !q.dbg
  | none => false

/-- Who may write CTRL and PTR of a channel, and SWREQ. -/
def Dev.gstMayDrive (d : Dev) (e n : Nat) (q : Req) : Bool :=
  reqFw q || (decide (e < 16) && d.chMode1 e n && regionCore e q)
/-- A requester other than firmware that starts a MODE 0 region channel is told so (R345). -/
def gstMayCtrl (e : Nat) (q : Req) : Bool := reqFw q || (decide (e < 16) && regionCore e q)

/-- A write of GST_SWREQ of a region engine (R341). -/
def Dev.swreqWrite (d : Dev) (q : Req) (r : Nat) (v : Word) : Dev :=
  if reqFw q || regionCore r q then d.setF (F.GST_SWREQ_LINE (gstBaseOf r)) (v.toNat % 2 ^ 16) else d

/-! ## Descriptors and list entries (R320 to R323, R328, R339) -/

/-- The descriptor that 64 bytes spell, with what R323 says of it. -/
def gstDesc (at_ : Nat) (l : List Byte) : GDesc :=
  let w := fun o n => ofLeBytes ((l.drop o).take n)
  let w0 := w 0 4
  let op := bitsOf w0 0 3
  let srcN := bitsOf w0 16 8
  let dstN := bitsOf w0 24 8
  let del := bitAt w0 4
  let pat := bitAt w0 6
  let halt := bitAt w0 7
  let last := bitAt w0 8
  let addr := fun o al => decide (w o 8 < 2 ^ 42) && w o 8 % al == 0
  let shape :=
    if op = 0 then decide (1 ≤ srcN) && decide (1 ≤ dstN) && addr 0x10 16 && addr 0x18 16
    else if op = 1 then srcN == 0 && decide (1 ≤ dstN) && addr 0x18 16
    else if op = 2 then
      (if pat then srcN == 0 else decide (1 ≤ srcN) && addr 0x10 16) && decide (1 ≤ dstN) && addr 0x18 16
    else op == 3 && srcN == 0 && dstN == 0 && !del && !pat && !halt && addr 0x28 8
  { at_ := at_, op := op, delivered := del, irq := bitAt w0 5, cmpPat := pat, cmpHalt := halt, last := last
    srcN := srcN, dstN := dstN, pat := w 8 8, src := w 0x10 8, dst := w 0x18 8, next := w 0x20 8, fence := w 0x28 8
    bad := !(shape && !bitAt w0 3 && bitsOf w0 9 7 == 0 && w 4 4 == 0 && w 0x30 16 == 0 && (last || addr 0x20 64)) }

/-- Base and length in bytes of a circular window. -/
def Dev.gstWin (d : Dev) (e k : Nat) : Nat × Nat :=
  let b := gstBaseOf e
  (d.f (F.GST_CWIN_BASE_LO_BASE b k) * 64 + d.f (F.GST_CWIN_BASE_HI_BASE b k) * 2 ^ 32, d.f (F.GST_CWIN_LEN_LEN b k) * 64)

/-- The list entry that 16 bytes spell; none for error LIST (R323, R339). `side` the entry is on the
peripheral's side of a paced channel. -/
def Dev.gstEntry (d : Dev) (e n : Nat) (side : Bool) (l : List Byte) : Option GEnt :=
  let w := fun o k => ofLeBytes ((l.drop o).take k)
  let addr := w 0 6
  let len := w 6 3
  let fl := w 9 1
  let cwe := bitAt fl 0
  let win := d.gstWin e (bitsOf fl 1 3)
  let B := d.chBurst e n
  let okWin := !cwe || (decide (0 < win.2) && decide (win.1 ≤ addr) && decide (addr < win.1 + win.2))
  let okSide := !side || (addr % B == 0 && len % B == 0 && (!cwe || (win.1 % B == 0 && win.2 % B == 0)))
  if decide (len ≠ 0) && decide (addr < 2 ^ 42) && bitsOf fl 5 3 == 0 && w 10 6 == 0 && okWin && okSide then
    some { addr := addr, len := len, win := if cwe then some (bitsOf fl 1 3) else none, fixed := bitAt fl 4, off := 0 }
  else none

/-- The address of an entry's next byte, and how many bytes run from it to the next 4 KiB boundary and to
the wrap of its window (R322, R328, R329). -/
def Dev.gstNext (d : Dev) (e : Nat) (x : GEnt) : Nat × Nat :=
  let j := if x.fixed then 0 else x.off
  match x.win with
  | none => (x.addr + j, 4096 - (x.addr + j) % 4096)
  | some k =>
    let w := d.gstWin e k
    if w.2 = 0 then (x.addr + j, 0)
    else
      let a := w.1 + (((x.addr : Int) - (w.1 : Int) + (j : Int)) % (w.2 : Int)).toNat
      (a, min (4096 - a % 4096) (w.1 + w.2 - a))

/-! ## Arbitration (R331, R336) -/

/-- Has the channel fetched all its next burst needs? -/
def gstReady (c : GChan) : Bool :=
  match c.desc with
  | none => false
  | some x => !x.bad && x.op != 3 && (x.srcN == 0 || c.sEnt.isSome) && c.dEnt.isSome

/-- Eligible for a grant; `line` the request lines as the engine sees them. -/
def Dev.gstEligible (sp : Spine) (d : Dev) (line : Nat → Bool) (e n : Nat) : Bool :=
  let c := d.chan e n
  let b := gstBaseOf e
  d.chState e n == 1 && !sp.contain.gone (gustUid e) n && c.burst.isNone && !c.resp && !c.fenceOut && c.stop == 0
    && gstReady c
    && (!d.fb (F.GST_CH_CFG_REQ_EN b n) || c.unitPos != 0 || line (d.f (F.GST_CH_CFG_REQ_LINE b n)))

/-- The channels in arbitration order: priorities downward, round-robin after last[p]. -/
def Dev.gstOrder (d : Dev) (e : Nat) : List Nat :=
  let m := gstChans e
  (List.range 8).reverse.flatMap fun p =>
    let l := SMap.get d.gustLast (e * 8 + p) 0
    ((List.range m).map fun i => (l + 1 + i) % m).filter fun n => d.chPrio e n == p

/-- Bursts in flight on an engine. -/
def Dev.gstInflight (d : Dev) (e : Nat) : Nat :=
  ((List.range (gstChans e)).filter fun n => (d.chan e n).burst.isSome).length

/-- The channel the next grant goes to. -/
def Dev.gstPick (sp : Spine) (d : Dev) (line : Nat → Bool) (e : Nat) : Option Nat :=
  if d.gstInflight e < gstMaxF e then (d.gstOrder e).find? fun n => d.gstEligible sp line e n else none

/-- The next burst of a channel (R322). -/
def Dev.gstBurst (d : Dev) (e n : Nat) : GBurst :=
  let c := d.chan e n
  let B := d.chBurst e n
  let cap := if d.fb (F.GST_CH_CFG_REQ_EN (gstBaseOf e) n) then B - c.unitPos else B
  let side := fun (x : Option GEnt) => match x with
    | some x => ((d.gstNext e x).1, min (x.len - x.off) (d.gstNext e x).2)
    | none => (0, cap)
  let s := side c.sEnt
  let t := side c.dEnt
  { sa := s.1, da := t.1, n := min cap (min s.2 t.2), data := none, diff := none }

/-- One grant. -/
def Dev.gstGrant (sp : Spine) (d : Dev) (line : Nat → Bool) (e : Nat) : Dev :=
  match d.gstPick sp line e with
  | none => d
  | some n =>
    let d1 := d.mapChan e n fun c => { c with burst := some (d.gstBurst e n) }
    { d1 with gustLast := SMap.put d1.gustLast (e * 8 + d.chPrio e n) n }

/-! ## Completion of descriptors (R333, R334, R342) -/

/-- A descriptor completes: IRQ and DESC_CNT. -/
def Dev.gstDescCount (d : Dev) (e n : Nat) (x : GDesc) : Dev :=
  let b := gstBaseOf e
  let d1 := if x.irq then
      (d.setReg (F.GST_IRQ_IRQ b (n / 32)).addr (d.reg (F.GST_IRQ_IRQ b (n / 32)).addr ||| BitVec.ofNat 32 (2 ^ (n % 32)))).gstEvent e n 0
    else d
  (d1.countF (F.GST_CH_STATUS_DESC_CNT b n) 1).setF (F.GST_CH_STATUS_STATE b n) 1

/-- The current descriptor completes, and the next descriptor follows or the program ends. -/
def Dev.gstDescDone (d : Dev) (e n : Nat) : Dev :=
  let b := gstBaseOf e
  let c := d.chan e n
  match c.desc with
  | none => d
  | some x =>
    let d2 := d.gstDescCount e n x
    if x.last then d2.gstEnd e n 0 0
    else
      let cur := x.next
      (((d2.setF (F.GST_CH_CUR_LO_ADDR b n) (cur % 2 ^ 32 / 64)).setF (F.GST_CH_CUR_HI_ADDR b n) (cur / 2 ^ 32)).setChan e n
        { c with desc := none, sEnt := none, dEnt := none, si := 0, di := 0, pos := 0
                 resp := false, refused := false, fenceOut := false, dn := c.dn + 1 })

/-- Has the channel's program a write under way? -/
def Dev.gstPending (d : Dev) (e n : Nat) : Bool :=
  (d.gustWrites e).any fun w => w.ch == n && w.seq == (d.chan e n).seq

/-- Has the channel's descriptor a write under way (R334)? -/
def Dev.gstOwed (d : Dev) (e n : Nat) : Bool :=
  (d.gustWrites e).any fun w => w.ch == n && w.seq == (d.chan e n).seq && w.dn == (d.chan e n).dn

/-- The last burst of a descriptor has left: it completes, or waits for its responses. -/
def Dev.gstStreamsDone (d : Dev) (e n : Nat) : Dev :=
  match (d.chan e n).desc with
  | none => d
  | some x =>
    if x.delivered && d.gstOwed e n then
      (d.setF (F.GST_CH_STATUS_STATE (gstBaseOf e) n) 3).mapChan e n fun c => { c with resp := true }
    else if x.delivered && (d.chan e n).refused then d.gstEnd e n 5 0
    else d.gstDescDone e n

/-- An entry after `k` more bytes: none once it is used up. -/
def gstAdvance (x : Option GEnt) (k : Nat) : Option GEnt :=
  match x with
  | none => none
  | some y => if y.off + k < y.len then some { y with off := y.off + k } else none

/-- The streams move on by a burst's bytes: the descriptor goes on, ends, or meets MISMATCH (R324, R326). -/
def Dev.gstMove (d : Dev) (e n k : Nat) : Dev :=
  let c := d.chan e n
  match c.desc with
  | none => d
  | some x =>
    let s := gstAdvance c.sEnt k
    let t := gstAdvance c.dEnt k
    let B := d.chBurst e n
    let d1 := d.setChan e n { c with burst := none, sEnt := s, dEnt := t, pos := c.pos + k, unitPos := (c.unitPos + k) % B }
    let sEnd := x.srcN == 0 || (s.isNone && c.si == x.srcN)
    let tEnd := t.isNone && c.di == x.dstN
    if tEnd && sEnd then d1.gstStreamsDone e n
    else if tEnd || (x.srcN != 0 && sEnd) then d1.gstEnd e n 3 0
    else d1

/-! ## Faults (R346) -/

/-- A channel's fault: the burst in flight is abandoned, the program ends FAULT, the channel is QUAR. -/
def Dev.gstFault (d : Dev) (e n : Nat) : Dev :=
  let d1 := if d.chRuns e n then d.gstEnd e n 11 5 else d.setF (F.GST_CH_STATUS_STATE (gstBaseOf e) n) 5
  (d1.gstEvent e n 3).handBackAll (gustUid e) n

end Sys2Proof.Machine
end

