-- ==== Sys2Proof/Machine/Easel.lean ====
section
/-! DEFINITION. Easel: submission, release, placement, dispatch, deadlines and kills (R275 to R310, R627). -/

namespace Sys2Proof.Machine

/-! ## Submission checks (R279, R282) -/

/-- The descriptor store's UID. -/
def storeUid : Uid := hubUid 10

/-- Does a slot lie in the range of a FIRST and COUNT register? -/
def inSlotRange (first count s : Nat) : Bool := decide ((s + 65536 - first) % 65536 < count)
/-- In the host's range. -/
def Dev.hostSlot (d : Dev) (s : Nat) : Bool := inSlotRange (d.f F.ESL_HOST_SLOTS_FIRST) (d.f F.ESL_HOST_SLOTS_COUNT) s
/-- In the range of tasks spilled from peers. -/
def Dev.spillSlot (d : Dev) (s : Nat) : Bool := inSlotRange (d.f F.ESL_SPILL_IN_FIRST) (d.f F.ESL_SPILL_IN_COUNT) s
/-- May a core write and submit a slot? -/
def Dev.coreSlot (d : Dev) (s : Nat) : Bool := !d.hostSlot s && !d.spillSlot s

/-- No element of a list is there twice. -/
def noRepeats (l : List Nat) : Bool :=
  match l with
  | [] => true
  | x :: t => !t.contains x && noRepeats t

/-- How many regions a mask names. -/
def maskCount (n m : Nat) : Nat := ((List.range n).filter fun i => bitAt m i).length

/-- The checks of R282 in the order of their causes: each cause with whether its check holds. -/
def Dev.submitChecks (d : Dev) (s : Nat) (inRange : Bool) : List (Nat × Bool) :=
  let g := (d.dGrants s).map (·.1)
  [(1, d.df s 0 0 16 == s && d.df s 4 11 1 == 0 && d.df s 4 30 2 == 0 && d.df s 8 31 1 == 0 && d.df s 0xC 31 1 == 0
      && d.df s 0x1C 29 3 == 0 && d.df s 0x38 22 10 == 0 && d.df s 0x3C 22 10 == 0 && d.dType s != 3),
   (2, d.dRegions s != 0 && (d.dType s != 0 || d.dClusters s != 0) && (d.dType s != 1 || d.dAccels s != 0)),
   (3, g.isEmpty || (maskCount 16 (d.dRegions s) == 1 && g.all (fun b => decide (b ≤ 51)) && noRepeats g)),
   (4, !d.dSpillable s || (d.dType s == 0 && g.isEmpty)),
   (5, decide (d.df s 0xC 28 3 ≤ 4) && !(d.dSuccs s).contains s),
   (6, d.dRel s != 2 || d.df s 4 12 8 != 0),
   (7, inRange)]

/-- The cause of the first failing check; 0 when all hold. -/
def Dev.submitCause (d : Dev) (s : Nat) (inRange : Bool) : Nat :=
  match (d.submitChecks s inRange).find? fun c => !c.2 with
  | some c => c.1
  | none => 0

/-! ## Placement (R289, R290, R306) -/

/-- Is a slot's task on the ready list of a region? -/
def readyIn (r : Nat) (x : Slot) : Bool := x.st == 3 && x.region == some r && x.fin.isNone
/-- The ready tasks of a region. -/
def Dev.readyList (d : Dev) (r : Nat) : List Nat := (d.slots.filter fun e => readyIn r e.2).map (·.1)
/-- The free ready-list entries of a region. -/
def Dev.freeEntries (d : Dev) (r : Nat) : Nat := 4096 - (d.readyList r).length

/-- The index of a core of region r. -/
def regionCoreIx (r c u : Nat) : Nat := r * 24 + c * 4 + u

/-- Has a region a unit of the task's pool that is in service? -/
def Dev.qualifies (sp : Spine) (d : Dev) (s r : Nat) : Bool :=
  !sp.contain.dies.contains (r / 4) && sp.contain.pkg == 0 &&
    (if d.dType s = 0 then
      (List.range 6).any fun c => bitAt (d.dClusters s) c &&
        (List.range 4).any fun u => !sp.contain.out (coreUid (regionCoreIx r c u))
     else if d.dType s = 1 then (List.range 4).any fun e => bitAt (d.dAccels s) e && !sp.contain.out (regionUid r e)
     else !sp.contain.gone (gustUid r) (d.dGustCh s))

/-- The region that R289 chooses: the most free entries, on a tie the lowest index. -/
def Dev.chooseRegion (sp : Spine) (d : Dev) (s : Nat) : Option Nat :=
  ((List.range 16).filter fun r => bitAt (d.dRegions s) r && d.qualifies sp s r).foldl (fun b r =>
    match b with
    | none => some r
    | some x => if d.freeEntries x < d.freeEntries r then some r else some x) none

/-- The region an event about a task is raised in: its own; for a task never placed, one that the spec leaves
open (log entry 27). -/
def Dev.eventRegion (d : Dev) (s : Nat) : Nat × Dev :=
  match (d.slot s).region with
  | some r => (r, d)
  | none => d.draw 16

/-- A held source episode (R306): the record, the count and the event. -/
def Dev.backpressure (sp : Spine) (d : Dev) (s r uid : Nat) : Dev :=
  ((d.countF F.ESL_BP_COUNT 1).traceSlot sp sp.now uid 4 s).raise (evEsl r 2) storeUid

/-- Place a released task: READY in the chosen region, PENDING where it has no free entry, or FAULT where none
qualifies. `again` it is placed again by R290, whose event has been raised. -/
def Dev.place (sp : Spine) (d : Dev) (s : Nat) (again : Bool) : Dev :=
  match d.chooseRegion sp s with
  | none =>
    let d1 := if again then d else (d.eventRegion s).2.raise (evEsl (d.eventRegion s).1 6) storeUid
    d1.signalEnd s 4
  | some r =>
    if 0 < d.freeEntries r then d.mapSlot s fun x => { x with st := 3, region := some r }
    else
      let d1 := d.mapSlot s fun x => { x with st := 2 }
      if (d.slot s).st = 2 then d1 else d1.backpressure sp s r storeUid

/-- Release a task; one that is poisoned without POISON_OK completes CANCELLED (R309). -/
def Dev.release (sp : Spine) (d : Dev) (s : Nat) : Dev :=
  if d.dPoison s && !d.dPoisonOk s then (d.traceSlot sp sp.now storeUid 3 s).signalEnd s 2 else d.place sp s false

/-- Ready tasks that lost their qualifying unit are placed again (R290). -/
def Dev.redirect (sp : Spine) (d : Dev) : Dev :=
  (d.slots.map (·.1)).foldl (fun d s =>
    match (d.slot s).region with
    | some r =>
      if readyIn r (d.slot s) && !d.qualifies sp s r then (d.raise (evEsl r 6) storeUid).place sp s true else d
    | none => d) d

/-- Is there a PENDING task that would go before `s` in deadline order and can move? -/
def pendBefore (d : Dev) (s t : Nat) : Bool :=
  decide (d.dDeadline t < d.dDeadline s) || (d.dDeadline t == d.dDeadline s && decide (t < s))
/-- Can a PENDING task move: the chosen region has a free entry, or none qualifies? -/
def Dev.canMove (sp : Spine) (d : Dev) (s : Nat) : Bool :=
  (d.slot s).st == 2 && (d.slot s).fin.isNone &&
    match d.chooseRegion sp s with
    | none => true
    | some r => decide (0 < d.freeEntries r)
/-- Move a PENDING task, in deadline order (R306). -/
def Dev.pendingPlace (sp : Spine) (d : Dev) (s : Nat) : Dev :=
  if d.canMove sp s && !((d.slots.map (·.1)).any fun t => pendBefore d s t && d.canMove sp t) then d.place sp s false else d

/-! ## Acceptance and release (R285 to R288, R307) -/

/-- Does a submission release its task at acceptance? -/
def Dev.releasesNow (sp : Spine) (d : Dev) (s : Nat) : Bool :=
  d.dRel s == 0 || (d.dRel s == 1 && decide (d.dRelease s ≤ (timeNs sp : Int)))

/-- Accept a task: HELD, then released as REL directs. -/
def Dev.accept (sp : Spine) (d : Dev) (s : Nat) : Dev :=
  let d1 := d.setSlot s { Slot.free with st := 1, dep := d.df s 4 12 8 }
  if d.releasesNow sp s then
    let d2 := if d.dRelease s < (timeNs sp : Int) then (d1.countF F.ESL_LATE_REL_COUNT 1).traceSlot sp sp.now storeUid 7 s else d1
    d2.release sp s
  else d1

/-- A submission: the status of R286, and the device after it. STATE is judged first, then INVALID with the lowest
cause, then FULL (log entry 28). `first` an episode of a held source begins. -/
def Dev.submit (sp : Spine) (d : Dev) (s uid : Nat) (inRange first : Bool) : Nat × Dev :=
  if (d.slot s).st ≠ 0 then (3, d)
  else if d.submitCause s inRange ≠ 0 then (2 + d.submitCause s inRange * 256, d)
  else
    match (if d.releasesNow sp s then d.chooseRegion sp s else none) with
    | some r =>
      if d.freeEntries r ≤ d.f F.ESL_CTRL_RESERVE then (1, if first then d.backpressure sp s r uid else d)
      else (0, d.accept sp s)
    | none => (0, d.accept sp s)

/-- The release of a HELD task by time (R287). -/
def Dev.timeRelease (sp : Spine) (d : Dev) (s : Nat) : Dev :=
  if (d.slot s).st == 1 && (d.slot s).fin.isNone && d.dRel s == 1 && decide (d.dRelease s ≤ (timeNs sp : Int)) then
    d.release sp s
  else d

/-- An occurrence with Easel release routing releases every task that waits on its number (R287). -/
def Dev.eventRelease (sp : Spine) (d : Dev) (ev : Nat) : Dev :=
  (d.slots.map (·.1)).foldl (fun d s =>
    if (d.slot s).st == 1 && (d.slot s).fin.isNone && d.dRel s == 3 && d.dEventIn s == ev then d.release sp s else d) d

/-- One decrement of a successor's count (R309, R310), with POISON set in its descriptor where `poison`; `pr` the
predecessor's region. -/
def Dev.decrement (sp : Spine) (d : Dev) (s pr : Nat) (poison : Bool) : Dev :=
  let x := d.slot s
  if x.st = 1 ∧ x.fin = none ∧ d.dRel s = 2 ∧ x.dep ≠ 0 then
    let d0 := if poison then d.setBytes (slotAddr s + 4) (leBytes 4 (setBits (d.rd (slotAddr s + 4) 4) 11 1 1)) else d
    let d1 := d0.setSlot s { x with dep := x.dep - 1 }
    if x.dep = 1 then d1.release sp s else d1
  else (d.countF F.ESL_DEP_ERR_COUNT 1).raise (evEsl pr 3) storeUid

/-! ## Cancel (R308) -/

/-- CANCEL of a task ID by unit `uid`: the status, and the device after it. -/
def Dev.cancel (sp : Spine) (d : Dev) (id uid : Nat) : Nat × Dev :=
  let s := id % 2 ^ 16
  let x := d.slot s
  if x.st = 0 ∨ d.dTag s ≠ id / 2 ^ 16 then (4, d)
  else if x.st = 4 ∨ x.st = 5 then (5, d)
  else (0, if x.fin = none then (d.traceSlot sp sp.now uid 3 s).signalEnd s 2 else d)

/-! ## Dispatch (R291 to R294, R296) -/

/-- Does `a` come before `b` on a ready list? -/
def Dev.readyBefore (d : Dev) (a b : Nat) : Bool :=
  let pa := d.dPrio a
  let pb := d.dPrio b
  decide (pb < pa) || (pa == pb && (decide (d.dDeadline a < d.dDeadline b) ||
    (d.dDeadline a == d.dDeadline b && decide (a < b))))
/-- Insert into the order of the ready list. -/
def Dev.readyInsert (d : Dev) (s : Nat) (l : List Nat) : List Nat :=
  match l with
  | [] => [s]
  | h :: t => if d.readyBefore s h then s :: h :: t else h :: d.readyInsert s t
/-- The ready tasks of a region in dispatch order. -/
def Dev.readyOrder (d : Dev) (r : Nat) : List Nat := (d.readyList r).foldl (fun l s => d.readyInsert s l) []

/-- Does a cluster of a region accept a priority (R293)? -/
def Dev.hotAccepts (d : Dev) (r c prio : Nat) : Bool :=
  !(d.f F.GSO_MODE_MODE == 3 && bitAt (d.disp_ r).hot c && decide (prio < 8))

/-- Is a core idle: in WAIT, and not one whose task was killed since (R292, R303)? -/
def Dev.coreIdle (sp : Spine) (d : Dev) (k : Nat) : Bool :=
  !sp.contain.out (coreUid k) && !d.parked.contains (coreCluster k) && (d.core k).mode == .easel && !(d.core k).kill

/-- The idle cores a core task may go to, in the order of choice. -/
def Dev.idleCores (sp : Spine) (d : Dev) (r s : Nat) : List Nat :=
  ((List.range 6).map fun i => ((d.disp_ r).last + 1 + i) % 6).flatMap fun c =>
    if bitAt (d.dClusters s) c && d.hotAccepts r c (d.dPrio s) then
      ((List.range 4).map fun u => regionCoreIx r c u).filter fun k => d.coreIdle sp k
    else []

/-- Does a completed task hold its unit busy until its completion is processed (R306)? -/
def Dev.unitHeld (d : Dev) (r type unit : Nat) : Bool :=
  d.slots.any fun e => e.2.st == 4 && e.2.region == some r && e.2.unit == unit && e.2.fin.isSome && d.dType e.1 == type

/-- The idle engines of a pool. -/
def Dev.idleEngines (sp : Spine) (d : Dev) (r s : Nat) : List Nat :=
  (List.range 4).filter fun e => bitAt (d.dAccels s) e && d.engTakes sp r e

/-- Is the channel of a TYPE 2 task idle? A MODE 1 channel never is (R319). -/
def Dev.chanIdle (sp : Spine) (d : Dev) (r s : Nat) : Bool :=
  let n := d.dGustCh s
  !sp.contain.gone (gustUid r) n && d.chState r n == 0 && !d.chMode1 r n && !d.unitHeld r 2 n

/-- The unit a ready task would be dispatched to; among several idle engines the choice is open (log entry 29). -/
def Dev.pickUnit (sp : Spine) (d : Dev) (r s : Nat) : Option (Nat × Dev) :=
  if d.dType s = 0 then (d.idleCores sp r s).head?.map fun k => (k, d)
  else if d.dType s = 1 then
    let l := d.idleEngines sp r s
    match l with
    | [] => none
    | [e] => some (e, d)
    | e :: _ => some (l.getD (d.draw l.length).1 e, (d.draw l.length).2)
  else if d.chanIdle sp r s then some (d.dGustCh s, d) else none

/-- The UID and channel of the unit a task of a type runs on. -/
def taskUnit (type r unit : Nat) : Nat × Nat :=
  if type = 0 then (coreUid unit, 0) else if type = 1 then (regionUid r unit, 0) else (gustUid r, unit)

/-- The dispatcher writes PAL_OWNER_n of a bank of its region; `ret` for the return of a grant. -/
def Dev.dispatcherHands (sp : Spine) (d : Dev) (r n uid ch : Nat) (ret : Bool) : Dev :=
  d.handover sp (unitReq (dispatcherUid r) 0) r n (BitVec.ofNat 32 (uid + ch * 4096)) ret

/-- What a dispatched core task finds in g1 to g7 (R296): in flight, readable two bundles after WAIT. -/
def Dev.taskRegs (d : Dev) (s : Nat) : List InFlight :=
  let w := fun o => BitVec.ofNat 32 (d.rd (slotAddr s + o) 4)
  ([(1, BitVec.ofNat 32 (d.dTaskId s)), (2, w 4), (3, w 0x20), (4, w 0x24), (5, w 0x28), (6, w 0x2C), (7, w 0xC)] :
    List (Nat × Word)).map fun x => { wr := .g (BitVec.ofNat 5 x.1) x.2, rem := 1, acc := false, fresh := false }

/-- The chosen unit starts the task. -/
def Dev.startTask (d : Dev) (r s unit : Nat) : Dev :=
  if d.dType s = 0 then
    (d.mapCore unit fun c => { c with mode := .run, task := some s, pc := c.resume, inflight := c.inflight ++ d.taskRegs s }).mapDisp r
      fun x => { x with last := unit % 24 / 4 }
  else if d.dType s = 1 then d.engPush r unit s
  else d.gstEaselStart r unit (d.dBuf0 s) (d.dPrio s / 2) s

/-- Dispatch a task to a unit. -/
def Dev.dispatchTo (sp : Spine) (d : Dev) (r s unit : Nat) : Dev :=
  let u := taskUnit (d.dType s) r unit
  let d1 := ((d.traceSlot sp (d.disp_ r).copy u.1 0 s).countF (F.ESL_RCNT_DISP_COUNT r) 1).mapSlot s fun x =>
    { x with st := 4, unit := unit, since := sp.now }
  let d2 := (d.dGrants s).foldl (fun d g => d.dispatcherHands sp r g.1 u.1 u.2 false) d1
  d2.startTask r s unit

/-- A DEFER record, once per task. -/
def Dev.deferTask (sp : Spine) (d : Dev) (r s : Nat) : Dev :=
  if (d.slot s).deferred then d
  else ((d.traceSlot sp (d.disp_ r).copy (dispatcherUid r) 1 s).countF (F.ESL_RCNT_DEFER_COUNT r) 1).mapSlot s fun x =>
    { x with deferred := true }

/-- One decision over the ready tasks `l` in order; `passed` those whose pool is busy. -/
def Dev.decideOver (sp : Spine) (d : Dev) (r : Nat) (passed l : List Nat) : Dev :=
  match l with
  | [] => d
  | s :: t =>
    match d.pickUnit sp r s with
    | none => d.decideOver sp r (passed ++ [s]) t
    | some (unit, d1) => (passed.foldl (fun d x => d.deferTask sp r x) d1).dispatchTo sp r s unit

/-! ## Deadlines and kills (R301 to R304, R627) -/

/-- LATE_START of a READY task. -/
def Dev.lateStart (sp : Spine) (d : Dev) (s lag : Nat) : Dev :=
  match (d.slot s).region with
  | none => d
  | some r =>
    let d1 := d.showCopy sp r lag
    let copy := (d1.disp_ r).copy
    if readyIn r (d.slot s) && !(d.slot s).late && d.dWcet s != 0
        && decide (((d.dDeadline s : Int) - (d.dWcet s : Int)) * (nsUnit : Int) < (copy : Int)) then
      (((d1.traceSlot sp copy (dispatcherUid r) 5 s).countF (F.ESL_RCNT_LATE_COUNT r) 1).raise (evEsl r 0) (dispatcherUid r)).mapSlot s
        fun x => { x with late := true }
    else d1

/-- A kill of a RUNNING task: the status it completes with stands whatever its unit reports. -/
def Dev.killRunning (d : Dev) (s status : Nat) : Dev :=
  let x := d.slot s
  match x.region with
  | none => d
  | some r =>
    if x.st ≠ 4 ∨ x.fin.isSome then d
    else
      let d1 := d.setSlot s { x with kill := some status }
      if d.dType s = 0 then (d1.mapCore x.unit fun c => { c with task := if c.task = some s then none else c.task, kill := true }).signalEnd s status
      else if d.dType s = 1 then d1.engKill r x.unit s
      else d1.gstKill r x.unit s

/-- The time by which a MISS of a task is judged, and the unit its record names: the region copy for READY and
RUNNING tasks, the store time for HELD, PENDING and SPILLED ones. -/
def Dev.missJudge (sp : Spine) (d : Dev) (s lag : Nat) : Option (Nat × Bool × Nat × Dev) :=
  let x := d.slot s
  if x.st = 0 then none
  else
    match x.region with
    | some r =>
      if x.st = 3 ∨ x.st = 4 then
        let d1 := d.showCopy sp r lag
        let copy := (d1.disp_ r).copy
        some (copy, decide (d.dDeadline s * nsUnit < copy), (if x.st = 4 then (taskUnit (d.dType s) r x.unit).1 else dispatcherUid r), d1)
      else some (sp.now, decide (d.dDeadline s < timeNs sp), storeUid, d)
    | none => some (sp.now, decide (d.dDeadline s < timeNs sp), storeUid, d)

/-- The record, count and event of a MISS. -/
def Dev.missNote (sp : Spine) (d : Dev) (s t uid : Nat) : Dev :=
  let er := d.eventRegion s
  let d1 := ((er.2.traceSlot sp t uid 6 s).mapSlot s fun x => { x with missed := true }).raise (evEsl er.1 1)
    (if uid = storeUid then storeUid else dispatcherUid er.1)
  if uid = storeUid then d1 else d1.countF (F.ESL_RCNT_MISS_COUNT er.1) 1

/-- The owner that RET names in a region (R281): the dispatcher, or ESL_RET_k. -/
def Dev.retOwner (d : Dev) (r ret : Nat) : Nat × Nat :=
  if ret = 0 then (dispatcherUid r, 0) else (d.f (F.ESL_RET_UID r (ret - 1)), d.f (F.ESL_RET_CH r (ret - 1)))

/-- Step 1 of a completion: each valid grant goes to the owner that RET names; where that is refused, the dispatcher names
itself (R298, R299). -/
def Dev.returnGrants (sp : Spine) (d : Dev) (s : Nat) : Dev :=
  match (d.slot s).region with
  | none => d
  | some r =>
    if sp.contain.out (dispatcherUid r) then d else
    (d.dGrants s).foldl (fun d g =>
      let o := d.retOwner r g.2
      d.dispatcherHands sp r g.1 o.1 o.2 true) d

end Sys2Proof.Machine
end

