-- ==== Sys2Proof/Machine/Host.lean ====
section
/-! DEFINITION. The host link: functions and resets, MSI-X, the host window, ring pairs and the mailboxes
(R535 to R550). -/

namespace Sys2Proof.Machine

/-- The UID of the PCI Express function. -/
def hostUid : Uid := hubUid 6
/-- The host as a requester (R539). -/
def hostReq : Req := unitReq hostUid 0

/-! ## MSI-X (R548) -/

/-- Word `w` of the MSI-X table entry of a vector: address low, address high, data, control. A control word that
nothing has written holds its mask bit at 1, as PCI Express has it (log entry 30). -/
def Dev.msixWord (d : Dev) (vec w : Nat) : Word := SMap.get d.msix (vec * 4 + w) (if w = 3 then 1 else 0)
/-- The function that owns a vector: the lowest-numbered virtual function whose range holds it, else the
physical function. -/
def Dev.vecOwner (d : Dev) (vec : Nat) : Nat :=
  match (List.range 16).find? fun i =>
      decide (d.f (F.HST_VF_VEC_BASE i) ≤ vec) && decide (vec < d.f (F.HST_VF_VEC_BASE i) + min 128 (d.f (F.HST_VF_VEC_CNT i))) with
  | some i => i + 1
  | none => 0
/-- May a vector be sent now? -/
def Dev.vecOpen (d : Dev) (vec : Nat) : Bool :=
  let f := d.vecOwner vec
  (d.fnCfg f).msixEn && !(d.fnCfg f).msixMask && d.fnSends f && !(d.msixWord vec 3).getLsbD 0
/-- Send a vector, or set its pending bit. -/
def Dev.msixSend (d : Dev) (vec : Nat) : Dev :=
  if d.vecOpen vec then
    { d with sent := d.sent ++ [.msix vec ((d.msixWord vec 0).toNat + (d.msixWord vec 1).toNat * 2 ^ 32) (d.msixWord vec 2)]
             msixPend := d.msixPend.filter fun v => v != vec }
  else if d.msixPend.contains vec then d else { d with msixPend := d.msixPend ++ [vec] }
/-- Send every pending vector that may be sent. -/
def Dev.msixFlush (d : Dev) : Dev := d.msixPend.foldl (fun d v => if d.vecOpen v then d.msixSend v else d) d

/-! ## Resets of the function (R64, R541) -/

/-- Disable the ring pairs of the functions that `p` picks. -/
def Dev.disablePairs (d : Dev) (p : Nat → Bool) : Dev :=
  (List.range 256).foldl (fun d k => if p (d.f (F.HST_RING_CFG_FN k)) then d.setF (F.HST_RING_CFG_EN k) 0 else d) d

/-- Offsets of a mailbox: PF registers, or a virtual function's own set. -/
def Dev.mbWord (d : Dev) (f off : Nat) : Word :=
  if f = 0 then d.reg (blkBase .hst + 0x100 + off) else SMap.get d.vfMbox (f * 256 + off) 0
/-- Write a word of a mailbox. -/
def Dev.setMb (d : Dev) (f off : Nat) (v : Word) : Dev :=
  if f = 0 then d.setReg (blkBase .hst + 0x100 + off) v else { d with vfMbox := SMap.put d.vfMbox (f * 256 + off) v }
/-- Clear a mailbox; one whose command is under way stays as it is, since that command completes (R570). -/
def Dev.clearMb (d : Dev) (f : Nat) : Dev :=
  if d.mbox.contains f then d else (List.range 0x1A).foldl (fun d i => d.setMb f (4 * i) 0) d

/-- The settings a reset of function `f` clears. -/
def Dev.resetFn (d : Dev) (f : Nat) : Dev :=
  d.setFn f { FnCfg.reset with vf := (d.fnCfg f).vf && f != 0 }

/-- PERST_N, link down or a hot reset: every pair disabled, the functions' settings cleared. -/
def Dev.linkReset (d : Dev) : Dev :=
  let d1 := { d.disablePairs (fun _ => true) with fn := [] }
  ((d1.setF F.HST_STATUS_LINK_UP 0).setF F.HST_STATUS_SPEED 0).setF F.HST_STATUS_WIDTH 0

/-- A function-level reset. -/
def Dev.flr (d : Dev) (f : Nat) : Dev :=
  if f = 0 then
    { (List.range 17).foldl (fun d i => d.clearMb i) (d.disablePairs fun _ => true) with fn := [] }
  else ((d.disablePairs fun x => x == f).clearMb f).resetFn f

/-! ## The host window (R240 to R242, R540) -/

/-- Zero-extended or cut to a length. -/
def fitBytes (n : Nat) (l : List Byte) : List Byte := l.take n ++ List.replicate (n - l.length) 0

/-- The cause for which an extent entry refuses an access to the window of TYPE `t` (R242), in the order of the
codes. -/
def Dev.extCause (d : Dev) (e t : Nat) (write : Bool) : Option Nat :=
  if e % 2 = 0 then some 1
  else if bitsOf e 2 2 ≠ t then some 2
  else if write ∧ bitAt e 1 = false then some 3
  else if t = 0 ∧ d.fnEnabled (bitsOf e 6 5) = false then some 4
  else if t = 1 ∧ bitsOf e 4 14 = d.f F.GSO_NODE_ID_NODE_ID then some 5
  else none

/-- Translate a window access: its extent entry, or none where it is refused. -/
def Dev.extCheck (d : Dev) (t : Nat) (q : Req) (a : Nat) (write : Bool) : Option Nat × Dev :=
  if d.fb F.PAL_EXT_CTRL_EN = false then (none, d.extRefuse 0 q a write)
  else
    let r := d.extEntry a
    match r.2.extCause r.1 t write with
    | some c => (none, r.2.extRefuse c q a write)
    | none => (some r.1, r.2)

/-- A device access to the host window; `ext` what the host's memory returns. A FENCE is checked as a write (R327), and is a zero-length
read. -/
def Dev.hostWin (d : Dev) (q : Req) (a n : Nat) (write : Bool) (data ext : List Byte) : AccOut × Dev :=
  match d.extCheck 0 q a write with
  | (none, d1) => (.refused, d1)
  | (some e, d1) =>
    let f := bitsOf e 6 5
    let ha := bitsOf e 21 43 * 2 ^ 21 + a % 2 ^ 21
    if (d1.fnCfg f).d3 then (.wait, d1)
    else if d1.fb F.HST_STATUS_LINK_UP = false then (if write then .ok [] else .err, d1)
    else if write && !data.isEmpty then
      (.ok [], { d1 with sent := d1.sent ++ [.hostWrite f ha (bitAt e 4) (bitAt e 5) data] })
    else
      let m := if write then 0 else n
      (.ok (if write then [] else fitBytes n ext), { d1 with sent := d1.sent ++ [.hostRead f ha m (bitAt e 4) (bitAt e 5)] })

/-! ## Ring pairs (R542 to R547) -/

/-- H2D entries waiting: tail − head, modulo 2^16. -/
def Dev.ringFill (d : Dev) (k : Nat) : Nat := (d.f (F.HST_DB_TAIL_TAIL k) + 65536 - (d.ringAt k).head) % 65536
/-- The host address of entry `i` of an H2D ring. -/
def Dev.h2dAddr (d : Dev) (k i : Nat) : Nat :=
  d.f (F.HST_RING_H2D_LO_BASE k) * 64 + d.f (F.HST_RING_H2D_HI_BASE k) * 2 ^ 32 + i % d.ringLen k * 64
/-- The host address of entry `i` of a D2H ring. -/
def Dev.d2hAddr (d : Dev) (k i : Nat) : Nat :=
  d.f (F.HST_RING_D2H_LO_BASE k) * 64 + d.f (F.HST_RING_D2H_HI_BASE k) * 2 ^ 32 + i % d.ringLen k * 64

/-- A host write of the H2D tail (R543): a pair that is off ignores it; an overrun disables the pair. -/
def Dev.doorTail (d : Dev) (k v : Nat) : Dev :=
  if d.fb (F.HST_RING_CFG_EN k) = false then d
  else
    let d1 := d.setF (F.HST_DB_TAIL_TAIL k) v
    if d1.ringLen k < d1.ringFill k then
      (((d1.setF (F.HST_RING_CFG_ERR k) 1).setF (F.HST_RING_CFG_EN k) 0)).raise evHstRingErr hostUid
    else d1
/-- A host write of its D2H head (R544). -/
def Dev.doorHead (d : Dev) (k v : Nat) : Dev :=
  if d.fb (F.HST_RING_CFG_EN k) then d.setF (F.HST_DB_HEAD_HEAD k) v else d

/-- A TASK entry (R545): the descriptor goes to its slot, if that is FREE and the host's, and is submitted. -/
def Dev.taskEntry (sp : Spine) (d : Dev) (k : Nat) (e : List Byte) : Dev :=
  let s := ofLeBytes (e.take 2)
  let d1 := if (d.slot s).st = 0 ∧ d.hostSlot s then d.setBytes (slotAddr s) e else d
  let r := d1.submit sp s hostUid (d.hostSlot s) (!(d.ringAt k).held)
  if r.1 = 1 then
    -- The entry stays in the ring; the slot keeps its contents until the store admits it.
    (r.2.setBytes (slotAddr s) (d.bytes (slotAddr s) 64)).mapRing k fun x => { x with held := true }
  else
    let d2 := r.2.mapRing k fun x => { x with head := (x.head + 1) % 65536, held := false }
    if r.1 = 0 then d2
    else d2.mapRing k fun x => { x with out := x.out ++ [e.take 4 ++ leBytes 2 r.1 ++ List.replicate 57 0] }

/-- The device address of entry `i` of a pair's device queue; `out` the outbound part. -/
def Dev.dqAddr (d : Dev) (k i : Nat) (out : Bool) : Nat :=
  d.f (F.HST_RING_DQ_ADDR k) * 64 + (i % d.ringLen k + if out then d.ringLen k else 0) * 64

/-- `n` free bytes, each below `lim`. -/
def Dev.freeBytes (d : Dev) (n lim : Nat) : List Byte × Dev :=
  ((List.range n).map fun i => BitVec.ofNat 8 (Config.free (d.free + i) % lim), { d with free := d.free + n })

/-- Does a device queue entry lie in HBM or hub-die SRAM, as R546 has it? -/
def dqMem (a : Nat) : Bool := tgtOf a == .hbm || tgtOf a == .sram
/-- Write an entry of a device queue; one that lies elsewhere is lost (log entry 95). -/
def Dev.dqPut (d : Dev) (a : Nat) (e : List Byte) : Dev := if dqMem a then (d.memAcc a 64 true e).2 else d
/-- Read one, without its last byte: elsewhere zeros, and with an uncorrectable error open bytes (log entry 95). -/
def Dev.dqGet (d : Dev) (a : Nat) : List Byte × Dev :=
  if dqMem a then
    match d.memAcc a 64 false [] with
    | (.ok l, d1) => (l.take 63, d1)
    | (_, d1) => d1.freeBytes 63 256
  else (List.replicate 63 0, d)

/-- A MSG entry (R546), taken only while the device queue has room. -/
def Dev.msgEntry (d : Dev) (k : Nat) (e : List Byte) : Dev :=
  let wr := d.f (F.HST_RING_DQ_IN_WR k)
  if (wr + 65536 - d.f (F.HST_RING_DQ_IN_RD k)) % 65536 < d.ringLen k then
    let d1 := ((d.dqPut (d.dqAddr k wr false) e).setF (F.HST_RING_DQ_IN_WR k) (wr + 1)).mapRing k fun x =>
      { x with head := (x.head + 1) % 65536 }
    let p := F.HST_MSG_PEND_PEND (k / 32)
    (d1.setF p (Nat.lor (d1.f p) (2 ^ (k % 32)))).raise evHstMsg hostUid
  else d

/-- A ring access to host memory failed: the ERR code and the event. -/
def Dev.ringFail (d : Dev) (k err : Nat) : Dev := (d.setF (F.HST_RING_CFG_ERR k) err).raise evHstRingErr hostUid

/-- The device takes the H2D entry at the head; `e` the 64 bytes the host's memory holds there. -/
def Dev.h2dEntry (sp : Spine) (d : Dev) (k : Nat) (e : List Byte) (fail : Bool) : Dev :=
  if !(d.ringWorks k 1 || d.ringWorks k 2) || d.ringFill k == 0 then d
  else
    let d1 := { d with sent := d.sent ++ [Tx.hostRead (d.f (F.HST_RING_CFG_FN k)) (d.h2dAddr k (d.ringAt k).head) 64 false false] }
    if fail then d1.ringFail k 2
    else if d.f (F.HST_RING_CFG_TYPE k) = 1 then d1.taskEntry sp k (fitBytes 64 e) else d1.msgEntry k (fitBytes 64 e)

/-- The next D2H entry of a pair, 63 bytes, and the device without it (R544 to R547). -/
def Dev.nextOut (d : Dev) (k : Nat) : Option (List Byte × Dev) :=
  if d.ringWorks k 1 then
    match (d.ringAt k).out with
    | [] => none
    | e :: t => some (e, d.mapRing k fun x => { x with out := t })
  else if d.ringWorks k 2 then
    let rd := d.f (F.HST_RING_DQ_OUT_RD k)
    if rd = d.f (F.HST_RING_DQ_OUT_WR k) then none
    else
      let r := d.dqGet (d.dqAddr k rd true)
      some (r.1, r.2.setF (F.HST_RING_DQ_OUT_RD k) (rd + 1))
  else if d.ringWorks k 3 && d.tracePair == k && decide (3 ≤ d.trc.length) then
    some ((d.trc.take 3).flatten ++ List.replicate 15 0, { d with trc := d.trc.drop 3 })
  else none

/-- Write a D2H entry, PHASE last, and send the pair's vector. -/
def Dev.d2hEntry (d : Dev) (k : Nat) (fail : Bool) : Dev :=
  let tail := d.f (F.HST_DB_HEAD_DTAIL k)
  if (tail + 65536 - d.f (F.HST_DB_HEAD_HEAD k)) % 65536 < d.ringLen k then
    match d.nextOut k with
    | none => d
    | some (e, d1) =>
      if fail then d.ringFail k 3
      else
        let f := d.f (F.HST_RING_CFG_FN k)
        let a := d.d2hAddr k tail
        let phase : Byte := if tail / d.ringLen k % 2 = 0 then 1 else 0
        let d2 := { d1.setF (F.HST_DB_HEAD_DTAIL k) (tail + 1) with
          sent := d1.sent ++ [.hostWrite f a false false e, .hostWrite f (a + 63) false false [phase]] }
        if d.fb (F.HST_RING_CFG_IRQ_EN k) then d2.msixSend (d.f (F.HST_RING_CFG_VEC k)) else d2
  else d

/-! ## Mailbox (R549 to R551) -/

/-- The known commands and how many of ARG0 to ARG7 each lists, as a mask. -/
def mbArgs (cmd : Nat) : Option Nat :=
  match cmd with
  | 1 => some 0
  | 2 => some 0x1F
  | 3 => some 0
  | 4 => some 1
  | 5 => some 1
  | 6 => some 1
  | 7 => some 0x1F
  | 8 => some 0
  | 9 => some 3
  | 10 => some 0xFF
  | 11 => some 0xF
  | _ => none

/-- Argument i of a mailbox. -/
def Dev.mbArg (d : Dev) (f i : Nat) : Nat := (d.mbWord f (4 + 4 * i)).toNat
/-- Are the arguments that a command does not list zero? -/
def Dev.mbArgsOk (d : Dev) (f cmd : Nat) : Bool :=
  match mbArgs cmd with
  | none => false
  | some m => (List.range 8).all fun i => bitAt m i || d.mbArg f i == 0

/-- A command ends: STATUS and RES0 to RES7 are written, BUSY clears, the vector is sent and the events raised. -/
def Dev.mbDone (d : Dev) (f status : Nat) (res : List Nat) : Dev :=
  let d1 := (List.range 8).foldl (fun d i => d.setMb f (0x48 + 4 * i) (BitVec.ofNat 32 (res.getD i 0))) (d.setMb f 0x44 (BitVec.ofNat 32 status))
  let c := (d1.mbWord f 0x40).toNat
  let d2 := { d1.setMb f 0x40 (BitVec.ofNat 32 (setBits c 1 1 0)) with mbox := d1.mbox.drop 1 }
  let d3 := if status = 2 then d2.raise evHstCmdReject hostUid else d2
  (d3.raise evHstCmdDone hostUid).msixSend (bitsOf c 3 11)

/-- Commands that no row executes end at once when they come to the front: unknown codes INVALID; what a
virtual function may not issue DENIED. -/
def Dev.mbSettle (d : Dev) (fuel : Nat) : Dev :=
  match fuel with
  | 0 => d
  | n + 1 =>
    match d.mbox with
    | [] => d
    | f :: _ =>
      let cmd := bitsOf (d.mbWord f 0).toNat 0 8
      if f ≠ 0 ∧ cmd ≠ 1 ∧ cmd ≠ 11 then (d.mbDone f 4 []).mbSettle n
      else if (mbArgs cmd).isNone then (d.mbDone f 3 []).mbSettle n
      else d

/-- A write of a mailbox's CTRL by its host: GO, OVERRUN and VEC. -/
def Dev.mbCtrl (d : Dev) (f : Nat) (v : Word) : Dev :=
  let c := (d.mbWord f 0x40).toNat
  let busy := bitAt c 1
  let go := bitAt v.toNat 0
  let ovr := (bitAt c 2 && !bitAt v.toNat 2) || (go && busy)
  let d1 := d.setMb f 0x40 (BitVec.ofNat 32 (2 * b2n (busy || go) + 4 * b2n ovr + 8 * bitsOf v.toNat 3 11))
  if go && !busy then ({ d1 with mbox := d1.mbox ++ [f] }).mbSettle 18 else d1

/-- The mailbox whose command is at the front, if its code is this one. -/
def Dev.mbFront (d : Dev) (cmd : Nat) : Option Nat :=
  match d.mbox with
  | [] => none
  | f :: _ => if bitsOf (d.mbWord f 0).toNat 0 8 = cmd then some f else none

/-- Run the front command `cmd`: INVALID for a stray argument, else what `run` answers (status, results, device). -/
def Dev.mbRun (d : Dev) (cmd : Nat) (run : Nat → Dev → Nat × List Nat × Dev) : Dev :=
  match d.mbFront cmd with
  | none => d
  | some f =>
    if d.mbArgsOk f cmd then
      let r := run f d
      (r.2.2.mbDone f r.1 r.2.1).mbSettle 18
    else (d.mbDone f 3 []).mbSettle 18

end Sys2Proof.Machine
end

