-- ==== Sys2Proof/Machine/Euril.lean ====
section
/-! DEFINITION. The Euril fabric: peers, sequenced frames, the fabric window, inbound accesses and spill (R311 to
R313, R560 to R569). -/

namespace Sys2Proof.Machine

/-! ## Peers and frames (R560, R563, R564) -/

/-- The UID of a fronthaul port. -/
def portUid (p : Nat) : Uid := mkUid 4 1 0 p
/-- A peer. -/
def Dev.peer (d : Dev) (k : Nat) : Peer := SMap.get d.peers k Peer.fresh
/-- Change a peer. -/
def Dev.mapPeer (d : Dev) (k : Nat) (f : Peer → Peer) : Dev := { d with peers := SMap.put d.peers k (f (d.peer k)) }
/-- Is a peer UP? -/
def Dev.peerUp (d : Dev) (k : Nat) : Bool := d.fb (F.EUR_PEER_STAT_UP k)
/-- The enabled peer entries. -/
def Dev.enabledPeers (d : Dev) : List Nat := (List.range 2048).filter fun k => d.fb (F.EUR_PEER_CFG_EN k)
/-- The enabled peer entry of a node. -/
def Dev.peerOf (d : Dev) (node : Nat) : Option Nat := d.enabledPeers.find? fun k => d.f (F.EUR_PEER_CFG_NODE k) == node
/-- The frames a receiver grants each peer; fewer than 4 act as 4 (log entry 31). -/
def Dev.eurWin (d : Dev) : Nat := max 4 (d.f F.EUR_CFG_WIN)
/-- Is `x` above `y`, modulo 2^16? -/
def seqAfter (x y : Nat) : Bool := let n := (x + 65536 - y) % 65536; decide (0 < n) && decide (n < 32768)

/-- Put a frame on the wire to a peer; any frame carries the acknowledgement that is due. -/
def Dev.eurWire (d : Dev) (k type seq tag : Nat) (payload : List Byte) : Dev :=
  let p := d.peer k
  let mac := d.f (F.EUR_PEER_MAC_LO_MAC k) + d.f (F.EUR_PEER_MAC_HI_MAC k) * 2 ^ 32
  let tx : Tx := .eur (d.f (F.EUR_PEER_CFG_PORT k)) mac (d.fb F.EUR_CFG_TAGGED) (d.f F.EUR_CFG_ETHERTYPE) type
    (d.f F.GSO_NODE_ID_NODE_ID) (d.f (F.EUR_PEER_CFG_NODE k)) seq p.rx ((p.rx + d.eurWin) % 65536) tag payload
  { d with sent := d.sent ++ [tx] }.mapPeer k fun x => { x with ackDue := false }

/-- Send the frames that wait, within the credit. -/
def Dev.eurFlush (sp : Spine) (d : Dev) (k fuel : Nat) : Dev :=
  match fuel with
  | 0 => d
  | n + 1 =>
    let p := d.peer k
    match p.wait with
    | [] => d
    | f :: t =>
      if seqAfter p.limit p.tx then
        ((d.eurWire k f.type p.tx f.tag f.payload).mapPeer k fun x =>
          { x with wait := t, unacked := x.unacked ++ [{ f with at_ := sp.now }], tx := (x.tx + 1) % 65536 }).eurFlush sp k n
      else d

/-- Queue a sequenced frame to a peer that is UP. -/
def Dev.eurSend (sp : Spine) (d : Dev) (k type tag : Nat) (payload : List Byte) : Dev :=
  if d.peerUp k then
    let d1 := d.mapPeer k fun x => { x with wait := x.wait ++ [{ type := type, tag := tag, payload := payload, at_ := 0 }] }
    d1.eurFlush sp k (d1.peer k).wait.length
  else d

/-- A sequenced frame whose TAG nothing echoes: its TAG is open (log entry 47). -/
def Dev.eurNote (sp : Spine) (d : Dev) (k type : Nat) (payload : List Byte) : Dev := (d.draw 65536).2.eurSend sp k type (d.draw 65536).1 payload
/-- A frame that is not sequenced: its SEQ and TAG are open (log entry 47). -/
def Dev.eurPlain (d : Dev) (k type : Nat) (payload : List Byte) : Dev :=
  let s := d.draw 65536
  let t := s.2.draw 65536
  t.2.eurWire k type s.1 t.1 payload

/-- A frame's acknowledgement and credit. -/
def Dev.eurAck (sp : Spine) (d : Dev) (k ack credit : Nat) : Dev :=
  let p := d.peer k
  let n := (ack + 65536 - (p.tx + 65536 - p.unacked.length)) % 65536
  let d1 := d.mapPeer k fun x =>
    { x with unacked := if n ≤ x.unacked.length then x.unacked.drop n else x.unacked
             rounds := if 0 < n ∧ n ≤ x.unacked.length then 0 else x.rounds
             limit := if seqAfter credit x.limit then credit else x.limit }
  d1.eurFlush sp k (d1.peer k).wait.length

/-- The fields of an arriving header as numbers. -/
structure EurIn where
  port : Nat
  src : Nat
  dst : Nat
  seq : Nat
  ack : Nat
  credit : Nat
  tag : Nat
  deriving DecidableEq, Repr
/-- The fields of an arriving header as numbers. -/
def eurIn (h : EurHdr) : EurIn :=
  { port := h.port.val, src := h.src.toNat, dst := h.dst.toNat, seq := h.seq.toNat, ack := h.ack.toNat
    credit := h.credit.toNat, tag := h.tag.toNat }

/-- An arriving frame, up to its peer (R560, R562): ports that are not trusted pass none on; the device's own SRC
clashes; a foreign DST or an unknown SRC is counted. -/
def Dev.eurPeerIn (d : Dev) (h : EurIn) : Option Nat × Dev :=
  let own := d.f F.GSO_NODE_ID_NODE_ID
  if d.fb (F.FH_PORT_CFG_TRUSTED h.port) = false then (none, d)
  else if h.src = own then (none, (d.setF F.EUR_STATUS_CLASH 1).raise evEurNodeClash (portUid h.port))
  else
    match (if h.dst = own then d.peerOf h.src else none) with
    | none => (none, d.countF F.EUR_DROP_COUNT 1)
    | some k => (some k, d)

/-- An arriving frame of a peer that is UP: its acknowledgement, and for a sequenced one its place in the order
(R564). The peer is answered where the frame is to be delivered. -/
def Dev.eurDeliver (sp : Spine) (d : Dev) (h : EurIn) (sequenced : Bool) : Option Nat × Dev :=
  match d.eurPeerIn h with
  | (none, d1) => (none, d1)
  | (some k, d1) =>
    if d1.peerUp k = false then (none, d1)
    else
      let d2 := d1.eurAck sp k h.ack h.credit
      if sequenced = false then (some k, d2)
      else if h.seq = (d2.peer k).rx then
        (some k, d2.mapPeer k fun x => { x with rx := (x.rx + 1) % 65536, ackDue := true })
      else if seqAfter h.seq (d2.peer k).rx then (none, d2)
      else (none, d2.mapPeer k fun x => { x with ackDue := true })

/-! ## Requests through the fabric window (R565, R569) -/

/-- The lengths of the frames that carry `n` bytes from target address `a`: none crosses a 1,024-byte boundary. -/
def fabSplit (a n fuel : Nat) : List Nat :=
  match fuel with
  | 0 => []
  | f + 1 =>
    let m := 1024 - a % 1024
    if n ≤ m then [n] else m :: fabSplit (a + m) (n - m) f

/-- Send the frames of a request; `off` the bytes already sent. -/
def Dev.fabFrames (sp : Spine) (d : Dev) (k a off : Nat) (write : Bool) (data : List Byte) (parts : List FabPart) : Dev :=
  match parts with
  | [] => d
  | p :: t =>
    let body := if write then leBytes 8 (a + off) ++ (data.drop off).take p.len else leBytes 8 (a + off) ++ leBytes 4 p.len
    (d.eurSend sp k (if write then 1 else 3) p.tag body).fabFrames sp k a (off + p.len) write data t

/-- Is every frame of a request answered? -/
def FabReq.whole (r : FabReq) : Bool := r.parts.all fun p => p.ans.isSome
/-- The outcome of a request that is whole: DATA is an uncorrectable error, REFUSED a refusal (R565). -/
def FabReq.outcome (r : FabReq) : AccOut :=
  let st := r.parts.map fun p => (p.ans.map (·.1)).getD 0
  if st.contains 2 then .err
  else if st.any fun s => s != 0 then .refused
  else .ok (if r.write then [] else r.parts.flatMap fun p => (p.ans.map (·.2)).getD [])

/-- A device access to the fabric window: a request that is whole is answered and forgotten, one under way
waits, a new one is translated and sent. -/
def Dev.fabWin (sp : Spine) (d : Dev) (q : Req) (a n : Nat) (write : Bool) (data : List Byte) (tell : Bool) : AccOut × Dev :=
  let mine := fun (r : FabReq) => !r.tell && r.uid == q.uid.toNat && r.ch == q.ch.toNat && r.a == a && r.n == n && r.write == write
  match (if tell then none else d.fab.find? mine) with
  | some r => if r.whole then (r.outcome, { d with fab := d.fab.erase r }) else (.wait, d)
  | none =>
    match d.extCheck 1 q a write with
    | (none, d1) => (.refused, d1)
    | (some e, d1) =>
      let target := bitsOf e 21 21 * 2 ^ 21 + a % 2 ^ 21
      match d1.peerOf (bitsOf e 4 14) with
      | none => (if write then .refused else .err, d1)
      | some k =>
        if d1.peerUp k = false then (if write then .refused else .err, d1)
        else
          let lens := fabSplit target n (n / 1024 + 2)
          let parts := lens.zipIdx.map fun x => ({ tag := (d1.tag + x.2) % 65536, len := x.1, ans := none } : FabPart)
          let r : FabReq := { uid := q.uid.toNat, ch := q.ch.toNat, a := a, n := n, write := write, peer := k
                              parts := parts, tell := tell }
          (.wait, { d1 with tag := (d1.tag + parts.length) % 65536, fab := d1.fab ++ [r] }.fabFrames sp k target 0 write data parts)

/-- Send the answers of whole requests whose requesters wait for them. -/
def Dev.fabTell (d : Dev) : Dev :=
  let go := d.fab.filter fun r => r.tell && r.whole
  let rsp := go.flatMap fun r => if r.write then [] else
    match r.outcome with
    | .ok l => [Tx.rsp r.uid r.ch l false]
    | .err => [Tx.rsp r.uid r.ch [] true]
    | _ => [Tx.rsp r.uid r.ch (List.replicate r.n 0) false]
  { d with fab := d.fab.filter fun r => !(r.tell && r.whole), sent := d.sent ++ rsp }

/-- An answer of peer `k` to the frame with a tag. -/
def Dev.fabAnswer (d : Dev) (k tag : Nat) (write : Bool) (status : Nat) (data : List Byte) : Dev :=
  let d1 : Dev := { d with fab := d.fab.map fun (r : FabReq) =>
      if r.peer == k && r.write == write then
        { r with parts := r.parts.map fun (p : FabPart) =>
            if p.tag == tag && p.ans.isNone then { p with ans := some (status, fitBytes p.len data) } else p }
      else r }
  d1.fabTell

/-- Has a unit writes under way in the fabric? -/
def Dev.fabWrites (d : Dev) (uid ch : Nat) : Bool :=
  d.fab.any fun r => r.write && r.uid == uid && r.ch == ch && !r.whole
/-- A peer goes DOWN (R564, R569): its reads complete as DATA, its writes as REFUSED, the tasks spilled to it
FAULT. -/
def Dev.peerDown (d : Dev) (k : Nat) : Dev :=
  let d0 : Dev := { d with fab := d.fab.map fun (r : FabReq) =>
      if r.peer == k then
        { r with parts := r.parts.map fun (p : FabPart) =>
            if p.ans.isNone then { p with ans := some (if r.write then 1 else 2, []) } else p }
      else r }
  let d1 := d0.fabTell
  let d2 := (d1.setF (F.EUR_PEER_STAT_UP k) 0).setF F.EUR_STATUS_UP (d1.f F.EUR_STATUS_UP - 1)
  let d3 := (d2.mapPeer k fun _ => Peer.fresh).raise evEurPeerDown (portUid (d.f (F.EUR_PEER_CFG_PORT k)))
  (d3.slots.map (·.1)).foldl (fun d s =>
    if (d.slot s).st = 5 ∧ ((d.slot s).spillTo.map (·.1)) = some k then d.signalEnd s 4 else d) d3

/-- A HELLO of a peer: it comes UP once one of the device's own has gone out. -/
def Dev.helloIn (sp : Spine) (d : Dev) (h : EurIn) : Dev :=
  match d.eurPeerIn h with
  | (none, d1) => d1
  | (some k, d1) =>
    if d1.peerUp k then d1.eurAck sp k h.ack h.credit
    else if (d1.peer k).hello then
      ((d1.setF (F.EUR_PEER_STAT_UP k) 1).setF F.EUR_STATUS_UP (d1.f F.EUR_STATUS_UP + 1)).mapPeer k
        (fun _ => { Peer.fresh with hello := true }) |>.raise evEurPeerUp (portUid (d.f (F.EUR_PEER_CFG_PORT k)))
    else d1

/-- A microsecond in units of Spine.now. -/
def usUnit : Nat := 1000 * nsUnit
/-- A HELLO to each enabled peer every HELLO_US, where 0 acts as 1. -/
def Dev.helloOut (sp : Spine) (d : Dev) : Dev :=
  if sp.now < d.helloAt + max 1 (d.f F.EUR_TIMING_HELLO_US) * usUnit then d
  else d.enabledPeers.foldl (fun d k =>
    let mac := d.f (F.EUR_PEER_MAC_LO_MAC k) + d.f (F.EUR_PEER_MAC_HI_MAC k) * 2 ^ 32
    (d.eurPlain k 11 (leBytes 2 (d.f F.GSO_NODE_ID_NODE_ID) ++ leBytes 6 mac)).mapPeer k fun x => { x with hello := true }) { d with helloAt := sp.now }

/-- Has the oldest unacknowledged frame waited for RTO_US, where 0 acts as 1? -/
def Dev.eurOverdue (sp : Spine) (d : Dev) (k : Nat) : Bool :=
  match (d.peer k).unacked with
  | [] => false
  | f :: _ => decide (f.at_ + max 1 (d.f F.EUR_TIMING_RTO_US) * usUnit ≤ sp.now)
/-- A retransmission timeout: every unacknowledged frame again, from the oldest; after RETRY rounds DOWN. -/
def Dev.retransmit (sp : Spine) (d : Dev) (k : Nat) : Dev :=
  let p := d.peer k
  if d.peerUp k = false ∨ d.eurOverdue sp k = false then d
  else if d.f F.EUR_CFG_RETRY ≤ p.rounds then d.peerDown k
  else
    let base := p.tx + 65536 - p.unacked.length
    let d1 := p.unacked.zipIdx.foldl (fun d x => d.eurWire k x.1.type ((base + x.2) % 65536) x.1.tag x.1.payload) d
    (d1.mapPeer k fun x => { x with rounds := x.rounds + 1, unacked := x.unacked.map fun f => { f with at_ := sp.now } }).countF (F.EUR_PEER_STAT_RETX k) 1

/-! ## Inbound accesses (R566) -/

/-- Is an inbound access within an enabled window, which lies wholly in HBM? -/
def Dev.inWindow (d : Dev) (a n : Nat) (write : Bool) : Bool :=
  (List.range 8).any fun j =>
    let base := d.f (F.EUR_IN_WIN_BASE_BASE j) * 2 ^ 21
    let len := d.f (F.EUR_IN_WIN_LEN_LEN j) * 2 ^ 21
    decide (0 < len) && decide (base + len ≤ 0x400000000) && decide (base ≤ a) && decide (a + n ≤ base + len)
      && (!write || d.fb (F.EUR_IN_WIN_LEN_W j))

/-- Refuse an inbound access: counted, captured, and the event. -/
def Dev.eurRefuse (d : Dev) (port node a : Nat) (write : Bool) : Dev :=
  let d1 := if d.fb F.EUR_REF_STATUS_VALID then d
    else (((d.setF F.EUR_REF_STATUS_VALID 1).setF F.EUR_REF_STATUS_NODE node).setF F.EUR_REF_STATUS_WRITE (b2n write)).setAddr
      F.EUR_REF_ADDR_LO_ADDR F.EUR_REF_ADDR_HI_ADDR a
  (d1.countF F.EUR_REF_STATUS_COUNT 1).raise evEurRefused (portUid port) 0 a

/-- The answer to an inbound access: its status and data. -/
def Dev.eurServe (d : Dev) (port node a n : Nat) (write : Bool) (data : List Byte) : Nat × List Byte × Dev :=
  if d.inWindow a n write then
    if write && data.isEmpty then (0, [], d)
    else
      match d.memAcc a n write data with
      | (.ok l, d1) => (0, l, d1)
      | (_, d1) => (2, [], d1)
  else (1, [], d.eurRefuse port node a write)

/-! ## Spill (R311 to R313, R567) -/

/-- The capacity a peer advertises; stale after 4 × ADV_US. -/
def Dev.peerCapacity (sp : Spine) (d : Dev) (k : Nat) : Nat :=
  match (d.peer k).adv with
  | some (n, t) => if d.peerUp k && decide (sp.now - t ≤ 4 * d.f F.ESL_SPILL_CFG_ADV_US * 1000 * nsUnit) then n else 0
  | none => 0

/-- The peer with the most advertised capacity, on a tie the lowest k. -/
def Dev.spillPeer (sp : Spine) (d : Dev) : Option Nat :=
  let c := (List.range 16).filterMap fun i =>
    if d.fb (F.ESL_SPILL_PEER_EN i) then d.peerOf (d.f (F.ESL_SPILL_PEER_NODE i)) else none
  (c.filter fun k => decide (0 < d.peerCapacity sp k)).foldl (fun b k =>
    match b with
    | none => some k
    | some x => if d.peerCapacity sp x < d.peerCapacity sp k then some k else some x) none

/-- Offer a READY task to a peer. -/
def Dev.spillOffer (sp : Spine) (d : Dev) (s : Nat) : Dev :=
  match (d.slot s).region, d.spillPeer sp with
  | some r, some k =>
    if readyIn r (d.slot s) && !(d.slot s).offered && d.dSpillable s && d.fb F.ESL_SPILL_CFG_OUT_EN && (d.pickUnit sp r s).isNone
        && decide ((d.dDeadline s : Int) - (d.dWcet s : Int) - (timeNs sp : Int) < (d.f F.ESL_SPILL_SLACK_NS : Int))
        && d.f F.ESL_SPILL_SLACK_NS != 0 then
      let tag := d.tag
      let d1 := { d with tag := (d.tag + 1) % 65536 }.eurSend sp k 5 tag (d.bytes (slotAddr s) 64)
      ((d1.mapSlot s fun x => { x with st := 5, spillTo := some (k, tag), offered := true }).traceSlot sp sp.now storeUid 2 s).raise
        (evEsl r 4) storeUid
    else d
  | _, _ => d

/-- A peer's answer to an offer. -/
def Dev.spillAnswer (d : Dev) (k tag status : Nat) : Dev :=
  (d.slots.map (·.1)).foldl (fun d s =>
    let x := d.slot s
    if x.st = 5 ∧ x.fin = none ∧ x.spillTo = some (k, tag) ∧ status ≠ 0 then
      (d.setSlot s { x with st := 3, spillTo := none }).raise (evEsl (x.region.getD 0) 5) storeUid
    else d) d

/-- A peer's completion of a spilled task. -/
def Dev.spillDone (d : Dev) (k : Nat) (rec_ : List Byte) : Dev :=
  let id := ofLeBytes (rec_.take 4)
  let s := id % 2 ^ 16
  let x := d.slot s
  if x.st = 5 ∧ (x.spillTo.map (·.1)) = some k ∧ d.dTaskId s = id then d.signalEnd s (min 4 ((rec_.getD 4 0).toNat)) else d

/-- The origin's cancel of a task it had spilled here. -/
def Dev.spillKill (sp : Spine) (d : Dev) (k id : Nat) : Dev :=
  (d.slots.map (·.1)).foldl (fun d s =>
    let x := d.slot s
    if (x.spillFrom.map (·.1)) = some k ∧ d.dTaskId s = id ∧ x.fin = none then
      if x.st = 4 then d.killRunning s 2 else (d.traceSlot sp sp.now storeUid 3 s).signalEnd s 2
    else d) d

/-- The FREE slots of the spill-in range. -/
def Dev.spillFree (d : Dev) : List Nat :=
  let first := d.f F.ESL_SPILL_IN_FIRST
  ((List.range (d.f F.ESL_SPILL_IN_COUNT)).map fun i => (first + i) % 65536).filter fun s => (d.slot s).st == 0

/-- A task arrives from a peer: into a FREE slot of the range, which the spec leaves open, and released at once;
refused where there is none, or no room (R306, R313). -/
def Dev.spillIn (sp : Spine) (d : Dev) (k port tag : Nat) (desc : List Byte) : Dev :=
  let l := d.spillFree
  match (if d.fb F.ESL_SPILL_CFG_IN_EN then l[(d.draw l.length).1]? else none) with
  | none => d.eurSend sp k 6 tag [1]
  | some s =>
    let d0 := (d.draw l.length).2
    let d1 := (d0.setBytes (slotAddr s) (fitBytes 64 desc)).setSlot s { Slot.free with st := 1, spillFrom := some (k, tag) }
    match d1.chooseRegion sp s with
    | some r =>
      if d1.freeEntries r = 0 then
        (((d1.backpressure sp s r (portUid port)).setSlot s Slot.free).setBytes (slotAddr s) (d.bytes (slotAddr s) 64)).eurSend sp k 6 tag [1]
      else (d1.eurSend sp k 6 tag [0]).release sp s
    | none => (d1.eurSend sp k 6 tag [0]).release sp s

/-- Every ADV_US: the number of FREE slots, to each peer that is UP. -/
def Dev.advertise (sp : Spine) (d : Dev) : Dev :=
  if d.fb F.ESL_SPILL_CFG_IN_EN && decide (d.advAt + d.f F.ESL_SPILL_CFG_ADV_US * usUnit ≤ sp.now) then
    d.enabledPeers.foldl (fun d k => if d.peerUp k then d.eurNote sp k 9 (leBytes 2 d.spillFree.length) else d) { d with advAt := sp.now }
  else d

/-- A kill of a slot's task by task ID (R627). -/
def Dev.killTask (sp : Spine) (d : Dev) (s uid : Nat) : Dev :=
  let x := d.slot s
  if x.st = 0 ∨ x.fin.isSome then d
  else if x.st = 4 then d.killRunning s 2
  else if x.st = 5 then
    (match x.spillTo with
      | some (k, _) => d.eurNote sp k 8 (leBytes 4 (d.dTaskId s))
      | none => d).signalEnd s 2
  else (d.traceSlot sp sp.now uid 3 s).signalEnd s 2

/-- The end of a MISS with KILL_ON_MISS. -/
def Dev.missKill (sp : Spine) (d : Dev) (s : Nat) : Dev :=
  let x := d.slot s
  if x.st = 4 then d.killRunning s 3
  else
    (match x.spillTo with
      | some (k, _) => if x.st = 5 then d.eurNote sp k 8 (leBytes 4 (d.dTaskId s)) else d
      | none => d).signalEnd s 3

end Sys2Proof.Machine
end

