-- ==== Sys2Proof/Machine/Functions.lean ====
section
/-! DEFINITION. The states of the functions, and the trim outputs (R77 to R82, R521 to R534). -/

namespace Sys2Proof.Machine

/-! ## Functions (R77 to R80) -/

/-- The state of a function: 0 ABSENT, 1 STOPPED, 2 STARTING, 3 RUNNING, 4 STOPPING, 5 WEDGED. -/
def Dev.fnState (d : Dev) (n : Nat) : Nat := d.f (F.GSO_FUNC_STATE n)
/-- Set it. -/
def Dev.setFnState (d : Dev) (n s : Nat) : Dev := d.setF (F.GSO_FUNC_STATE n) s
/-- Is a function of the traffic class? -/
def fnTraffic (n : Nat) : Bool := decide (n < 112) || n == 129
/-- STARTING, RUNNING or STOPPING. -/
def Dev.fnActive (d : Dev) (n : Nat) : Bool := within 2 4 (d.fnState n)
/-- STARTING or RUNNING. -/
def Dev.fnUp (d : Dev) (n : Nat) : Bool := within 2 3 (d.fnState n)
/-- The traffic functions. -/
def trafficFns : List Nat := List.range 112 ++ [129]
/-- Is traffic active (R477)? -/
def Dev.traffic (d : Dev) : Bool := trafficFns.any fun n => d.fnActive n
/-- The mode code. -/
def Dev.mode (d : Dev) : Nat := d.f F.GSO_MODE_MODE
/-- May a function be STARTING or RUNNING in a mode (R80)? -/
def fnMayRun (n mode : Nat) : Bool :=
  if fnTraffic n then within 2 4 mode || (n == 129 && mode == 1) else true
/-- The function of the timebase servo. -/
def fnServo : Nat := 128
/-- The function of Glaze. -/
def fnGlaze : Nat := 129

/-! ## Trim outputs -/

/-- The UID of the trim outputs. -/
def trimUid : Uid := hubUid 8
/-- A trim channel. -/
def Dev.trimCh (d : Dev) (c : Nat) : TrimCh := SMap.get d.trim c TrimCh.reset
/-- Change a trim channel. -/
def Dev.mapTrim (d : Dev) (c : Nat) (f : TrimCh → TrimCh) : Dev := { d with trim := SMap.put d.trim c (f (d.trimCh c)) }

/-- A code is handed to a channel; `servo` by the servo (R525). A discarded code is counted; its event comes at
most once per ms. -/
def Dev.trimHand (sp : Spine) (d : Dev) (c code : Nat) (servo : Bool) : Dev :=
  let owned := c == 0 && (d.f F.TB_SERVO_CFG_OUT == 1 || d.f F.TB_SERVO_CFG_OUT == 2)
  if d.fnUp (130 + c) && d.mode != 5 && !bitAt (d.f F.TRM_STATUS_SAFE) c && sp.contain.pkg == 0 && (!owned || servo) then
    d.mapTrim c fun x => { x with next := some code }
  else
    let d1 := d.countF (F.TRM_CH_CNT_DROPPED c) 1
    let recent := match d.trimDrop with
      | some t => decide (sp.now - t < 1000000 * nsUnit)
      | none => false
    if recent then d1 else { d1 with trimDrop := some sp.now }.raise evTrmDrop trimUid

/-- Does a change of code touch any of bits [15:12] (R524)? -/
def majorChange (old new : Nat) : Bool := old / 4096 % 16 != new / 4096 % 16

/-- A channel latches a code: a major transition is held for the deglitcher (R523, R524). -/
def Dev.trimLatch (d : Dev) (c code : Nat) : Dev :=
  let old := d.f (F.TRM_CH_CODE_CUR c)
  ((d.setF (F.TRM_CH_CODE_CUR c) code).countF (F.TRM_CH_CNT_UPDATES c) 1).mapTrim c fun x =>
    if majorChange old code then { x with next := none, safe := false, hold := some code }
    else { x with next := none, safe := false, out := code, hold := none }

/-- An update boundary: each channel latches its safe code, or the last code accepted since the previous one; one that
has left service meanwhile holds its code (R527). -/
def Dev.trimBoundary (d : Dev) : Dev :=
  (List.range 4).foldl (fun d c =>
    let x := d.trimCh c
    if x.safe then d.trimLatch c (d.f (F.TRM_CH_CFG_SAFE c))
    else match x.next with
      | some v => if d.fnActive (130 + c) then d.trimLatch c v else d.mapTrim c fun x => { x with next := none }
      | none => d) d

/-- A fault that reaches the AON (R528): every channel is to latch its safe code; one with
SAFE = 1 holds it already (R533). -/
def Dev.trimFault (d : Dev) (cause : Nat) : Dev :=
  let d1 := (List.range 4).foldl (fun d c => d.mapTrim c fun x => { x with next := none, safe := x.safe || !bitAt (d.f F.TRM_STATUS_SAFE) c }) d
  ((d1.setF F.TRM_STATUS_SAFE 15).setF F.TRM_STATUS_CAUSE cause).raise evTrmSafe trimUid

/-- The no-image state (R528): after a full reset the driving channels go safe; those at high impedance stay. -/
def Dev.trimNoImage (d : Dev) : Dev :=
  let hiz := d.f F.TRM_STATUS_HIZ
  let d1 := (List.range 4).foldl (fun d c =>
    if bitAt hiz c then d
    else (d.mapTrim c fun x => { x with next := none, safe := true }).setF F.TRM_STATUS_SAFE (Nat.lor (d.f F.TRM_STATUS_SAFE) (2 ^ c))) d
  (d1.setF F.TRM_STATUS_CAUSE 4).raise evTrmSafe trimUid

/-- The booting image's records have been applied: a channel at high impedance latches its safe code and drives
(R531). -/
def Dev.trimVerified (d : Dev) : Dev :=
  (List.range 4).foldl (fun d c =>
    if bitAt (d.f F.TRM_STATUS_HIZ) c then
      let v := d.f (F.TRM_CH_CFG_SAFE c)
      ((d.setF (F.TRM_CH_CODE_CUR c) v).setF F.TRM_STATUS_HIZ (setBits (d.f F.TRM_STATUS_HIZ) c 1 0)).mapTrim c fun x =>
        { x with out := v, hold := none, next := none, safe := false }
    else d) d

/-- A write of TRM_WDOG: TIMEOUT_MS, then KICK (R530). A kick counts once the device has reached DORMANT. -/
def Dev.wdogWrite (sp : Spine) (d : Dev) (v : Word) : Dev :=
  let ms := v.toNat % 2 ^ 16
  let d1 := ({ d with wdogAt := if ms = 0 then d.wdogAt else sp.now } : Dev).setF F.TRM_WDOG_TIMEOUT_MS ms
  if ms = 0 then d1.setF F.TRM_WDOG_RUN 0
  else if bitAt v.toNat 16 && d.fb F.HST_STATUS_DORMANT then d1.setF F.TRM_WDOG_RUN 1
  else d1

/-- The trim watchdog expires: TIMEOUT_MS has passed without a kick. -/
def Dev.wdogExpire (sp : Spine) (d : Dev) : Dev :=
  if d.fb F.TRM_WDOG_RUN && decide (d.wdogAt + d.f F.TRM_WDOG_TIMEOUT_MS * 1000000 * nsUnit ≤ sp.now) then ((d.setF F.TRM_WDOG_RUN 0).raise evTrmWdog trimUid).trimFault 3 else d

end Sys2Proof.Machine
end

