-- ==== Sys2Proof/Machine/Timebase.lean ====
section
/-! DEFINITION. The timebase: the tick, the servo, holdover and PPS (R468 to R488). -/

namespace Sys2Proof.Machine

/-- The timebase's UID. -/
def tbUid : Uid := hubUid 7

/-! ## The tick (R469, R485) -/

/-- The increment of one tick in units of 2^-48 ns: 1.25 ns × (1 + r × 2^-40). -/
def Dev.tickDelta (d : Dev) : Nat := (5 * 2 ^ 46 + 320 * d.fs F.TB_RATE_RATE).toNat

/-- Nanoseconds as time units. -/
def nsToUnits (ns : Int) : Int := ns * (nsUnit : Int)
/-- A time's value of 2^-16 ns, as the registers and captures show it. -/
def frac16 (t : Nat) : Nat := t / 2 ^ 32

/-! ## States and holdover (R479, R480) -/

/-- Set TB_RATE from a frequency in units of 2^-85 × 10^-9 ppb; how a rate that is no whole word is rounded is
open (log entry 33). -/
def Dev.setRate (d : Dev) (y : Int) : Dev :=
  let den : Int := ((2 ^ 45 * 10 ^ 18 : Nat) : Int)
  let r0 := y / den
  let up := d.draw 2
  let r := if y % den = 0 then (r0, d) else (r0 + (up.1 : Int), up.2)
  r.2.setF F.TB_RATE_RATE (wrapInt 32 (clampInt (-(2 ^ 31)) (2 ^ 31 - 1) r.1))

/-- Enter a servo state; entries to LOCKED and HOLDOVER raise their events. -/
def Dev.servoState (d : Dev) (s : Nat) : Dev :=
  let d1 := d.setF F.TB_STATUS_STATE s
  if d.f F.TB_STATUS_STATE = s then d1
  else if s = 2 then d1.raise evTbLock tbUid
  else if s = 3 then d1.raise evTbHoldover tbUid
  else d1

/-- Does the frequency term go to the digital rate (OUT 0, and 3 which acts as 0)? -/
def Dev.rateHasFreq (d : Dev) : Bool := d.f F.TB_SERVO_CFG_OUT == 0 || d.f F.TB_SERVO_CFG_OUT == 3

/-- Set a holdover cause; once a sample has been applied since power-up the servo holds over. -/
def Dev.setCause (d : Dev) (bit : Nat) : Dev :=
  let d1 := d.setF F.TB_STATUS_HCAUSE (Nat.lor (d.f F.TB_STATUS_HCAUSE) (2 ^ bit))
  if d.f F.TB_STATUS_STATE = 0 ∨ d.f F.TB_STATUS_STATE = 3 then d1
  else (d1.setRate (if d.rateHasFreq then d.tb.freq else 0)).servoState 3

/-- The servo acquires: its wait for a sample begins. -/
def Dev.acquire (sp : Spine) (d : Dev) : Dev := ({ d with tb := { d.tb with heard := sp.now } } : Dev).servoState 1
/-- Clear a holdover cause; when the last clears in HOLDOVER the servo acquires. -/
def Dev.clearCause (sp : Spine) (d : Dev) (bit : Nat) : Dev :=
  let h := d.f F.TB_STATUS_HCAUSE
  let h' := if bitAt h bit then h - 2 ^ bit else h
  let d1 := d.setF F.TB_STATUS_HCAUSE h'
  if h ≠ 0 ∧ h' = 0 ∧ d.f F.TB_STATUS_STATE = 3 then d1.acquire sp else d1

/-! ## Reference (R471, R473) -/

/-- The reference is lost. -/
def Dev.refLost (d : Dev) : Dev :=
  (((d.setF F.TB_REF_STAT_LOCK 0).setF F.TB_REF_STAT_LOSS 1).raise evTbRefLoss tbUid).setCause 1
/-- Is the selected reference a valid code? -/
def Dev.refValid (d : Dev) : Bool := d.fb F.TB_REF_CFG_SEL || decide (d.f F.TB_REF_CFG_FREQ ≤ 10)
/-- The PLL locks. -/
def Dev.refLocked (sp : Spine) (d : Dev) : Dev := if d.refValid then (d.setF F.TB_REF_STAT_LOCK 1).clearCause sp 1 else d

/-! ## Samples (R474, R475) -/

/-- A sample is committed, in 2^-16 ns: one that meets a step is discarded; one not yet taken is replaced. -/
def Dev.commitSample (sp : Spine) (d : Dev) (x : Int) : Dev :=
  if d.fb F.TB_STATUS_STEPPING then d.countF F.TB_OFFSET_LOST_COUNT 1
  else
    let d1 := if d.tb.sample.isSome then d.countF F.TB_OFFSET_LOST_COUNT 1 else d
    ({ d1 with tb := { d1.tb with sample := some x, heard := sp.now } } : Dev).clearCause sp 0

/-- A write of TB_OFFSET_IN_LO: ignored while SRC is 1. -/
def Dev.offsetLo (d : Dev) (v : Word) : Dev :=
  if d.fb F.TB_SERVO_CFG_SRC then d else { d with tb := { d.tb with ofsLo := v.toNat } }
/-- A write of TB_OFFSET_IN_HI commits the sample. -/
def Dev.offsetHi (sp : Spine) (d : Dev) (v : Word) : Dev :=
  if d.fb F.TB_SERVO_CFG_SRC then d else d.commitSample sp (sx 48 (d.tb.ofsLo + v.toNat % 2 ^ 16 * 2 ^ 32))

/-- A PPS_IN edge (R487): captured within ±1 ns, corrected by the delay; with SRC 1 it is a sample, the distance
to the nearest whole second, a tie to the earlier. -/
def Dev.ppsIn (sp : Spine) (d : Dev) (rising : Bool) : Dev :=
  if d.fb F.TB_PPS_IN_CFG_EN && (rising != d.fb F.TB_PPS_IN_CFG_EDGE) then
    let e := d.draw (2 * 65536 + 1)
    let sec : Int := 10 ^ 9 * 65536
    let t : Int := (frac16 sp.now : Int) + (e.1 : Int) - 65536 - d.fs F.TB_PPS_IN_CFG_DELAY_NS * 65536
    let m := t % sec
    let d1 := ((e.2.setF F.TB_PPS_IN_NS_NS (m / 65536).toNat).setF F.TB_PPS_IN_FRAC_FRAC (m % 65536).toNat).raise evTbPpsIn tbUid
    if d.fb F.TB_SERVO_CFG_SRC then d1.commitSample sp (if m * 2 ≤ sec then m else m - sec) else d1
  else d

/-- No sample for TIMEOUT_MS, where 0 acts as 1, while LOCKED or ACQUIRING. -/
def Dev.noInput (sp : Spine) (d : Dev) : Dev :=
  if (d.f F.TB_STATUS_STATE = 1 ∨ d.f F.TB_STATUS_STATE = 2) ∧
      d.tb.heard + max 1 (d.f F.TB_HOLD_CFG_TIMEOUT_MS) * 1000000 * nsUnit ≤ sp.now then d.setCause 0 else d

/-! ## The loop (R476 to R479) -/

/-- One ppb in units of 2^-85 × 10^-9 ppb. -/
def ppbUnit : Int := ((2 ^ 85 * 10 ^ 9 : Nat) : Int)
/-- KP and KI, limited to their ranges. -/
def Dev.kp (d : Dev) : Int := clampInt (-8) 11 (d.fs F.TB_SERVO_CFG_KP)
def Dev.ki (d : Dev) : Int := clampInt (-12) 21 (d.fs F.TB_SERVO_CFG_KI)

/-- The frequency term after a sample `x` (2^-16 ns), `dt` after the previous one (2^-48 ns, at most 16 s). -/
def Dev.nextFreq (d : Dev) (x : Int) (dt : Nat) : Int :=
  clampInt (-100000 * ppbUnit) (100000 * ppbUnit) (d.tb.freq - x * (dt : Int) * ((2 ^ (21 - d.ki).toNat : Nat) : Int))
/-- The phase term of a sample. -/
def Dev.phaseTerm (d : Dev) (x : Int) : Int :=
  let p := -x * ((2 ^ (69 - d.kp).toNat : Nat) : Int) * 10 ^ 9
  let lim : Int := if d.traffic then ((min 50 (d.f F.TB_SLEW_MAX_PPB) : Nat) : Int) else 100000
  clampInt (-lim * ppbUnit) (lim * ppbUnit) p

/-- The TRIM_0 code of a term (R478). -/
def Dev.trimCode (d : Dev) (y : Int) : Nat :=
  (clampInt 0 65535 ((d.f F.TB_TRIM_CENTRE_CENTRE : Int) + y * d.fs F.TB_TRIM_SLOPE_SLOPE / (ppbUnit * 256))).toNat

/-- Apply a sample. -/
def Dev.applySample (sp : Spine) (d : Dev) (x : Int) : Dev :=
  let dt := match d.tb.last with
    | some t => min (sp.now - t) (16 * 10 ^ 9 * nsUnit)
    | none => 0
  let f := d.nextFreq x dt
  let p := d.phaseTerm x
  let out := d.f F.TB_SERVO_CFG_OUT
  let inLock := decide ((Int.natAbs x : Nat) ≤ d.f F.TB_SERVO_CFG_LOCK_NS * 65536)
  let farOff := decide (4 * d.f F.TB_SERVO_CFG_LOCK_NS * 65536 < Int.natAbs x)
  let lock := if inLock then d.tb.lock + 1 else 0
  let shown := clampInt (-(2 ^ 31)) (2 ^ 31 - 1) (f * 65536 / ppbUnit)
  let d1 := ({ d with tb := { d.tb with freq := f, last := some sp.now, lock := lock
                                        flog := d.tb.flog.map (· ++ [(sp.now, shown)]) } } : Dev).setF F.TB_FREQ_F (wrapInt 32 shown)
  let d2 := d1.setRate (if out = 1 then 0 else if out = 2 then p else f + p)
  let d3 := if out = 1 then d2.trimHand sp 0 (d2.trimCode (f + p)) true
    else if out = 2 then d2.trimHand sp 0 (d2.trimCode f) true else d2
  let st := d3.f F.TB_STATUS_STATE
  let d4 := if st = 0 then d3.acquire sp else if st = 2 ∧ farOff then d3.servoState 1 else d3
  if d4.f F.TB_STATUS_STATE = 1 ∧ max 1 (d.f F.TB_SERVO_CFG_LOCK_CNT) ≤ lock then d4.servoState 2 else d4

/-- Does a sample fail the jump test (R482)? -/
def Dev.jumps (d : Dev) (x : Int) : Bool :=
  decide ((d.f F.TB_BACKSTEP_LIMIT_NS : Int) * 65536 < x) || decide (x < -(d.f F.TB_STEP_LIMIT_NS : Int) * 65536)

/-- One servo cycle takes the committed sample (R475, R482): the device after it, and the self-step it asks for
(2^-16 ns). -/
def Dev.servoSample (sp : Spine) (d : Dev) (x : Int) : Dev × Option Int :=
  let d1 := ({ d with tb := { d.tb with sample := none } } : Dev).setF F.TB_LAST_OFFSET_NS
    (wrapInt 32 (clampInt (-(2 ^ 31)) (2 ^ 31 - 1) (x / 65536)))
  let jumped := bitAt (d1.f F.TB_STATUS_HCAUSE) 3
  if d1.jumps x then
    if !d1.traffic && d1.fb F.TB_SERVO_CFG_AUTO_STEP then
      if d1.fb F.TB_STATUS_STEPPING then (d1, none)
      else ({ d1 with tb := { d1.tb with own := true } }, some (-x))
    else
      let d2 := ({ d1 with tb := { d1.tb with pend := x } } : Dev).setF F.TB_STATUS_JUMP_PEND 1
      let d3 := if jumped then d2 else d2.raise (if 0 < x then evTbBackjump else evTbFwdjump) tbUid
      (d3.setCause 3, none)
  else if d1.fb F.TB_STATUS_JUMP_PEND then
    ((({ d1 with tb := { d1.tb with pend := 0 } } : Dev).setF F.TB_STATUS_JUMP_PEND 0).clearCause sp 3, none)
  else if d1.f F.TB_STATUS_HCAUSE ≠ 0 then (d1, none)
  else (d1.applySample sp x, none)

/-! ## PPS_OUT (R488) -/

/-- The last whole second whose target, COMP_NS early, has been reached. -/
def Dev.ppsSecond (d : Dev) (t : Nat) : Nat :=
  (((t : Int) + nsToUnits (d.fs F.TB_PPS_OUT_CFG_COMP_NS)) / nsToUnits (10 ^ 9)).toNat
/-- PPS_OUT rises. -/
def Dev.ppsRise (sp : Spine) (d : Dev) : Dev :=
  if d.fb F.TB_PPS_OUT_CFG_EN && decide (d.tb.ppsSec < d.ppsSecond sp.now) then
    { d with tb := { d.tb with pps := true, ppsSec := d.ppsSecond sp.now, ppsAt := sp.now } }
  else d
/-- PPS_OUT falls WIDTH_MS after its rise, where 0 acts as 1. -/
def Dev.ppsFall (sp : Spine) (d : Dev) : Dev :=
  if d.fb F.TB_PPS_OUT_CFG_EN && decide (d.tb.ppsAt + max 1 (d.f F.TB_PPS_OUT_CFG_WIDTH_MS) * 1000000 * nsUnit ≤ sp.now) then { d with tb := { d.tb with pps := false } } else d
/-- A write of TB_PPS_OUT_CFG: the pin falls when EN clears; when EN sets, the next target is the first at or after
now. -/
def Dev.ppsOutWrite (sp : Spine) (d : Dev) (v : Word) : Dev :=
  let d1 := d.plainWrite F.TB_PPS_OUT_CFG_EN.addr v
  if d1.fb F.TB_PPS_OUT_CFG_EN = false then { d1 with tb := { d1.tb with pps := false } }
  else if d.fb F.TB_PPS_OUT_CFG_EN then d1
  else { d1 with tb := { d1.tb with ppsSec := d1.ppsSecond (sp.now - 1) } }

end Sys2Proof.Machine
end

