-- ==== Sys2Proof/Machine/Air.lean ====
section
/-! DEFINITION. Air-interface time: the slots and symbols of a broadband carrier (R94 to R98, R101). -/

namespace Sys2Proof.Machine

/-- The timing of a numerology: slots of a frame, symbols of a slot, one sample in units of a third of 2^-48 ns,
samples of the FFT, of the long and of the normal cyclic prefix, and the nominal slot in ns. -/
structure Air where
  slots : Nat
  syms : Nat
  unit : Nat
  fft : Nat
  cpL : Nat
  cpN : Nat
  slotNs : Nat
  deriving DecidableEq, Repr

/-- The table of R94: RAT, µ and extended cyclic prefix. -/
def airOf (lte : Bool) (mu : Nat) (ecp : Bool) : Air :=
  if lte then
    (if ecp then ⟨10, 12, 3125 * 2 ^ 43, 2048, 512, 512, 1000000⟩ else ⟨10, 14, 3125 * 2 ^ 43, 2048, 160, 144, 1000000⟩)
  else if mu = 0 then ⟨10, 14, 3125 * 2 ^ 42, 4096, 320, 288, 1000000⟩
  else if mu = 1 then ⟨20, 14, 3125 * 2 ^ 41, 4096, 352, 288, 500000⟩
  else if ecp then ⟨40, 12, 3125 * 2 ^ 41, 2048, 512, 512, 250000⟩
  else ⟨40, 14, 3125 * 2 ^ 41, 2048, 208, 144, 250000⟩

/-- Is a carrier LTE? Codes 2 and 3 act as NR. -/
def Dev.carrLte (d : Dev) (n : Nat) : Bool := d.f (F.GSO_CARR_RAT n) == 1
/-- The timing of a carrier. -/
def Dev.air (d : Dev) (n : Nat) : Air := airOf (d.carrLte n) (min 2 (d.f (F.GSO_CARR_MU n))) (d.fb (F.GSO_CARR_ECP n))

/-- One nanosecond in thirds of 2^-48 ns. -/
def ns3 : Nat := 3 * nsUnit
/-- A radio frame in those units. -/
def frame3 : Nat := 10000000 * ns3

/-- Does the long cyclic prefix fall on a symbol (R95)? -/
def Air.long (a : Air) (slot sym : Nat) : Bool :=
  if a.slots = 10 then a.syms == 14 && sym % 7 == 0
  else if a.slots = 20 then sym == 0
  else a.syms == 14 && sym == 0 && slot % 2 == 0
/-- Samples of a symbol. -/
def Air.symLen (a : Air) (slot sym : Nat) : Nat := a.fft + if a.long slot sym then a.cpL else a.cpN
/-- Samples from the start of a slot to a symbol. -/
def Air.symOff (a : Air) (slot sym : Nat) : Nat :=
  sym * (a.fft + a.cpN) + ((List.range sym).filter (a.long slot)).length * (a.cpL - a.cpN)
/-- Samples from the start of the frame to a slot. -/
def Air.slotOff (a : Air) (slot : Nat) : Nat :=
  slot / 2 * (a.symOff 0 a.syms + a.symOff 1 a.syms) + if slot % 2 = 1 then a.symOff 0 a.syms else 0
/-- Symbols of a frame. -/
def Air.perFrame (a : Air) : Nat := a.slots * a.syms
/-- The start of symbol `i` of a frame, after the frame's. -/
def Air.at_ (a : Air) (i : Nat) : Nat := (a.slotOff (i / a.syms) + a.symOff (i / a.syms) (i % a.syms)) * a.unit
/-- T_sym: the normal symbol. -/
def Air.tsym (a : Air) : Nat := (a.fft + a.cpN) * a.unit

/-- The carrier's frame offset (R96). -/
def Dev.carrOfs (d : Dev) (n : Nat) : Nat := d.f (F.GSO_CARR_OFS_OFFSET_NS n) % 10000000 * ns3
/-- The start of a carrier's symbol, numbered from its first frame boundary, in thirds of 2^-48 ns. -/
def Dev.symStart (d : Dev) (n k : Nat) : Int :=
  let a := d.air n
  ((d.carrOfs n + k / a.perFrame * frame3 + a.at_ (k % a.perFrame) : Nat) : Int)
/-- The end of a symbol. -/
def Dev.symEnd (d : Dev) (n k : Nat) : Int := d.symStart n (k + 1)
/-- The frame that holds a time. -/
def Dev.frameAt (d : Dev) (n : Nat) (t : Int) : Nat := ((t - (d.carrOfs n : Int)) / (frame3 : Int)).toNat
/-- The first symbol that starts at or after a time. -/
def Dev.symFrom (d : Dev) (n : Nat) (t : Int) : Nat :=
  let a := d.air n
  let f := d.frameAt n t
  f * a.perFrame + ((List.range a.perFrame).filter fun i => decide (d.symStart n (f * a.perFrame + i) < t)).length
/-- The first symbol of the first slot that starts at or after a time. -/
def Dev.slotFrom (d : Dev) (n : Nat) (t : Int) : Nat :=
  let a := d.air n
  (d.symFrom n t + a.syms - 1) / a.syms * a.syms
/-- The last symbol of the last slot that has started by a time; none before the first. -/
def Dev.lastOfSlot (d : Dev) (n : Nat) (t : Int) : Option Nat :=
  let s := d.slotFrom n (t + 1)
  if s = 0 then none else some (s - 1)
/-- The time now, in those units. -/
def now3 (sp : Spine) : Int := ((3 * sp.now : Nat) : Int)

/-- The effective HARQ budget (R101): half-slots, clamped to the mode's range. -/
def Dev.effBudget (d : Dev) (n : Nat) : Nat :=
  let b := min 6 (max 3 (d.f (F.GSO_CARR_HARQ_BUDGET n)))
  if d.mode = 3 then 3 else max 4 b

end Sys2Proof.Machine
end

