-- ==== Sys2Proof/Machine/FhBase.lean ====
section
/-! DEFINITION. The fronthaul ports: links, timestamps, stream tables and windows (R435 to R437, R443 to R445, R459 to
R464). -/

namespace Sys2Proof.Machine

/-! ## Ports, lanes and links (R435, R437, R459 to R461, R464) -/

/-- A port. -/
def Dev.fhPort (d : Dev) (p : Nat) : FhPort := SMap.get d.fh p FhPort.idle
/-- Change a port. -/
def Dev.mapFh (d : Dev) (p : Nat) (f : FhPort → FhPort) : Dev := { d with fh := SMap.put d.fh p (f (d.fhPort p)) }
/-- A queue position. -/
def Dev.fhQ (d : Dev) (q : Nat) : FhQueue := SMap.get d.fhq q FhQueue.idle
/-- Change a queue position. -/
def Dev.mapQ (d : Dev) (q : Nat) (f : FhQueue → FhQueue) : Dev := { d with fhq := SMap.put d.fhq q (f (d.fhQ q)) }
/-- A carrier on a queue position; none while nothing of it is admitted. -/
def Dev.flowOf (d : Dev) (q c : Nat) : Option FhFlow := SMap.get d.flow (q * 64 + c) none
/-- Replace it. -/
def Dev.setFlow (d : Dev) (q c : Nat) (x : Option FhFlow) : Dev := { d with flow := SMap.set d.flow (q * 64 + c) x none }

/-- The mode of the group of a port; 5 to 7 act as 2. -/
def Dev.fhMode (d : Dev) (p : Nat) : Nat :=
  let m := d.f (F.FH_PORT_CFG_MODE (p / 4 * 4))
  if 5 ≤ m then 2 else m
/-- The port that occupies a position. -/
def Dev.portOf (d : Dev) (q : Nat) : Nat :=
  if d.fhMode q = 0 then q / 4 * 4 else if d.fhMode q = 1 then q / 2 * 2 else q
/-- The positions a port occupies; none where no port stands. -/
def Dev.positions (d : Dev) (p : Nat) : List Nat := (List.range 16).filter fun q => d.portOf q == p
/-- The function of a port. -/
def fnPort (p : Nat) : Nat := 112 + p
/-- Does a port stand at a position, with its lanes powered (R437)? -/
def Dev.portLive (d : Dev) (p : Nat) : Bool := d.portOf p == p && within 2 5 (d.fnState (fnPort p))
/-- May a port send and accept frames? -/
def Dev.portLinked (d : Dev) (p : Nat) : Bool := d.portLive p && d.fb (F.FH_PORT_STATUS_LINK p)

/-- Is the recovered clock of the selected port squelched (R459)? -/
def Dev.squelch (d : Dev) : Bool :=
  let p := d.f (F.FH_SYNCE_PORT 0)
  !(d.fb (F.FH_PORT_STATUS_LINK p) && d.fnState (fnPort p) == 3)
/-- Does SYNCE_OUT carry the recovered clock? It is held low while EN is 0 and while the clock is squelched (R459). -/
def Dev.synceOut (d : Dev) : Bool := d.fb (F.FH_SYNCE_EN 0) && !d.fb (F.FH_SYNCE_SQUELCHED 0)
/-- Squelch follows the selected port; `link` a link-down has just raised the event of this entry. -/
def Dev.synce (d : Dev) (link : Bool) : Dev :=
  let was := d.fb (F.FH_SYNCE_SQUELCHED 0)
  let d1 := d.setF (F.FH_SYNCE_SQUELCHED 0) (b2n d.squelch)
  if d.squelch && !was then
    let d2 := if link then d1 else d1.raise (evFh (d.f (F.FH_SYNCE_PORT 0)) 0) (portUid (d.f (F.FH_SYNCE_PORT 0)))
    if d.fb F.TB_REF_CFG_SEL then d2.refLost else d2
  else d1

/-- The link of a port comes up. -/
def Dev.fhLinkUp (d : Dev) (p : Nat) : Dev :=
  if d.portLive p && !d.fb (F.FH_PORT_STATUS_LINK p) then
    ((d.setF (F.FH_PORT_STATUS_LINK p) 1).raise (evFh p 0) (portUid p)).synce false
  else d

/-- The link of a port goes down: carrier-symbols being sent are discarded (R466). -/
def Dev.fhLinkDown (d : Dev) (p : Nat) : Dev :=
  if d.fb (F.FH_PORT_STATUS_LINK p) then
    let d1 := ((d.setF (F.FH_PORT_STATUS_LINK p) 0).setF (F.FH_PORT_STATUS_TS_VALID p) 0).raise (evFh p 0) (portUid p)
    let d2 := (d1.positions p).foldl (fun d q => d.mapQ q fun x =>
      { x with tx := x.tx.map fun (t : TxSym) => if 0 < t.sent then { t with fin := true, data := [] } else t }) d1
    d2.synce (d.f (F.FH_SYNCE_PORT 0) == p)
  else d

/-- V_rx and V_tx are measured (R461): each lies within 0 to 16 ns. -/
def Dev.tsMeasured (d : Dev) (p rx tx : Nat) : Dev :=
  if d.fb (F.FH_PORT_STATUS_LINK p) && !d.fb (F.FH_PORT_STATUS_TS_VALID p) then
    ((d.setF (F.FH_TS_VAR_RX_V p) (min rx (2 ^ 20))).setF (F.FH_TS_VAR_TX_V p) (min tx (2 ^ 20))).setF
      (F.FH_PORT_STATUS_TS_VALID p) 1
  else d

/-- F_rx and F_tx of a port's rate in 2^-16 ns (R460). -/
def Dev.fixedLat (d : Dev) (p : Nat) : Nat × Nat :=
  match d.fhMode p with
  | 0 => (1223 * 8192, 786 * 8192)
  | 1 => (1284 * 8192, 809 * 8192)
  | 2 => (1370 * 8192, 832 * 8192)
  | 3 => (1907 * 8192, 1052 * 8192)
  | _ => if d.fb (F.FH_PORT_CFG_FEC_OFF (p / 4 * 4)) then (489 * 8192, 420 * 8192) else (2502 * 8192, 1186 * 8192)

/-- What the time-to-digital converter reads at a crossing now, in 2^-16 ns: `err` its error, within 1.5 ns. -/
def tMii (sp : Spine) (err : Int) : Int := (frac16 sp.now : Int) + clampInt (-98304) 98304 err
/-- A receive timestamp referred to the media interface. -/
def Dev.tsRx (sp : Spine) (d : Dev) (p : Nat) (err : Int) : Int :=
  tMii sp err - (((d.fixedLat p).1 + d.f (F.FH_TS_VAR_RX_V p) + d.f (F.FH_TS_BOARD_RX_B p) : Nat) : Int)
    - d.fs (F.FH_TS_CAL_RX_C p)
/-- A transmit timestamp. -/
def Dev.tsTx (sp : Spine) (d : Dev) (p : Nat) (err : Int) : Int :=
  tMii sp err + (((d.fixedLat p).2 + d.f (F.FH_TS_VAR_TX_V p) + d.f (F.FH_TS_BOARD_TX_B p) : Nat) : Int)
    + d.fs (F.FH_TS_CAL_TX_C p)

/-- Count in one of the counters of a port. -/
def Dev.fhCount (d : Dev) (x : Nat → Fld) (p n : Nat) : Dev := d.countF (x p) n
/-- A frame or message that matches nothing. -/
def Dev.unmatched (d : Dev) (p : Nat) : Dev := d.fhCount F.FH_RX_UNMATCHED_COUNT p 1

/-! ## Streams (R443, R444) -/

/-- The enabled entries of a position's table that name a carrier, in table order; `dir` 0 up, 1 down. -/
def Dev.entries (d : Dev) (q c dir : Nat) : List Nat :=
  (List.range 128).filter fun i => d.fb (F.FH_STRM_CFG_EN q i) && d.f (F.FH_STRM_CFG_CARRIER q i) == c
    && d.f (F.FH_STRM_CFG_DIR q i) == dir
/-- SR_DIV of an entry; 3 acts as 2. -/
def Dev.srDiv (d : Dev) (q i : Nat) : Nat := min 2 (d.f (F.FH_STRM_CFG_SR_DIV q i))
/-- Samples of a symbol of a stream. -/
def Dev.strmSamples (d : Dev) (q i k : Nat) : Nat :=
  let a := d.air (d.f (F.FH_STRM_CFG_CARRIER q i))
  a.symLen (k % a.perFrame / a.syms) (k % a.syms) / 2 ^ d.srDiv q i
/-- D: dabs of a stream-symbol. -/
def Dev.dabCount (d : Dev) (q i k : Nat) : Nat := d.strmSamples q i k / 16
/-- Round up to a multiple. -/
def roundUp (n m : Nat) : Nat := (n + m - 1) / m * m
/-- Bytes of a stream-symbol as its two planes. -/
def Dev.strmBytes (d : Dev) (q i k : Nat) : Nat := let n := d.dabCount q i k; roundUp (32 * n) 64 + roundUp n 64
/-- The 16 streams' entry that a 9-bit index names within a port's tables: position and entry. -/
def Dev.entryOf (d : Dev) (p idx : Nat) : Option (Nat × Nat) :=
  let q := p + idx / 128
  if (d.positions p).contains q then some (q, idx % 128) else none
/-- A window set's field of an entry, in thirds of 2^-48 ns. -/
def Dev.winNs (d : Dev) (q i : Nat) (x : Nat → Nat → Fld) : Nat := d.f (x (d.portOf q) (d.f (F.FH_STRM_CFG_WIN q i))) * ns3
/-- O_k, C_k and T_send of an entry's symbol (R445, R97). -/
def Dev.openAt (d : Dev) (q i k : Nat) : Int :=
  let early := d.fs (F.FH_WIN_EARLY_EARLY_NS (d.portOf q) (d.f (F.FH_STRM_CFG_WIN q i)))
  d.symEnd (d.f (F.FH_STRM_CFG_CARRIER q i)) k + early * (ns3 : Int)
def Dev.closeAt (d : Dev) (q i k : Nat) : Int :=
  d.symEnd (d.f (F.FH_STRM_CFG_CARRIER q i)) k + (d.winNs q i F.FH_WIN_LATE_LATE_NS : Int) - (d.winNs q i F.FH_WIN_GUARD_GUARD_NS : Int)
def Dev.sendAt (d : Dev) (q i k : Nat) : Int :=
  d.symStart (d.f (F.FH_STRM_CFG_CARRIER q i)) k - (d.winNs q i F.FH_WIN_DADV_DADV_NS : Int)
/-- MAX_DAB, within 1 to 272. -/
def Dev.maxDab (d : Dev) (p : Nat) : Nat := min 272 (max 1 (d.f (F.FH_PORT_CFG_MAX_DAB p)))

/-- Does a carrier's symbol length divide for every symbol of a stream? -/
def Dev.wholeDabs (d : Dev) (q i : Nat) : Bool :=
  let a := d.air (d.f (F.FH_STRM_CFG_CARRIER q i))
  [(0, 0), (0, 1), (1, 0)].all fun x => a.symLen x.1 x.2 % (16 * 2 ^ d.srDiv q i) == 0
/-- Entries of a carrier on the positions of a port. -/
def Dev.carrEntries (d : Dev) (p c : Nat) : List (Nat × Nat) :=
  (d.positions p).flatMap fun q => ((d.entries q c 0) ++ (d.entries q c 1)).map fun i => (q, i)
/-- Is an entry's PC_ID that of another entry of the same direction on the port? -/
def Dev.pcShared (d : Dev) (p q i : Nat) : Bool :=
  (d.positions p).any fun q' => (List.range 128).any fun i' =>
    (q' != q || i' != i) && d.fb (F.FH_STRM_CFG_EN q' i') && d.f (F.FH_STRM_CFG_DIR q' i') == d.f (F.FH_STRM_CFG_DIR q i)
      && d.f (F.FH_STRM_CFG_PC_ID q' i') == d.f (F.FH_STRM_CFG_PC_ID q i)
/-- The start check of a carrier on a port (R444). -/
def Dev.fhCheck (d : Dev) (p c : Nat) : Bool :=
  let l := d.carrEntries p c
  l.all fun x => d.wholeDabs x.1 x.2 && !d.pcShared p x.1 x.2 &&
    l.all fun y => d.f (F.FH_STRM_CFG_SR_DIV y.1 y.2) == d.f (F.FH_STRM_CFG_SR_DIV x.1 x.2)
/-- The start checks of a carrier: whether it may start, and the device with the failures reported. -/
def Dev.fhStartCheck (d : Dev) (c : Nat) : Bool × Dev :=
  let bad := (List.range 16).filter fun p => d.portOf p == p && !d.fhCheck p c
  (bad.isEmpty, bad.foldl (fun d p => (d.setF (F.FH_PORT_STATUS_CFG_ERR p) 1).raise (evFh p 3) (portUid p)) d)

/-- A carrier starts: its IQ flows from the first slot that begins from now on, downlink from the first slot whose
first check is still to come. -/
def Dev.fhStart (sp : Spine) (d : Dev) (c : Nat) : Dev :=
  (List.range 16).foldl (fun d q =>
    let up := d.entries q c 0
    let dn := d.entries q c 1
    if up.isEmpty && dn.isEmpty then d.setFlow q c none
    else
      let adv := match dn with
        | i :: _ => (d.winNs q i F.FH_WIN_DADV_DADV_NS : Int) + (2000 * ns3 : Nat)
        | [] => 0
      let u := d.slotFrom c (now3 sp)
      let w := d.slotFrom c (now3 sp + adv + 1)
      (d.setFlow q c (some { ul := u, dl := w, fill := w, lim := none })).mapQ q fun x =>
        { x with late := x.late.filter fun l => l.1 != c }) d

/-- A carrier stops: the slots that have begun, and a downlink slot whose checks have begun, are admitted (R70). -/
def Dev.fhStop (sp : Spine) (d : Dev) (c : Nat) : Dev :=
  (List.range 16).foldl (fun d q =>
    match d.flowOf q c with
    | none => d
    | some x =>
      if x.lim.isSome then d else
      let a := d.air c
      let n := match d.lastOfSlot c (now3 sp) with
        | some k => k + 1
        | none => 0
      d.setFlow q c (some { x with lim := some (n, max n (roundUp x.dl a.syms)) })) d

/-- Is an uplink or downlink symbol of a flow admitted? -/
def FhFlow.upOk (x : FhFlow) (k : Nat) : Bool := match x.lim with | none => true | some l => decide (k < l.1)
def FhFlow.dnOk (x : FhFlow) (k : Nat) : Bool := match x.lim with | none => true | some l => decide (k < l.2)

end Sys2Proof.Machine
end

