-- ==== Sys2Proof/Machine/GlzTap.lean ====
section
/-! DEFINITION. Glaze at the ports: probes, their injection, and the capture tap (R496 to R500, R502, R503). -/

namespace Sys2Proof.Machine

/-- Glaze's UID. -/
def glzUid : Uid := hubUid 1
/-- A dab of zero power. -/
def zeroDab : List Byte := List.replicate 33 0

/-! ## Probes (R496 to R498) -/

/-- One step of the recurrences, on 16 successive elements (bit j is element i + j). -/
def stepA (s : Nat) : Nat :=
  s / 2 + (b2n (bitAt s 15) + b2n (bitAt s 13) + b2n (bitAt s 4) + b2n (bitAt s 0)) % 2 * 2 ^ 15
def stepB (s : Nat) : Nat :=
  s / 2 + (b2n (bitAt s 14) + b2n (bitAt s 13) + b2n (bitAt s 11) + b2n (bitAt s 0)) % 2 * 2 ^ 15
/-- The elements from the start on, after n steps. -/
def runA (n s : Nat) : Nat := match n with | 0 => s | k + 1 => runA k (stepA s)
def runB (n s : Nat) : Nat := match n with | 0 => s | k + 1 => runB k (stepB s)
/-- The chips from two register states on, `m` of them; position `i` restarts with the period. -/
def chipsGo (m i k a b : Nat) : List Bool :=
  match m with
  | 0 => []
  | f + 1 =>
    (bitAt a 0 != bitAt b 0) ::
      (if i + 1 = 65535 then chipsGo f 0 k (2 ^ 15) (runB (k % 65535) (2 ^ 15)) else chipsGo f (i + 1) k (stepA a) (stepB b))
/-- The chips of code shift k at samples n to n + m − 1 after a frame boundary: true is chip 1. -/
def chips (k n m : Nat) : List Bool :=
  let i := n % 65535
  chipsGo m i k (runA i (2 ^ 15)) (runB ((i + k) % 65535) (2 ^ 15))

/-- The largest x with x^20 ≤ n, by bits. -/
def root20 (n k r : Nat) : Nat :=
  match k with
  | 0 => r
  | j + 1 => root20 n j (if (r + 2 ^ j) ^ 20 ≤ n then r + 2 ^ j else r)
/-- A at −x dBFS: floor(2^22 × 10^(−x ÷ 20) ÷ √2) (R498). -/
def probeAmp (x : Nat) : Nat := root20 (2 ^ 430 / 10 ^ x) 23 0

/-! ## Injection (R499, R500, R514) -/

/-- Does Glaze act: its function is active and it is in service? -/
def Dev.glzOn (d : Dev) : Bool := d.fnActive 129 && !d.fb F.GLZ_STATUS_QUAR
/-- In COMMISSION the ports send carriers that Glaze calibrates with probes alone (R516). -/
def Dev.probeOnly (d : Dev) (c : Nat) : Bool := d.mode == 1 && d.glzOn && d.fb (F.GLZ_CARR_CFG_EN c)
/-- Does the loopback step run on a port (R517)? -/
def Dev.loopRuns (d : Dev) (p : Nat) : Bool :=
  d.f F.GLZ_STATUS_COMM_STEP == 1 && d.fb (F.GLZ_LOOP_CFG_EN p) && d.f (F.GLZ_LOOP_STAT_STAT p) == 0
/-- The stream entry a map entry names. -/
def Dev.mapEntry (d : Dev) (i : Nat) : Option (Nat × Nat) :=
  if d.fb (F.GLZ_MAP_EN i) then d.entryOf (d.f (F.GLZ_MAP_PORT i)) (d.f (F.GLZ_MAP_ENTRY i)) else none
/-- The map entries a carrier uses. -/
def Dev.carrMaps (d : Dev) (c : Nat) : List Nat :=
  ((List.range (d.f (F.GLZ_CARR_CFG_NANT c))).map fun j => d.f (F.GLZ_CARR_CFG_BASE c) + j) ++
    [d.f (F.GLZ_CARR_MAP_CALRX c), d.f (F.GLZ_CARR_MAP_RXP c)]
/-- The map entry through which a downlink stream of a carrier carries a probe. -/
def Dev.probeMap (d : Dev) (c q i : Nat) : Option Nat :=
  (d.carrMaps c).find? fun m => decide (m < 1024) && d.mapEntry m == some (q, i) && (d.f (F.GLZ_MAP_ROLE m) == 0 || d.f (F.GLZ_MAP_ROLE m) == 3)
/-- Is a symbol open to injection? In LATENCY only those of LMASK and LSLOT. -/
def Dev.injectOpen (d : Dev) (c k : Nat) : Bool :=
  let a := d.air c
  d.glzOn && d.fb (F.GLZ_CARR_CFG_EN c) && (d.mode != 3 ||
    (bitAt (d.f (F.GLZ_CARR_LMASK_SYM c)) (k % a.syms) &&
      bitAt (d.f (F.GLZ_CARR_LSLOT_LO_SLOT c) + d.f (F.GLZ_CARR_LSLOT_HI_SLOT c) * 2 ^ 32) (k / a.syms % a.slots)))
/-- The probe level of a map entry, in −dBFS. -/
def Dev.probeLevel (d : Dev) (c m : Nat) : Nat :=
  if d.f (F.GLZ_MAP_ROLE m) = 3 then d.f F.GLZ_CFG_RXP_DBFS
  else d.f (F.GLZ_CARR_REF_REF_DB c) + if d.mode = 1 then min 45 (d.f F.GLZ_CFG_COMM_DB) else max 20 (min 45 (d.f F.GLZ_CFG_TX_DB))

/-- The samples from the frame boundary to a stream's symbol. -/
def Dev.sampleOfs (d : Dev) (q i k : Nat) : Nat :=
  let a := d.air (d.f (F.FH_STRM_CFG_CARRIER q i))
  let j := k % a.perFrame
  (a.slotOff (j / a.syms) + a.symOff (j / a.syms) (j % a.syms)) / 2 ^ d.srDiv q i

/-- The 32 values of a dab, exactly. -/
def dabValues (w : List Byte) : List Int := (w.drop 1).map fun b => sx 8 b.toNat * ((2 ^ ((w.headD 0).toNat % 16) : Nat) : Int)
/-- The dab of 32 values within the range of exponent 15 (R171, NBIAS 0). -/
def packDab (l : List Int) : List Byte :=
  let e := dabExp l
  BitVec.ofNat 8 e :: l.map fun x => BitVec.ofNat 8 (wrapInt 8 (x / ((2 ^ e : Nat) : Int)))
/-- A sum within the range of exponent 15, and whether it was beyond. -/
def satDab (x : Int) : Int × Nat :=
  if x < -(2 ^ 22) then (-(2 ^ 22), 1) else if (2 ^ 22 : Int) ≤ x then (127 * 2 ^ 15, 1) else (x, 0)
/-- Add the chip values to a dab: the dab, and the saturations. -/
def probeDab (amp : Nat) (w : List Byte) (cs : List Bool) : List Byte × Nat :=
  let v := (dabValues w).zipIdx.map fun x => satDab (x.1 + if cs.getD (x.2 / 2) false then -(amp : Int) else (amp : Int))
  (packDab (v.map (·.1)), (v.map (·.2)).foldl (· + ·) 0)

/-- The dabs of a stream-symbol as sent, the first `live` of them with the probe, and the saturations. -/
def Dev.inject (d : Dev) (q i k : Nat) (dabs : List (List Byte)) (live : Nat) : List (List Byte) × Nat :=
  let c := d.f (F.FH_STRM_CFG_CARRIER q i)
  match (if d.injectOpen c k then d.probeMap c q i else none) with
  | none => (dabs, 0)
  | some m =>
    let cs := chips (d.f (F.GLZ_MAP_CODE m)) (d.sampleOfs q i k) (16 * live)
    let amp := probeAmp (d.probeLevel c m)
    let out := (dabs.take live).zipIdx.map fun x => probeDab amp x.1 ((cs.drop (16 * x.2)).take 16)
    (out.map (·.1) ++ dabs.drop live, (out.map (·.2)).foldl (· + ·) 0)

/-! ## The capture tap (R502, R503) -/

/-- A capture FIFO. -/
def Dev.capt (d : Dev) (k : Nat) : GlzCapt := SMap.get d.glzCapt k GlzCapt.idle
/-- Change one. -/
def Dev.mapCapt (d : Dev) (k : Nat) (f : GlzCapt → GlzCapt) : Dev := { d with glzCapt := SMap.put d.glzCapt k (f (d.capt k)) }
/-- The map entry of the block under way. -/
def GlzCapt.entry (x : GlzCapt) : Nat := if x.same then x.map else x.map + x.blk
/-- The depth of a FIFO. -/
def glzDepth : Nat := 8192

/-- A command of a FIFO ends. -/
def Dev.captEnd (d : Dev) (k : Nat) : Dev :=
  (d.mapCapt k fun x => { x with run := false, wait := false, cur := none, n := 0, part := [], exps := [], zero := false }).setF
    F.GLZ_CAPT_CMD_BUSY (setBits (d.f F.GLZ_CAPT_CMD_BUSY) k 1 0)

/-- The samples (I, Q) of a stream-symbol in order. -/
def dabSamples (dabs : List (List Byte)) : List (Int × Int) :=
  dabs.flatMap fun w => let v := dabValues w; (List.range 16).map fun j => (v.getD (2 * j) 0, v.getD (2 * j + 1) 0)

/-- Take samples of a block into its planes: 16 at a time are packed. -/
def GlzCapt.feed (x : GlzCapt) (l : List (Int × Int)) : GlzCapt :=
  match l with
  | [] => x
  | s :: t =>
    let p := x.part ++ [s]
    if p.length = 16 then
      let w := packDab (p.flatMap fun y => [y.1, y.2])
      ({ x with n := x.n + 1, part := [], exps := x.exps ++ w.take 1, out := x.out ++ w.drop 1 } : GlzCapt).feed t
    else ({ x with n := x.n + 1, part := p } : GlzCapt).feed t

/-- The end of a block: the zero sample, the exponent plane, the header. -/
def Dev.captBlock (d : Dev) (k c sr : Nat) : Dev :=
  let x := d.capt k
  match x.cur with
  | none => d
  | some (frame, j) =>
    let y := x.feed [(0, 0)]
    let a := d.air c
    let t := (d.carrOfs c + frame * frame3 + j * 65535 * 2 ^ sr * a.unit) / ns3
    let hdr := leBytes 2 x.entry ++ leBytes 1 (b2n x.zero) ++ [0] ++ leBytes 8 t ++ leBytes 4 j
    let d1 := (d.mapCapt k fun _ =>
      { y with out := y.out ++ y.exps ++ hdr ++ List.replicate (512 - hdr.length) 0, exps := [], part := [], n := 0, cur := none
               zero := false, blk := x.blk + 1 }).countF F.GLZ_CNT_CAPT_COUNT 1
    if x.blocks ≤ x.blk + 1 then d1.captEnd k else d1

/-- Tap samples `l` of a stream at sample `n` of a frame into a FIFO; blocks begin at the whole periods of a frame. -/
def Dev.tapSamples (d : Dev) (k c sr frame per fuel n : Nat) (l : List (Int × Int)) (zero : Bool) : Dev :=
  match fuel with
  | 0 => d
  | f + 1 =>
    let x := d.capt k
    if x.run = false ∨ l = [] then d
    else
      match x.cur with
      | some _ =>
        let need := 65535 - x.n
        let d1 := d.mapCapt k fun x => { x.feed (l.take need) with zero := x.zero || zero }
        if need ≤ l.length then (d1.captBlock k c sr).tapSamples k c sr frame per f (n + need) (l.drop need) zero else d1
      | none =>
        let j := (n + 65534) / 65535
        let skip := j * 65535 - n
        if skip < l.length ∧ (j + 1) * 65535 ≤ per then
          (d.mapCapt k fun x => { x with cur := some (frame, j), n := 0 }).tapSamples k c sr frame per f (n + skip) (l.drop skip) zero
        else d

/-- A stream-symbol that a port emits reaches the FIFOs whose block captures it. A FIFO that still holds more than its
depth when more data comes drops it: the command ends with OVF (log entry 36). -/
def Dev.tapStream (d : Dev) (q i k : Nat) (dabs : List (List Byte)) (zero : Bool) : Dev :=
  (List.range 4).foldl (fun d f =>
    let x := d.capt f
    if x.run && d.mapEntry x.entry == some (q, i) then
      if glzDepth < x.out.length then
        ((d.captEnd f).setF F.GLZ_CAPT_CMD_OVF (Nat.lor (d.f F.GLZ_CAPT_CMD_OVF) (2 ^ f))).raise evGlzCaptOvf glzUid
      else
        let c := d.f (F.FH_STRM_CFG_CARRIER q i)
        let a := d.air c
        let sr := d.srDiv q i
        let per := a.slotOff a.slots / 2 ^ sr
        d.tapSamples f c sr (k / a.perFrame) per 4 (d.sampleOfs q i k) (dabSamples dabs) zero
    else d) d

/-- A read of a capture FIFO port, and its request line. -/
def Dev.captRead (d : Dev) (k n : Nat) : List Byte × Dev :=
  (fitBytes n (d.capt k).out, d.mapCapt k fun x => { x with out := x.out.drop n })
def Dev.captLine (d : Dev) (k : Nat) : Bool := decide (512 ≤ (d.capt k).out.length)

end Sys2Proof.Machine
end

