-- ==== Sys2Proof/Machine/Fh.lean ====
section
/-! DEFINITION. The fronthaul ports: the receive and transmit paths, and the management windows (R438 to R458, R463). -/

namespace Sys2Proof.Machine

/-! ## Emission (R446, R447) -/

/-- The carriers of a position in ascending order. -/
def carriers : List Nat := List.range 48

/-- The least of a list of (time, carrier, symbol), ties to the lower carrier. -/
def earliest (l : List (Int × Nat × Nat)) : Option (Int × Nat × Nat) :=
  l.foldl (fun b x => match b with
    | none => some x
    | some y => if x.1 < y.1 then some x else some y) none

/-- The carrier-symbol a receive queue emits next: close time, carrier, symbol. -/
def Dev.rxHead (d : Dev) (q : Nat) : Option (Int × Nat × Nat) :=
  let at_ := fun (c k : Nat) => (d.entries q c 0).head?.map fun i => (d.closeAt q i k, c, k)
  match (d.fhQ q).cur with
  | some (c, k) => at_ c k
  | none =>
    earliest (carriers.filterMap fun c =>
      match d.flowOf q c with
      | none => none
      | some x => if x.upOk x.ul then at_ c x.ul else none)

/-- The two planes of a stream-symbol whose dabs are these. -/
def planes (dabs : List (List Byte)) : List Byte :=
  let n := dabs.length
  (dabs.flatMap fun w => w.drop 1) ++ List.replicate (roundUp (32 * n) 64 - 32 * n) 0 ++
    (dabs.map fun w => w.headD 0) ++ List.replicate (roundUp n 64 - n) 0

/-- The capture of a stream-symbol that is emitted (R463). -/
def Dev.takeCapture (d : Dev) (q i k : Nat) : Dev :=
  let p := d.portOf q
  match (d.fhPort p).cap with
  | none => d
  | some idx =>
    if d.entryOf p idx = some (q, i) then
      let t := (d.symStart (d.f (F.FH_STRM_CFG_CARRIER q i)) k).toNat / 3 / 2 ^ 32
      let ns := t / 2 ^ 16
      ((((d.setF (F.FH_TSCAP_NS_LO_NS p) (ns % 2 ^ 32)).setF (F.FH_TSCAP_NS_HI_NS p) (ns / 2 ^ 32)).setF
        (F.FH_TSCAP_FRAC_FRAC p) (t % 2 ^ 16)).setF (F.FH_TSCAP_CTRL_VALID p) 1).mapFh p fun x => { x with cap := none }
    else d

/-- Emit from the head of a receive queue: every stream-symbol that is complete, or, of the carrier-symbol
`close`, every one. -/
def Dev.emit (d : Dev) (q : Nat) (close : Option (Nat × Nat)) (fuel : Nat) : Dev :=
  match fuel with
  | 0 => d
  | n + 1 =>
    match d.rxHead q with
    | none => d
    | some (_, c, k) =>
      let x := d.fhQ q
      let es := d.entries q c 0
      match es[x.done]? with
      | none =>
        let size := (es.map fun i => d.strmBytes q i k).foldl (· + ·) 0
        let d1 := d.mapQ q fun x => { x with out := x.out ++ List.replicate (roundUp size 512 - size) 0, done := 0, cur := none }
        (match d1.flowOf q c with
          | some f => d1.setFlow q c (some { f with ul := k + 1 })
          | none => d1).emit q close n
      | some i =>
        let cnt := d.dabCount q i k
        let got := (x.rx.find? fun y => y.entry == i && y.k == k).map (·.dabs)
        let full : Bool := match got with
          | some m => m.length == cnt
          | none => false
        if full || close == some (c, k) then
          let dabs := if full then (got.getD []).map (·.2) else List.replicate cnt zeroDab
          (((d.takeCapture q i k).tapStream q i k dabs (!full)).mapQ q fun x =>
            { x with out := x.out ++ planes dabs, done := x.done + 1, cur := some (c, k)
                     rx := x.rx.filter fun y => !(y.entry == i && y.k == k) }).emit q close n
        else d

/-- The steps an emission can take. -/
def emitFuel : Nat := 4096

/-- Close the head carrier-symbol of a position, once its close time has come. -/
def Dev.symbolClose (sp : Spine) (d : Dev) (q : Nat) : Dev :=
  match d.rxHead q with
  | some (t, c, k) => if t ≤ now3 sp then d.emit q (some (c, k)) emitFuel else d
  | none => d

/-- A read of the receive FIFO port: bytes that are not there read zero, and the read is counted. -/
def Dev.rxFifo (d : Dev) (q n : Nat) : List Byte × Dev :=
  let l := (d.fhQ q).out
  let d1 := d.mapQ q fun x => { x with out := x.out.drop n }
  (fitBytes n l, if l.length < n then d1.fhCount F.FH_RX_OVF_COUNT (d.portOf q) 1 else d1)
/-- The receive request line of a position. -/
def Dev.rxLine (d : Dev) (q : Nat) : Bool := decide (512 ≤ (d.fhQ q).out.length)

/-! ## Reception of IQ (R440 to R445, R450, R455) -/

/-- The size of a queue's buffer. -/
def fhBuf : Nat := 2 ^ 21
/-- Bytes a receive queue holds: emitted and unread, and of dabs that wait. -/
def FhQueue.held (x : FhQueue) : Nat := x.out.length + 33 * (x.rx.map fun y => y.dabs.length).foldl (· + ·) 0

/-- The uplink entry of a port with a PC_ID. -/
def Dev.upEntry (d : Dev) (p pc : Nat) : Option (Nat × Nat) :=
  ((d.positions p).flatMap fun q => (List.range 128).map fun i => (q, i)).find? fun x =>
    d.fb (F.FH_STRM_CFG_EN x.1 x.2) && d.f (F.FH_STRM_CFG_DIR x.1 x.2) == 0 && d.f (F.FH_STRM_CFG_PC_ID x.1 x.2) == pc

/-- Split into pieces of `n` bytes. -/
def chunk (n fuel : Nat) (l : List Byte) : List (List Byte) :=
  match fuel with
  | 0 => []
  | f + 1 => if l.isEmpty then [] else l.take n :: chunk n f (l.drop n)

/-- The symbol a section names (R441): none outside the carrier's numerology. `t` the message's timestamp. -/
def Dev.sectionSym (d : Dev) (c : Nat) (t : Int) (frame sub slot sym : Nat) : Option Nat :=
  let a := d.air c
  let per := a.slots / 10
  if 9 < sub ∨ a.syms ≤ sym ∨ per ≤ slot then none
  else
    let f0 := d.frameAt c t
    let f : Int := (f0 : Int) + ((frame + 128 + 256 - f0 % 256) % 256 : Nat) - 128
    if f < 0 then none else some (f.toNat * a.perFrame + (sub * per + slot) * a.syms + sym)

/-- A received dab as it is kept: bits [7:4] of the exponent zero. -/
def cleanDab (w : List Byte) : List Byte := (w.headD 0 &&& 15) :: w.drop 1

/-- Hold the dabs of a message, or drop it for want of room. -/
def Dev.holdDabs (d : Dev) (p q i k start : Nat) (dabs : List (List Byte)) : Dev :=
  let x := d.fhQ q
  if fhBuf < x.held + 33 * dabs.length then (d.fhCount F.FH_RX_OVF_COUNT p 1).raise (evFh p 3) (portUid p)
  else
    let old := ((x.rx.find? fun y => y.entry == i && y.k == k).map (·.dabs)).getD []
    let new := dabs.zipIdx.foldl (fun m z => SMap.put m (start + z.2) (cleanDab z.1)) old
    (d.mapQ q fun x => { x with rx := (x.rx.filter fun y => !(y.entry == i && y.k == k)) ++ [{ entry := i, k := k, dabs := new }] }).emit
      q none emitFuel

/-- An IQ section that is well formed, of stream (q, i), for symbol k, at media time `t` (thirds of 2^-48 ns). -/
def Dev.iqArrive (d : Dev) (p q i k start : Nat) (dabs : List (List Byte)) (t : Int) : Dev :=
  let c := d.f (F.FH_STRM_CFG_CARRIER q i)
  let bad := (dabs.filter fun w => decide (15 < (w.headD 0).toNat)).length
  let d := d.fhCount F.FH_RX_EXPBAD_COUNT p bad
  match d.flowOf q c with
  | none => d.unmatched p
  | some x =>
    let o := d.openAt q i k
    let cl := d.closeAt q i k
    if x.upOk k = false then d.unmatched p
    else if t < o - 4 * ((d.air c).tsym : Int) then d.fhCount F.FH_RX_EARLY_DROP_COUNT p 1
    else if cl < t then
      let d1 := d.fhCount F.FH_RX_LATE_COUNT p 1
      if (d.fhQ q).late.contains (c, k) then d1
      else (d1.mapQ q fun x => { x with late := x.late ++ [(c, k)] }).raise (evFh p 1) (portUid p)
    else
      let d1 := if t < o then d.fhCount F.FH_RX_EARLY_COUNT p 1 else d
      let gone := decide (k < x.ul) ||
        ((d.fhQ q).cur == some (c, k) && ((d.entries q c 0).take (d.fhQ q).done).contains i)
      if gone then d1 else d1.holdDabs p q i k start dabs

/-- An eCPRI IQ message: PC_ID, SEQ_ID and the section. -/
def Dev.iqMessage (d : Dev) (p : Nat) (m : List Byte) (t16 : Int) : Dev :=
  let b := fun i => (m.getD i 0).toNat
  match d.upEntry p (ofBeBytes (m.take 2)) with
  | none => d.unmatched p
  | some (q, i) =>
    let last := F.FH_STRM_STAT_LAST_SEQ q i
    let d := (if (d.f last + 1) % 256 = b 2 then d else d.fhCount F.FH_RX_SEQERR_COUNT p 1).setF last (b 2)
    let t := 3 * 2 ^ 32 * t16
    let start := b 8 + 256 * b 9
    let n := b 10 + 256 * b 11
    match d.sectionSym (d.f (F.FH_STRM_CFG_CARRIER q i)) t (b 4) (b 5 / 16) (b 5 % 16) (b 6 % 16) with
    | none => d.unmatched p
    | some k =>
      if m.length < 12 ∨ b 6 / 16 ≠ 0 ∨ b 7 ≠ 0 ∨ n = 0 ∨ d.maxDab p < n ∨ m.length ≠ 12 + 33 * n ∨ d.dabCount q i k < start + n then
        d.unmatched p
      else d.iqArrive p q i k start (chunk 33 n (m.drop 12)) t

/-! ## Management windows (R457, R458) -/

/-- The receive and transmit windows of a port. -/
def fhRxWin (p : Nat) : Nat := blkBase (.fh p) + 0xA000
def fhTxWin (p : Nat) : Nat := blkBase (.fh p) + 0xC000
/-- Write bytes into a circular window of 8 KiB. -/
def Dev.winPut (d : Dev) (base off : Nat) (l : List Byte) : Dev :=
  l.zipIdx.foldl (fun d x => d.setByte (base + (off + x.2) % 8192) x.1) d
/-- Read bytes of it. -/
def Dev.winGet (d : Dev) (base off n : Nat) : List Byte := (List.range n).map fun i => d.byte (base + (off + i) % 8192)

/-- Header bytes 4 to 15 of a timestamp in 2^-16 ns. -/
def tsBytes (t : Nat) : List Byte := leBytes 8 (t / 2 ^ 16) ++ leBytes 2 t ++ [0, 0]

/-- A frame for the management queue; one that finds the window full is dropped and counted. -/
def Dev.mgmtIn (d : Dev) (p : Nat) (frame : List Byte) (stamped : Bool) (t16 : Int) : Dev :=
  let size := roundUp (16 + frame.length) 8
  let wr := (d.fhPort p).rxWr
  if 8192 ≤ (wr + 8192 - d.f (F.FH_MGMT_PTR_RX p) % 8192) % 8192 + size then d.fhCount F.FH_RX_OVF_COUNT p 1
  else
    let ts := b2n (stamped && d.fb (F.FH_PORT_STATUS_TS_VALID p))
    let hdr := leBytes 2 frame.length ++ leBytes 1 ts ++ [0] ++ tsBytes t16.toNat
    (d.winPut (fhRxWin p) wr (hdr ++ frame)).mapFh p fun x => { x with rxWr := (wr + size) % 8192 }

/-- Where the PTP message of a frame starts, and its kind: 0 over Ethernet, 1 over UDP and IPv4, 2 over IPv6. -/
def ptpAt (f : List Byte) : Option (Nat × Nat) :=
  let b := fun i => (f.getD i 0).toNat
  let o := if b 12 = 0x81 ∧ b 13 = 0 then 18 else 14
  let et := b (o - 2) * 256 + b (o - 1)
  let udp := fun (u : Nat) (k : Nat) =>
    let port := b (u + 2) * 256 + b (u + 3)
    if port = 319 ∨ port = 320 then some (u + 8, k) else none
  if et = 0x88F7 then some (o, 0)
  else if et = 0x0800 ∧ b (o + 9) = 17 then udp (o + 4 * (b o % 16)) 1
  else if et = 0x86DD ∧ b (o + 6) = 17 then udp (o + 40) 2
  else none

/-- Replace bytes of a frame. -/
def patch (f : List Byte) (o : Nat) (l : List Byte) : List Byte := f.take o ++ l ++ f.drop (o + l.length)
/-- The ones' complement sum of the 16-bit words of a byte list. -/
def onesSum (l : List Byte) : Nat :=
  let s := (List.range ((l.length + 1) / 2)).foldl (fun a i => a + (l.getD (2 * i) 0).toNat * 256 + (l.getD (2 * i + 1) 0).toNat) 0
  if s = 0 then 0 else if s % 65535 = 0 then 65535 else s % 65535

/-- A one-step PTP event message with its egress time (R458): origin timestamp, correction field, UDP checksum. -/
def oneStep (f : List Byte) (t16 : Nat) : List Byte :=
  match ptpAt f with
  | none => f
  | some (o, kind) =>
    if 8 ≤ (f.getD o 0).toNat % 16 then f
    else
      let ns := t16 / 2 ^ 16
      let cf := ofBeBytes ((f.drop (o + 8)).take 8) + t16 % 2 ^ 16
      let g := patch (patch f (o + 8) (beBytes 8 cf)) (o + 34) (beBytes 6 (ns / 10 ^ 9) ++ beBytes 4 (ns % 10 ^ 9))
      if kind = 1 then patch g (o - 2) [0, 0]
      else if kind = 2 then
        let n := f.length - 2
        let old := ofBeBytes ((f.drop n).take 2)
        let diff := onesSum ((f.take n).drop o) + 2 * 65535 - onesSum ((g.take n).drop o)
        patch g n (beBytes 2 ((old + diff) % 65535))
      else g

/-- The frame at the read offset of the transmit window is sent, unless it holds (R457, R458). -/
def Dev.mgmtTx (sp : Spine) (d : Dev) (p : Nat) (err : Int) : Dev :=
  let rd := (d.fhPort p).txRd
  let b := fun i => (d.byte (fhTxWin p + (rd + i) % 8192)).toNat
  let n := b 0 + 256 * b 1
  if d.portLinked p = false ∨ rd = d.f (F.FH_MGMT_PTR_TX p) % 8192 ∨ bitAt (b 2) 4 then d
  else
    let t := (d.tsTx sp p err).toNat
    let f := d.winGet (fhTxWin p) (rd + 16) n
    let g := if bitAt (b 2) 1 then oneStep f t else f
    let d1 := { d.mapFh p (fun x => { x with txRd := (rd + roundUp (16 + n) 8) % 8192 }) with sent := d.sent ++ [.frame p g] }
    if bitAt (b 2) 2 then
      if (d.fhPort p).txts.length < 64 then d1.mapFh p fun x => { x with txts := x.txts ++ [(b 3, t)] }
      else d1.countF (F.FH_PTP_TXTS_TAG_LOST p) 1
    else d1

/-- HOLD clears in every frame of the transmit window (R457, R493). -/
def Dev.releaseHold (d : Dev) (p fuel off : Nat) : Dev :=
  match fuel with
  | 0 => d
  | n + 1 =>
    if off = d.f (F.FH_MGMT_PTR_TX p) % 8192 then d
    else
      let a := fhTxWin p + (off + 2) % 8192
      let len := (d.byte (fhTxWin p + off % 8192)).toNat + 256 * (d.byte (fhTxWin p + (off + 1) % 8192)).toNat
      (d.setByte a ((d.byte a) &&& 0xEF)).releaseHold p n ((off + roundUp (16 + len) 8) % 8192)
/-- The port-window action of a time trigger. -/
def Dev.portWindow (d : Dev) (p : Nat) : Dev := d.releaseHold p 512 (d.fhPort p).txRd

/-- A read of the two-step queue's TAG: its value, and the device with the next entry latched. -/
def Dev.txtsPop (d : Dev) (p : Nat) : Word × Dev :=
  let x := d.fhPort p
  let lost := d.f (F.FH_PTP_TXTS_TAG_LOST p)
  match x.txts with
  | [] =>
    let d1 := ((d.setF (F.FH_PTP_TXTS_TAG_VALID p) 0).setF (F.FH_PTP_TXTS_TAG_TAG p) 0).setF (F.FH_PTP_TXTS_TAG_LOST p) 0
    (BitVec.ofNat 32 (lost * 512), d1)
  | (tag, t) :: r =>
    let d1 := ((((((d.setF (F.FH_PTP_TXTS_TAG_VALID p) 1).setF (F.FH_PTP_TXTS_TAG_TAG p) tag).setF
      (F.FH_PTP_TXTS_TAG_LOST p) 0).setF (F.FH_PTP_TXTS_NS_LO_NS p) (t / 2 ^ 16 % 2 ^ 32)).setF
      (F.FH_PTP_TXTS_NS_HI_NS p) (t / 2 ^ 48)).setF (F.FH_PTP_TXTS_FRAC_FRAC p) (t % 2 ^ 16)).mapFh p fun x => { x with txts := r }
    (BitVec.ofNat 32 (tag + 256 + lost * 512), d1)

/-! ## Frames received (R438, R439, R456) -/

/-- What a frame is, beside eCPRI messages: a Euril frame is passed to the fabric. -/
inductive FhPass where
  | none
  | euril (body : List Byte)
  deriving DecidableEq, Repr

/-- One eCPRI message after its header: type and payload. `hdr` the frame up to the EtherType. -/
def Dev.ecpri (sp : Spine) (d : Dev) (p type : Nat) (m frame : List Byte) (t16 err : Int) : Dev :=
  if type = 0 then d.iqMessage p m t16
  else if type = 2 ∨ type = 4 ∨ type = 6 then d.mgmtIn p frame false t16
  else if type = 5 then
    if (m.getD 1 1) = 0 then
      { d with sent := d.sent ++ [.delay p ((frame.drop 6).take 6) (m.headD 0).toNat t16.toNat (d.tsTx sp p err).toNat] }
    else d.mgmtIn p frame false t16
  else d.unmatched p

/-- The eCPRI messages of a frame, concatenated ones included. -/
def Dev.ecpriAll (sp : Spine) (d : Dev) (p fuel : Nat) (body frame : List Byte) (t16 err : Int) : Dev :=
  match fuel with
  | 0 => d
  | n + 1 =>
    let b := fun i => (body.getD i 0).toNat
    let size := b 2 * 256 + b 3
    let rest := body.drop (4 + roundUp size 4)
    let more := bitAt (b 0) 0
    let fits := decide (4 + size ≤ body.length) && (more || 4 + size == body.length || frame.length == 60)
    if b 0 / 16 = 1 ∧ fits then
      let d1 := d.ecpri sp p (b 1) ((body.drop 4).take size) frame t16 err
      if more then d1.ecpriAll sp p n rest frame t16 err else d1
    else d.unmatched p

/-- A received frame: what the port passes on, and the device. -/
def Dev.fhFrame (sp : Spine) (d : Dev) (p : Nat) (fcs ptpIp : Bool) (err : Int) (f : List Byte) : FhPass × Dev :=
  let b := fun i => (f.getD i 0).toNat
  let tagged := b 12 == 0x81 && b 13 == 0
  let o := if tagged then 18 else 14
  let et := b (o - 2) * 256 + b (o - 1)
  let vlan := (b 14 * 256 + b 15) % 4096
  let mine := tagged && vlan == d.f (F.FH_PORT_CFG_VLAN p)
  let t := d.tsRx sp p err
  let dst := f.take 6
  let own := beBytes 6 (d.f (F.FH_MAC_LO_MAC p) + d.f (F.FH_MAC_HI_MAC p) * 2 ^ 32)
  if d.portLinked p = false ∨ (d.loopRuns p ∧ (f.drop 6).take 6 = own) then (.none, d)
  else if fcs = false then (.none, d.unmatched p)
  else if et = d.f F.EUR_CFG_ETHERTYPE ∧ d.fb (F.FH_PORT_CFG_TRUSTED p) then
    if tagged == d.fb F.EUR_CFG_TAGGED && (!tagged || mine) then (.euril (f.drop o), d) else (.none, d.unmatched p)
  else if et = 0xAEFE then
    (if mine then (.none, d.ecpriAll sp p 64 (f.drop o) f t err) else (.none, d.unmatched p))
  else if et = 0x8809 then (if b o = 0x0A then (.none, d.mgmtIn p f false t) else (.none, d.unmatched p))
  else
    match ptpAt f with
    | some (_, kind) =>
      let ok := if kind = 0 then dst == [0x01, 0x1B, 0x19, 0, 0, 0] || dst == [0x01, 0x80, 0xC2, 0, 0, 0x0E] else ptpIp
      if ok then (.none, d.mgmtIn p f true t) else (.none, d.unmatched p)
    | none => (.none, d.unmatched p)

/-! ## Transmission (R451 to R454) -/

/-- The bytes of a carrier-symbol of a transmit queue. -/
def Dev.txTotal (d : Dev) (q c k : Nat) : Nat :=
  roundUp (((d.entries q c 1).map fun i => d.strmBytes q i k).foldl (· + ·) 0) 512
/-- T_send of a carrier-symbol of a queue. -/
def Dev.txSendAt (d : Dev) (q c k : Nat) : Option Int := (d.entries q c 1).head?.map fun i => d.sendAt q i k
/-- A transmit carrier-symbol of a queue. -/
def Dev.txSym (d : Dev) (q c k : Nat) : TxSym :=
  ((d.fhQ q).tx.find? fun t => t.c == c && t.k == k).getD
    { c := c, k := k, bell := none, chk := none, cnt := 0, data := [], sent := 0, fin := false }
/-- Replace it; one that is over and filled is forgotten. -/
def Dev.setTx (d : Dev) (q : Nat) (t : TxSym) : Dev :=
  let keep := !(t.fin && decide (d.txTotal q t.c t.k ≤ t.cnt))
  d.mapQ q fun x => { x with tx := (x.tx.filter fun y => !(y.c == t.c && y.k == t.k)) ++ if keep then [t] else [] }

/-- The carrier-symbol whose bytes come next on a transmit queue. -/
def Dev.fillHead (d : Dev) (q : Nat) : Option (Int × Nat × Nat) :=
  earliest (carriers.filterMap fun c =>
    match d.flowOf q c with
    | none => none
    | some x => if x.dnOk x.fill then (d.txSendAt q c x.fill).map fun t => (t, c, x.fill) else none)
/-- Bytes a transmit queue holds. -/
def Dev.txHeld (d : Dev) (q : Nat) : Nat := ((d.fhQ q).tx.map fun t => t.data.length).foldl (· + ·) 0
/-- The transmit request line of a position (R451). -/
def Dev.txLine (d : Dev) (q : Nat) : Bool :=
  match d.fillHead q with
  | none => false
  | some (_, c, k) =>
    let t := d.txSym q c k
    (t.bell.isSome || t.chk.isSome) && decide (d.txHeld q + 1024 ≤ fhBuf)

/-- Bytes written to the transmit FIFO port go to the carrier-symbols in order; those of one that failed its
check, that is over, or whose link is down, are discarded. -/
def Dev.txFifo (d : Dev) (q fuel : Nat) (l : List Byte) : Dev :=
  match fuel with
  | 0 => d
  | n + 1 =>
    if l.isEmpty then d
    else
      match d.fillHead q with
      | none => d
      | some (_, c, k) =>
        let t := d.txSym q c k
        let room := d.txTotal q c k - t.cnt
        let take := l.take room
        let keep := t.chk != some false && !t.fin && d.portLinked (d.portOf q) && decide (d.txHeld q + take.length ≤ fhBuf)
        let d1 := d.setTx q { t with cnt := t.cnt + take.length, data := if keep then t.data ++ take else t.data }
        let d2 := if room ≤ l.length then
            (match d1.flowOf q c with
              | some x => d1.setFlow q c (some { x with fill := k + 1 })
              | none => d1) else d1
        d2.txFifo q n (l.drop room)

/-- The queue position and symbol that a doorbell names: a carrier-symbol whose T_send lies within the next 16 symbols and
whose check has not passed (R452). -/
def Dev.bellSym (sp : Spine) (d : Dev) (p : Nat) (v : Word) : Option Nat :=
  let x := v.toNat
  let c := bitsOf x 0 6
  let q := p + bitsOf x 6 2
  let a := d.air c
  match (if decide (c < 48) && (d.positions p).contains q then d.flowOf q c else none), (d.entries q c 1).head? with
  | some f, some i =>
    let adv : Int := (d.winNs q i F.FH_WIN_DADV_DADV_NS : Int)
    let k0 := d.symFrom c (now3 sp + adv)
    ((List.range 16).map fun j => k0 + j).find? fun k =>
      k % a.syms == bitsOf x 8 4 && k / a.syms % a.slots == bitsOf x 12 6 && k / a.perFrame % 16 == bitsOf x 18 4
        && decide (f.dl ≤ k) && f.dnOk k
  | _, _ => none

/-- A doorbell (R452): held for a carrier-symbol whose T_send lies within the next 16 symbols and whose check has
not passed; any other is discarded and counted. -/
def Dev.doorbell (sp : Spine) (d : Dev) (p : Nat) (v : Word) : Dev :=
  let c := bitsOf v.toNat 0 6
  let q := p + bitsOf v.toNat 6 2
  match d.bellSym sp p v with
  | some k =>
    let t := d.txSym q c k
    if t.bell.isSome then d else d.setTx q { t with bell := some sp.now }
  | none => d.fhCount F.FH_TX_LATE_COUNT p 1

/-- The readiness check of a carrier-symbol (R453); `tie` a doorbell of this moment falls in the same MAC cycle. A
wedged carrier is sent as zero-power IQ (R82). -/
def Dev.readiness (sp : Spine) (d : Dev) (q c : Nat) (tie : Bool) : Dev :=
  match d.flowOf q c with
  | none => d
  | some x =>
    match d.txSendAt q c x.dl with
    | none => d
    | some t =>
      if x.dnOk x.dl && decide (t - (2000 * ns3 : Nat) ≤ now3 sp) then
        let y := d.txSym q c x.dl
        let bell := match y.bell with
          | none => false
          | some b => !(tie && b == sp.now)
        let probe := d.probeOnly c
        let ok := (bell || probe) && d.fnState c != 5
        let p := d.portOf q
        let total := d.txTotal q c x.dl
        let d1 := (d.setTx q { y with chk := some ok, data := if ok then y.data else [], cnt := if probe then total else y.cnt }).setFlow
          q c (some { x with dl := x.dl + 1, fill := if probe then x.dl + 1 else x.fill })
        if bell || probe then d1 else (d1.fhCount F.FH_TX_LATE_COUNT p 1).raise (evFh p 2) (portUid p)
      else d

/-- Messages of a stream-symbol: (first dab, dabs). -/
def messages (max start fuel : Nat) (l : List (List Byte)) : List (Nat × List (List Byte)) :=
  match fuel with
  | 0 => []
  | n + 1 => if l.isEmpty then [] else (start, l.take max) :: messages max (start + max) n (l.drop max)

/-- The header of an IQ section. -/
def Dev.section_ (d : Dev) (c k start n : Nat) : List Byte :=
  let a := d.air c
  let slot := k / a.syms % a.slots
  let per := a.slots / 10
  leBytes 1 (k / a.perFrame) ++ leBytes 1 (slot / per * 16 + slot % per) ++ leBytes 1 (k % a.syms) ++ [0] ++ leBytes 2 start ++ leBytes 2 n

/-- Send one stream-symbol in its messages. -/
def Dev.sendStream (d : Dev) (q i c k : Nat) (dabs : List (List Byte)) : Dev :=
  let p := d.portOf q
  (messages (d.maxDab p) 0 dabs.length dabs).foldl (fun d m =>
    let last := F.FH_STRM_STAT_LAST_SEQ q i
    let s := (d.f last + 1) % 256
    let d1 := d.setF last s
    { d1 with sent := d1.sent ++ [.iq p (d.f (F.FH_PORT_CFG_PCP p)) (d.f (F.FH_PORT_CFG_VLAN p)) (d.f (F.FH_STRM_CFG_PC_ID q i)) s
        (d.section_ c k m.1 m.2.length ++ m.2.flatten)] }) d

/-- The dabs that the bytes at `off` of a transmit buffer hold: those whose mantissas and exponent have arrived, then
zero power; and how many have arrived. -/
def bufDabs (data : List Byte) (off n : Nat) : List (List Byte) × Nat :=
  let e := off + roundUp (32 * n) 64
  let have_ := min n (data.length - e)
  ((List.range n).map fun j =>
      if j < have_ then ((data.getD (e + j) 0) &&& 15) :: (data.drop (off + 32 * j)).take 32 else zeroDab,
   have_)

/-- The carrier-symbol a transmit queue sends from now. -/
def Dev.sendHead (sp : Spine) (d : Dev) (q : Nat) : Option TxSym :=
  let l := ((d.fhQ q).tx.filter fun t => t.chk.isSome && !t.fin).filterMap fun t => (d.txSendAt q t.c t.k).map fun x => (x, t.c, t.k)
  match earliest l with
  | some (x, c, k) => if x ≤ now3 sp then some (d.txSym q c k) else none
  | none => none

/-- From T_send, send the next stream-symbol of the carrier-symbol (R453, R454). That of a wedged carrier is zero-power
IQ, whatever its readiness check found (R82). -/
def Dev.symbolSend (sp : Spine) (d : Dev) (q : Nat) : Dev :=
  match d.sendHead sp q with
  | none => d
  | some t =>
    let p := d.portOf q
    let es := d.entries q t.c 1
    if d.portLinked p = false then d.setTx q { t with fin := true, data := [] }
    else
      match es[t.sent]? with
      | none => d.setTx q { t with fin := true, data := [] }
      | some i =>
        let n := d.dabCount q i t.k
        let off := ((es.take t.sent).map fun j => d.strmBytes q j t.k).foldl (· + ·) 0
        let buf := bufDabs t.data off n
        let good := t.chk == some true && d.fnState t.c != 5
        let live := if good then (if d.probeOnly t.c then n else buf.2) else 0
        let dabs := d.inject q i t.k (if live = 0 || d.probeOnly t.c then List.replicate n zeroDab else buf.1) live
        let d0 := d.countF F.GLZ_CNT_SAT_COUNT dabs.2
        let d1 := if good ∧ live < n then (d0.fhCount F.FH_TX_UNDERRUN_COUNT p 1).raise (evFh p 3) (portUid p) else d0
        let whole := t.sent + 1 == es.length
        (d1.sendStream q i t.c t.k dabs.1).setTx q { t with sent := t.sent + 1, fin := whole, data := if whole then [] else t.data }

/-- A write of FH_TSCAP_CTRL: ENTRY, and ARM clears VALID and arms; an index that names no uplink entry takes no
capture (R443, R463). -/
def Dev.tscapArm (d : Dev) (p : Nat) (v : Word) : Dev :=
  let d1 := d.setF (F.FH_TSCAP_CTRL_ENTRY p) (v.toNat % 512)
  if bitAt v.toNat 9 then
    let idx := v.toNat % 512
    let ok := match d.entryOf p idx with
      | some (q, i) => d.f (F.FH_STRM_CFG_DIR q i) == 0
      | none => false
    (d1.setF (F.FH_TSCAP_CTRL_VALID p) 0).mapFh p fun x => { x with cap := if ok then some idx else none }
  else d1

end Sys2Proof.Machine
end

