-- ==== Sys2Proof/Machine/Nce.lean ====
section
/-! DEFINITION. The narrowband carrier engine: streams, channels, frames, records and transmit entries (R387 to
R433). The output of its filters is given by tolerances alone, and no rule gives the numbers of its trigonometry: those
values are open. -/

namespace Sys2Proof.Machine

/-- The NCE's UID. -/
def nceUid : Uid := hubUid 0

/-! ## Channels, groups and checks (R387 to R389) -/

/-- The function of a group. -/
def fnNce (g : Nat) : Nat := 48 + g
/-- Is a channel enabled? -/
def Dev.chEnabled (d : Dev) (n : Nat) : Bool := d.fb (F.NCE_CH_CFG_RX_EN n) || d.fb (F.NCE_CH_CFG_TX_EN n)
/-- The channels of a group. -/
def groupChans (g : Nat) : List Nat := (List.range 24).map fun i => g * 24 + i
/-- Cost of a channel in units. -/
def Dev.chUnits (d : Dev) (n : Nat) : Nat := if d.f (F.NCE_CH_CFG_SPACING n) = 3 then 8 else 1
/-- Cost of the enabled channels of a group. -/
def Dev.groupUnits (d : Dev) (g : Nat) : Nat :=
  (((groupChans g).filter fun n => d.chEnabled n).map fun n => d.chUnits n).foldl (· + ·) 0
/-- NCE_STATUS.UNITS: the units in use. -/
def Dev.unitsUsed (d : Dev) : Nat :=
  (((List.range 64).filter fun g => d.fnActive (fnNce g)).map fun g => d.groupUnits g).foldl (· + ·) 0
/-- Spacing in Hz. -/
def Dev.chSpacing (d : Dev) (n : Nat) : Nat :=
  match d.f (F.NCE_CH_CFG_SPACING n) with
  | 0 => 6250 | 1 => 12500 | 2 => 25000 | _ => 200000
/-- SPS. -/
def Dev.chSps (d : Dev) (n : Nat) : Nat := if d.f (F.NCE_CH_CFG_SPACING n) = 3 then 4 else 8
/-- The profile a channel names. -/
def Dev.chProf (d : Dev) (n : Nat) : Nat := d.f (F.NCE_CH_CFG_PROF n)
/-- Three times the symbol rate. -/
def Dev.chR3 (d : Dev) (n : Nat) : Nat := max 1 (d.f (F.NCE_PROF_RATE_SYM_RATE3 (d.chProf n)))
/-- The header and payload codes of a profile. -/
def Dev.hcode (d : Dev) (k : Nat) : BlockCode :=
  { code := d.f (F.NCE_PROF_HCODE_CODE k), n := d.f (F.NCE_PROF_HCODE_N k), k := d.f (F.NCE_PROF_HCODE_K k)
    chase := d.fb (F.NCE_PROF_HCODE_CHASE k), fcr := d.f (F.NCE_PROF_HCODE_FCR k), erase := d.f (F.NCE_PROF_HCODE_ERASE k) }
def Dev.pcode (d : Dev) (k : Nat) : BlockCode :=
  { code := d.f (F.NCE_PROF_PCODE_CODE k), n := d.f (F.NCE_PROF_PCODE_N k), k := d.f (F.NCE_PROF_PCODE_K k)
    chase := d.fb (F.NCE_PROF_PCODE_CHASE k), fcr := d.f (F.NCE_PROF_PCODE_FCR k), erase := d.f (F.NCE_PROF_PCODE_ERASE k) }
/-- Is a profile in BURST mode? -/
def Dev.profBurst (d : Dev) (k : Nat) : Bool := d.fb (F.NCE_PROF_MOD_BURST k)
/-- RATE of a capture or transmit stream, and whether it is enabled. -/
def Dev.strmRate (d : Dev) (tx : Bool) (k : Nat) : Nat := if tx then d.f (F.NCE_TX_CFG_RATE k) else d.f (F.NCE_CAP_CFG_RATE k)
def Dev.strmEn (d : Dev) (tx : Bool) (k : Nat) : Bool := if tx then d.fb (F.NCE_TX_CFG_EN k) else d.fb (F.NCE_CAP_CFG_EN k)

/-- The streams an enabled channel names. -/
def Dev.chStreams (d : Dev) (n : Nat) : List (Bool × Nat) :=
  (if d.fb (F.NCE_CH_CFG_RX_EN n) then [(false, d.f (F.NCE_CH_CFG_STREAM n))] else []) ++
    if d.fb (F.NCE_CH_CFG_TX_EN n) then [(true, d.f (F.NCE_CH_CFG_TX_STREAM n))] else []
/-- Is a channel's profile valid for it? -/
def Dev.profOk (d : Dev) (n : Nat) : Bool :=
  let k := d.chProf n
  let top := match d.f (F.NCE_CH_CFG_SPACING n) with
    | 0 => 14400 | 1 => 28800 | 2 => 57600 | _ => 812500
  let r3 := d.f (F.NCE_PROF_RATE_SYM_RATE3 k)
  let intlv := d.f (F.NCE_PROF_PAY_INTLV k)
  decide (3600 ≤ r3) && decide (r3 ≤ top) && within 1 48 (d.f (F.NCE_PROF_SYNC_SYNC_LEN k))
    && decide (d.f (F.NCE_PROF_SYNC_SYNC_LEN k) + d.f (F.NCE_PROF_SYNC_ATTACK k) ≤ 64)
    && (d.hcode k).ok && (d.pcode k).ok && decide (d.f (F.NCE_PROF_PAY_PAY_BLOCKS k) ≤ 32)
    && decide (intlv ≤ 2) && (intlv != 2 || (d.profBurst k && within 1 7 (d.f (F.NCE_PROF_PAY_DEPTH k))))
    && (!d.profBurst k || (d.f (F.NCE_CH_BURST_PERIOD_QS n) % 32 == 0 && decide (1 ≤ d.f (F.NCE_PROF_WIN_WIN_SYMS k))))

/-- The lowest cause of a failing start check of a group (R389); 0 when all hold. -/
def Dev.nceCause (d : Dev) (g : Nat) : Nat :=
  let l := (groupChans g).filter fun n => d.chEnabled n
  let used := (((List.range 64).filter fun x => x != g && d.fnActive (fnNce x)).map fun x => d.groupUnits x).foldl (· + ·) 0
  if 1536 < used + d.groupUnits g then 1
  else if !(l.all fun n => (d.chStreams n).all fun x =>
      decide (10 * Int.natAbs (d.fs (F.NCE_CH_FREQ_FREQ n)) + 5 * d.chSpacing n ≤ 4 * d.strmRate x.1 x.2)) then 2
  else if !(l.all fun n => d.profOk n) then 3
  else if !(l.all fun n => (d.chStreams n).all fun x =>
      d.strmEn x.1 x.2 && within 1000000 30720000 (d.strmRate x.1 x.2)) then 4
  else 0

/-- The start check of a group. -/
def Dev.nceStartCheck (d : Dev) (g : Nat) : Bool × Dev :=
  let c := d.nceCause g
  if c = 0 then (true, d)
  else (false, (((d.setF F.NCE_STATUS_START_FAIL 1).setF F.NCE_STATUS_CAUSE c).setF F.NCE_STATUS_GROUP g).raise evNceStartFail nceUid)

/-- Shared settings: what a group's enabled channels refer to. -/
inductive NceShared where
  | cap (k : Nat) | tx (k : Nat) | prof (k : Nat) | pulse (j : Nat)
  deriving DecidableEq, Repr
/-- Does an enabled channel refer to a shared setting? -/
def Dev.refersTo (d : Dev) (n : Nat) (x : NceShared) : Bool :=
  d.chEnabled n && match x with
    | .cap k => d.f (F.NCE_CH_CFG_STREAM n) == k
    | .tx k => d.f (F.NCE_CH_CFG_TX_STREAM n) == k
    | .prof k => d.chProf n == k
    | .pulse j => d.f (F.NCE_PROF_MOD_PULSE (d.chProf n)) == j + 1
/-- May a shared setting be written (R388)? -/
def Dev.sharedFree (d : Dev) (x : NceShared) : Bool :=
  (List.range 64).all fun g => decide (d.fnState (fnNce g) ≤ 1) || !((groupChans g).any fun n => d.refersTo n x)
/-- A write of a shared setting at another time. -/
def Dev.sharedRefused (d : Dev) : Dev := (d.setF F.NCE_STATUS_CFG_ERR 1).raise evNceCfg nceUid

/-! ## Streams (R390 to R392) -/

/-- A stream; transmit streams are kept after the capture streams. -/
def Dev.strm (d : Dev) (tx : Bool) (k : Nat) : NceStrm := SMap.get d.nceStrm (k + if tx then 4 else 0) NceStrm.idle
/-- Change a stream. -/
def Dev.mapStrm (d : Dev) (tx : Bool) (k : Nat) (f : NceStrm → NceStrm) : Dev :=
  { d with nceStrm := SMap.put d.nceStrm (k + if tx then 4 else 0) (f (d.strm tx k)) }
/-- The sample count of a capture stream. -/
def Dev.capCnt (d : Dev) (k : Nat) : Nat := d.f (F.NCE_CAP_CNT_LO_CNT k) + d.f (F.NCE_CAP_CNT_HI_CNT k) * 2 ^ 32
/-- Set it. -/
def Dev.setCapCnt (d : Dev) (k n : Nat) : Dev := (d.setF (F.NCE_CAP_CNT_LO_CNT k) (n % 2 ^ 32)).setF (F.NCE_CAP_CNT_HI_CNT k) (n / 2 ^ 32)
/-- T0 of a stream in 2^-16 ns. -/
def Dev.capT0 (d : Dev) (k : Nat) : Nat :=
  (d.f (F.NCE_CAP_T0_LO_T0 k) + d.f (F.NCE_CAP_T0_HI_T0 k) * 2 ^ 32) * 65536 + d.f (F.NCE_CAP_T0_FRAC_FRAC k)
def Dev.txT0 (d : Dev) (k : Nat) : Nat :=
  (d.f (F.NCE_TX_T0_LO_T0 k) + d.f (F.NCE_TX_T0_HI_T0 k) * 2 ^ 32) * 65536 + d.f (F.NCE_TX_T0_FRAC_FRAC k)

/-- The bytes that a capture FIFO holds at most. -/
def capDepth (exp : Bool) : Nat := if exp then 256 else 4096
/-- Each exponent byte is paired with its 32 mantissa bytes, and the 16 samples of each pair are consumed as it forms,
while the stream is enabled. -/
def Dev.capFlow (sp : Spine) (d : Dev) (k : Nat) : Dev :=
  let s := d.strm false k
  let pairs := min (s.mant.length / 32) s.exps.length
  if d.strmEn false k = false ∨ pairs = 0 then d
  else
    let mant := s.mant.drop (32 * pairs)
    let exps := s.exps.drop pairs
    (d.mapStrm false k fun s =>
      { s with mant := mant, exps := exps, mantAt := if mant.isEmpty then sp.now else s.mantAt
               expsAt := if exps.isEmpty then sp.now else s.expsAt, samp := s.samp ++ dabIn s.mant s.exps (16 * pairs), flag := false }).setCapCnt
      k (d.capCnt k + 16 * pairs)
/-- Bytes written to a capture FIFO; those for which it has no room are lost (log entry 92). -/
def Dev.capWrite (sp : Spine) (d : Dev) (k : Nat) (exp : Bool) (l : List Byte) : Dev :=
  (d.mapStrm false k fun s =>
    if exp then { s with exps := (s.exps ++ l).take (capDepth true) }
    else { s with mant := (s.mant ++ l).take (capDepth false) }).capFlow sp k
/-- The request line of a capture FIFO: room for two bursts. -/
def Dev.capLine (d : Dev) (k : Nat) (exp : Bool) : Bool :=
  let s := d.strm false k
  if exp then decide (s.exps.length + 128 ≤ capDepth true) else decide (s.mant.length + 1024 ≤ capDepth false)

/-- A write of a stream's CFG: ignored while a running group refers to it; a write of EN 1 restarts its count, and a
capture stream goes on with what its FIFOs hold (R391). -/
def Dev.strmCfg (sp : Spine) (d : Dev) (tx : Bool) (k : Nat) (v : Word) : Dev :=
  if d.sharedFree (if tx then .tx k else .cap k) then
    let d1 := d.plainWrite (if tx then (F.NCE_TX_CFG_EN k).addr else (F.NCE_CAP_CFG_EN k).addr) v
    if v.getLsbD 0 then
      let s := d.strm tx k
      let d2 := d1.mapStrm tx k fun _ =>
        { NceStrm.idle with mant := s.mant, exps := s.exps, mantAt := sp.now, expsAt := sp.now, satAt := s.satAt }
      if tx then (d2.setF (F.NCE_TX_CNT_LO_CNT k) 0).setF (F.NCE_TX_CNT_HI_CNT k) 0 else (d2.setCapCnt k 0).capFlow sp k
    else d1
  else d.sharedRefused

/-- Has a FIFO of a capture stream been empty for STALL_US (R392)? -/
def Dev.capStalled (sp : Spine) (d : Dev) (k : Nat) : Bool :=
  let s := d.strm false k
  let t := d.f (F.NCE_CAP_STALL_STALL_US k) * 1000 * nsUnit
  d.strmEn false k && ((s.mant.isEmpty && decide (s.mantAt + t ≤ sp.now)) || (s.exps.isEmpty && decide (s.expsAt + t ≤ sp.now)))

/-- Dabs of a transmit stream generated by now: at least 150 µs ahead. -/
def Dev.txDabs (sp : Spine) (d : Dev) (k : Nat) : Nat :=
  if d.strmEn true k then (frac16 sp.now + 150000 * 65536 - d.txT0 k) * d.strmRate true k / (10 ^ 9 * 65536) / 16 else 0
/-- Bytes that a transmit FIFO holds. -/
def Dev.txHas (sp : Spine) (d : Dev) (k : Nat) (exp : Bool) : Nat :=
  let s := d.strm true k
  let n := d.txDabs sp k
  if exp then min 256 (n - s.exp) else min 4096 (32 * n - s.man)
/-- Its request line. -/
def Dev.txPlaneLine (sp : Spine) (d : Dev) (k : Nat) (exp : Bool) : Bool := decide ((if exp then 128 else 1024) ≤ d.txHas sp k exp)

/-- The amplitude of a channel: floor(2^13 × 10^(-TX_ATT ÷ 40)), 0 when muted (R427). -/
def txAmp (att : Nat) : Nat :=
  if att = 127 then 0
  else (List.range 14).reverse.foldl (fun a i => if (a + 2 ^ i) ^ 40 * 10 ^ att ≤ 2 ^ 520 then a + 2 ^ i else a) 0

/-- The frequency of a burst at 16 points a symbol, from one and a half symbols before its first: each symbol's level times
the pulse, which is four symbols long and centred on it (R428). -/
def NceBurst.trajectory (b : NceBurst) : List Int :=
  let v := b.levels.toArray
  let p := b.pulse.toArray
  (List.range (16 * v.size + 48)).map fun m =>
    (List.range 4).foldl (fun s j => if j ≤ m / 16 then s + v.getD (m / 16 - j) 0 * p.getD (m % 16 + 16 * j) 0 else s) 0

/-- A burst's contribution to the sample of its stream at `t`, in 2^-16 ns ÷ RATE: none outside its ramps. -/
def NceBurst.sample (b : NceBurst) (rate : Nat) (t : Nat) : Int × Int :=
  let x : Int := ((t * b.r3 : Nat) : Int) - ((b.from_ * 65536 * rate : Nat) : Int)
  let unit : Int := ((3 * 10 ^ 9 * 65536 * rate : Nat) : Int)
  if b.amp ≠ 0 ∧ -(b.ramp : Int) * unit ≤ x ∧ x < ((b.levels.length + b.ramp : Nat) : Int) * unit then
    Config.txWave (rate, b.r3, b.freq, b.amp) (b.ramp, b.levels.length) b.dev b.trajectory x
  else (0, 0)

/-- Sample `s` of a transmit stream: its channels summed, with each component saturated to i16, and the components that
were (R427). -/
def Dev.txSample (d : Dev) (k s : Nat) : (Int × Int) × Nat :=
  let rate := d.strmRate true k
  let t := d.txT0 k * rate + s * 10 ^ 9 * 65536
  let sum := d.nceBurst.foldl (fun a x => x.2.foldl (fun (a : Int × Int) b =>
    if b.strm = k then (a.1 + (b.sample rate t).1, a.2 + (b.sample rate t).2) else a) a) ((0 : Int), (0 : Int))
  let re := clampCount 16 sum.1
  let im := clampCount 16 sum.2
  ((re.1, im.1), re.2 + im.2)

/-- Dabs `i` to `i + n - 1` of a transmit stream: their planes, and the components saturated in them. -/
def Dev.txDabRun (d : Dev) (k i n : Nat) : (List Byte × List Byte) × Nat :=
  let l := (List.range (16 * n)).map fun j => d.txSample k (16 * i + j)
  (dabOut (d.f (F.NCE_TX_CFG_NBIAS k)) (l.map (·.1)), (l.map (·.2)).foldl (· + ·) 0)

/-- A read of a transmit FIFO: the dabs generated; beyond them zeros. The components that saturate are counted with the
mantissa of their dab. -/
def Dev.txPlaneRead (sp : Spine) (d : Dev) (k : Nat) (exp : Bool) (n : Nat) : List Byte × Dev :=
  let s := d.strm true k
  let have_ := min n (d.txHas sp k exp)
  let cnt := d.txDabs sp k * 16
  let d1 := ((d.mapStrm true k fun s => if exp then { s with exp := s.exp + have_ } else { s with man := s.man + have_ }).setF
    (F.NCE_TX_CNT_LO_CNT k) (cnt % 2 ^ 32)).setF (F.NCE_TX_CNT_HI_CNT k) (cnt / 2 ^ 32)
  if exp then (fitBytes n ((d.txDabRun k s.exp have_).1.2), d1)
  else
    let i := s.man / 32
    let j := (s.man + have_ + 31) / 32
    let new := (s.man + 31) / 32
    let sat := (d.txDabRun k new (j - new)).2
    let out := fitBytes n ((((d.txDabRun k i (j - i)).1.1).drop (s.man % 32)).take have_)
    let d2 := d1.countF (F.NCE_TX_SAT_SAT k) sat
    let soon := match s.satAt with
      | some t => decide (sp.now - t < 1000000 * nsUnit)
      | none => false
    if sat == 0 || soon then (out, d2)
    else (out, (d2.mapStrm true k fun s => { s with satAt := some sp.now }).raise evNceTxSat nceUid)

/-! ## Receive channels -/

/-- A channel. -/
def Dev.nce (d : Dev) (n : Nat) : NceCh := SMap.get d.nceCh n NceCh.off
/-- Change a channel. -/
def Dev.mapNce (d : Dev) (n : Nat) (f : NceCh → NceCh) : Dev := { d with nceCh := SMap.put d.nceCh n (f (d.nce n)) }
/-- A group. -/
def Dev.grp (d : Dev) (g : Nat) : NceGrp := SMap.get d.nceGrp g NceGrp.idle
/-- Change a group. -/
def Dev.mapGrp (d : Dev) (g : Nat) (f : NceGrp → NceGrp) : Dev := { d with nceGrp := SMap.put d.nceGrp g (f (d.grp g)) }
/-- The state code of a channel (R409). -/
def Dev.chSt (d : Dev) (n : Nat) : Nat := d.f (F.NCE_CH_STATE_STATE n)
/-- Set it. -/
def Dev.setChSt (d : Dev) (n s : Nat) : Dev := d.setF (F.NCE_CH_STATE_STATE n) s

/-- The time of symbol `i` at a sample phase, in 2^-16 ns (R391). -/
def Dev.symTime (d : Dev) (n i phase : Nat) : Nat :=
  let k := d.f (F.NCE_CH_CFG_STREAM n)
  let rate := max 1 (d.strmRate false k)
  let sps := d.chSps n
  let r3 := d.chR3 n
  d.capT0 k + ((d.nce n).base * 10 ^ 9 * 65536 * (r3 * sps) + (i * sps + phase) * 3 * 10 ^ 9 * 65536 * rate) / (rate * r3 * sps)
/-- Have the samples of symbol `i` been consumed, at every sample phase? -/
def Dev.symArrived (d : Dev) (n i : Nat) : Bool :=
  let k := d.f (F.NCE_CH_CFG_STREAM n)
  decide (((d.nce n).base * d.chR3 n + (i + 2) * 3 * d.strmRate false k) ≤ d.capCnt k * d.chR3 n)

/-! ### Filtering and demodulation (R393 to R396) -/

/-- The filter's output for symbol `i`: its own samples, behind those of three symbols before and ahead of those of one
after. -/
def Dev.symSamples (d : Dev) (n i : Nat) : List (Int × Int) :=
  let k := d.f (F.NCE_CH_CFG_STREAM n)
  let sps := d.chSps n
  (List.range (5 * sps)).map fun j =>
    Config.chanFilter (d.f (F.NCE_CH_CFG_SPACING n), d.strmRate false k, d.fs (F.NCE_CH_FREQ_FREQ n), d.chR3 n)
      (d.strm false k).samp (d.nce n).base ((i * sps + j : Nat) - (3 * sps : Nat) : Int)
/-- The sum of |x|² over a symbol's own samples. -/
def NceSymb.pow (sps : Nat) (x : NceSymb) : Nat :=
  ((x.samp.drop (3 * sps)).take sps).foldl (fun a v => a + (v.1 * v.1 + v.2 * v.2).toNat) 0

/-- The equaliser before the discriminator: four taps a symbol apart; none leaves the samples as they are. -/
def equalise (sps : Nat) (taps x : List (Int × Int)) : List (Int × Int) :=
  if taps.isEmpty then x
  else
    let a := x.toArray
    (List.range a.size).map fun t => taps.zipIdx.foldl (fun (y : Int × Int) c =>
      if c.2 * sps ≤ t then
        let v := a.getD (t - c.2 * sps) (0, 0)
        (y.1 + c.1.1 * v.1 - c.1.2 * v.2, y.2 + c.1.1 * v.2 + c.1.2 * v.1)
      else y) ((0 : Int), (0 : Int))
/-- The discriminator over the central half of a symbol at a sample phase: the sum of SPS ÷ 2 readings. -/
def turnSum (sps ph : Nat) (x : List (Int × Int)) : Int :=
  let a := x.toArray
  (List.range (sps / 2)).foldl (fun s j =>
    let t := 3 * sps + ph + sps / 4 + j
    s + Config.instTurn (a.getD (t - 1) (0, 0)) (a.getD t (0, 0))) 0
/-- The nominal deviation D of a profile, as a fraction in Hz (R394). -/
def Dev.deviation (d : Dev) (k : Nat) : Nat × Nat :=
  let v := d.f (F.NCE_PROF_MOD_DEV k)
  if d.fb (F.NCE_PROF_MOD_MOD k) then (v, 1) else (v * d.f (F.NCE_PROF_RATE_SYM_RATE3 k), 1536)
/-- floor(24 × (Δf - error) ÷ D), clamped, for a sum of readings. -/
def Dev.softOf (d : Dev) (n : Nat) (ferr sum : Int) : Int :=
  let dv := d.deviation (d.chProf n)
  clampInt (-32) 31 (24 * (dv.2 : Int) * (2 * sum * (d.chR3 n : Int) - 3 * 65536 * ferr) / (3 * 2 ^ 32 * (dv.1 : Int)))
/-- A symbol of these samples, demodulated with the correction of the frame under reception. -/
def Dev.demod (d : Dev) (n : Nat) (x : List (Int × Int)) : NceSymb :=
  let sps := d.chSps n
  let f := (d.nce n).frame
  let y := equalise sps ((f.map (·.eq)).getD []) x
  { samp := x, soft := (List.range sps).map fun ph => d.softOf n ((f.map (·.ferr)).getD 0) (turnSum sps ph y) }

/-- Nominal soft value of a sync symbol, times 3 ÷ 24 (R394, R395, R405). -/
def Dev.syncW (d : Dev) (k i : Nat) : Int :=
  let sw := d.f (F.NCE_PROF_SW0_SW k) + d.f (F.NCE_PROF_SW1_SW k) * 2 ^ 32 + d.f (F.NCE_PROF_SW2_SW k) * 2 ^ 64
  if d.fb (F.NCE_PROF_MOD_MOD k) then
    match bitsOf sw (2 * i) 2 with
    | 1 => 3 | 0 => 1 | 2 => -1 | _ => -3
  else if bitAt sw (2 * i) then -3 else 3

/-- The last SYNC_LEN symbols. -/
def Dev.syncSyms (d : Dev) (n : Nat) (hist : List NceSymb) : List NceSymb :=
  hist.drop (hist.length - d.f (F.NCE_PROF_SYNC_SYNC_LEN (d.chProf n)))
/-- The frequency error over a sync in 2^-16 Hz: the mean of the readings less that of the nominal deviations. -/
def Dev.freqErr (d : Dev) (n ph : Nat) (hist : List NceSymb) : Int :=
  let l := d.syncSyms n hist
  let k := d.chProf n
  let dv := d.deviation k
  let sum := l.foldl (fun a x => a + turnSum (d.chSps n) ph x.samp) 0
  let nom := (List.range l.length).foldl (fun a i => a + d.syncW k i) 0
  (2 * sum * (d.chR3 n : Int) * (dv.2 : Int) - nom * (dv.1 : Int) * 2 ^ 32) * 65536 / (3 * 2 ^ 32 * (dv.2 : Int) * (max 1 l.length : Nat))
/-- The equaliser's taps trained on a sync, where the profile has EQ and the channel 200 kHz spacing (R396). -/
def Dev.train (d : Dev) (n ph : Nat) (hist : List NceSymb) : List (Int × Int) :=
  let k := d.chProf n
  let sps := d.chSps n
  if d.fb (F.NCE_PROF_MOD_EQ k) && d.f (F.NCE_CH_CFG_SPACING n) == 3 then
    let l := d.syncSyms n hist
    (Config.eqTaps (l.flatMap fun x => (x.samp.drop (3 * sps + ph)).take sps) ((List.range l.length).map fun i => d.syncW k i)).take 4
  else []

/-- The soft symbols of a phase. -/
def atPhase (l : List NceSymb) (phase : Nat) : List Int := l.map fun x => x.soft.getD phase 0
/-- The first phase at which a correlator over the last SYNC_LEN symbols detects (R410). -/
def Dev.correlate (d : Dev) (n : Nat) (hist : List NceSymb) : Option Nat :=
  let k := d.chProf n
  let len := d.f (F.NCE_PROF_SYNC_SYNC_LEN k)
  if len = 0 ∨ hist.length < len then none
  else
    let l := hist.drop (hist.length - len)
    (List.range (d.chSps n)).find? fun ph =>
      let s := atPhase l ph
      let num := s.zipIdx.foldl (fun a x => a + x.1 * d.syncW k x.2) 0
      let den := 3 * s.foldl (fun a x => a + Int.natAbs x) 0
      decide (den ≠ 0) && decide ((d.f (F.NCE_PROF_SYNC_SYNC_THR k) : Int) ≤ 256 * num / (den : Int))
/-- The level over the last SYNC_LEN symbols. -/
def Dev.syncLevel (d : Dev) (n : Nat) (hist : List NceSymb) : Int :=
  let len := d.f (F.NCE_PROF_SYNC_SYNC_LEN (d.chProf n))
  level4 (((d.syncSyms n hist).map fun x => x.pow (d.chSps n)).foldl (· + ·) 0) (len * d.chSps n)

/-- One run of the gain loop on a power sum over `m` samples (R399). -/
def Dev.gainStep (d : Dev) (n : Nat) (e : Int) : Dev :=
  let g := d.f (F.NCE_CH_STATE_GAIN n)
  if 1 < Int.natAbs e then
    let a := max 2 (min 16 (d.f (F.NCE_PROF_SYNC_ATTACK (d.chProf n))))
    d.setF (F.NCE_CH_STATE_GAIN n) (clampInt 0 96 ((g : Int) + e / (a : Int))).toNat
  else d
def Dev.gainErr (d : Dev) (n sum m : Nat) : Int :=
  -2 * (d.f (F.NCE_PROF_SYNC_TARGET (d.chProf n)) : Int) - (level2 sum m + (d.f (F.NCE_CH_STATE_GAIN n) : Int))
def Dev.gainLoop (d : Dev) (n : Nat) (x : NceSymb) : Dev := d.gainStep n (d.gainErr n (x.pow (d.chSps n)) (d.chSps n))

/-- LULL_SYMBOLS; values outside 16 to 4,096 act as 256. -/
def Dev.lullLen (d : Dev) : Nat := let v := d.f F.NCE_LULL_LULL_SYMBOLS; if within 16 4096 v then v else 256
/-- The Lull report (R402). -/
def Dev.lullReport (d : Dev) (n : Nat) : Dev :=
  let cnt := d.f (F.NCE_CH_STATE_LULL n)
  if d.lullLen ≤ cnt then
    ((d.setF (F.NCE_NOISE_FLOOR_FLOOR n) (wrapInt 12 (level4 (d.nce n).lullPow (cnt * d.chSps n)))).setF
      (F.NCE_CH_STATE_LULL n) 0).mapNce n fun c => { c with lullPow := 0 }
  else d
/-- Count an idle symbol; a report that is due comes first. -/
def Dev.lullCount (d : Dev) (n pow : Nat) : Dev :=
  let d1 := d.lullReport n
  (d1.countF (F.NCE_CH_STATE_LULL n) 1).mapNce n fun c => { c with lullPow := c.lullPow + pow }
/-- A primary detection resets the count; a report that was due comes first. -/
def Dev.lullReset (d : Dev) (n : Nat) : Dev :=
  ((d.lullReport n).setF (F.NCE_CH_STATE_LULL n) 0).mapNce n fun c => { c with lullPow := 0 }

/-! ## Frames (R403 to R408, R411 to R416, R419, R420) -/

/-- Bits of a symbol. -/
def Dev.symBits (d : Dev) (k : Nat) : Nat := if d.fb (F.NCE_PROF_MOD_MOD k) then 2 else 1
/-- Soft bits of soft symbols (R397). -/
def softBits (two : Nat) (l : List Int) : List Int := l.flatMap fun s => if two = 2 then [s, 16 - Int.natAbs s] else [s]
/-- Is the received symbol at an index from the first sync symbol skipped? -/
def Dev.skipped (d : Dev) (k idx : Nat) : Bool := let s := d.f (F.NCE_PROF_HDR_SKIP k); s != 0 && (idx + 1) % s == 0
/-- The data symbols of received symbols that begin at index `from_` from the first sync symbol. -/
def Dev.dataSyms (d : Dev) (k from_ : Nat) (l : List Int) : List Int :=
  (l.zipIdx.filter fun x => !d.skipped k (from_ + x.2)).map (·.1)
/-- How many received symbols hold the first `need` data symbols. -/
def Dev.recvFor (d : Dev) (k from_ need fuel : Nat) : Nat :=
  match fuel with
  | 0 => 0
  | f + 1 => if need = 0 then 0 else 1 + d.recvFor k (from_ + 1) (if d.skipped k from_ then need else need - 1) f

/-- The payload length a decoded header gives. -/
def Dev.payLen (d : Dev) (k : Nat) (bits : List Nat) : Nat :=
  let n := d.f (F.NCE_PROF_LEN_LEN_BITS k)
  if n = 0 then d.f (F.NCE_PROF_LEN_FRAME_SYMS k)
  else min 65535 (d.f (F.NCE_PROF_LEN_LEN_UNIT k) *
    bitsNum ((List.range n).map fun i => bits.getD (d.f (F.NCE_PROF_LEN_LEN_POS k) + i) 0))

/-- The first codeword of a field of soft bits. -/
def codeField (c : BlockCode) (l : List Int) : List Int := if c.code = 0 then l else l.take c.bits
/-- Decode a header from its soft bits; a field shorter than the codeword fails. -/
def decodeHdr (c : BlockCode) (l : List Int) : Option (List Nat × Nat) :=
  if c.code ≠ 0 ∧ l.length < c.bits then none else c.decode (codeField c l)

/-- Restore rows and columns (R408). -/
def rowsCols (rows cols : Nat) (l : List Int) : List Int :=
  ((List.range (rows * cols)).map fun i => l.getD (i % cols * rows + i / cols) 0) ++ l.drop (rows * cols)
/-- The diagonal block whose last window is the newest of `ws` (oldest first, D windows). -/
def diagBlock (ws : List (List Int)) : List Int :=
  let dep := ws.length
  let parts := ws.zipIdx.map fun w => (w.1.zipIdx.filter fun x => x.2 % dep == w.2).map (·.1)
  parts.flatten

/-- Decode the payload's codewords: the packed information bits, PAY_OK, and the device (the bits of a codeword
that fails are open). -/
def Dev.decodePay (d : Dev) (k : Nat) (soft : List Int) : List Byte × Nat × Dev :=
  let c := d.pcode k
  let bits := if c.code = 0 then c.n else c.bits
  (List.range (d.f (F.NCE_PROF_PAY_PAY_BLOCKS k))).foldl (fun a b =>
    let w := (soft.drop (b * bits)).take bits
    let info := if c.code = 0 then c.n else if c.code = 2 then 6 * c.k else if c.code = 3 then 8 * c.k else c.k
    match (if w.length < bits ∨ bits = 0 then none else c.decode w) with
    | some r => (a.1 ++ packBits (r.1.map fun x => x == 1), a.2.1 + 2 ^ b, a.2.2)
    | none => let f := a.2.2.freeBytes ((info + 7) / 8) 256; (a.1 ++ f.1, a.2.1, f.2)) ([], 0, d)

/-- Queue the record of a frame that ends with a status; `pay` its payload soft bits when it has been received whole;
`diag` the deinterleaved block. -/
def Dev.queueRec (d : Dev) (n status : Nat) (f : NceFrame) (soft : List Int) (pay diag : Option (List Int)) (tend : Nat) : Dev :=
  let k := d.chProf n
  let src := match diag with
    | some x => some x
    | none => if d.f (F.NCE_PROF_PAY_INTLV k) = 2 then none else pay
  let dec := match src with
    | some x => d.decodePay k x
    | none => ([], 0, d)
  let want := d.f (F.NCE_PROF_PAY_PAY_BLOCKS k)
  let fail := src.isSome && dec.2.1 != 2 ^ want - 1
  let hdr := match f.hdr with
    | some h => (packBits (h.1.map fun x => x == 1) ++ List.replicate 8 0, dec.2.2)
    | none => if d.f (F.NCE_PROF_HDR_HDR_SYMS k) = 0 then (List.replicate 8 0, dec.2.2) else dec.2.2.freeBytes 8 256
  let r : NceRec :=
    { ch := n, status := status
      flags := 2 * b2n f.restarted + 4 * b2n fail + 8 * b2n f.stall + 16 * b2n diag.isSome
      tsync := f.tsync, pos := f.pos, soft := soft, blocks := dec.1, diag := diag, eref := f.eref, noise := f.noise
      gain := f.gain, hdrErr := match f.hdr with | some h => min 254 h.2 | none => 255
      ferr := f.ferr / 65536, hdrBits := hdr.1.take 8, payOk := dec.2.1, tend := tend }
  hdr.2.mapGrp (n / 24) fun g => { g with recs := g.recs ++ [r] }

/-- The payload soft bits of a SYNC mode frame, deinterleaved. -/
def Dev.payBits (d : Dev) (k : Nat) (data : List Int) : List Int :=
  let bits := softBits (d.symBits k) data
  if d.f (F.NCE_PROF_PAY_INTLV k) = 1 then rowsCols (d.f (F.NCE_PROF_PAY_ROWS k) + 1) (d.f (F.NCE_PROF_PAY_COLS k) + 1) bits else bits

/-- A channel whose frame has ended goes to HUNT, or to OFF in a group that is STOPPING. -/
def Dev.chIdle (d : Dev) (n : Nat) : Dev :=
  let off := d.fnState (fnNce (n / 24)) == 4
  (d.setChSt n (if off then 0 else 1)).mapNce n fun c => { c with frame := none, cand := none, replay := none }

/-- A frame ends COMPLETE. -/
def Dev.frameDone (d : Dev) (n : Nat) (f : NceFrame) : Dev :=
  let k := d.chProf n
  let len := d.f (F.NCE_PROF_SYNC_SYNC_LEN k)
  let hs := d.f (F.NCE_PROF_HDR_HDR_SYMS k)
  let recv := f.soft.take (d.recvFor k len (hs + f.pay) (f.soft.length + 1))
  let data := d.dataSyms k len recv
  (d.queueRec n 0 f recv (some (d.payBits k (data.drop hs))) none (d.symTime n (f.sync + len + recv.length) f.phase / 65536)).chIdle n

/-- Restart on a new sync (R415): the buffered symbols from ATTACK before it are replayed. -/
def Dev.restart (d : Dev) (n sync phase : Nat) (ferr : Int) : Dev :=
  if d.fnState (fnNce (n / 24)) = 4 then d.chIdle n
  else
    let c := d.nce n
    let a := d.f (F.NCE_PROF_SYNC_ATTACK (d.chProf n))
    (d.setChSt n 4).mapNce n fun c' =>
      { c' with frame := none, cand := none, replay := some (sync, phase, ferr, c.hist.drop (c.hist.length - (c.m - (sync - a)))) }

/-- Is the candidate usable: does the pre-roll buffer hold its first sync symbol minus ATTACK symbols? -/
def Dev.candOk (d : Dev) (n : Nat) (c : NceCh) (sync : Nat) : Bool :=
  decide (c.m - c.hist.length + d.f (F.NCE_PROF_SYNC_ATTACK (d.chProf n)) ≤ sync)

/-- A header fails (R412): FALSE_SYNC. `onto` the sync that captures in the same symbol. -/
def Dev.falseSync (d : Dev) (n : Nat) (f : NceFrame) (onto : Option (Nat × Nat × Int)) : Dev :=
  let c := d.nce n
  let d1 := d.countF (F.NCE_GRP_CNT2_FALSE (n / 24)) 1
  let d2 := if d.fb (F.NCE_GRP_RX_CTRL_REPORT_FALSE (n / 24)) then d1.queueRec n 1 f f.soft none none (d.symTime n c.m f.phase / 65536) else d1
  match onto with
  | some x => d2.restart n x.1 x.2.1 x.2.2
  | none =>
    match c.cand with
    | some x => if d.candOk n c x.1 then d2.restart n x.1 x.2.1 x.2.2 else d2.chIdle n
    | none => d2.chIdle n

/-- A frame ends PREEMPTED (R414). -/
def Dev.preempt (d : Dev) (n : Nat) (f : NceFrame) (sync phase : Nat) (ferr : Int) : Dev :=
  ((d.queueRec n 2 f f.soft none none (d.symTime n (d.nce n).m f.phase / 65536)).countF (F.NCE_GRP_CNT2_PREEMPT (n / 24)) 1).restart
    n sync phase ferr

/-- The data symbols of a SYNC mode frame so far. -/
def Dev.frameData (d : Dev) (n : Nat) (f : NceFrame) : List Int :=
  let k := d.chProf n
  d.dataSyms k (d.f (F.NCE_PROF_SYNC_SYNC_LEN k)) f.soft
/-- The header's decoding, once its symbols are there: none until then. -/
def Dev.headerOf (d : Dev) (n : Nat) (f : NceFrame) : Option (Option (List Nat × Nat)) :=
  let k := d.chProf n
  let hs := d.f (F.NCE_PROF_HDR_HDR_SYMS k)
  let data := d.frameData n f
  if data.length < hs then none else some (decodeHdr (d.hcode k) (softBits (d.symBits k) (data.take hs)))

/-- A frame in PAYLOAD that has all its payload ends. -/
def Dev.payCheck (d : Dev) (n : Nat) : Dev :=
  match (d.nce n).frame with
  | some f =>
    if d.chSt n = 3 ∧ d.f (F.NCE_PROF_HDR_HDR_SYMS (d.chProf n)) + f.pay ≤ (d.frameData n f).length then d.frameDone n f else d
  | none => d

/-- The header's result (R412). -/
def Dev.headerResult (d : Dev) (n : Nat) : Dev :=
  match d.chSt n, (d.nce n).frame with
  | 2, some f =>
    match d.headerOf n f with
    | none => d
    | some none => d.falseSync n f none
    | some (some h) =>
      ((d.setChSt n 3).mapNce n fun c =>
        { c with cand := none, frame := some { f with hdr := some h, pay := d.payLen (d.chProf n) h.1 } }).payCheck n
  | _, _ => d

/-- A frame begins: sync at symbol `sync` and phase, its symbols the last of `hist`. -/
def Dev.frameStart (d : Dev) (n sync phase : Nat) (hist : List NceSymb) (ferr : Int) (restarted : Bool) : Dev :=
  let k := d.chProf n
  let f : NceFrame :=
    { sync := sync, phase := phase, eref := d.syncLevel n hist, tsync := d.symTime n sync phase
      noise := d.f (F.NCE_NOISE_FLOOR_FLOOR n), gain := d.f (F.NCE_CH_STATE_GAIN n), ferr := ferr, eq := d.train n phase hist
      soft := [], hdr := none, pay := 0, restarted := restarted, stall := false, pos := 0 }
  if d.f (F.NCE_PROF_HDR_HDR_SYMS k) = 0 then
    ((d.setChSt n 3).mapNce n fun c => { c with frame := some { f with hdr := some ([], 0), pay := d.payLen k [] } }).payCheck n
  else (d.setChSt n 2).mapNce n fun c => { c with frame := some f }

/-- Keep the last 64 symbols. -/
def preRoll (l : List NceSymb) : List NceSymb := l.drop (l.length - 64)

/-- A symbol of a channel in HUNT (SYNC mode). -/
def Dev.huntSym (d : Dev) (n : Nat) (x : NceSymb) : Dev :=
  let d1 := (d.mapNce n fun c => { c with hist := preRoll (c.hist ++ [x]), m := c.m + 1 }).gainLoop n x
  let c := d1.nce n
  match d1.correlate n c.hist with
  | none => d1.lullCount n (x.pow (d.chSps n))
  | some ph =>
    (d1.lullReset n).frameStart n (c.m - d.f (F.NCE_PROF_SYNC_SYNC_LEN (d.chProf n))) ph c.hist (d1.freqErr n ph c.hist) false

/-- A symbol of a channel in HEADER or PAYLOAD: the frame takes it, and the watch correlator runs (R413, R414). -/
def Dev.frameSym (d : Dev) (n : Nat) (f : NceFrame) (x : NceSymb) : Dev :=
  let f1 := { f with soft := f.soft ++ [x.soft.getD f.phase 0] }
  let d1 := d.mapNce n fun c => { c with hist := preRoll (c.hist ++ [x]), m := c.m + 1, frame := some f1 }
  let c := d1.nce n
  match d1.correlate n c.hist with
  | none => d1.payCheck n
  | some ph =>
    let sync := c.m - d.f (F.NCE_PROF_SYNC_SYNC_LEN (d.chProf n))
    let ferr := d1.freqErr n ph c.hist
    let db := d.f F.NCE_CAPTURE_DB_DB
    if db ≠ 0 ∧ 4 * (db : Int) < d1.syncLevel n c.hist - f.eref then
      match (if d.chSt n = 2 then d1.headerOf n f1 else none) with
      | some none => d1.falseSync n f1 (some (sync, ph, ferr))
      | _ => d1.preempt n f1 sync ph ferr
    else if d.chSt n = 2 then d1.mapNce n fun c => { c with cand := some (sync, ph, ferr) }
    else d1.payCheck n

/-- The data symbols of a window around its sync, with the header's and the payload's (R404). -/
def Dev.windowParts (d : Dev) (k pos : Nat) (l : List Int) : List Int × List Int :=
  let len := d.f (F.NCE_PROF_SYNC_SYNC_LEN k)
  let data := (l.zipIdx.filter fun x =>
    !(decide (pos ≤ x.2) && decide (x.2 < pos + len)) && !(decide (pos ≤ x.2) && d.skipped k (x.2 - pos))).map (·.1)
  let o := d.f (F.NCE_PROF_HDR_HDR_OFS k)
  let hs := d.f (F.NCE_PROF_HDR_HDR_SYMS k)
  ((data.drop o).take hs, data.take o ++ data.drop (o + hs))

/-- The end of a window (R401, R402, R404, R408). -/
def Dev.windowEnd (d : Dev) (n : Nat) : Dev :=
  let k := d.chProf n
  let c := d.nce n
  let dep := if d.f (F.NCE_PROF_PAY_INTLV k) = 2 then d.f (F.NCE_PROF_PAY_DEPTH k) + 1 else 0
  let sum := (c.hist.map fun x => x.pow (d.chSps n)).foldl (· + ·) 0
  let d0 := d.mapNce n fun x => { x with e := d.gainErr n sum (c.hist.length * d.chSps n) }
  match c.frame with
  | none =>
    ((c.hist.foldl (fun d x => d.lullCount n (x.pow (d.chSps n))) d0).mapNce n fun x => { x with diag := (x.diag ++ [[]]).drop (x.diag.length + 1 - dep), hist := [] }).chIdle n
  | some f =>
    let l := atPhase c.hist f.phase
    let p := d.windowParts k f.pos l
    let hs := d.f (F.NCE_PROF_HDR_HDR_SYMS k)
    let hdr := if hs = 0 then some ([], 0) else decodeHdr (d.hcode k) (softBits (d.symBits k) p.1)
    let pay := d.payBits k p.2
    let ws := (c.diag ++ [pay]).drop (c.diag.length + 1 - dep)
    let wide := ws.map fun w => w ++ List.replicate (pay.length - w.length) 0
    let blk := if dep ≠ 0 ∧ ws.length = dep then some (diagBlock wide) else none
    let first := if f.pos = 0 then d.f (F.NCE_PROF_SYNC_SYNC_LEN k) else 0
    ((d0.queueRec n 4 { f with hdr := hdr } (l.drop first) (some pay) blk (d.symTime n c.m f.phase / 65536)).mapNce n fun x =>
      { x with diag := ws, hist := [] }).chIdle n

/-- A symbol of a window. -/
def Dev.windowSym (d : Dev) (n : Nat) (x : NceSymb) : Dev :=
  let k := d.chProf n
  let d1 := d.mapNce n fun c => { c with hist := c.hist ++ [x], m := c.m + 1 }
  let c := d1.nce n
  let d2 :=
    if c.frame.isSome then d1
    else
      match d1.correlate n c.hist with
      | none => d1
      | some ph =>
        let pos := c.m - d.f (F.NCE_PROF_SYNC_SYNC_LEN k)
        let f : NceFrame :=
          { sync := pos, phase := ph, eref := d1.syncLevel n c.hist, tsync := d1.symTime n pos ph, noise := d1.f (F.NCE_NOISE_FLOOR_FLOOR n)
            gain := d1.f (F.NCE_CH_STATE_GAIN n), ferr := d1.freqErr n ph c.hist, eq := d1.train n ph c.hist, soft := []
            hdr := none, pay := 0, restarted := false, stall := false, pos := pos }
        (d1.lullReset n).mapNce n fun c => { c with frame := some f }
  if d.f (F.NCE_PROF_WIN_WIN_SYMS k) ≤ c.m then d2.windowEnd n else d2

/-- One symbol of a channel, in whatever state it is, from its samples. -/
def Dev.nceStep (d : Dev) (n : Nat) (samp : List (Int × Int)) : Dev :=
  let x := d.demod n samp
  match d.chSt n with
  | 1 => if d.profBurst (d.chProf n) then d else d.huntSym n x
  | 2 | 3 => match (d.nce n).frame with
    | some f => d.frameSym n f x
    | none => d
  | 4 => d.mapNce n fun c =>
      { c with hist := preRoll (c.hist ++ [x]), m := c.m + 1
               replay := c.replay.map fun r => (r.1, r.2.1, r.2.2.1, r.2.2.2 ++ [x]) }
  | 5 => d.windowSym n x
  | _ => d

/-- The next symbol of a channel, once its samples have been consumed. -/
def Dev.nceSymbol (d : Dev) (n : Nat) : Dev :=
  if d.chSt n ≠ 0 ∧ d.symArrived n (d.nce n).m then d.nceStep n (d.symSamples n (d.nce n).m) else d

/-- The replayed sync ends (R415): the loop has run over the replayed symbols, the gain freezes, and the replay goes
on to the live samples. -/
def Dev.replayEnd (d : Dev) (n : Nat) : Dev :=
  match d.chSt n, (d.nce n).replay with
  | 4, some (sync, ph, ferr, l) =>
    let k := d.chProf n
    let len := d.f (F.NCE_PROF_SYNC_ATTACK k) + d.f (F.NCE_PROF_SYNC_SYNC_LEN k)
    let head := l.take len
    let d1 := head.foldl (fun d x => d.gainLoop n x) d
    let d2 := d1.mapNce n fun c => { c with replay := none, hist := head, m := sync + d.f (F.NCE_PROF_SYNC_SYNC_LEN k) }
    let d3 := d2.frameStart n sync ph head ferr true
    (l.drop len).foldl (fun d x => d.nceStep n x.samp) d3
  | _, _ => d

/-- A window is cut short at the symbols it has. -/
def Dev.windowAbort (d : Dev) (n : Nat) (f : NceFrame) : Dev :=
  let k := d.chProf n
  let c := d.nce n
  let first := if f.pos = 0 then d.f (F.NCE_PROF_SYNC_SYNC_LEN k) else 0
  let dep := if d.f (F.NCE_PROF_PAY_INTLV k) = 2 then d.f (F.NCE_PROF_PAY_DEPTH k) + 1 else 0
  ((d.queueRec n 3 f ((atPhase c.hist f.phase).drop first) none none (d.symTime n c.m f.phase / 65536)).mapNce n fun x =>
    { x with diag := (x.diag ++ [[]]).drop (x.diag.length + 1 - dep), hist := [] }).chIdle n
/-- ABORT, or the end of a drain by R71: the frame ends ABORTED, that of a replay with what has been replayed. -/
def Dev.nceAbort (d : Dev) (n : Nat) : Dev :=
  let d1 := if d.chSt n = 4 then d.replayEnd n else d
  match d1.chSt n, (d1.nce n).frame with
  | 2, some f | 3, some f => (d1.queueRec n 3 f f.soft none none (d1.symTime n (d1.nce n).m f.phase / 65536)).chIdle n
  | 5, some f => d1.windowAbort n f
  | 4, _ => d1.chIdle n
  | _, _ => d1
/-- The frames of a group are cut short by R71, and its channels are OFF. -/
def Dev.nceCut (d : Dev) (g : Nat) : Dev := (groupChans g).foldl (fun d n => (d.nceAbort n).setChSt n 0) d

/-! ## Schedules (R430) -/

/-- The opening of window `i` (eighths of a period) of a schedule: ns × 3R, from BT0. -/
def Dev.winTime (d : Dev) (n i : Nat) : Nat :=
  (d.nce n).bt0 * d.chR3 n + i * d.f (F.NCE_CH_BURST_PERIOD_QS n) / 32 * 3 * 10 ^ 9
/-- The first sample at or after that time; windows before the stream's start have none. -/
def Dev.winSample (d : Dev) (n i : Nat) : Option Nat :=
  let k := d.f (F.NCE_CH_CFG_STREAM n)
  let t := d.winTime n i * 65536
  let t0 := d.capT0 k * d.chR3 n
  if t < t0 then none else some (((t - t0) * d.strmRate false k + (10 ^ 9 * 65536 * d.chR3 n - 1)) / (10 ^ 9 * 65536 * d.chR3 n))
/-- The first window from `i` on that opens at or after the samples consumed. -/
def Dev.nextWin (d : Dev) (n fuel i : Nat) : Nat :=
  match fuel with
  | 0 => i
  | f + 1 =>
    let k := d.f (F.NCE_CH_CFG_STREAM n)
    match (if bitAt (d.nce n).mask (i % 8) then d.winSample n i else none) with
    | some s => if d.capCnt k ≤ s then i else d.nextWin n f (i + 1)
    | none => d.nextWin n f (i + 1)
/-- Where the search starts: one period before the last window that can have passed. -/
def Dev.winGuess (d : Dev) (n : Nat) : Nat :=
  let k := d.f (F.NCE_CH_CFG_STREAM n)
  let per := d.f (F.NCE_CH_BURST_PERIOD_QS n) / 32 * 3 * 10 ^ 9
  let t := (d.capT0 k + d.capCnt k * 10 ^ 9 * 65536 / max 1 (d.strmRate false k)) * d.chR3 n / 65536
  (t - (d.nce n).bt0 * d.chR3 n) / max 1 per - 8
/-- The schedule of the registers takes effect. -/
def Dev.schedule (d : Dev) (n : Nat) : Dev :=
  let d1 := d.mapNce n fun c =>
    { c with bt0 := d.f (F.NCE_CH_BT0_LO_BT0 n) + d.f (F.NCE_CH_BT0_HI_BT0 n) * 2 ^ 32, mask := d.f (F.NCE_CH_BURST_SLOT_MASK n) }
  d1.mapNce n fun c => { c with win := d1.nextWin n 32 (d1.winGuess n) }

/-- A window opens, once the stream has reached it. -/
def Dev.windowOpen (d : Dev) (n : Nat) : Dev :=
  let c := d.nce n
  let k := d.f (F.NCE_CH_CFG_STREAM n)
  if d.chSt n = 1 ∧ d.profBurst (d.chProf n) ∧ bitAt c.mask (c.win % 8) then
    match d.winSample n c.win with
    | none => d
    | some s =>
      if s ≤ d.capCnt k then
        let d1 := (d.gainStep n c.e).setChSt n 5
        let d2 := d1.mapNce n fun c => { c with base := s, m := 0, hist := [], frame := none }
        d2.mapNce n fun x => { x with win := (((List.range 8).map fun j => c.win + 1 + j).find? fun i => bitAt c.mask (i % 8)).getD (c.win + 1) }
      else d
  else d

/-! ## Starting and stopping (R399, R417, R419, R431) -/

/-- A group starts: its ring pointers are 0 and its receive channels leave OFF. -/
def Dev.nceStart (d : Dev) (g : Nat) : Dev :=
  let z := fun (d : Dev) (x : Fld) => d.setReg x.addr 0
  let d1 := z (z d (F.NCE_GRP_RX_PTR_WR g)) (F.NCE_GRP_SOFT_PTR_WR g)
  (groupChans g).foldl (fun d n =>
    if d.fb (F.NCE_CH_CFG_RX_EN n) then
      let d1 := ((d.setChSt n 1).setF (F.NCE_CH_STATE_GAIN n) 96).setF (F.NCE_CH_STATE_LULL n) 0
      (d1.mapNce n fun _ => { NceCh.off with base := d.capCnt (d.f (F.NCE_CH_CFG_STREAM n)) }).schedule n
    else d) d1
/-- A group is STOPPING: channels in HUNT or between windows go to OFF. -/
def Dev.nceStop (sp : Spine) (d : Dev) (g : Nat) : Dev :=
  (groupChans g).foldl (fun d n => if d.chSt n = 1 then d.setChSt n 0 else d) (d.mapGrp g fun x => { x with stopAt := timeNs sp })
/-- Is a group's admitted work complete: every channel OFF and every burst it has started ended? -/
def Dev.nceDrained (sp : Spine) (d : Dev) (g : Nat) : Bool :=
  ((groupChans g).all fun n => d.chSt n == 0 && (SMap.get d.nceBurst n []).all fun b =>
      decide (b.stop + b.ramp * (3 * 10 ^ 9) ≤ timeNs sp * b.r3))
    && (d.grp g).ents.all fun e => e.status.isSome

/-! ## Records (R419 to R422) -/

/-- A group's ring: base, number of entries. -/
def Dev.rxBase (d : Dev) (g : Nat) : Nat := d.f (F.NCE_GRP_RX_BASE_LO_BASE g) * 64 + d.f (F.NCE_GRP_RX_BASE_HI_BASE g) * 2 ^ 32
def Dev.softBase (d : Dev) (g : Nat) : Nat := d.f (F.NCE_GRP_SOFT_BASE_LO_BASE g) * 64 + d.f (F.NCE_GRP_SOFT_BASE_HI_BASE g) * 2 ^ 32
def Dev.txBase (d : Dev) (g : Nat) : Nat := d.f (F.NCE_GRP_TX_BASE_LO_BASE g) * 32 + d.f (F.NCE_GRP_TX_BASE_HI_BASE g) * 2 ^ 32
/-- Entries in use of a ring. -/
def ringUsed (wr rd : Nat) : Nat := (wr + 65536 - rd) % 65536
/-- The bytes of a frame's data. -/
def NceRec.data (r : NceRec) : List Byte :=
  let i8 := fun (l : List Int) => l.map fun x => BitVec.ofNat 8 (wrapInt 8 x)
  let pad := fun (n : Nat) (l : List Byte) => l ++ List.replicate (roundUp l.length n - l.length) 0
  let a := pad 8 (i8 r.soft) ++ r.blocks
  match r.diag with
  | none => a
  | some x => pad 64 a ++ i8 x
/-- Bytes 0 to 31 of a record. -/
def NceRec.bytesLow (r : NceRec) (seq ofs syms : Nat) (trunc : Bool) : List Byte :=
  leBytes 4 seq ++ leBytes 2 r.ch ++ leBytes 1 r.status ++ leBytes 1 (r.flags + b2n trunc) ++ leBytes 8 (r.tsync / 65536)
    ++ leBytes 2 r.tsync ++ leBytes 2 r.pos ++ leBytes 4 syms ++ leBytes 4 ofs

/-- Bytes 32 to 63 of a record. -/
def NceRec.bytesHigh (r : NceRec) (len : Nat) : List Byte :=
  leBytes 2 (wrapInt 16 r.eref) ++ leBytes 2 (wrapInt 16 (sx 12 r.noise)) ++ leBytes 1 r.gain ++ leBytes 1 r.hdrErr
    ++ leBytes 2 (wrapInt 16 r.ferr) ++ r.hdrBits ++ leBytes 4 r.payOk ++ leBytes 8 r.tend ++ leBytes 4 len ++ [0, 0, 0, 0]

/-- The 64 bytes of a record. -/
def NceRec.bytes (r : NceRec) (seq ofs syms len : Nat) (trunc : Bool) : List Byte :=
  r.bytesLow seq ofs syms trunc ++ r.bytesHigh len

/-- What the NCE is to write for the first record that waits: the pieces of the rings with their bytes, in order. -/
def Dev.nceJob (d : Dev) (g : Nat) (r : NceRec) : NceJob :=
  let wr := d.f (F.NCE_GRP_RX_PTR_WR g)
  let size := 2 ^ d.f (F.NCE_GRP_RX_CTRL_SIZE g)
  let sw := d.f (F.NCE_GRP_SOFT_PTR_WR g)
  let units := if d.fb (F.NCE_GRP_SOFT_CTRL_EN g) then 2 ^ d.f (F.NCE_GRP_SOFT_CTRL_SIZE g) else 0
  let all := if units = 0 then [] else r.data
  let dat := all.take (64 * (units - ringUsed sw (d.f (F.NCE_GRP_SOFT_PTR_RD g))))
  let trunc := decide (dat.length < all.length)
  let n := (dat.length + 63) / 64
  let soft := (chunk 64 n dat).zipIdx.map fun x => (d.softBase g + (sw + x.2) % max 1 units * 64, x.1)
  let full := ringUsed wr (d.f (F.NCE_GRP_RX_PTR_RD g)) == size
  let rec_ := r.bytes ((d.grp g).seq) (if units = 0 then 0 else sw % units) (min r.soft.length dat.length) dat.length trunc
  { outs := soft ++ if full then [] else [(d.rxBase g + wr % size * 64, rec_)], units := n, trunc := trunc, full := full }

/-- Begin the writes of a group's first record, unless they are under way; a group whose record ring is disabled drops it. -/
def Dev.nceBegin (d : Dev) (g : Nat) : Dev :=
  match (d.grp g).job, (d.grp g).recs with
  | none, r :: t =>
    if d.fb (F.NCE_GRP_RX_CTRL_EN g) then d.mapGrp g fun x => { x with job := some (d.nceJob g r) }
    else d.mapGrp g fun x => { x with recs := t }
  | _, _ => d

/-- The writes have landed: the pointers advance, or the record is lost (R421, R422). -/
def Dev.nceLanded (d : Dev) (g : Nat) (j : NceJob) : Dev :=
  let d0 := d.mapGrp g fun x => { x with recs := x.recs.tail, job := none }
  let lost := fun (d : Dev) => (d.countF (F.NCE_GRP_CNT3_LOST g) 1).raise evNceRxOvf nceUid
  if j.full then lost d0
  else
    let d1 := (((d0.mapGrp g fun x => { x with seq := x.seq + 1 }).setF (F.NCE_GRP_RX_PTR_WR g) (d.f (F.NCE_GRP_RX_PTR_WR g) + 1)).setF
      (F.NCE_GRP_SOFT_PTR_WR g) (d.f (F.NCE_GRP_SOFT_PTR_WR g) + j.units)).countF (F.NCE_GRP_CNT1_FRAMES g) 1
    (if j.trunc then lost d1 else d1).raise (evNceFrame g) nceUid

/-! ## Transmit (R424 to R426) -/

/-- The ring entry the NCE takes next for a group that runs: its index, if TX_PTR.WR covers it. -/
def Dev.txNext (d : Dev) (g : Nat) : Option Nat :=
  if d.fnActive (fnNce g) && d.fb (F.NCE_GRP_TX_CTRL_EN g) && (d.grp g).taken != d.f (F.NCE_GRP_TX_PTR_WR g) then some (d.grp g).taken else none
/-- The device address of a ring entry. -/
def Dev.txEntryAt (d : Dev) (g idx : Nat) : Nat := d.txBase g + idx % 2 ^ d.f (F.NCE_GRP_TX_CTRL_SIZE g) * 32
/-- The last burst a channel accepted. -/
def Dev.burstOf (d : Dev) (n : Nat) : Option NceBurst := (SMap.get d.nceBurst n []).head?
/-- A channel accepts another one. -/
def Dev.addBurst (d : Dev) (n : Nat) (b : NceBurst) : Dev :=
  { d with nceBurst := SMap.put d.nceBurst n (b :: SMap.get d.nceBurst n []) }
/-- Replace its last one. -/
def Dev.setBurst (d : Dev) (n : Nat) (b : NceBurst) : Dev :=
  { d with nceBurst := SMap.put d.nceBurst n (b :: (SMap.get d.nceBurst n []).tail) }

/-- The frequency pulse of a profile: Gaussian, or a table's signed coefficients (R428). -/
def Dev.pulseOf (d : Dev) (k : Nat) : List Int :=
  let j := d.f (F.NCE_PROF_MOD_PULSE k)
  (List.range 64).map fun i =>
    if 1 ≤ j ∧ j ≤ 4 then d.fs (F.NCE_PULSE_COEF (j - 1) i) else Config.gaussPulse (d.f (F.NCE_PROF_MOD_BT k)) i
/-- The levels of `n` symbols from their bits, in units of D ÷ 3 (R394). -/
def Dev.levelsOf (d : Dev) (k n : Nat) (bits : List Bool) : List Int :=
  let a := bits.toArray
  (List.range n).map fun i =>
    if d.fb (F.NCE_PROF_MOD_MOD k) then
      (match a.getD (2 * i) false, a.getD (2 * i + 1) false with
        | false, true => 3 | false, false => 1 | true, false => -1 | true, true => -3)
    else if a.getD i false then -3 else 3

/-- The judgement of an entry (R425): its status once decided, none where the burst is accepted; samples that lie
150 µs to 250 µs ahead may have been generated or not. -/
def Dev.txJudge (sp : Spine) (d : Dev) (g ch : Nat) (cont : Bool) (start : Nat) : Option Nat × Dev :=
  let b := d.burstOf ch
  let r3 := d.chR3 ch
  let ramp := min 8 (d.f (F.NCE_CH_TX_RAMP ch)) * 3 * 10 ^ 9
  let up := start * r3 - ramp
  if ch / 24 ≠ g ∨ d.fb (F.NCE_CH_CFG_TX_EN ch) = false then (some 5, d)
  else if cont then
    match b with
    | some x => (if x.hold && !x.ended then none else some 5, d)
    | none => (some 5, d)
  else if d.fnState (fnNce g) = 4 ∧ (d.grp g).stopAt < start then (some 4, d)
  else
    let now := timeNs sp
    let maybe := d.draw 2
    let late := if up < (now + 150000) * r3 then (true, d) else if up < (now + 250000) * r3 then (maybe.1 == 1, maybe.2) else (false, d)
    if late.1 then (some 2, late.2)
    else
      match b with
      | some x => (if up < x.stop + ramp then some 3 else none, late.2)
      | none => (none, late.2)

/-- TX_PTR.RD passes the entries at the front whose STATUS is written. -/
def Dev.txRetire (d : Dev) (g fuel : Nat) : Dev :=
  match fuel with
  | 0 => d
  | n + 1 =>
    match (d.grp g).ents with
    | e :: t => if e.status.isSome then
        ((d.mapGrp g fun x => { x with ents := t }).setF (F.NCE_GRP_TX_PTR_RD g) (e.idx + 1)).txRetire g n else d
    | [] => d

/-- A STATUS is written: RD, and the events. The write itself is the caller's. -/
def Dev.txStatus (d : Dev) (g idx status : Nat) (irq : Bool) : Dev :=
  let d1 := (d.mapGrp g fun x => { x with ents := x.ents.map fun (e : NceEnt) => if e.idx == idx then { e with status := some status } else e }).txRetire
    g 65536
  let d2 := if status = 2 then (d1.countF (F.NCE_GRP_CNT3_TXLATE g) 1).raise evNceTxLate nceUid else d1
  if irq || status == 2 then d2.raise (evNceTx (g / 4)) nceUid else d2

/-- The burst that an entry begins on a channel. -/
def Dev.newBurst (d : Dev) (ch start nsym : Nat) (hold : Bool) : NceBurst :=
  let k := d.chProf ch
  let r3 := d.chR3 ch
  { from_ := start * r3, stop := start * r3 + nsym * 3 * 10 ^ 9, r3 := r3, ramp := min 8 (d.f (F.NCE_CH_TX_RAMP ch)), hold := hold
    ended := false, strm := d.f (F.NCE_CH_CFG_TX_STREAM ch), freq := d.fs (F.NCE_CH_FREQ_FREQ ch), amp := txAmp (d.f (F.NCE_CH_TX_TX_ATT ch))
    dev := d.deviation k, pulse := d.pulseOf k, levels := [] }

/-- The NCE takes an entry whose 32 bytes are these: the status it decides, if any, and the device. -/
def Dev.txTake (sp : Spine) (d : Dev) (g idx : Nat) (l : List Byte) : Option Nat × Dev :=
  let ch := dw l 0 2
  let fl := dw l 2 1
  let nsym := dw l 4 4
  let start := dw l 8 8
  let cont := bitAt fl 2
  let j := d.txJudge sp g ch cont start
  let e : NceEnt :=
    { idx := idx, ch := ch, irq := bitAt fl 0, hold := bitAt fl 1, nsym := nsym, bits := dw l 16 8, got := none, status := none }
  let d1 := j.2.mapGrp g fun x => { x with ents := x.ents ++ [e], taken := (idx + 1) % 65536 }
  match j.1 with
  | some st => (some st, d1.txStatus g idx st e.irq)
  | none =>
    (none, match (if cont then d1.burstOf ch else none) with
      | some b => d1.setBurst ch { b with stop := b.stop + nsym * 3 * 10 ^ 9, hold := e.hold }
      | none => d1.addBurst ch (d1.newBurst ch start nsym e.hold))

/-- The oldest accepted entry of a group whose bits have not been read. -/
def Dev.txUnread (d : Dev) (g : Nat) : Option NceEnt := (d.grp g).ents.find? fun e => e.status.isNone && e.got.isNone
/-- The bits of an accepted entry have been read, as many as `l` holds; `err` that the reading failed behind them, and the
burst ends there. The burst is the one the entry began or continued: the oldest of its channel whose symbols are short of
its end. -/
def Dev.txBits (d : Dev) (g : Nat) (e : NceEnt) (l : List Byte) (err : Bool) : Dev :=
  let k := d.chProf e.ch
  let n := min e.nsym (8 * l.length / d.symBits k)
  let v := d.levelsOf k n (unpackBits (n * d.symBits k) l)
  let d1 := d.mapGrp g fun x => { x with ents := x.ents.map fun (y : NceEnt) => if y.idx == e.idx then { y with got := some err } else y }
  let short := fun (b : NceBurst) => decide (b.from_ + b.levels.length * (3 * 10 ^ 9) < b.stop)
  let old := SMap.get d1.nceBurst e.ch []
  match (old.reverse.find? short) with
  | none => d1
  | some b =>
    let c := { b with levels := b.levels ++ v, stop := if err then b.from_ + (b.levels.length + v.length) * (3 * 10 ^ 9) else b.stop }
    { d1 with nceBurst := SMap.put d1.nceBurst e.ch ((old.reverse.replace b c).reverse) }

/-- The oldest accepted entry of a channel. -/
def Dev.txLive (d : Dev) (n : Nat) : Option NceEnt := (d.grp (n / 24)).ents.find? fun e => e.ch == n && e.status.isNone
/-- A burst has been generated: SENT, or READ_ERR where its bits could not be read; a held burst that nothing has
continued ends. -/
def Dev.txDone (d : Dev) (n : Nat) (e : NceEnt) (err : Bool) : Dev :=
  let d1 := d.txStatus (n / 24) e.idx (if err then 6 else 1) e.irq
  match d1.txLive n, d1.burstOf n with
  | none, some b => d1.setBurst n { b with ended := true }
  | _, _ => d1

end Sys2Proof.Machine
end

