-- ==== Sys2Proof/Machine/Glaze.lean ====
section
/-! DEFINITION. Glaze: start checks, captures, the cycle floor, estimates, swaps and the COMMISSION steps (R501 to
R519). -/

namespace Sys2Proof.Machine

/-- The request that M-level hub firmware makes for itself. -/
def fwReq : Req := coreReq 384 3
/-- The request that Glaze makes. -/
def glzReq : Req := unitReq glzUid 0

/-! ## The start checks (R501) -/

/-- The antenna entries of a carrier. -/
def Dev.antennas (d : Dev) (c : Nat) : List Nat :=
  (List.range (d.f (F.GLZ_CARR_CFG_NANT c))).map fun j => d.f (F.GLZ_CARR_CFG_BASE c) + j
/-- Cause 1: an antenna entry is enabled and names an enabled stream entry of the carrier, of its role's direction. -/
def Dev.antennaOk (d : Dev) (c m : Nat) : Bool :=
  match (if m < 1024 then d.mapEntry m else none) with
  | none => false
  | some (q, i) =>
    let role := d.f (F.GLZ_MAP_ROLE m)
    d.fb (F.FH_STRM_CFG_EN q i) && d.f (F.FH_STRM_CFG_CARRIER q i) == c
      && d.f (F.FH_STRM_CFG_DIR q i) == (if role = 0 ∨ role = 3 then 1 else 0)
/-- Cause 2: the codes of the carrier's entries of roles 0 and 3 differ, and are codes. -/
def Dev.codesOk (d : Dev) (c : Nat) : Bool :=
  let l := ((d.carrMaps c).filter fun m => decide (m < 1024) && d.fb (F.GLZ_MAP_EN m)
    && (d.f (F.GLZ_MAP_ROLE m) == 0 || d.f (F.GLZ_MAP_ROLE m) == 3)).eraseDups
  let codes := l.map fun m => d.f (F.GLZ_MAP_CODE m)
  codes.all (fun x => x != 65535) && codes.eraseDups.length == codes.length
/-- The lowest cause that fails; none where Glaze may start. -/
def Dev.glzStartCause (d : Dev) : Option Nat :=
  let carr := (List.range 48).filter fun c => d.fb (F.GLZ_CARR_CFG_EN c)
  let rounds := (List.range 16).filter fun r => d.fb (F.GLZ_ROUND_EN r)
  if carr.any fun c => !(d.antennas c).all fun m => d.antennaOk c m then some 1
  else if carr.any fun c => !d.codesOk c then some 2
  else if carr.any fun c =>
      let n := d.f (F.GLZ_CARR_CFG_NANT c)
      decide (1024 < d.f (F.GLZ_CARR_CFG_BASE c) + n) || !within 1 256 n || decide (n ≤ d.f (F.GLZ_CARR_CFG_REF_ANT c)) then some 3
  else if rounds.any fun r => !within 48 51 (d.f (F.GLZ_ROUND_BANK r)) then some 4
  else none
/-- The check on leaving STOPPED: whether Glaze may start. -/
def Dev.glzStartCheck (d : Dev) : Bool × Dev :=
  match d.glzStartCause with
  | none => (true, d)
  | some k => (false, ((d.setF F.GLZ_STATUS_START_FAIL 1).setF F.GLZ_STATUS_CAUSE k).raise evGlzCfg glzUid)

/-! ## Captures (R503, R504) -/

/-- Does Glaze own the bank of a region's round? -/
def Dev.roundOwned (d : Dev) (r : Nat) : Bool :=
  d.isOwner r (d.f (F.GLZ_ROUND_BANK r)) glzReq

/-- Start a capture that waits: once Glaze owns the bank, and no drain is in progress, the bank is delegated to the
round's channel and the tap starts. -/
def Dev.captStart (sp : Spine) (d : Dev) (k : Nat) : Dev :=
  let x := d.capt k
  let n := d.f (F.GLZ_ROUND_BANK x.region)
  if x.wait && d.roundOwned x.region && (d.bank x.region n).drain.isNone then
    (d.delegWrite sp glzReq x.region n
      (BitVec.ofNat 32 (gustUid 16 + d.f (F.GLZ_ROUND_CH x.region) * 4096 + 2 ^ 18))).mapCapt k fun x => { x with wait := false, run := true }
  else d
/-- The captures that wait try again. -/
def Dev.captRetry (sp : Spine) (d : Dev) : Dev := (List.range 4).foldl (fun d k => d.captStart sp k) d

/-- GO in GLZ_CAPT_CMD; a command that names a busy FIFO, no block, or a region not used, does nothing. -/
def Dev.captureCommand (sp : Spine) (d : Dev) (v : Word) : Dev :=
  let w := v.toNat
  let k := bitsOf w 19 2
  let r := bitsOf w 15 4
  let blocks := bitsOf w 10 4
  let d0 := d.setF F.GLZ_CAPT_CMD_OVF (d.f F.GLZ_CAPT_CMD_OVF - Nat.land (d.f F.GLZ_CAPT_CMD_OVF) (bitsOf w 26 4))
  if bitAt w 21 && d.glzOn && d.fnUp 129 && !bitAt (d.f F.GLZ_CAPT_CMD_BUSY) k && decide (0 < blocks) && d.fb (F.GLZ_ROUND_EN r) then
    let x : GlzCapt := { GlzCapt.idle with wait := true, region := r, map := bitsOf w 0 10, blocks := blocks, same := bitAt w 14
                                           out := (d0.capt k).out }
    ((d0.mapCapt k fun _ => x).setF F.GLZ_CAPT_CMD_BUSY (setBits (d0.f F.GLZ_CAPT_CMD_BUSY) k 1 1)).captStart sp k
  else d0

/-- The delegation of a bank has drained: for the bank of a round that Glaze owns, Glaze raises EV_GLZ_CAPTURE. -/
def Dev.captDrained (sp : Spine) (d : Dev) (r n : Nat) : Dev :=
  if d.glzOn && d.fb (F.GLZ_ROUND_EN r) && d.f (F.GLZ_ROUND_BANK r) == n && d.roundOwned r then
    (d.raise (evGlzCapture r) glzUid).captRetry sp
  else d

/-! ## The cycle floor (R506, R514) -/

/-- The floor's window, within 100 to 4,000 µs, in time units. -/
def Dev.floorWin (d : Dev) : Nat := max 100 (min 4000 (d.f F.GLZ_FLOOR_WIN_US)) * 1000 * nsUnit
/-- The eligible cores of a region: in service, not parked, not hot in LATENCY. -/
def Dev.floorCores (sp : Spine) (d : Dev) (r : Nat) : List Nat :=
  (List.range 6).flatMap fun c =>
    if d.hotAccepts r c 0 && !d.parked.contains (r * 6 + c) then
      ((List.range 4).map fun u => regionCoreIx r c u).filter fun k => !sp.contain.out (coreUid k)
    else []
/-- The account: core time of tasks of priority 0 and 1 in the window, completed or running. -/
def Dev.floorAccount (sp : Spine) (d : Dev) (r : Nat) : Nat :=
  let x := d.disp_ r
  (d.slots.filter fun e => e.2.st == 4 && e.2.region == some r && d.dType e.1 == 0 && decide (d.dPrio e.1 ≤ 1)).foldl
    (fun a e => a + (sp.now - max e.2.since x.floorAt)) x.floorAcc
/-- Is the account below its target? -/
def Dev.floorBelow (sp : Spine) (d : Dev) (r : Nat) : Bool :=
  within 2 5 d.mode && decide (1000 * d.floorAccount sp r
    < min 100 (d.f F.GLZ_FLOOR_FLOOR) * (d.floorCores sp r).length * (sp.now - (d.disp_ r).floorAt))
/-- The task and core of a floor dispatch. -/
def Dev.floorPick (sp : Spine) (d : Dev) (r : Nat) : Option (Nat × Nat) :=
  if d.floorBelow sp r then
    let pick := (d.readyList r).filter fun s => d.dType s == 0 && decide (d.dPrio s ≤ 1) && !(d.idleCores sp r s).isEmpty
    let best := pick.foldl (fun b s =>
      match b with
      | none => some s
      | some t => if d.dDeadline s < d.dDeadline t ∨ (d.dDeadline s = d.dDeadline t ∧ s < t) then some s else some t) none
    best.bind fun s => (d.idleCores sp r s).head?.map fun k => (s, k)
  else none
/-- One decision of a region dispatcher: a floor dispatch, or the choice of R291. -/
def Dev.decide_ (sp : Spine) (d : Dev) (r : Nat) : Dev :=
  match d.floorPick sp r with
  | some (s, k) => (d.countF F.GLZ_CNT_FLOOR_COUNT 1).dispatchTo sp r s k
  | none => d.decideOver sp r [] (d.readyOrder r)
/-- A task of priority 0 or 1 leaves its core: its time in the window is charged. -/
def Dev.floorCharge (sp : Spine) (d : Dev) (s : Nat) : Dev :=
  match (d.slot s).region with
  | some r =>
    if (d.slot s).st = 4 ∧ d.dType s = 0 ∧ d.dPrio s ≤ 1 then
      d.mapDisp r fun x => { x with floorAcc := x.floorAcc + (sp.now - max (d.slot s).since x.floorAt) }
    else d
  | none => d
/-- A window ends: nothing is carried over. -/
def Dev.floorEnd (sp : Spine) (d : Dev) (r : Nat) : Dev :=
  if (d.disp_ r).floorAt + d.floorWin ≤ sp.now then d.mapDisp r fun x => { x with floorAt := sp.now, floorAcc := 0 } else d

/-! ## Estimates (R507, R508, R510) -/

/-- The base of the GLZ_ block. -/
def glzBase : Nat := blkBase .glz
/-- The address of an accumulator record. -/
def accAddr (dir i : Nat) : Nat := glzBase + 0x20000 + (dir * 1024 + i) * 0x140
/-- The address of an entry of a set, and of a set's header. -/
def setAddr_ (s dir i : Nat) : Nat := glzBase + 0xC0000 + ((s * 2 + dir) * 1024 + i) * 16
def hdrAddr (s c : Nat) : Nat := glzBase + 0xD0000 + (s * 48 + c) * 32
/-- The sum R(l) of a record, `j` = l + 8. -/
def Dev.corr (d : Dev) (dir i j : Nat) : Int × Int :=
  let a := accAddr dir i + 32 + j * 16
  (sx 64 (d.rd a 8), sx 64 (d.rd (a + 8) 8))
/-- |z|². -/
def sq2 (z : Int × Int) : Nat := (z.1 * z.1 + z.2 * z.2).toNat
/-- |R(l)|² of the 17 lags. -/
def Dev.corrs (d : Dev) (dir i : Nat) : List Nat := (List.range 17).map fun j => sq2 (d.corr dir i j)
/-- The lag with the largest |R|², ties to the lowest. -/
def peakLag (l : List Nat) : Nat := (l.zipIdx.foldl (fun b x => if b.2 < x.1 then (x.2, x.1) else b) (0, l.headD 0)).1
/-- The peak of an estimate that does not fail. -/
def Dev.peak (d : Dev) (dir i : Nat) : Option Nat :=
  let l := d.corrs dir i
  let j := peakLag l
  let m := l.getD j 0
  let rest := l.foldl (· + ·) 0 - m
  if j = 0 ∨ j = 16 ∨ (16 * m) ^ 10 < 10 ^ d.f F.GLZ_CFG_MIN_PAR * rest ^ 10 then none else some j
/-- τ in units of 2^-64 sample. -/
def Dev.peakTime (d : Dev) (dir i j : Nat) : Int :=
  let l := d.corrs dir i
  let m := fun k => ((isqrt (l.getD k 0 * 2 ^ 256) : Nat) : Int)
  ((j : Int) - 8) * ((2 ^ 64 : Nat) : Int)
    + (m (j - 1) - m (j + 1)) * ((2 ^ 64 : Nat) : Int) / (2 * (m (j - 1) - 2 * m j + m (j + 1)))

/-- The angle of a vector in the first octant or beyond, from 0 to π, in units of 2^-400. -/
def argFix (z : Int × Int) : Nat :=
  let x := z.1.natAbs
  let y := z.2.natAbs
  let a := if y ≤ x then atanFix (y * 2 ^ 400 / x) else piFix / 2 - atanFix (x * 2 ^ 400 / y)
  if z.1 < 0 then piFix - a else a
/-- The angle in 2^-16 turn, rounded down. -/
def turn16 (z : Int × Int) : Int :=
  let t : Int := ((argFix z * 2 ^ 15 / piFix : Nat) : Int)
  if z.2 < 0 then -t - 1 else t
/-- A component of W: x ÷ y with 14 fraction bits, truncated and saturated to 16. -/
def coef16 (x : Int) (y : Nat) : Nat := wrapInt 16 (clampInt (-32768) 32767 ((x * 16384).tdiv (y : Int)))

/-- How the delay, gain and phase are rounded is open (log entry 37): the truncated value or the next. -/
def Dev.roundOpen (d : Dev) (x : Int) : Int × Dev := (x + ((d.draw 2).1 : Int), (d.draw 2).2)
/-- The gain in 0.01 dB where it fits its field; else its value is open. -/
def Dev.gainOf (d : Dev) (p q : Nat) : Nat × Dev :=
  let n := (log2Fix p 0 - log2Fix q 0) * 1000 / log2Fix 10 0
  let g := d.roundOpen n
  if -32768 ≤ g.1 ∧ g.1 ≤ 32767 then (wrapInt 16 g.1, g.2) else g.2.draw 65536

/-- Write a successful estimate of antenna entry `i` into the standby set; `ref` the reference entry. -/
def Dev.putEstimate (d : Dev) (s dir i ref j jr : Nat) : Dev :=
  let h := d.corr dir i j
  let r := d.corr dir ref jr
  let w := (r.1 * h.1 + r.2 * h.2, r.2 * h.1 - r.1 * h.2)
  let a := setAddr_ s dir i
  let d1 := (d.wr a 2 (coef16 w.1 (sq2 h))).wr (a + 2) 2 (coef16 w.2 (sq2 h))
  if i = ref then ((((d1.wr (a + 4) 4 0).wr (a + 8) 2 0).wr (a + 10) 2 0).wr (a + 12) 4 5)
  else
    let t := d1.roundOpen ((d.peakTime dir i j - d.peakTime dir ref jr) / ((2 ^ 48 : Nat) : Int))
    let g := t.2.gainOf (sq2 h) (sq2 r)
    let ph := g.2.roundOpen (turn16 (w.1, -w.2))
    ((((ph.2.wr (a + 4) 4 (wrapInt 32 t.1)).wr (a + 8) 2 g.1).wr (a + 10) 2 (wrapInt 16 ph.1)).wr (a + 12) 4 1)
/-- A failed estimate keeps the entry's value with FAIL set. -/
def Dev.failEstimate (d : Dev) (s dir i : Nat) : Dev :=
  let a := setAddr_ s dir i + 12
  ((d.wr a 1 (Nat.lor (d.rd a 1) 2)).countF F.GLZ_CNT_FAIL_COUNT 1).raise evGlzEstFail glzUid

/-- Copy a carrier's part of one set, header included, into the other. -/
def Dev.copySet (d : Dev) (c src dst : Nat) : Dev :=
  let d1 := (List.range 2).foldl (fun d dir => (d.antennas c).foldl (fun d i =>
    d.setBytes (setAddr_ dst dir i) (d.bytes (setAddr_ src dir i) 16)) d) d
  d1.setBytes (hdrAddr dst c) (d1.bytes (hdrAddr src c) 32)

/-- Does the estimate that waits go ahead: neither PEND nor HOLD of its carrier is 1? -/
def Dev.estReady (d : Dev) : Option (Nat × Nat × Bool) :=
  match d.glz.est with
  | some x => if d.glzOn && !d.fb (F.GLZ_CARR_STAT_PEND x.1) && !d.fb (F.GLZ_CARR_STAT_HOLD x.1) then some x else none
  | none => none

/-- The estimator writes the standby set of carrier `c` in direction `dir`. Where the reference fails, so do the others
(log entry 37). -/
def Dev.estimateSet (d : Dev) (c dir : Nat) : Dev :=
  let s := 1 - d.f (F.GLZ_CARR_SWAP_T_HI_ACT c)
  let d1 := if d.glz.flipped.contains c then
      ({ d with glz := { d.glz with flipped := d.glz.flipped.filter (· != c) } } : Dev).copySet c (1 - s) s
    else d
  let ants := d.antennas c
  let ref := d.f (F.GLZ_CARR_CFG_BASE c) + d.f (F.GLZ_CARR_CFG_REF_ANT c)
  let rp := d.peak dir ref
  let ok := fun i => match rp with
    | none => none
    | some jr => (d.peak dir i).map fun j => (j, jr)
  let d2 := ants.foldl (fun x i =>
    match ok i with
    | some (j, jr) => x.putEstimate s dir i ref j jr
    | none => x.failEstimate s dir i) d1
  let olds := (ants.filter fun i => (ok i).isSome).map fun i => d.rd (accAddr dir i + 8) 8
  let keeps := ants.any fun i => (ok i).isNone && bitAt (d1.rd (setAddr_ s dir i + 12) 1) 0
  let h := hdrAddr s c + 8 * dir
  match olds with
  | [] => d2
  | t :: l => d2.wr h 8 (l.foldl min (if keeps then min t (d1.rd h 8) else t))

/-- The estimate: RDY, the event, and with CLEAR the records zeroed. -/
def Dev.estimate (d : Dev) : Dev :=
  match d.estReady with
  | none => d
  | some (c, dir, clear) =>
    let d1 := (d.estimateSet c dir).setF (if dir = 0 then F.GLZ_CARR_STAT_RDY_TX c else F.GLZ_CARR_STAT_RDY_RX c) 1
    let d2 := if clear then (d.antennas c).foldl (fun d i => d.clearMem (accAddr dir i) 0x140) d1 else d1
    (({ d2 with glz := { d2.glz with est := none } } : Dev).setF F.GLZ_EST_CMD_BUSY 0).raise evGlzSetReady glzUid

/-- GO in GLZ_EST_CMD; while an estimate is in progress or waits, or for no carrier, it does nothing. -/
def Dev.estimateCommand (d : Dev) (v : Word) : Dev :=
  let w := v.toNat
  if bitAt w 8 && d.glzOn && d.glz.est.isNone && decide (bitsOf w 0 6 < 48) then
    ({ d with glz := { d.glz with est := some (bitsOf w 0 6, bitsOf w 6 1, bitAt w 7) } } : Dev).setF F.GLZ_EST_CMD_BUSY 1
  else d

/-! ## Swaps (R511 to R513) -/

/-- A 63-bit time of two registers. -/
def Dev.time63 (d : Dev) (lo hi : Fld) : Nat := d.f lo + d.f hi * 2 ^ 32
def Dev.nextT (d : Dev) (c : Nat) : Nat := d.time63 (F.GLZ_CARR_NEXT_T_LO_T c) (F.GLZ_CARR_NEXT_T_HI_T c)
def Dev.swapT (d : Dev) (c : Nat) : Nat := d.time63 (F.GLZ_CARR_SWAP_T_LO_T c) (F.GLZ_CARR_SWAP_T_HI_T c)
/-- The slot that begins at a time in ns, if one does: its first symbol. -/
def Dev.slotAtNs (d : Dev) (c t : Nat) : Option Nat :=
  let k := d.slotFrom c ((t * ns3 : Nat) : Int)
  if d.symStart c k / (ns3 : Int) = (t : Int) then some k else none
/-- The write of NEXT_T_HI. -/
def Dev.nextTWrite (d : Dev) (c : Nat) (v : Word) : Dev :=
  let d1 := d.setF (F.GLZ_CARR_NEXT_T_HI_T c) v.toNat
  if d.glzOn && d.fnUp 129 then
    (match d1.slotAtNs c (d1.nextT c) with
    | some _ => d1.setF (F.GLZ_CARR_STAT_PEND c) 1
    | none => (d1.setF (F.GLZ_CARR_STAT_PEND c) 0).raise evGlzSwapMiss glzUid)
  else d1
/-- Does a set hold an estimate of the carrier? -/
def Dev.setValid (d : Dev) (s c : Nat) : Bool :=
  (List.range 2).any fun dir => (d.antennas c).any fun i => bitAt (d.rd (setAddr_ s dir i + 12) 1) 0
/-- A carrier flips. -/
def Dev.flip (d : Dev) (c : Nat) : Dev :=
  let s := 1 - d.f (F.GLZ_CARR_SWAP_T_HI_ACT c)
  let t := d.nextT c
  let d1 := ((((((((d.setF (F.GLZ_CARR_SWAP_T_HI_ACT c) s).setF (F.GLZ_CARR_SWAP_T_LO_T c) t).setF (F.GLZ_CARR_SWAP_T_HI_T c) (t / 2 ^ 32)).setF
    (F.GLZ_CARR_STAT_PEND c) 0).setF (F.GLZ_CARR_STAT_RDY_TX c) 0).setF (F.GLZ_CARR_STAT_RDY_RX c) 0).setF (F.GLZ_CARR_STAT_STALE c) 0).setF
    (F.GLZ_CARR_STAT_HOLD c) 1).setF (F.GLZ_CARR_STAT_VALID c) (b2n (d.setValid s c))
  (({ d1 with glz := { d1.glz with flipped := c :: d1.glz.flipped.filter (· != c) } } : Dev).countF (F.GLZ_CARR_STAT_SWAPS c) 1).raise
    evGlzSwap glzUid
/-- PEND clears without a flip. -/
def Dev.swapMiss (d : Dev) (c : Nat) : Dev := (d.setF (F.GLZ_CARR_STAT_PEND c) 0).raise evGlzSwapMiss glzUid
/-- The swap event reaches Glaze. -/
def Dev.swapEvent (sp : Spine) (d : Dev) : Dev :=
  if d.glz.swap = 0 then d
  else
    let d0 := { d with glz := { d.glz with swap := d.glz.swap - 1 } }
    if d.glzOn then
      (List.range 48).foldl (fun d c =>
        if d.fb (F.GLZ_CARR_STAT_PEND c) && decide (d.nextT c ≤ timeNs sp + d.f F.GLZ_SWAP_CFG_LEAD_US * 1000) then
          (if d.fb (F.GLZ_CARR_STAT_RDY_TX c) || d.fb (F.GLZ_CARR_STAT_RDY_RX c) then d.flip c else d.swapMiss c)
        else d) d0
    else d0
/-- NEXT_T passes with PEND still 1. -/
def Dev.swapLate (sp : Spine) (d : Dev) (c : Nat) : Dev :=
  if d.fb (F.GLZ_CARR_STAT_PEND c) && decide (d.nextT c ≤ timeNs sp) && d.glzOn then d.swapMiss c else d
/-- HOLD clears HOLD_SLOTS slots of the carrier after SWAP_T. -/
def Dev.holdClear (sp : Spine) (d : Dev) (c : Nat) : Dev :=
  let k := d.slotFrom c ((d.swapT c * ns3 : Nat) : Int) + max 2 (d.f F.GLZ_SWAP_CFG_HOLD_SLOTS) * (d.air c).syms
  if d.fb (F.GLZ_CARR_STAT_HOLD c) && decide (d.symStart c k ≤ now3 sp) && d.glzOn then d.setF (F.GLZ_CARR_STAT_HOLD c) 0 else d
/-- The age of the active set in ms, as AGE shows it. -/
def Dev.glzAge (sp : Spine) (d : Dev) (c : Nat) : Nat :=
  if d.fb (F.GLZ_CARR_STAT_VALID c) then
    let h := hdrAddr (d.f (F.GLZ_CARR_SWAP_T_HI_ACT c)) c
    min (2 ^ 32 - 1) ((timeNs sp - min (d.rd h 8) (d.rd (h + 8) 8)) / 1000000)
  else 0
/-- The age passes MAX_AGE: STALE, once. -/
def Dev.stale (sp : Spine) (d : Dev) (c : Nat) : Dev :=
  if d.glzOn && !d.fb (F.GLZ_CARR_STAT_STALE c) && decide (d.f F.GLZ_MAX_AGE_SEC * 1000 < d.glzAge sp c) then
    (d.setF (F.GLZ_CARR_STAT_STALE c) 1).raise evGlzStale glzUid
  else d

/-! ## COMMISSION (R516 to R518) -/

/-- Enter a step. -/
def Dev.commEnter (sp : Spine) (d : Dev) (k : Nat) : Dev :=
  ({ d with glz := { d.glz with since := sp.now, ocxo := none } } : Dev).setF F.GLZ_STATUS_COMM_STEP k
/-- The OCXO step ends with a status; the code is restored where one was handed. -/
def Dev.ocxoEnd (sp : Spine) (d : Dev) (stat : Nat) : Dev :=
  let d1 := match d.glz.ocxo with
    | some x => d.trimHand sp 0 x.1 false
    | none => d
  (({ d1 with tb := { d1.tb with flog := none } } : Dev).setF F.GLZ_OCXO_RES_STAT stat).commEnter sp 3
/-- Why the OCXO step does not run; none where it may. -/
def Dev.ocxoBar (d : Dev) : Option Nat :=
  if d.f F.TB_SERVO_CFG_OUT ≠ 0 ∨ d.fnState 130 ≠ 3 then some 2
  else if d.f F.TB_STATUS_STATE ≠ 2 then some 3 else none
/-- The OCXO step begins. -/
def Dev.ocxoBegin (sp : Spine) (d : Dev) : Dev :=
  if d.fb F.GLZ_OCXO_CFG_EN then
    match d.ocxoBar with
    | some k => d.ocxoEnd sp k
    | none =>
      let c0 := d.f (F.TRM_CH_CODE_CUR 0)
      let d1 := (d.commEnter sp 2).trimHand sp 0 c0 false
      { d1 with glz := { d1.glz with ocxo := some (c0, 0, sp.now, []) }, tb := { d1.tb with flog := some [(sp.now, d.fs F.TB_FREQ_F)] } }
  else d.commEnter sp 3
/-- The loopback step ends once every fitted port has a result. -/
def Dev.loopNext (sp : Spine) (d : Dev) : Dev :=
  if (List.range 16).any fun p => d.loopRuns p then d else d.ocxoBegin sp

/-- The mean of TB_FREQ over [from, to], as a fraction (log entry 34). -/
def flogMean (l : List (Nat × Int)) (a b : Nat) : Int × Nat :=
  let ends := l.map fun x => x.1
  let w := l.zipIdx.map fun x => x.1.2 * ((min b (ends.getD (x.2 + 1) b) - max a x.1.1 : Nat) : Int)
  (w.foldl (· + ·) 0, b - a)
/-- The dwell, within 10 to 1,000 s, in time units. -/
def Dev.dwell (d : Dev) : Nat := max 10 (min 1000 (d.f F.GLZ_OCXO_CFG_DWELL_S)) * 10 ^ 9 * nsUnit
/-- The code of a dwell. -/
def Dev.ocxoCode (d : Dev) (c0 i : Nat) : Nat :=
  let s : Int := ((max 1 (d.f F.GLZ_OCXO_CFG_STEP) : Nat) : Int)
  (clampInt 0 65535 (if i = 1 then (c0 : Int) + s else if i = 2 then (c0 : Int) - s else (c0 : Int))).toNat
/-- The results of the three dwells. -/
def Dev.ocxoResult (sp : Spine) (d : Dev) (c0 : Nat) (l : List (Int × Nat)) : Dev :=
  match l with
  | [f0, fp, fm] =>
    let num := fm.1 * (fp.2 : Int) - fp.1 * (fm.2 : Int)
    if 0 < num then
      let x := ((max 1 (d.f F.GLZ_OCXO_CFG_STEP) * 2 ^ 25 * fp.2 * fm.2 : Nat) : Int) / num
      let v := if x < 2 ^ 23 then (x, d) else ((sx 24 (d.draw (2 ^ 24)).1), (d.draw (2 ^ 24)).2)
      let centre := clampInt 0 65535 ((c0 : Int) + f0.1 * v.1 / ((f0.2 * 2 ^ 24 : Nat) : Int))
      ((v.2.setF F.GLZ_OCXO_SLOPE_SLOPE (wrapInt 24 v.1)).setF F.GLZ_OCXO_RES_CENTRE centre.toNat).ocxoEnd sp 1
    else d.ocxoEnd sp 4
  | _ => d
/-- A dwell ends: the next code, or the result. -/
def Dev.ocxoDwell (sp : Spine) (d : Dev) : Dev :=
  match d.glz.ocxo with
  | none => d
  | some (c0, i, t, l) =>
    if d.f F.GLZ_STATUS_COMM_STEP = 2 ∧ t + d.dwell ≤ sp.now ∧ d.glzOn then
      match d.ocxoBar with
      | some k => d.ocxoEnd sp k
      | none =>
        let l' := l ++ [flogMean (d.tb.flog.getD []) (t + d.dwell * 3 / 4) (t + d.dwell)]
        if i = 2 then d.ocxoResult sp c0 l'
        else
          let d1 := d.trimHand sp 0 (d.ocxoCode c0 (i + 1)) false
          { d1 with glz := { d1.glz with ocxo := some (c0, i + 1, sp.now, l') }, tb := { d1.tb with flog := some [(sp.now, d.fs F.TB_FREQ_F)] } }
    else d

/-- The loopback measurement of a port ends (R517): the median of t_rx − t_tx in 2^-16 ns and the frames returned. -/
def Dev.loopback (sp : Spine) (d : Dev) (p : Nat) (med : Int) (frames : Nat) : Dev :=
  if d.loopRuns p && d.glzOn then
    let d0 := ({ d with sent := d.sent ++ [.loop p 1024] } : Dev).setF (F.GLZ_LOOP_STAT_FRAMES p) frames
    if frames < 512 then (d0.setF (F.GLZ_LOOP_STAT_STAT p) 2).loopNext sp
    else
      let e := med - ((d.f (F.GLZ_LOOP_DELAY_D_LOOP p) * 256 : Nat) : Int)
      let d1 := d0.setF (F.GLZ_LOOP_RES_E p) (wrapInt 32 (clampInt (-(2 ^ 31)) (2 ^ 31 - 1) e))
      if e.natAbs ≤ 50 * 65536 then
        let a := e * ((min 16 (d.f (F.GLZ_LOOP_CFG_SHARE p)) : Nat) : Int) / 16
        let add := fun (d : Dev) (x : Fld) (v : Int) => d.setF x (wrapInt 24 (d.fs x + v))
        (((add (add d1 (F.FH_TS_CAL_RX_C p) a) (F.FH_TS_CAL_TX_C p) (e - a))).setF (F.GLZ_LOOP_STAT_STAT p) 1).loopNext sp
      else (d1.setF (F.GLZ_LOOP_STAT_STAT p) 3).loopNext sp
  else d

/-- May the calibration step end: every enabled carrier has a flipped set with VALID entries, or 60 s have passed? -/
def Dev.calibDone (sp : Spine) (d : Dev) : Bool :=
  ((List.range 48).all fun c => !d.fb (F.GLZ_CARR_CFG_EN c) || d.fb (F.GLZ_CARR_STAT_VALID c)) ||
    decide (d.glz.since + 60 * 10 ^ 9 * nsUnit ≤ sp.now)
/-- The COMMISSION steps end. -/
def Dev.commDone (sp : Spine) (d : Dev) : Dev :=
  if d.f F.GLZ_STATUS_COMM_STEP = 3 ∧ d.glzOn ∧ d.calibDone sp then
    ((d.setF F.GLZ_STATUS_COMM_STEP 0).setF F.GLZ_STATUS_COMM_DONE 1).raise evGlzCommDone glzUid
  else d

/-! ## Function 129 starts and stops (R501, R505, R514, R516) -/

/-- The rounds in use. -/
def Dev.rounds (d : Dev) : List Nat := (List.range 16).filter fun r => d.fb (F.GLZ_ROUND_EN r)
/-- Function 129 has entered STARTING: the firmware hands it the rounds' banks; in COMMISSION the steps begin, and
the calibrated carriers' symbols flow. -/
def Dev.glzStart (sp : Spine) (d : Dev) : Dev :=
  let d1 := d.rounds.foldl (fun d r => d.handover sp fwReq r (d.f (F.GLZ_ROUND_BANK r)) (BitVec.ofNat 32 glzUid) false) d
  if d.mode = 1 then
    let d2 := (d1.setF F.GLZ_STATUS_COMM_DONE 0).commEnter sp 1
    let d3 := (List.range 16).foldl (fun d p => (d.setF (F.GLZ_LOOP_STAT_STAT p) 0).setF (F.GLZ_LOOP_STAT_FRAMES p) 0) d2
    ((List.range 48).foldl (fun d c => if d.fb (F.GLZ_CARR_CFG_EN c) then d.fhStart sp c else d) d3).loopNext sp
  else d1.setF F.GLZ_STATUS_COMM_STEP 0
/-- Function 129 is STOPPING: PEND clears without a flip; a capture that waits for its bank ends; an OCXO step
restores its code. -/
def Dev.glzStop (sp : Spine) (d : Dev) : Dev :=
  let d1 := (List.range 48).foldl (fun d c => d.setF (F.GLZ_CARR_STAT_PEND c) 0) d
  let d2 := (List.range 4).foldl (fun d k => if (d.capt k).wait then d.captEnd k else d) d1
  let d3 := if d2.glz.ocxo.isSome then d2.ocxoEnd sp (d2.f F.GLZ_OCXO_RES_STAT) else d2
  (d3.setF F.GLZ_STATUS_COMM_STEP 0)
/-- Has Glaze nothing left to complete? In DRAIN injection goes on until the carriers have stopped (R514). -/
def Dev.glzDrained (d : Dev) : Bool :=
  d.f F.GLZ_CAPT_CMD_BUSY == 0 && d.estReady.isNone
    && (d.mode != 5 || (List.range 48).all fun c => !(d.fb (F.GLZ_CARR_CFG_EN c) && d.fnActive c))
/-- Function 129 has reached STOPPED: the banks that Glaze owns go to their regions' dispatchers; the
symbols of carriers that do not run themselves end. -/
def Dev.glzStopped (sp : Spine) (d : Dev) : Dev :=
  let d1 := d.rounds.foldl (fun d r =>
    if d.roundOwned r then d.handover sp glzReq r (d.f (F.GLZ_ROUND_BANK r)) (BitVec.ofNat 32 (dispatcherUid r)) false else d) d
  (List.range 48).foldl (fun d c => if d.fb (F.GLZ_CARR_CFG_EN c) && !d.fnUp c then d.fhStop sp c else d) d1

end Sys2Proof.Machine
end

