-- ==== Sys2Proof/Machine/Route.lean ====
section
/-! DEFINITION. The event router, the event log, the routes and the trace unit's records (R590 to R600, R621). -/

namespace Sys2Proof.Machine

/-! ## The event log (R596) -/

/-- An entry of the log: 32 bytes. -/
def logEntry (now : Nat) (sev seq : Nat) (first : Bool) (o : Occ) : List Byte :=
  leBytes 8 (now / nsUnit) ++ leBytes 2 (now / 2 ^ 32) ++ leBytes 2 (o.num % 1024 + sev % 4 * 1024) ++
    leBytes 2 (o.uid % 4096) ++ leBytes 1 (o.ch % 64) ++ leBytes 1 (b2n first) ++ leBytes 8 o.addr ++
    leBytes 4 o.info ++ leBytes 4 seq

/-- Is the log frozen (R91): PWRFAIL_N is low, or a flush of it runs or waits (log entry 87)? -/
def Dev.logFrozen (d : Dev) : Bool := d.pf.low || d.pf.flush.isSome || d.pf.wait.isSome

/-- Append an occurrence of sufficient severity to the log, while it is not frozen; the oldest of 64 entries gives way. -/
def Dev.logAppend (sp : Spine) (d : Dev) (o : Occ) : Dev :=
  let sev := d.f (F.EVT_CFG_SEV o.num)
  if d.f F.EVT_LOG_CFG_MIN ≤ sev ∧ d.logFrozen = false then
    { d with log := SMap.put d.log (d.logSeq % 64) (logEntry sp.now sev (d.logSeq % 2 ^ 32) d.logFirst o)
             logSeq := d.logSeq + 1, logFirst := false }
  else d

/-- The entries of the log, oldest first. -/
def Dev.logOrder (d : Dev) : List (List Byte) :=
  let n := min 64 d.logSeq
  (List.range n).map fun i => SMap.get d.log ((d.logSeq - n + i) % 64) []

/-- The 4 KiB window of the log at HST offset 0x3000: entry i of the ring at i × 32. -/
def Dev.logByte (d : Dev) (i : Nat) : Byte := (SMap.get d.log (i / 32 % 64) []).getD (i % 32) 0

/-! ## Trace records (R599, R600) -/

/-- A record of the trace unit: its code and the bytes 8 to 15. -/
def Dev.traceOwn (sp : Spine) (d : Dev) (uid code : Nat) (tail : List Byte) : Dev :=
  if d.fb F.ESL_TRC_CTRL_EN then
    d.putTrace sp F.EVT_TRC_LOST_COUNT (leBytes 6 (timeNs sp) ++ leBytes 2 (uid % 4096 + code * 4096) ++ tail)
  else d

/-- The EVENT record of an occurrence. -/
def Dev.traceEvent (sp : Spine) (d : Dev) (o : Occ) : Dev :=
  let sev := d.f (F.EVT_CFG_SEV o.num)
  if d.fb F.EVT_TRC_CTRL_EV_EN && decide (d.f F.EVT_TRC_CTRL_EV_MIN ≤ sev) then
    d.traceOwn sp o.uid 8 (leBytes 2 o.num ++ leBytes 2 (o.ch % 64 + sev * 64) ++ leBytes 4 o.info)
  else d

/-- Has a cluster run 2^(PC_SHIFT + 8) cycles at its clock since the last PC sample (log entry 96)? -/
def Dev.pcDue (sp : Spine) (d : Dev) (c : Nat) : Bool :=
  decide (2 ^ (d.f F.EVT_TRC_CTRL_PC_SHIFT + 8) * (1000 * nsUnit) ≤ (sp.now - d.pcAt) * d.clusterMhz c)
/-- A PC sample of the core that PC_CORE names (R600). -/
def Dev.pcSample (sp : Spine) (d : Dev) : Dev :=
  let k := d.f F.EVT_TRC_CTRL_PC_CORE
  if d.fb F.EVT_TRC_CTRL_PC_EN && decide (k < 384) && !d.parked.contains (coreCluster k) && d.pcDue sp (coreCluster k)
      && !sp.contain.dies.contains (k / 96) && !sp.contain.clusters.contains (coreCluster k) && sp.contain.pkg == 0 then
    let c := d.core k
    ({ d with pcAt := sp.now } : Dev).traceOwn sp (coreUid k) 9 (leBytes 2 c.pc.toNat ++
      leBytes 2 (b2n (c.mode == .wfi || c.mode == .easel) + 2 * d.f (F.CORE_STATUS_LA k) + 4 * d.f (F.CORE_STATUS_RA k)
        + 8 * d.f (F.CORE_STATUS_PRIV k)) ++ leBytes 4 (Config.coreCycle k sp.now))
  else d

/-! ## Routes (R592 to R595) -/

/-- Set the status bit of an event. -/
def Dev.setEvBit (d : Dev) (e : Nat) : Dev :=
  d.setF (F.EVT_STAT_STAT (e / 32)) (Nat.lor (d.f (F.EVT_STAT_STAT (e / 32))) (2 ^ (e % 32)))

/-- Apply one occurrence (R590, R592, R593): the status bit, the log, the route and the trace. -/
def Dev.applyOcc (sp : Spine) (d : Dev) (o : Occ) : Dev :=
  let was := d.evBit o.num
  let d1 := ((d.setEvBit o.num).logAppend sp o)
  let d2 := if d.f (F.EVT_CFG_ROUTE o.num) = 1 then (if was then d1 else d1.msixSend (d.f (F.EVT_CFG_VEC o.num)))
    else if d.f (F.EVT_CFG_ROUTE o.num) = 4 then d1.eventRelease sp o.num else d1
  d2.traceEvent sp o

/-- The order in which occurrences of one crossbar cycle are applied: number, then UID, then channel. -/
def occBefore (a b : Occ) : Bool :=
  decide (a.num < b.num) || (a.num == b.num && (decide (a.uid < b.uid) || (a.uid == b.uid && decide (a.ch < b.ch))))
/-- Insert an occurrence behind those that do not come after it. -/
def occInsert (o : Occ) (l : List Occ) : List Occ :=
  match l with
  | [] => [o]
  | h :: t => if occBefore o h then o :: h :: t else h :: occInsert o t
/-- Sort occurrences, keeping the order of equals. -/
def occSort (l : List Occ) : List Occ := l.foldl (fun s o => occInsert o s) []

/-- One crossbar cycle of the router, which accepts the first `n` waiting occurrences. -/
def Dev.routeCycle (sp : Spine) (d : Dev) (n : Nat) : Dev :=
  if sp.contain.pkg = 0 then
    (occSort (d.evq.take n)).foldl (fun d o => d.applyOcc sp o) { d with evq := d.evq.drop n }
  else d

/-! ## After a package fault (R621) -/

/-- The events that the always-on island raises itself. -/
def aonEvents : List Nat :=
  [evPkgFault, evPwrfail, evTrmSafe, evTrmWdog, evTrmDrop, evLcLatchOpen, evLcLatchClose, evLcKey]

/-- The AON takes the next occurrence: it logs and sends its own; every other is lost. -/
def Dev.aonEvent (sp : Spine) (d : Dev) : Dev :=
  match d.evq with
  | [] => d
  | o :: t =>
    let d1 := { d with evq := t }
    if sp.contain.pkg = 0 then d
    else if aonEvents.contains o.num then
      let d2 := d1.logAppend sp o
      if d.f (F.EVT_CFG_ROUTE o.num) = 1 ∧ d.aonSent.contains o.num = false then
        { d2 with aonSent := d2.aonSent ++ [o.num] }.msixSend (d.f (F.EVT_CFG_VEC o.num))
      else d2
    else d1

/-! ## Register writes -/

/-- May a requester write EVT_SW_RAISE and EVT_STAT_w: hub firmware, a core at S or M level, the host? -/
def evtWriter (q : Req) : Bool :=
  reqFw q || reqIs q hostUid 0 || ((coreOfUid q.uid.toNat).isSome && (q.lvl == 1 || q.lvl == 3))

/-- A W1C write of EVT_STAT_w. -/
def Dev.statClear (d : Dev) (q : Req) (w : Nat) (v : Word) : Dev :=
  if evtWriter q then d.plainWrite (F.EVT_STAT_STAT w).addr v else d

/-- A write of EVT_SW_RAISE; the event's UID is the writer's. -/
def Dev.swRaise (d : Dev) (q : Req) (v : Word) : Dev :=
  if evtWriter q then d.raise (evSw (v.toNat % 16)) q.uid.toNat q.ch.toNat else d

/-- A write of EVT_CFG_e. -/
def Dev.evtCfgWrite (d : Dev) (q : Req) (e : Nat) (v : Word) : Dev :=
  if reqFw q then d.plainWrite (F.EVT_CFG_ROUTE e).addr v else d

end Sys2Proof.Machine
end

