-- ==== Sys2Proof/Machine/Triggers.lean ====
section
/-! DEFINITION. The time triggers (R489 to R494, R554). -/

namespace Sys2Proof.Machine

/-- T of a trigger, in units of Spine.now. -/
def Dev.trigTime (d : Dev) (n : Nat) : Nat :=
  ((d.f (F.TB_TRIG_SEC_LO_SEC n) + d.f (F.TB_TRIG_SEC_HI_SEC n) * 2 ^ 32) * 10 ^ 9 + d.f (F.TB_TRIG_NS_NS n)) * nsUnit

/-- Show T, given in nanoseconds, in the trigger's registers (R492). -/
def Dev.setTrigNs (d : Dev) (n t : Nat) : Dev :=
  ((d.setF (F.TB_TRIG_SEC_LO_SEC n) (t / 10 ^ 9)).setF (F.TB_TRIG_SEC_HI_SEC n) (t / 10 ^ 9 / 2 ^ 32)).setF
    (F.TB_TRIG_NS_NS n) (t % 10 ^ 9)

/-- The actions of a firing trigger (R493), a bit of ACT each. -/
def Dev.trigActions (sp : Spine) (d : Dev) (n : Nat) : Dev :=
  let act := d.f (F.TB_TRIG_CTRL_ACT n)
  let k := d.f (F.TB_TRIG_CTRL_EVT n)
  let swap := if k = d.f F.GLZ_CFG_SWAP_EVT then 1 else 0
  let d1 := if bitAt act 0 then
      ({ d with glz := { d.glz with swap := d.glz.swap + swap } } : Dev).raise (evTrig k) tbUid else d
  let d2 := if bitAt act 1 && !d1.fb F.TB_PPS_OUT_CFG_EN then { d1 with tb := { d1.tb with pps := !d1.tb.pps } } else d1
  let g := d.f (F.TB_TRIG_CTRL_GPIO n)
  let d3 := if bitAt act 2 && bitAt (d.f F.TB_GPIO_OWN_OWN) g then
      { d2 with tb := { d2.tb with gpio := Nat.xor d2.tb.gpio (2 ^ g) } } else d2
  let d4 := if bitAt act 3 then d3.trimHand sp (d.f (F.TB_TRIG_CTRL_TRIM n)) (d.f (F.TB_TRIG_ARG_CODE n)) false else d3
  if bitAt act 4 then d4.portWindow (d.f (F.TB_TRIG_CTRL_PORT n)) else d4

/-- An outcome of a trigger: its STATE code (2 FIRED, 3 LATE, 4 MISSED), the count, the event, the actions. -/
def Dev.trigOutcome (sp : Spine) (d : Dev) (n st : Nat) : Dev :=
  let d1 := (d.setF (F.TB_TRIG_STAT_STATE n) st).countF (F.TB_TRIG_STAT_COUNT n) 1
  if st = 4 then
    ((d1.setF F.TB_TRIG_MISS_TRIG n).countF F.TB_TRIG_MISS_COUNT 1).raise evTrigMissed tbUid
  else if st = 3 then (d1.raise evTrigLate tbUid).trigActions sp n
  else d1.trigActions sp n

/-- What R490 makes of a trigger armed in this tick, `tp` the time of the tick before: 1 ARMED, 2 FIRED, 3 LATE,
4 MISSED. -/
def Dev.trigJudge (d : Dev) (n now tp : Nat) : Nat :=
  let t := d.trigTime n
  if now < t then 1
  else if tp < t then 2
  else if now - t ≤ d.f (F.TB_TRIG_LATE_NS n) * nsUnit then 3
  else 4

/-- The time of the tick before this one; before the first tick, the present time (log entry 38). -/
def prevTick (sp : Spine) : Nat := sp.recent.headD sp.now

/-- Judge an armed trigger in this tick, and each T its period gives, until one lies ahead (R490, R492). `fuel`
bounds the advances. -/
def Dev.trigRun (sp : Spine) (d : Dev) (n tp fuel : Nat) : Dev :=
  match fuel with
  | 0 => d
  | m + 1 =>
    match d.trigJudge n sp.now tp with
    | 1 => d.setF (F.TB_TRIG_STAT_STATE n) 1
    | st =>
      let d1 := d.trigOutcome sp n st
      let p := d.f (F.TB_TRIG_PERIOD_PERIOD_NS n)
      if p = 0 then d1.setF (F.TB_TRIG_CTRL_EN n) 0
      else (d1.setTrigNs n (d.trigTime n / nsUnit + p)).trigRun sp n tp m

/-- How many advances bring a periodic trigger past the present: one more than those that fit. -/
def Dev.trigFuel (sp : Spine) (d : Dev) (n : Nat) : Nat :=
  (sp.now - d.trigTime n) / (max 1 (d.f (F.TB_TRIG_PERIOD_PERIOD_NS n)) * nsUnit) + 2

/-- Arm a trigger: its STATE reads its last outcome until it is judged. -/
def Dev.trigArm (sp : Spine) (d : Dev) (n : Nat) : Dev := d.trigRun sp n (prevTick sp) (d.trigFuel sp n)

/-- Disarm a trigger (R489). -/
def Dev.trigDisarm (d : Dev) (n : Nat) : Dev :=
  let d1 := d.setF (F.TB_TRIG_CTRL_EN n) 0
  if d.f (F.TB_TRIG_STAT_STATE n) = 1 then d1.setF (F.TB_TRIG_STAT_STATE n) 0 else d1

/-- A write of TB_TRIG_n_CTRL (R489). -/
def Dev.trigCtrl (sp : Spine) (d : Dev) (q : Req) (n : Nat) (v : Word) : Dev :=
  let a := (F.TB_TRIG_CTRL_EN n).addr
  if !reqFw q then d
  else if bitAt v.toNat 0 then
    if d.fb (F.TB_TRIG_CTRL_EN n) then
      (if (d.plainWrite a v).reg a = d.reg a then d else d.setF F.TB_STATUS_CFG_ERR 1)
    else (d.plainWrite a v).trigArm sp n
  else (d.plainWrite a (v ||| (d.reg a &&& 1))).trigDisarm n

/-- A write of another register of a trigger: ignored while EN is 1. -/
def Dev.trigWrite (d : Dev) (q : Req) (n a : Nat) (v : Word) : Dev :=
  if !reqFw q then d
  else if d.fb (F.TB_TRIG_CTRL_EN n) then d.setF F.TB_STATUS_CFG_ERR 1
  else d.plainWrite a v

/-- An armed trigger whose T has come fires in this tick (R490). -/
def Dev.trigFire (sp : Spine) (d : Dev) (n : Nat) : Dev :=
  if d.fb (F.TB_TRIG_CTRL_EN n) && d.f (F.TB_TRIG_STAT_STATE n) == 1 && decide (d.trigTime n ≤ sp.now) then
    let d1 := d.trigOutcome sp n 2
    let p := d.f (F.TB_TRIG_PERIOD_PERIOD_NS n)
    if p = 0 then d1.setF (F.TB_TRIG_CTRL_EN n) 0
    else (d1.setTrigNs n (d.trigTime n / nsUnit + p)).trigRun sp n (prevTick sp) (d.trigFuel sp n)
  else d

/-- A forward step from `tp` re-judges every armed trigger that it carries time past (R491), in ascending number. -/
def Dev.trigStep (sp : Spine) (d : Dev) (tp : Nat) : Dev :=
  (List.range 256).foldl (fun d n =>
    if d.fb (F.TB_TRIG_CTRL_EN n) && d.f (F.TB_TRIG_STAT_STATE n) == 1 && decide (d.trigTime n ≤ sp.now) then
      d.trigRun sp n tp (d.trigFuel sp n)
    else d) d

/-- TRIGGER_SET: disarm, program, and arm when bit 0 of the CTRL value is 1 (R551, R554). -/
def Dev.triggerSet (sp : Spine) (d : Dev) (f : Nat) : Nat × List Nat × Dev :=
  let n := d.mbArg f 0
  let first := d.f F.HST_TRIG_RANGE_FIRST
  if n < first ∨ first + d.f F.HST_TRIG_RANGE_COUNT ≤ n ∨ 256 ≤ n then (4, [], d)
  else
    let w := fun (d : Dev) (x : Fld) (v : Nat) => d.plainWrite x.addr (BitVec.ofNat 32 v)
    let d1 := d.trigDisarm n
    let d2 := w (w (w d1 (F.TB_TRIG_SEC_LO_SEC n) (d.mbArg f 1)) (F.TB_TRIG_SEC_HI_SEC n) (d.mbArg f 2)) (F.TB_TRIG_NS_NS n) (d.mbArg f 3)
    let d3 := w (w (w d2 (F.TB_TRIG_ARG_CODE n) (d.mbArg f 5)) (F.TB_TRIG_LATE_NS n) (d.mbArg f 6)) (F.TB_TRIG_PERIOD_PERIOD_NS n) (d.mbArg f 7)
    let d4 := w d3 (F.TB_TRIG_CTRL_EN n) (d.mbArg f 4)
    let d5 := if bitAt (d.mbArg f 4) 0 then d4.trigArm sp n else d4
    (0, [(d5.reg (F.TB_TRIG_STAT_STATE n).addr).toNat], d5)

end Sys2Proof.Machine
end

