-- ==== Sys2Proof/Machine/Cfg.lean ====
section
/-! DEFINITION. The configuration fields of functions, and writes of them (R81, R387, R436, R443, R552). -/

namespace Sys2Proof.Machine

/-- M-level hub firmware runs on hub core 0: the unit that raises the EV_GSO_ events of modes and functions
(log entry 39). -/
def gsoUid : Uid := 2048
/-- The Gesso loader. -/
def loaderUid : Uid := hubUid 3

/-- Configuration fields in one register: the function, the mask of its fields, and whether a write is accepted
also while the function is ABSENT. -/
structure CfgFld where
  fn : Nat
  mask : Nat
  absentOk : Bool
  deriving DecidableEq, Repr

/-- All 32 bits of a function's register. -/
def wholeCfg (fn : Nat) : List CfgFld := [{ fn := fn, mask := 2 ^ 32 - 1, absentOk := false }]

/-- The configuration fields at an address, for a write after which the register holds `v`: the entry of a stream
belongs to the carrier it names before, and to the one it names after (R443). MODE of FH_PORT_CFG counts in the block
of port 4g alone (R435). -/
def Dev.cfgAt (d : Dev) (a : Nat) (v : Word) : List CfgFld :=
  match blkOf a with
  | some (.gso, o) =>
    if 0x1000 ≤ o ∧ o < 0x1000 + 134 * 4 then [{ fn := (o - 0x1000) / 4, mask := 16, absentOk := false }]
    else if 0x2000 ≤ o ∧ o < 0x2000 + 48 * 8 then
      (if o % 8 = 0 then [{ fn := (o - 0x2000) / 8, mask := 0x1FF, absentOk := false }] else wholeCfg ((o - 0x2000) / 8))
    else []
  | some (.nce, o) =>
    if 0x10000 ≤ o ∧ o < 0x10000 + 1536 * 0x20 then
      let g := 48 + (o - 0x10000) / 0x20 / 24
      if o % 0x20 < 0xC then wholeCfg g
      else if o % 0x20 = 0xC then [{ fn := g, mask := 0xFFFF, absentOk := false }] else []
    else if 0x20000 ≤ o ∧ o < 0x20000 + 64 * 0x40 then
      let g := 48 + (o - 0x20000) / 0x40
      if [0x0, 0x4, 0x8, 0x10, 0x14, 0x18, 0x20, 0x24, 0x28, 0x30].contains (o % 0x40) then wholeCfg g else []
    else []
  | some (.fh p, o) =>
    if o = 0 then
      if p % 4 ≠ 0 then [{ fn := fnPort p, mask := 2 ^ 32 - 8, absentOk := false }]
      else ((List.range 4).map fun i => { fn := fnPort (p / 4 * 4 + i), mask := 15, absentOk := true }) ++
        [{ fn := fnPort p, mask := 2 ^ 32 - 16, absentOk := false }]
    else if (0x10 ≤ o ∧ o < 0x20) ∨ (0x100 ≤ o ∧ o < 0x180) then wholeCfg (fnPort p)
    else if 0x1000 ≤ o ∧ o < 0x1400 ∧ o % 8 = 0 then
      ([bitsOf (d.reg a).toNat 16 6, bitsOf v.toNat 16 6].filter (fun c => decide (c < 48))).map fun c =>
        { fn := c, mask := 2 ^ 32 - 1, absentOk := true }
    else []
  | some (.tb, o) =>
    if [0x40, 0x44, 0x48, 0x4C, 0x50, 0x54, 0x58, 0x70, 0x80].contains o then wholeCfg fnServo else []
  | some (.glz, o) =>
    if o = 4 ∨ o = 8 ∨ o = 0x10 ∨ (0x40 ≤ o ∧ o < 0x84) ∨ (0x100 ≤ o ∧ o < 0x200 ∧ o % 0x10 < 8) ∨
        (0x400 ≤ o ∧ o < 0x400 + 48 * 0x40 ∧ o % 0x40 < 0x18) ∨ (0x10000 ≤ o ∧ o < 0x11000) then wholeCfg fnGlaze
    else []
  | _ => []

/-- Does a function's state allow a configuration write? -/
def Dev.cfgOpen (d : Dev) (x : CfgFld) : Bool := d.fnState x.fn == 1 || (x.absentOk && d.fnState x.fn == 0)

/-- The functions whose configuration a write that leaves `v` would change against R81. -/
def Dev.cfgBad (d : Dev) (a : Nat) (v : Word) : List Nat :=
  (((d.cfgAt a v).filter fun x =>
    !d.cfgOpen x && Nat.land v.toNat x.mask != Nat.land (d.reg a).toNat x.mask).map (·.fn)).eraseDups

/-- A write of a register by its access codes, refused as a whole where R81 says so. -/
def Dev.cfgWrite (d : Dev) (a : Nat) (v : Word) : Dev :=
  let d1 := d.plainWrite a v
  match d.cfgBad a (d1.reg a) with
  | [] => d1
  | l => l.foldl (fun d n => (d.setF (F.GSO_FUNC_CFG_ERR n) 1).raise evGsoCfgErr gsoUid) d

/-! ## Layer records (R53) -/

/-- A record: a register address, a mask and a value. -/
structure Rec where
  addr : Nat
  mask : Nat
  value : Nat
  deriving DecidableEq, Repr

/-- The records in bytes, 16 bytes each; a part of a record at the end is none. -/
def recsOf (n : Nat) (l : List Byte) : List Rec :=
  (List.range n).map fun i =>
    let b := l.drop (16 * i)
    { addr := ofLeBytes (b.take 8), mask := ofLeBytes ((b.drop 8).take 4), value := ofLeBytes ((b.drop 12).take 4) }

/-- A register's value with the record's masked bits. -/
def Rec.onto (r : Rec) (old : Word) : Word :=
  BitVec.ofNat 32 (Nat.land old.toNat (2 ^ 32 - 1 - r.mask % 2 ^ 32) + Nat.land r.value r.mask)

/-- The bits of a register that are configuration fields of function n, for a write that leaves `v`. -/
def Dev.cfgMask (d : Dev) (a n : Nat) (v : Word) : Nat :=
  ((d.cfgAt a v).filter fun x => x.fn == n).foldl (fun m x => Nat.lor m x.mask) 0

/-- Does a record of FUNCTION_CONFIG name only configuration fields of function n? -/
def Dev.recOfFn (d : Dev) (n : Nat) (r : Rec) : Bool :=
  let m := d.cfgMask r.addr n (r.onto (d.reg r.addr))
  m != 0 && Nat.land r.mask m == r.mask
    && (fieldsAt r.addr).any fun fs => fs.foldl (fun m f => m - Nat.land m ((2 ^ f.w - 1) * 2 ^ f.lo)) r.mask == 0

end Sys2Proof.Machine
end

