-- ==== Sys2Proof/Machine/Modes.lean ====
section
/-! DEFINITION. Modes, drain, functions and steps of the time (R66 to R86, R101 to R107, R263, R483 to R486, R575,
R604, R605, R623 to R626). -/

namespace Sys2Proof.Machine

/-! ## Safe removal (R575) -/

/-- The line card's UID (the management bus unit). -/
def lcUid : Uid := hubUid 13

/-- What LC_STATUS.SAFE shows. -/
def Dev.safeNow (d : Dev) : Bool :=
  !d.fb F.HST_STATUS_DORMANT || d.mode == 0 || (d.mode == 5 && !d.fb F.GSO_MODE_DRAINING) || d.fb F.HST_STATUS_NO_IMAGE

/-- Show SAFE; going to 1 while the latch is open raises EV_LC_SAFE. -/
def Dev.showSafe (d : Dev) : Dev :=
  let d1 := d.setF F.LC_STATUS_SAFE (b2n d.safeNow)
  if d.safeNow && !d.fb F.LC_STATUS_SAFE && !d.fb F.LC_STATUS_LATCH then d1.raise evLcSafe lcUid else d1

/-! ## Progress and the ends of functions (R79, R82, R107) -/

/-- A function makes progress: a STARTING one is RUNNING. -/
def Dev.progress (sp : Spine) (d : Dev) (n : Nat) : Dev :=
  if d.fnActive n then
    let d1 := { d with prog := SMap.put d.prog n sp.now }
    if d.fnState n = 2 then (let d2 := d1.setFnState n 3; if 112 ≤ n ∧ n < 128 then d2.synce false else d2) else d1
  else d

/-- The watchdog interval of a function in units of Spine.now (R77). -/
def Dev.wdInterval (d : Dev) (n : Nat) : Nat :=
  if n < 48 then 10000000 / (d.air n).slots * nsUnit else if n < 112 then 10000000 * nsUnit else 1000000 * nsUnit

/-- The tasks that hub firmware ties to a function (R626), as (descriptor-store slot, slot number). -/
def Dev.tasksOf (d : Dev) (n : Nat) : List (Nat × Nat) :=
  d.slots.filterMap fun e =>
    if e.2.st = 0 then none
    else match Config.taskOf e.1 (d.bytes (slotAddr e.1) 64) with
      | some (f, k) => if f = n then some (e.1, k) else none
      | none => none

/-- Kill the tasks of a function with status CANCELLED (R70, R71). -/
def Dev.killTasksOf (sp : Spine) (d : Dev) (n : Nat) : Dev :=
  (d.tasksOf n).foldl (fun d x => d.killTask sp x.1 gsoUid) d

/-- A function enters STOPPED. -/
def Dev.fnStopped (sp : Spine) (d : Dev) (n : Nat) : Dev :=
  let d1 := d.setFnState n 1
  if n < 48 then d1.setF (F.GSO_CARR_EFF_BUDGET n) 0
  else if 112 ≤ n ∧ n < 128 then (d1.fhLinkDown (n - 112)).synce false
  else if n = 129 then d1.glzStopped sp
  else d1

/-- Are the symbols that a carrier's flow on a position has admitted all done? -/
def Dev.flowDone (d : Dev) (q c : Nat) : Bool :=
  match d.flowOf q c with
  | none => true
  | some x =>
    match x.lim with
    | none => true
    | some l => ((d.entries q c 0).isEmpty || decide (l.1 ≤ x.ul)) && ((d.entries q c 1).isEmpty || decide (l.2 ≤ x.dl))
        && (d.fhQ q).tx.all fun t => t.c != c || t.fin

/-- Is a carrier's admitted work complete: no task of it is left, and every admitted symbol is done? -/
def Dev.carrDone (d : Dev) (c : Nat) : Bool :=
  (d.tasksOf c).isEmpty && (List.range 16).all fun q => d.flowDone q c

/-- Carriers that are STOPPING with their work complete enter STOPPED. -/
def Dev.carrSettle (sp : Spine) (d : Dev) : Dev :=
  (List.range 48).foldl (fun d c => if d.fnState c == 4 && d.carrDone c then d.fnStopped sp c else d) d

/-- A function that is STARTING or RUNNING leaves for STOPPING. A carrier that is STARTING has admitted no slot: it
is STOPPED in the same step, and its tasks are cancelled (R70; for FUNCTION_STOP log entry 40). -/
def Dev.fnStopping (sp : Spine) (d : Dev) (n : Nat) : Dev :=
  let starting := d.fnState n == 2
  let d1 := d.setFnState n 4
  if n < 48 then
    (if starting then ((d1.fhStop sp n).killTasksOf sp n).fnStopped sp n
     else (d1.fhStop sp n))
  else if n < 112 then d1.nceStop sp (n - 48)
  else if n < 128 then d1.synce false
  else if n = 128 then d1.setCause 4
  else if n = 129 then d1.glzStop sp
  else d1

/-! ## Starts (R79, R101, R102, R486, R529) -/

/-- The start check of a function's chapter: whether it may start, and the device with the failure reported. -/
def Dev.startCheck (d : Dev) (n : Nat) : Bool × Dev :=
  if n < 48 then d.fhStartCheck n
  else if n < 112 then d.nceStartCheck (n - 48)
  else if n = 129 then d.glzStartCheck
  else (true, d)

/-- A STOPPED function enters STARTING. -/
def Dev.fnStart (sp : Spine) (d : Dev) (n : Nat) : Dev :=
  let d1 := ({ d with prog := SMap.put d.prog n sp.now } : Dev).setFnState n 2
  let d2 := d1.setF (F.GSO_FUNC_RESUME n) 0
  if n < 48 then (d2.setF (F.GSO_CARR_EFF_BUDGET n) (d2.effBudget n)).fhStart sp n
  else if n < 112 then d2.nceStart (n - 48)
  else if n < 128 then d2.synce false
  else if n = 128 then ({ d2 with tb := { d2.tb with last := none } } : Dev).clearCause sp 4
  else if n = 129 then d2.glzStart sp
  else d2.setF F.TRM_STATUS_SAFE (setBits (d2.f F.TRM_STATUS_SAFE) (n - 130) 1 0)

/-- Start a function, or, while a step is in progress, have a traffic function start when it completes (R486). -/
def Dev.startFn (sp : Spine) (d : Dev) (n : Nat) : Dev :=
  if fnTraffic n && d.fb F.TB_STATUS_STEPPING then
    (if d.tb.starts.contains n then d else { d with tb := { d.tb with starts := d.tb.starts ++ [n] } })
  else d.fnStart sp n

/-- Start a STOPPED function if its check passes; one that fails stays STOPPED (log entry 41). -/
def Dev.tryStart (sp : Spine) (d : Dev) (n : Nat) : Bool × Dev :=
  if d.fnState n = 1 then
    let r := d.startCheck n
    if r.1 then (true, r.2.startFn sp n) else (false, r.2.setF (F.GSO_FUNC_RESUME n) 0)
  else (false, d)

/-- On entry to a mode: functions with RESUME set, and those with AUTO set whose class may run in it; one that
FUNCTION_STOP held back during the drain stays STOPPED (R84). -/
def Dev.startResumed (sp : Spine) (d : Dev) (m : Nat) : Dev :=
  (List.range 134).foldl (fun d n =>
    if fnMayRun n m && (d.fb (F.GSO_FUNC_RESUME n) || d.fb (F.GSO_FUNC_AUTO n)) && !d.modes.stays.contains n
    then (d.tryStart sp n).2 else d) d

/-- Entry to DORMANT at boot: the functions with AUTO set that may run in it start (R79). -/
def Dev.autoFns (sp : Spine) (d : Dev) : Dev := (d.startResumed sp 0).showSafe

/-! ## Steps of the time (R484 to R486, R491) -/

/-- A step completes: its event, the state, and the starts that waited for it, each with the start check of its chapter. -/
def Dev.stepDone (sp : Spine) (d : Dev) : Dev :=
  let d1 := (d.setF F.TB_STATUS_STEPPING 0).raise evTbStep tbUid
  let d2 := if d.tb.own then
      (({ d1 with tb := { d1.tb with own := false, pend := 0 } } : Dev).setF F.TB_STATUS_JUMP_PEND 0).clearCause sp 3
    else d1
  let d3 := if d2.f F.TB_STATUS_STATE = 0 ∨ d2.f F.TB_STATUS_HCAUSE ≠ 0 then d2 else d2.acquire sp
  let l := d3.tb.starts
  l.foldl (fun d n =>
    if d.fnState n == 1 && fnMayRun n d.mode then
      let r := d.startCheck n
      if r.1 then r.2.fnStart sp n else r.2
    else d) { d3 with tb := { d3.tb with starts := [] } }

/-- How many past ticks the spine keeps: those of the last 5 ns. -/
def recentMax : Nat := 4

/-- The time moves on to `t`. -/
def Spine.goto (sp : Spine) (t : Nat) : Spine := { sp with now := t, recent := (sp.now :: sp.recent).take recentMax }

/-- Step the time by `s` units of 2^-48 ns: forward in one tick, backward by withholding increments. -/
def stepTime (sp : Spine) (d : Dev) (s : Int) : Spine × Dev :=
  if s < 0 then (sp, ({ d with tb := { d.tb with withhold := (-s).toNat } } : Dev).setF F.TB_STATUS_STEPPING 1)
  else
    let sp1 := sp.goto (sp.now + s.toNat)
    (sp1, (d.trigStep sp1 sp.now).stepDone sp1)

/-! ## Clocks and the core voltage (R604, R605) -/

/-- V_fuse in mV. -/
def fuseMv : Nat := 700 + Config.vFuse % 151
/-- The core voltage of a mode in mV. -/
def modeMv (m : Nat) : Nat :=
  max 650 (if m = 2 ∨ m = 3 then fuseMv else if m = 1 then fuseMv - 50 else fuseMv - 80)
/-- The clusters' clock of a mode in MHz (R68). -/
def modeMhz (m : Nat) : Nat := if m = 1 then 1200 else if m = 2 ∨ m = 3 then 1600 else 1000

/-- The clock and the voltage follow a mode: when the voltage rises, clocks rise once it has settled. -/
def Dev.powerMode (sp : Spine) (d : Dev) (m : Nat) : Dev :=
  let now := d.f F.GSO_AVS_STAT_TARGET_MV
  let mv := modeMv m
  let clk := modeMhz m
  if mv = now then
    (if d.pwr.rise.isSome then { d with pwr := { d.pwr with clk := min d.pwr.clk clk, rise := some clk } }
     else { d with pwr := { d.pwr with clk := clk } })
  else
    let d1 := ({ d with sent := d.sent ++ [.pmbus (d.f F.GSO_AVS_ADDR) mv] } : Dev).setF F.GSO_AVS_STAT_TARGET_MV mv
    if now < mv then { d1 with pwr := { d1.pwr with clk := min d1.pwr.clk clk, rise := some clk, since := sp.now } }
    else { d1 with pwr := { d1.pwr with clk := clk, rise := none, since := sp.now } }

/-! ## Parking (R68, R263) -/

/-- Choose `n` of the clusters `l`; which ones is open (log entry 42). -/
def Dev.choosePark (d : Dev) (n : Nat) (l : List Nat) : List Nat × Dev :=
  match n with
  | 0 => ([], d)
  | m + 1 =>
    let x := d.draw (max 1 l.length)
    let r := x.2.choosePark m (l.eraseIdx x.1)
    ((l[x.1]?).toList ++ r.1, r.2)

/-- The clusters that a mode parks. -/
def Dev.parkFor (sp : Spine) (d : Dev) (m : Nat) : Dev :=
  if m = 4 then
    let r := d.choosePark (min 72 (d.f F.GSO_ECON_PARK_CLUSTERS)) (List.range 96)
    (r.2.setParked sp r.1).engUnpark
  else (d.setParked sp []).engUnpark

/-! ## Mode changes (R66 to R76) -/

/-- Enter a mode code, with its event (R623). -/
def Dev.setMode (d : Dev) (m : Nat) : Dev :=
  ((d.setF F.GSO_MODE_MODE m).raise evGsoMode gsoUid 0 0 m)

/-- Entry to DRAIN (R70, R73): admission closes, the traffic functions stop with RESUME set, Wash is suspended, and the
servo holds over. -/
def Dev.enterDrain (sp : Spine) (d : Dev) (target cause : Nat) : Dev :=
  let d1 := (((d.setF F.GSO_MODE_TARGET target).setF F.GSO_MODE_DRAIN_CAUSE cause).setF F.GSO_MODE_DRAINING 1).setMode 5
  let d2 := ({ d1 with tb := { d1.tb with starts := [] }, modes := { d1.modes with autoComm := false, drainAt := sp.now, stays := [] } } : Dev)
  let d3 := trafficFns.foldl (fun d n =>
    if d.fnUp n then (d.setF (F.GSO_FUNC_RESUME n) 1).fnStopping sp n else d) d2
  ((((d3.setCause 2).washSuspend).startResumed sp 5).carrSettle sp).showSafe

/-- The mode that RUN_MODE names. -/
def Dev.runMode (d : Dev) : Nat := if within 2 4 (d.f F.GSO_POLICY_RUN_MODE) then d.f F.GSO_POLICY_RUN_MODE else 2

/-- COMMISSION is complete, with all of Glaze's measurements or without (R67): entered by the auto-start it goes on
through DRAIN to RUN_MODE. -/
def Dev.commOver (sp : Spine) (d : Dev) (whole : Bool) : Dev :=
  if d.mode = 1 ∧ d.modes.commOver = false then
    let d1 := { d with modes := { d.modes with commOver := true } }
    let d2 := if whole then d1 else (d1.setF F.GLZ_STATUS_COMM_DONE 0).raise evGsoCommIncomplete gsoUid
    if d.modes.autoComm then d2.enterDrain sp d2.runMode 0 else d2
  else d

/-- Glaze in COMMISSION (R67): started when it is STOPPED, whatever its AUTO bit holds. -/
def Dev.commission (sp : Spine) (d : Dev) (auto : Bool) : Dev :=
  let d1 := { d with modes := { d.modes with autoComm := auto, commOver := false } }
  if d1.fnState 129 = 1 then
    let r := d1.tryStart sp 129
    if r.1 then r.2 else r.2.commOver sp false
  else if d1.fnState 129 = 0 ∨ d1.fnState 129 = 5 then d1.commOver sp false
  else d1

/-- The drain is over: what held functions back ends with it. -/
def Dev.drainEnds (d : Dev) : Dev := { d with modes := { d.modes with stays := [] } }

/-- Entry to a running mode. The auto-start of this boot is then over (R66). After COMMISSION's entry a carrier that
the drain left with RESUME = 1 stays STOPPED (log entry 88). -/
def Dev.enterRunning (sp : Spine) (d : Dev) (m : Nat) (auto : Bool) : Dev :=
  let d0 : Dev := { d with boot := { d.boot with autoDue := false } }
  let d1 := (d0.setF F.GSO_MODE_TARGET m).setMode m
  let d2 := ((if m = 3 then d1.washSuspend else d1.washResume).powerMode sp m).parkFor sp m
  let d3 := (List.range 16).foldl (fun d r => d.mapDisp r fun x => { x with hot := if m = 3 then d.f (F.ESL_RCFG_HOT r) else 0 }) d2
  let d4 := if m = 1 then ((List.range 134).foldl (fun d n =>
      if n != 129 && fnMayRun n 1 && d.fb (F.GSO_FUNC_AUTO n) && !d.modes.stays.contains n then (d.tryStart sp n).2 else d) d3).commission sp auto
    else d3.startResumed sp m
  d4.drainEnds.showSafe

/-- Entry to DORMANT. -/
def Dev.enterDormant (sp : Spine) (d : Dev) : Dev :=
  let d1 := (d.setF F.GSO_MODE_TARGET 0).setMode 0
  let d2 := (List.range 134).foldl (fun d n => d.setF (F.GSO_FUNC_RESUME n) 0) d1
  ((((d2.washResume.powerMode sp 0).parkFor sp 0)).startResumed sp 0).drainEnds.showSafe

/-- In DRAIN with drain complete: go where TARGET points. -/
def Dev.enterTarget (sp : Spine) (d : Dev) : Dev :=
  let t := d.f F.GSO_MODE_TARGET
  if t = 0 then d.enterDormant sp else if t = 5 then d.showSafe else d.enterRunning sp t false

/-- Is the servo LOCKED or HOLDOVER? -/
def Dev.servoGood (d : Dev) : Bool := within 2 3 (d.f F.TB_STATUS_STATE)

/-- A mode request: the status, and the device after it (R69, R74, R75, R83, R551). One that names the current running
mode while the servo is neither LOCKED nor HOLDOVER is refused (log entry 89). -/
def Dev.modeRequest (sp : Spine) (d : Dev) (t : Nat) : Nat × Dev :=
  let m := d.mode
  if 6 ≤ t then (3, d)
  else if !d.fb F.HST_STATUS_DORMANT || (within 1 4 t && !d.servoGood) || (d.fb F.GSO_MODE_HOLD_DRAIN && t != 5)
      || (t == 1 && (List.range 134).any fun n => d.fb (F.GSO_FUNC_RESUME n)) || (t == 5 && m == 0) then (2, d)
  else if m = 5 ∧ d.fb F.GSO_MODE_DRAINING then (0, d.setF F.GSO_MODE_TARGET t)
  else if m = t then (0, d)
  else if m = 5 then (0, (d.setF F.GSO_MODE_TARGET t).enterTarget sp)
  else if m = 0 then (0, d.enterRunning sp t false)
  else (0, d.enterDrain sp t (if t = 5 then 1 else 0))

/-- A write of GSO_MODE by M-level hub firmware acts as a request naming TARGET (R624). -/
def Dev.targetWrite (sp : Spine) (d : Dev) (q : Req) (v : Word) : Dev :=
  if reqFw q then (let r := d.modeRequest sp (bitsOf v.toNat 4 3); if r.1 = 0 then r.2 else d) else d

/-- The auto-start (R66), once per boot. -/
def Dev.autoStart (sp : Spine) (d : Dev) : Dev :=
  if d.boot.autoDue && d.servoGood && d.mode == 0 && d.fb F.HST_STATUS_DORMANT then
    if d.fb F.GSO_POLICY_COMMISSION_AT_START then d.enterRunning sp 1 true else d.enterRunning sp d.runMode true
  else d

/-- Is drain complete, and its completion still to be acted on? -/
def Dev.drained_ (d : Dev) : Bool := d.mode == 5 && d.fb F.GSO_MODE_DRAINING && !d.traffic

/-- The completion of drain (R72, R483). -/
def drainComplete (sp : Spine) (d : Dev) : Spine × Dev :=
  let d1 := ((d.setF F.GSO_MODE_DRAINING 0).raise evGsoDrainDone gsoUid).clearCause sp 2
  let r := if d1.fb F.TB_STATUS_JUMP_PEND && d1.fb F.TB_SERVO_CFG_AUTO_STEP && !d1.fb F.TB_STATUS_STEPPING then
      stepTime sp { d1 with tb := { d1.tb with own := true } } (-d1.tb.pend * ((2 ^ 32 : Nat) : Int))
    else (sp, d1)
  (r.1, r.2.enterTarget r.1)

/-- Has the drain run for GSO_DRAIN_TIMEOUT.TIMEOUT_MS milliseconds, a value of 0 being no limit (R71)? -/
def Dev.drainLate (sp : Spine) (d : Dev) : Bool :=
  d.f F.GSO_DRAIN_TIMEOUT_TIMEOUT_MS != 0 &&
    decide (d.modes.drainAt + d.f F.GSO_DRAIN_TIMEOUT_TIMEOUT_MS * 1000000 * nsUnit ≤ sp.now)

/-- The frames of a narrowband group that is stopped by R71 end (R416). -/
def Dev.cutShort (d : Dev) (n : Nat) : Dev := if within 48 111 n then d.nceCut (n - 48) else d
/-- The drain timeout (R71): the functions still STOPPING are stopped with their tasks killed. -/
def drainTimeout (sp : Spine) (d : Dev) : Spine × Dev :=
  if d.mode = 5 ∧ d.fb F.GSO_MODE_DRAINING ∧ d.traffic ∧ d.drainLate sp then
    let d1 := trafficFns.foldl (fun d n => if d.fnState n == 4 then ((d.killTasksOf sp n).cutShort n).fnStopped sp n else d) d
    drainComplete sp (d1.raise evGsoDrainTimeout gsoUid)
  else (sp, d)

/-- A drain that the line card starts or joins (R576, R578): it holds until the latch closes. -/
def Dev.lineDrain (sp : Spine) (d : Dev) (cause : Nat) : Dev :=
  if within 1 4 d.mode then (d.enterDrain sp 5 cause).setF F.GSO_MODE_HOLD_DRAIN 1
  else if d.mode = 5 then
    ((d.setF F.GSO_MODE_TARGET 5).setF F.GSO_MODE_HOLD_DRAIN 1).setF F.GSO_MODE_DRAIN_CAUSE cause
  else d

/-! ## The watchdog (R79, R82) -/

/-- A function without progress for three intervals becomes WEDGED; its RESUME stays as it is (log entry 88). -/
def Dev.wedge (sp : Spine) (d : Dev) (n : Nat) : Dev :=
  let d1 := (d.setFnState n 5).raise evGsoWedged gsoUid
  if n = 128 then d1.setCause 5
  else if n = 129 then d1.commOver sp false
  else if 112 ≤ n ∧ n < 128 then d1.synce false
  else d1

/-- The watchdog of a function expires. -/
def Dev.wdogFn (sp : Spine) (d : Dev) (n : Nat) : Dev :=
  if d.fnActive n && decide (SMap.get d.prog n 0 + 3 * d.wdInterval n ≤ sp.now) then d.wedge sp n else d

/-! ## Function commands (R79 to R84, R551, R552) -/

/-- FUNCTION_STOP: its status and the device. -/
def Dev.functionStop (sp : Spine) (d : Dev) (n : Nat) : Nat × Dev :=
  if 134 ≤ n then (3, d)
  else if d.fb F.HST_STATUS_DORMANT = false ∨ d.fnActive n = false ∨ (d.fnState n = 4 ∧ d.fb (F.GSO_FUNC_RESUME n) = false) then (2, d)
  else if d.fnState n = 4 then
    let d1 := d.setF (F.GSO_FUNC_RESUME n) 0
    (0, { d1 with modes := { d1.modes with stays := if d.modes.stays.contains n then d.modes.stays else d.modes.stays ++ [n] } })
  else (0, ((d.setF (F.GSO_FUNC_RESUME n) 0).fnStopping sp n).carrSettle sp)

/-- FUNCTION_START. -/
def Dev.functionStart (sp : Spine) (d : Dev) (n : Nat) : Nat × Dev :=
  if 134 ≤ n then (3, d)
  else if d.fb F.HST_STATUS_DORMANT = false ∨ d.fnState n ≠ 1 ∨ fnMayRun n d.mode = false ∨ d.mode = 5 then (2, d)
  else
    let r := d.startCheck n
    if r.1 then (0, r.2.startFn sp n) else (3, r.2)

/-- FUNCTION_CONFIG: the status, the records applied, and the device; `fail` that the host's memory could not be read. -/
def Dev.functionConfig (d : Dev) (n how cnt : Nat) (recs : List Byte) (fail : Bool) : Nat × Nat × Dev :=
  if 134 ≤ n ∨ 2 ≤ how ∨ 4096 < cnt then (3, 0, d)
  else if d.fb F.HST_STATUS_DORMANT = false ∨ 2 ≤ d.fnState n then (2, 0, d)
  else if fail then (5, 0, d)
  else
    let l := recsOf cnt recs
    if l.all fun r => d.recOfFn n r then
      let d1 := if d.fnState n = 0 then d.setFnState n 1 else d
      let d2 := l.foldl (fun d r => d.cfgWrite r.addr (r.onto (d.reg r.addr))) d1
      (0, cnt, if how = 1 then d2.setFnState n 0 else d2)
    else (3, 0, d)

/-! ## Misses and slots (R103, R107, R626) -/

/-- A miss of a task tied to a slot of a carrier counts once for that slot. -/
def Dev.missSlot (d : Dev) (s : Nat) : Dev :=
  match Config.taskOf s (d.bytes (slotAddr s) 64) with
  | none => d
  | some (n, k) =>
    if n < 48 ∧ d.modes.missed.contains (n, k) = false then
      ({ d with modes := { d.modes with missed := d.modes.missed ++ [(n, k)] } } : Dev).countF (F.GSO_CARR_MISS_SLOTS n) 1
    else d

/-- A task has completed: its slot is progress once every task of the slot has (R107). `desc` its descriptor. -/
def Dev.slotProgress (sp : Spine) (d : Dev) (s : Nat) (desc : List Byte) : Dev :=
  match Config.taskOf s desc with
  | none => d
  | some (n, k) => if n < 48 ∧ ((d.tasksOf n).any fun x => x.2 == k) = false then d.progress sp n else d

end Sys2Proof.Machine
end

