-- ==== Sys2Proof/Machine/LineCard.lean ====
section
/-! DEFINITION. The line card: latch, service key, LEDs and module cages, and how a full reset starts (R87, R480,
R572 to R588). -/

namespace Sys2Proof.Machine

/-! ## A full reset starts (R87, R480, R530) -/

/-- Record the trigger of a full reset; the servo holds over and the trim watchdog stops. -/
def Dev.startReset (sp : Spine) (d : Dev) (cause : Nat) : Dev :=
  if d.boot.at_ = .off ∨ d.boot.rst.isSome then d
  else
    let t := timeNs sp
    let d1 := (((d.setF F.GSO_RESET_CAUSE_CAUSE cause).countF F.GSO_RESET_CAUSE_COUNT 1).setF F.GSO_RESET_SEC_SEC
      (t / 10 ^ 9)).setF F.GSO_RESET_NS_NS (t % 10 ^ 9)
    let d2 := (((d1.setCause 4).clearCause sp 2).clearCause sp 5).setF F.TRM_WDOG_RUN 0
    { d2 with boot := { d2.boot with rst := some cause, due := false, since := sp.now } }

/-! ## Latch (R576, R577) -/

/-- The latch opens. -/
def Dev.latchOpen (sp : Spine) (d : Dev) : Dev :=
  if d.fb F.LC_STATUS_LATCH then
    let d1 := (d.setF F.LC_STATUS_LATCH 0).raise evLcLatchOpen lcUid
    if sp.contain.pkg = 0 ∧ d.fb F.GSO_POLICY_LATCH_DRAIN_EN then d1.lineDrain sp 2 else d1
  else d

/-- The latch closes. -/
def Dev.latchClose (sp : Spine) (d : Dev) : Dev :=
  if d.fb F.LC_STATUS_LATCH then d
  else
    let d1 := ((d.setF F.LC_STATUS_LATCH 1).raise evLcLatchClose lcUid).setF F.GSO_MODE_HOLD_DRAIN 0
    if sp.contain.pkg = 0 ∧ d.fb F.LC_CFG_CLOSE_RESUME ∧ d.mode = 5 then
      (let r := d1.modeRequest sp d1.runMode; if r.1 = 0 then r.2 else d1)
    else d1

/-! ## Service key (R574, R578) -/

/-- A debounced press edge. -/
def Dev.keyPress (sp : Spine) (d : Dev) : Dev :=
  if d.fb F.LC_STATUS_KEY then d
  else { d.setF F.LC_STATUS_KEY 1 with lc := { timed := true, acted := false, pressed := sp.now } }

/-- For how many whole milliseconds the key has been held (R574). -/
def Dev.heldMs (sp : Spine) (d : Dev) : Nat := (sp.now - d.lc.pressed) / (10 ^ 6 * nsUnit)

/-- LC_KEY records a press: its duration and its action. -/
def Dev.keyRecord (d : Dev) (ms act : Nat) : Dev :=
  let d1 := (d.setF F.LC_KEY_LAST_MS (min ms 65535)).setF F.LC_KEY_LAST_ACT act
  if act = 4 then d1.countF F.LC_KEY_IGNORED 1 else d1

/-- A release. A press found at AON start is not timed. -/
def Dev.keyRelease (sp : Spine) (d : Dev) : Dev :=
  if d.fb F.LC_STATUS_KEY = false then d
  else
    let ms := d.heldMs sp
    let d1 : Dev := { d.setF F.LC_STATUS_KEY 0 with lc := { d.lc with timed := false, acted := false } }
    if d.lc.timed = false then d1
    else if ms < 1000 then
      ((d1.keyRecord ms 1).setF F.LC_CTRL_IDENT (1 - d.f F.LC_CTRL_IDENT)).raise evLcKey lcUid
    else if 3000 ≤ ms ∧ ms ≤ 8000 ∧ sp.contain.pkg = 0 ∧ d.fb F.LC_CFG_KEY_DRAIN_EN ∧ d.mode ≠ 0 then
      ((d1.keyRecord ms 2).raise evLcKey lcUid).lineDrain sp 3
    else if 12000 < ms ∧ d.lc.acted then d1.keyRecord ms 3
    else d1.keyRecord ms 4

/-- The held time reaches 12,001 ms: a full reset, when the policy admits it. -/
def Dev.keyHold (sp : Spine) (d : Dev) : Dev :=
  if d.fb F.LC_STATUS_KEY && d.lc.timed && !d.lc.acted && decide (12001 ≤ d.heldMs sp) && d.fb F.GSO_POLICY_SVC_RESET_EN then
    let d1 : Dev := { d with lc := { d.lc with acted := true } }
    ((d1.keyRecord 12001 3).raise evLcKey lcUid).startReset sp 3
  else d

/-! ## LEDs (R579, R580) -/

/-- How an LED is lit: off, steady, or blinking at a rate in Hz. -/
inductive Led where
  | off | on | blink (hz : Nat)
  deriving DecidableEq, Repr

/-- What LED n shows. -/
def Dev.led (sp : Spine) (d : Dev) (n : Nat) : Led :=
  let is := fun (b : Bool) => if b then Led.on else Led.off
  match d.f (F.LC_LED_ROLE n) with
  | 1 => .on
  | 2 => .blink 1
  | 3 => if d.fb F.LC_STATUS_LATCH then .off else if d.fb F.LC_STATUS_SAFE then .on else .blink 2
  | 4 =>
    if d.fb F.LC_STATUS_KEY && d.lc.timed && decide (8001 ≤ d.heldMs sp) && d.fb F.GSO_POLICY_SVC_RESET_EN then .blink 4
    else if d.fb F.LC_CTRL_IDENT then .blink 1 else .off
  | 5 => is (d.fb (F.FH_PORT_STATUS_LINK (d.f (F.LC_LED_PORT n))))
  | _ => .off

/-- The current of LED n in mA. -/
def Dev.ledMa (d : Dev) (n : Nat) : Nat := max 1 (min 20 (d.f (F.LC_LED_MA n)))

/-! ## Module cages (R581 to R586) -/

/-- A cage. -/
def Dev.cageAt (d : Dev) (m : Nat) : Cage := SMap.get d.cage m Cage.empty
/-- Change a cage. -/
def Dev.mapCage (d : Dev) (m : Nat) (f : Cage → Cage) : Dev := { d with cage := SMap.put d.cage m (f (d.cageAt m)) }
/-- The state of a cage's sequencer. -/
def Dev.cageSt (d : Dev) (m : Nat) : Nat := d.f (F.LC_CAGE_STAT_STATE m)
/-- A change of state, with its event; MOD_RST_N goes low in EMPTY, INSERTED, FAULT and UNSUPPORTED. -/
def Dev.cageTo (sp : Spine) (d : Dev) (m s : Nat) : Dev :=
  ((d.setF (F.LC_CAGE_STAT_STATE m) s).raise (evLcMod m) lcUid).mapCage m fun c =>
    { c with since := sp.now, rst := c.rst || !within 2 4 s }

/-- Presence asserted. -/
def Dev.modIn (sp : Spine) (d : Dev) (m : Nat) : Dev :=
  if (d.cageAt m).prs then d
  else ((((d.mapCage m fun c => { c with prs := true, apps := [] }).setF (F.LC_CAGE_STAT_PRS m) 1).countF (F.LC_CAGE_STAT_INS m) 1).cageTo sp m 1)
/-- MOD_RST_N is released, 1 ms later. -/
def Dev.modRelease (d : Dev) (m : Nat) : Dev :=
  if d.cageSt m = 1 ∧ (d.cageAt m).rst then d.mapCage m fun c => { c with rst := false } else d
/-- The management interface answers; `cmis` what the identity says. -/
def Dev.modInit (sp : Spine) (d : Dev) (m : Nat) (cmis : Bool) : Dev :=
  if d.cageSt m = 1 ∧ (d.cageAt m).rst = false ∧ d.fb (F.LC_CAGE_CFG_AUTO m) then
    (let d1 := d.cageTo sp m 2; if cmis then d1 else d1.cageTo sp m 6)
  else d

/-- The rate in Gb/s and the lanes that a port mode of the cage's group asks for. -/
def hostIf (mode : Nat) : Nat × Nat :=
  if mode = 0 then (400, 4) else if mode = 1 then (200, 2) else if mode = 3 then (50, 1) else if mode = 4 then (25, 1) else (100, 1)
/-- The first advertised application that matches the group's ports (R582). -/
def Dev.modApp (d : Dev) (m : Nat) : Option ModApp :=
  (d.cageAt m).apps.find? fun a => a.rate.toNat == (hostIf (d.fhMode (4 * m))).1 && a.lanes.toNat == (hostIf (d.fhMode (4 * m))).2
/-- APPLY: the application is chosen. -/
def Dev.modApply (sp : Spine) (d : Dev) (m : Nat) : Dev :=
  let d1 := d.cageTo sp m 3
  match d1.modApp m with
  | some a => d1.setF (F.LC_CAGE_STAT_APP m) a.code.toNat
  | none => d1.cageTo sp m 6
/-- ModuleReady. -/
def Dev.modReady (sp : Spine) (d : Dev) (m : Nat) (apps : List ModApp) : Dev :=
  if d.cageSt m = 2 ∧ d.fb (F.LC_CAGE_CFG_AUTO m) then (d.mapCage m fun c => { c with apps := apps }).modApply sp m else d
/-- Data paths activated. -/
def Dev.modUp (sp : Spine) (d : Dev) (m : Nat) : Dev := if d.cageSt m = 3 ∧ d.fb (F.LC_CAGE_CFG_AUTO m) then d.cageTo sp m 4 else d
/-- A step of the sequencer ends in FAULT: the wait that the module advertised as `wait` ms and TMO_S caps, where 0 acts
as 1, has run out; or, with no wait given, the module gave no acknowledge three times running or reports a fault, as a
READY module may too. -/
def Dev.modFault (sp : Spine) (d : Dev) (m : Nat) (wait : Option Nat) : Dev :=
  let due := match wait with
    | some ms => (d.cageAt m).since + min ms (1000 * max 1 (d.f (F.LC_CAGE_CFG_TMO_S m))) * (10 ^ 6 * nsUnit)
    | none => 0
  if (within 1 3 (d.cageSt m) || (d.cageSt m == 4 && wait.isNone)) && d.fb (F.LC_CAGE_CFG_AUTO m) && decide (due ≤ sp.now) then
    d.cageTo sp m 5
  else d
/-- Presence deasserted: the step is abandoned; a transfer of firmware ends with NAK (R584, R587). -/
def Dev.modOut (sp : Spine) (d : Dev) (m : Nat) : Dev :=
  if (d.cageAt m).prs then
    let d1 := ((d.mapCage m fun c => { c with prs := false, apps := [] }).setF (F.LC_CAGE_STAT_PRS m) 0).cageTo sp m 0
    if d1.fb (F.LC_CAGE_I2C_BUSY m) then (d1.setF (F.LC_CAGE_I2C_BUSY m) 0).setF (F.LC_CAGE_I2C_NAK m) 1 else d1
  else d
/-- MOD_INT_N has been low for 1 ms. -/
def Dev.modInt (d : Dev) (m : Nat) : Dev := (d.setF (F.LC_CAGE_STAT_INT m) 1).raise (evLcModInt m) lcUid
/-- The ports' MODE of a group has changed: a READY module returns to APPLY. -/
def Dev.modMode (sp : Spine) (d : Dev) (m : Nat) : Dev := if d.cageSt m = 4 ∧ d.fb (F.LC_CAGE_CFG_AUTO m) then d.modApply sp m else d
/-- DORMANT is reached again (R586): a present module starts in INSERTED, its reset not asserted. -/
def Dev.modAgain (sp : Spine) (d : Dev) (m : Nat) : Dev :=
  if (d.cageAt m).prs ∧ d.cageSt m = 0 then
    ((((d.setF (F.LC_CAGE_STAT_PRS m) 1).setF (F.LC_CAGE_STAT_STATE m) 1).raise (evLcMod m) lcUid).mapCage m fun c =>
      { c with since := sp.now })
  else d

/-- Is the sequencer in a step, so that firmware's transfer waits (R585)? -/
def Dev.modStep (d : Dev) (m : Nat) : Bool := d.fb (F.LC_CAGE_CFG_AUTO m) && within 1 3 (d.cageSt m)
/-- A write of LC_CAGE_m_I2C: GO starts a transfer; in an empty cage it ends at once with NAK. While BUSY
only the W1C of NAK acts (log entry 43). -/
def Dev.i2cWrite (d : Dev) (q : Req) (m : Nat) (v : Word) : Dev :=
  let a := (F.LC_CAGE_I2C_GO m).addr
  if !reqFw q then d
  else if d.fb (F.LC_CAGE_I2C_BUSY m) then (if bitAt v.toNat 19 then d.setF (F.LC_CAGE_I2C_NAK m) 0 else d)
  else
    let d1 := (d.plainWrite a v).setF (F.LC_CAGE_I2C_GO m) 0
    if bitAt v.toNat 17 then
      (if (d.cageAt m).prs then d1.setF (F.LC_CAGE_I2C_BUSY m) 1 else d1.setF (F.LC_CAGE_I2C_NAK m) 1)
    else d1
/-- The transfer ends; `data` what the module returned. -/
def Dev.i2cDone (d : Dev) (m : Nat) (data : Byte) (nak : Bool) : Dev :=
  if d.fb (F.LC_CAGE_I2C_BUSY m) && !d.modStep m then
    let d1 := d.setF (F.LC_CAGE_I2C_BUSY m) 0
    if nak then d1.setF (F.LC_CAGE_I2C_NAK m) 1
    else if d.fb (F.LC_CAGE_I2C_WRITE m) then d1 else d1.setF (F.LC_CAGE_I2C_RDATA m) data.toNat
  else d

end Sys2Proof.Machine
end

