-- ==== Sys2Proof/Machine/Board.lean ====
section
/-! DEFINITION. Temperature, supply, core voltage and test access (R601 to R611, R618). -/

namespace Sys2Proof.Machine

/-! ## Temperature (R609, R610) -/

/-- THROTTLE_C, limited to its range, and HYST_C. -/
def Dev.throttleC (d : Dev) : Int := clampInt 85 105 (d.f F.GSO_THERM_CFG_THROTTLE_C : Int)
def Dev.hystC (d : Dev) : Int := (max 1 (d.f F.GSO_THERM_CFG_HYST_C) : Nat)

/-- The report of a die's hottest sensor: MAX_C holds the signed maximum of the reports since it was last read. -/
def Dev.thermOf (d : Dev) (die t : Nat) : Dev :=
  let m := if d.pwr.seen.contains die then max (d.fs (F.GSO_THERM_MAX_C die)) (sx 8 t) else sx 8 t
  let d1 : Dev := if d.pwr.seen.contains die then d else { d with pwr := { d.pwr with seen := die :: d.pwr.seen } }
  (d1.setF (F.GSO_THERM_TEMP_C die) t).setF (F.GSO_THERM_MAX_C die) (wrapInt 8 m)
/-- The reports of the five dies. -/
def Dev.thermReport (d : Dev) (l : List Nat) : Dev := l.zipIdx.foldl (fun d x => d.thermOf x.2 x.1) d

/-- A die's state of throttling changes. -/
def Dev.setThrot (d : Dev) (die v : Nat) : Dev := d.setF (F.GSO_THERM_THROT die) v
/-- A sensor of a compute die reaches the threshold. -/
def Dev.throttleEntry (d : Dev) (die t : Nat) : Dev :=
  if d.f (F.GSO_THERM_THROT die) = 0 ∧ d.throttleC ≤ sx 8 t then
    (d.setThrot die 1).raise (evThrottle die) (regionUid (4 * die) 14)
  else d
/-- Still hot 10 ms later. -/
def Dev.throttleDeepen (d : Dev) (die t : Nat) : Dev :=
  if d.f (F.GSO_THERM_THROT die) = 1 ∧ d.throttleC ≤ sx 8 t then d.setThrot die 2 else d
/-- Every sensor below the threshold less the hysteresis for 10 ms; `t` the hottest. -/
def Dev.throttleExit (d : Dev) (die t : Nat) : Dev :=
  if d.f (F.GSO_THERM_THROT die) ≠ 0 ∧ sx 8 t < d.throttleC - d.hystC then
    (d.setThrot die 0).raise (evThrottle die) (regionUid (4 * die) 14)
  else d

/-! ## The TAP (R601) -/

/-- A JTAG instruction; EXTEST, CLAMP and HIGHZ take the pins until the TAP is reset. -/
def Dev.jtagIr (d : Dev) (ir : JtagIr) : Dev :=
  { d with jtag := { ir := ir, pins := d.jtag.pins || ir == .extest || ir == .clamp || ir == .highz } }
/-- The device identification code. -/
def idCode : Nat := 2 ^ 28 + 0x9416 * 2 ^ 12 + Config.jtagMaker % 2 ^ 11 * 2 + 1

/-! ## The debug port (R602) -/

/-- Open the port. -/
def Dev.debugOpen (d : Dev) : Dev :=
  if d.fb F.EVT_DBG_OPEN then d
  else ((d.setF F.EVT_DBG_OPEN 1).countF F.EVT_DBG_OPENS 1).raise evDebug (hubUid 2)
/-- Close it. -/
def Dev.debugClose (d : Dev) : Dev :=
  if d.fb F.EVT_DBG_OPEN then (d.setF F.EVT_DBG_OPEN 0).raise evDebug (hubUid 2) else d
/-- Halt a core. -/
def Dev.debugHalt (d : Dev) (k : Nat) : Dev :=
  d.mapCore k fun c => if c.mode = .debug then c else { c with was := c.mode, mode := .debug, step := false }
/-- Let a halted core issue one bundle. -/
def Dev.debugStep (d : Dev) (k : Nat) : Dev :=
  d.mapCore k fun c => if c.mode = .debug then { c with mode := c.was, step := true } else c
/-- Resume a halted core. -/
def Dev.debugResume (d : Dev) (k : Nat) : Dev :=
  d.mapCore k fun c => if c.mode = .debug then { c with mode := c.was, step := false } else c

end Sys2Proof.Machine
end

