-- ==== Sys2Proof/Machine/Faults.lean ====
section
/-! DEFINITION. Faults and their containment: units, clusters, dies and the package (R17, R23 to R30, R124, R228, R256,
R290, R295, R346, R355, R432, R515, R598, R605, R611). -/

namespace Sys2Proof.Machine

/-- The time, the containment and the device: what a fault changes. -/
abbrev Whole := Spine × Dev

/-- Quarantine a unit. -/
def Spine.addUnit (sp : Spine) (uid : Nat) : Spine :=
  { sp with contain := { sp.contain with units := sp.contain.units ++ [uid] } }
/-- Quarantine a Gust channel. -/
def Spine.addChan (sp : Spine) (uid ch : Nat) : Spine :=
  { sp with contain := { sp.contain with chans := sp.contain.chans ++ [(uid, ch)] } }
/-- Quarantine a cluster. -/
def Spine.addCluster (sp : Spine) (c : Nat) : Spine :=
  { sp with contain := { sp.contain with clusters := sp.contain.clusters ++ [c] } }
/-- Fence a die. -/
def Spine.addDie (sp : Spine) (die : Nat) : Spine :=
  { sp with contain := { sp.contain with dies := sp.contain.dies ++ [die] } }
/-- The package fault of a source code. -/
def Spine.setPkg (sp : Spine) (src : Nat) : Spine := { sp with contain := { sp.contain with pkg := src } }

/-! ## Package (R28, R598, R611, R621) -/

/-- The UID of the always-on island. -/
def aonUid : Uid := hubUid 9

/-- A function stops with the package. -/
def Dev.pkgStopFn (d : Dev) (n : Nat) : Dev :=
  if d.fnActive n then
    let d1 := d.setFnState n 1
    if n < 48 then d1.setF (F.GSO_CARR_EFF_BUDGET n) 0 else d1
  else d

/-- A trip or a supply fault: its trim cause, and what else shows it. -/
def Dev.tripShown (d : Dev) (src rail : Nat) : Dev :=
  if src = 7 then ({ d with pwr := { d.pwr with trip := true } } : Dev).trimFault 1
  else if src = 8 then (d.setF F.GSO_SUPPLY_OUT (Nat.lor (d.f F.GSO_SUPPLY_OUT) (2 ^ rail))).trimFault 2
  else d

/-- A trip or a supply fault that meets a package fault already in force: a trip and a supply fault are one package fault
with source 7 and trim cause 1 (R618). -/
def Dev.secondTrip (d : Dev) (src rail : Nat) : Dev :=
  if src = 7 ∧ d.f F.EVT_FAULT_SRC = 8 then (d.setF F.EVT_FAULT_SRC 7).tripShown 7 rail
  else if src = 8 ∧ d.f F.EVT_FAULT_SRC = 7 then d.setF F.GSO_SUPPLY_OUT (Nat.lor (d.f F.GSO_SUPPLY_OUT) (2 ^ rail))
  else d.tripShown src rail

/-- A package fault: every function stops and the source is recorded; one that follows another changes no containment
(R29). -/
def packageFault (src rail : Nat) (w : Whole) : Whole :=
  if within 1 8 src then
    if w.1.contain.pkg = 0 then
      let d1 := (List.range 134).foldl (fun d n => d.pkgStopFn n) (w.2.setF F.EVT_FAULT_SRC src)
      let d2 := ({ d1 with aonSent := [] } : Dev).setCause 4
      (w.1.setPkg src, (d2.raise evPkgFault aonUid 0 0 src).tripShown src rail)
    else (w.1, w.2.secondTrip src rail)
  else w

/-! ## Clusters and dies (R25, R26, R290) -/

/-- The UID of a cluster's interrupt controller. -/
def cicUid (c : Nat) : Uid := mkUid (c / 24) (c / 6 % 4) (c % 6) 6

/-- What a core loses: its task, its L1 lines and its write buffer (R23, R24). Writes in a port A queue land. -/
def Dev.coreLost (d : Dev) (k : Nat) : Dev :=
  let c := d.core k
  let d1 := d.setCore k { c with l1 := [], wb := [], bundle := [], got := [], fills := [], emitted := 0, eslDone := none, task := none }
  match c.task with
  | some s => d1.signalEnd s 4
  | none => d1

/-- The event of a cluster's fault. -/
def clusterEvent (c : Nat) (d : Dev) : Dev := d.raise (evCoreCluster c) (cicUid c)
/-- The event of a die's fault. -/
def fenceEvent (die : Nat) (d : Dev) : Dev := d.raise (evFence die) (mkUid 4 3 0 die)

/-- A cluster is quarantined: its cores are lost, their banks pass, and ready tasks are placed again. -/
def clusterQuarantine (c : Nat) (w : Whole) : Whole :=
  if w.1.contain.clusters.contains c then w
  else if w.1.contain.dies.contains (c / 24) ∨ w.1.contain.pkg ≠ 0 then (w.1, clusterEvent c w.2)
  else
    let sp := w.1.addCluster c
    let d1 := (List.range 4).foldl (fun d i => (d.coreLost (c * 4 + i)).handBackAll (coreUid (c * 4 + i)) 0) w.2
    (sp, (clusterEvent c d1).redirect sp)

/-- Every task in flight on a region's units fails. -/
def Dev.failRunning (d : Dev) (p : Nat → Bool) : Dev :=
  (d.slots.map (·.1)).foldl (fun d s =>
    match (d.slot s).region with
    | some r => if p r && (d.slot s).st == 4 then d.signalEnd s 4 else d
    | none => d) d

/-- A die is fenced. -/
def dieFence (die : Nat) (w : Whole) : Whole :=
  if w.1.contain.dies.contains die then w
  else if w.1.contain.pkg ≠ 0 then (w.1, fenceEvent die w.2)
  else
    let sp := w.1.addDie die
    let d1 := (List.range 96).foldl (fun d i => d.coreLost (die * 96 + i)) w.2
    let d2 := (d1.failRunning fun r => r / 4 == die).setF F.EVT_FAULT_FENCED (Nat.lor (d1.f F.EVT_FAULT_FENCED) (2 ^ die))
    (sp, (fenceEvent die d2).redirect sp)

/-! ## Units (R23, R24) -/

/-- Is a fault of a unit met by containment already in force: then only its event is recorded (R29)? -/
def unitCase (uid : Nat) (w : Whole) (event : Dev → Dev) (quar : Whole → Whole) : Whole :=
  if w.1.contain.units.contains uid then w
  else if w.1.contain.out uid then (w.1, event w.2)
  else (let v := quar w; (v.1, v.2.redirect v.1))

/-- The event of a core's fault. -/
def coreEvent (k : Nat) (d : Dev) : Dev := d.raise (evCoreQuar (coreCluster k)) (coreUid k)

/-- A core's fault (R17, R23, R124); the fourth of a cluster quarantines the cluster (R25). -/
def coreFault (k : Nat) (w : Whole) : Whole :=
  let w1 := unitCase (coreUid k) w (coreEvent k) fun v =>
    (v.1.addUnit (coreUid k), coreEvent k ((v.2.coreLost k).handBackAll (coreUid k) 0))
  if (List.range 4).all fun i => w1.1.contain.units.contains (coreUid (coreCluster k * 4 + i)) then
    clusterQuarantine (coreCluster k) w1
  else w1

/-- The UID of CS unit u of cluster c. -/
def csUid (c u : Nat) : Uid := mkUid (c / 24) (c / 6 % 4) (c % 6) (4 + u)

/-- The operation a CS unit holds is abandoned; its core sees DONE and ERR (R228). -/
def Dev.csAbandon (d : Dev) (c u : Nat) : Dev :=
  match (d.csUnit c u).op with
  | none => d
  | some o => ((d.setF ⟨coreBase o.core + 0x808, 4 * u + 1, 1⟩ 1).setF ⟨coreBase o.core + 0x808, 4 * u + 2, 1⟩ 1).setCs c u
      { d.csUnit c u with op := none, tie := none }

/-- The event of a CS unit's fault. -/
def csEvent (c u : Nat) (d : Dev) : Dev := d.raise (evCoreQuar c) (csUid c u)

/-- A CS unit's fault; no task fails for it (R228). -/
def csFault (c u : Nat) (w : Whole) : Whole :=
  unitCase (csUid c u) w (csEvent c u) fun v => (v.1.addUnit (csUid c u), csEvent c u (v.2.csAbandon c u))

/-- The event of a bank's fault. -/
def bankEvent (r n : Nat) (d : Dev) : Dev :=
  if n < 48 then d.raise (evCoreQuar (r * 6 + n / 8)) (bankUid r n) else d.raise evPalQuar (bankUid r n)

/-- A bank's fault (R256): it refuses from now on, also the accesses that wait at its port. -/
def bankFault (r n : Nat) (w : Whole) : Whole :=
  unitCase (bankUid r n) w (bankEvent r n) fun v =>
    let sp := v.1.addUnit (bankUid r n)
    let d1 := match v.2.washAt r with
      | some { tgt := .bank _ n' _, .. } => if n'.val = n then v.2.washRelease r else v.2
      | _ => v.2
    (sp, (bankEvent r n d1).serveWaiting sp r n)

/-- An engine's fault (R355). -/
def engineFault (r e : Nat) (w : Whole) : Whole :=
  unitCase (regionUid r e) w (fun d => d.engAlert r e 4) fun v =>
    (v.1.addUnit (regionUid r e), (((v.2.engFault r e).delegateDone (regionUid r e) 0).handBackAll (regionUid r e) 0))

/-- A Gust channel's fault (R346). -/
def chanFault (e n : Nat) (w : Whole) : Whole :=
  if n < gstChans e then
    if w.1.contain.chans.contains (gustUid e, n) then w
    else if w.1.contain.out (gustUid e) then (w.1, w.2.gstEvent e n 3)
    else
      let sp := w.1.addChan (gustUid e) n
      (sp, (w.2.gstFault e n).redirect sp)
  else w

/-- The event of a fault of the hub Gust engine's shared logic: that of each hub channel. -/
def hubGustEvent (d : Dev) : Dev := (List.range 64).foldl (fun d n => d.gstEvent 16 n 3) d

/-- A fault of the hub Gust engine's shared logic quarantines every hub channel (R346). -/
def hubGustFault (w : Whole) : Whole :=
  unitCase (hubUid 4) w hubGustEvent fun v =>
    (v.1.addUnit (hubUid 4), (List.range 64).foldl (fun d n => d.gstFault 16 n) v.2)

/-- The event of the NCE's fault. -/
def nceEvent (d : Dev) : Dev := d.raise evNceFault nceUid
/-- The event of Glaze's fault. -/
def glazeEvent (d : Dev) : Dev := d.raise evGlzFault glzUid

/-- The NCE's fault (R432). -/
def nceFault (w : Whole) : Whole :=
  unitCase nceUid w nceEvent fun v => (v.1.addUnit nceUid, (nceEvent (v.2.setF F.NCE_STATUS_QUAR 1)).handBackAll nceUid 0)

/-- Glaze's fault (R515): injection stops, and function 129 becomes WEDGED. -/
def glazeFault (w : Whole) : Whole :=
  unitCase glzUid w glazeEvent fun v =>
    let sp := v.1.addUnit glzUid
    let d1 := (glazeEvent (v.2.setF F.GLZ_STATUS_QUAR 1)).handBackAll glzUid 0
    (sp, if d1.fnActive 129 then d1.wedge sp 129 else d1)

/-- A unit for which R598 names no level of its own: it is quarantined (R23, R24). -/
def otherFault (uid : Nat) (w : Whole) : Whole :=
  unitCase uid w (fun d => d) fun v => (v.1.addUnit uid, v.2.handBackAll uid 0)

/-- What a fault is of, by R598. -/
inductive FaultAt where
  | core (k : Nat) | cs (c u : Nat) | bank (r n : Nat) | engine (r u : Nat) | chan (e n : Nat) | hubGust | nce | glaze
  | other (uid : Nat) | cluster (c : Nat) | die (i : Nat) | pkg (src : Nat) | nothing
  deriving DecidableEq, Repr

/-- What a fault of the unit with a UID is of; a reserved UID names no unit. -/
def unitPlace (uid : Nat) : FaultAt :=
  let die := uidDie uid
  let c := (die * 4 + uidRegion uid) * 6 + uidCluster uid
  let r := die * 4 + uidRegion uid
  let u := uidUnit uid
  if die < 4 then
    if uidCluster uid < 6 then
      if u < 4 then .core (c * 4 + u)
      else if u < 6 then .cs c (u - 4)
      else if u = 6 then .cluster c
      else if u = 7 then .nothing
      else .bank r (uidCluster uid * 8 + (u - 8))
    else if uidCluster uid = 6 then
      if u < 4 then .engine r u
      else if u < 6 then .die die
      else if u < 10 then .bank r (48 + (u - 6))
      else if 14 ≤ u ∧ uidRegion uid = 0 then .die die
      else .nothing
    else .nothing
  else if die = 4 then
    if uid < 2052 ∨ uid = 2054 then .pkg 5
    else if uid = hubUid 0 then .nce
    else if uid = hubUid 1 then .glaze
    else if uid = hubUid 4 then .hubGust
    else if uid = hubUid 5 then .pkg 2
    else if uid = hubUid 7 then .pkg 3
    else if uid = hubUid 10 then .pkg 4
    else if within (hubUid 0) (hubUid 13) uid || within (mkUid 4 1 0 0) (mkUid 4 1 0 15) uid
        || within (mkUid 4 2 0 0) (mkUid 4 2 0 15) uid then .other uid
    else if within (mkUid 4 3 0 0) (mkUid 4 3 0 3) uid then .die u
    else .nothing
  else .nothing

/-- What a fault does. -/
def FaultAt.apply (x : FaultAt) (w : Whole) : Whole :=
  match x with
  | .core k => coreFault k w
  | .cs c u => csFault c u w
  | .bank r n => bankFault r n w
  | .engine r u => engineFault r u w
  | .chan e n => chanFault e n w
  | .hubGust => hubGustFault w
  | .nce => nceFault w
  | .glaze => glazeFault w
  | .other uid => otherFault uid w
  | .cluster c => clusterQuarantine c w
  | .die i => dieFence i w
  | .pkg src => packageFault src 0 w
  | .nothing => w

/-- The event that records a fault. R598 names none for a unit without a level of its own. -/
def FaultAt.event (x : FaultAt) (d : Dev) : Dev :=
  match x with
  | .core k => coreEvent k d
  | .cs c u => csEvent c u d
  | .bank r n => bankEvent r n d
  | .engine r u => d.engAlert r u 4
  | .chan e n => d.gstEvent e n 3
  | .hubGust => hubGustEvent d
  | .nce => nceEvent d
  | .glaze => glazeEvent d
  | .cluster c => clusterEvent c d
  | .die i => fenceEvent i d
  | .pkg _ | .other _ | .nothing => d

/-- The level of a fault: 0 unit, 1 cluster, 2 die, 3 package. -/
def FaultAt.level (x : FaultAt) : Nat :=
  match x with
  | .cluster _ => 1
  | .die _ => 2
  | .pkg _ => 3
  | _ => 0

/-- Does the containment of a fault at a higher level take in a lower one? -/
def FaultAt.covers (x y : FaultAt) : Bool :=
  decide (y.level < x.level) &&
    let c : Contain := match x with
      | .cluster c => { Contain.none with clusters := [c] }
      | .die i => { Contain.none with dies := [i] }
      | _ => { Contain.none with pkg := 1 }
    match y with
    | .core k => c.out (coreUid k)
    | .cs k u => c.out (csUid k u)
    | .bank r n => c.out (bankUid r n)
    | .engine r u => c.out (regionUid r u)
    | .chan e _ => c.out (gustUid e)
    | .cluster k => c.out (cicUid k)
    | _ => c.pkg != 0

/-- Faults detected in one cycle (R29): of those that the containment of a higher one takes in only the events are recorded,
first; then the others act, the highest level first. -/
def faultsAt (l : List FaultAt) (w : Whole) : Whole :=
  let under := fun (y : FaultAt) => l.any fun x => x.covers y
  let w1 : Whole := (w.1, (l.filter under).foldl (fun d x => x.event d) w.2)
  ([3, 2, 1, 0].flatMap fun n => l.filter fun x => !under x && x.level == n).foldl (fun w x => x.apply w) w1

/-- A fault of the unit with a UID. -/
def unitFault (uid : Nat) (w : Whole) : Whole := (unitPlace uid).apply w

/-- What a fault that a command names is of. -/
def FaultSrc.place (x : FaultSrc) : FaultAt :=
  match x with
  | .unit uid => unitPlace uid.toNat
  | .chan e n => .chan e.val n.val
  | .pkg src => .pkg src.toNat

/-- A Wash failure (R270): the unit that holds the word is quarantined. -/
def washFault (t : WashTgt) (w : Whole) : Whole :=
  match t with
  | .bank r n _ => bankFault r n w
  | .core k _ _ => if k.val < 384 then coreFault k w else packageFault 5 0 w
  | .sram _ => w

/-! ## Core voltage (R605) -/

/-- The monitor shows the core voltage to be `mv` after a change of its target; `nak` the write went unacknowledged three
times. Within 3 % of the target, the clocks rise once SETTLE_US has passed, where 0 acts as 1; away from it after 4 ×
SETTLE_US, the supply has failed (R605). -/
def avsSettle (mv : Nat) (nak : Bool) (w : Whole) : Whole :=
  let t := w.2.f F.GSO_AVS_STAT_TARGET_MV
  let off := if mv < t then t - mv else mv - t
  let settle := max 1 (w.2.f F.GSO_AVS_SETTLE_US) * (1000 * nsUnit)
  let away := decide (3 * t < 100 * off)
  if nak || (away && decide (w.2.pwr.since + 4 * settle ≤ w.1.now)) then
    packageFault 8 0 (w.1, w.2.setF F.GSO_AVS_STAT_ERR 1)
  else if away || decide (w.1.now < w.2.pwr.since + settle) then w
  else
    match w.2.pwr.rise with
    | some clk => (w.1, { w.2 with pwr := { w.2.pwr with clk := clk, rise := none } })
    | none => w

end Sys2Proof.Machine
end

