-- ==== Sys2Proof/Machine/Boot.lean ====
section
/-! DEFINITION. The flash, the image and its verification, the boot, power failure, and the execution of a full reset
(R44 to R65, R85 to R93, R247, R555, R559, R574, R586, R607, R625). -/

namespace Sys2Proof.Machine

/-! ## The flash (R44 to R46) -/

/-- A byte of the flash: programmed, erased, or as the board maker left it. -/
def Dev.flashByte (d : Dev) (a : Nat) : Byte :=
  SMap.get d.flash a (if d.erased.any fun e => decide (e.1 ≤ a) && decide (a < e.2) then 0xFF else Config.flashByte a)
/-- Bytes of the flash. -/
def Dev.flashBytes (d : Dev) (a n : Nat) : List Byte := (List.range n).map fun i => d.flashByte (a + i)
/-- A little-endian number in the flash. -/
def Dev.flashNum (d : Dev) (a n : Nat) : Nat := ofLeBytes (d.flashBytes a n)
/-- Program bytes. -/
def Dev.flashProg (d : Dev) (a : Nat) (l : List Byte) : Dev :=
  match l with
  | [] => d
  | b :: t => Dev.flashProg { d with flash := SMap.put d.flash a b } (a + 1) t
/-- Erase `n` bytes. -/
def Dev.flashErase (d : Dev) (a n : Nat) : Dev :=
  { d with flash := d.flash.filter fun e => !(decide (a ≤ e.1) && decide (e.1 < a + n))
           erased := if d.erased.contains (a, a + n) then d.erased else d.erased ++ [(a, a + n)] }
/-- Are `n` bytes erased? -/
def Dev.flashBlank (d : Dev) (a n : Nat) : Bool := (List.range n).all fun i => d.flashByte (a + i) == 0xFF

/-- Is the flash of a supported density? -/
def flashOk : Bool := Config.flashMib == 512 || Config.flashMib == 1024 || Config.flashMib == 2048
/-- The slot size S. -/
def slotSize : Nat := if Config.flashMib = 512 then 0x1C00000 else if Config.flashMib = 1024 then 0x3C00000 else 0x4000000
/-- Where slot 0 (A) or 1 (B) or the factory region (2) begins, and its size. -/
def imgBase (s : Nat) : Nat := if s = 0 then 0x800000 else if s = 1 then 0x800000 + slotSize else 0
def imgRoom (s : Nat) : Nat := if s = 2 then 0x400000 else slotSize

/-- CRC-32 (IEEE 802.3), one bit and one byte of it. -/
def crcBit (c : BitVec 32) : BitVec 32 := if c.getLsbD 0 then (c >>> 1) ^^^ 0xEDB88320#32 else c >>> 1
def crcByte (c : BitVec 32) (b : Byte) : BitVec 32 :=
  let x := c ^^^ BitVec.ofNat 32 b.toNat
  crcBit (crcBit (crcBit (crcBit (crcBit (crcBit (crcBit (crcBit x)))))))
/-- CRC-32 of bytes. -/
def crc32 (l : List Byte) : Nat := (l.foldl crcByte 0xFFFFFFFF#32 ^^^ 0xFFFFFFFF#32).toNat

/-! ## Commit markers (R47 to R51) -/

/-- The offset of marker position i, of 4,096. -/
def markAt (i : Nat) : Nat := 0x400000 + 32 * i
/-- Is the marker at position i valid? -/
def Dev.markOk (d : Dev) (i : Nat) : Bool :=
  let a := markAt i
  d.flashNum a 4 == 0x47534D4B && d.flashNum (a + 28) 4 == crc32 (d.flashBytes a 28) && decide (d.flashNum (a + 8) 1 ≤ 1)
    && within 1 0xFFFFFFFE (d.flashNum (a + 4) 4)
/-- The SEQ of the marker at position i. -/
def Dev.markSeq (d : Dev) (i : Nat) : Nat := d.flashNum (markAt i + 4) 4
/-- The newest valid marker: the highest SEQ, on a tie the highest offset. -/
def Dev.newestMark (d : Dev) : Option Nat :=
  (List.range 4096).foldl (fun b i =>
    if d.markOk i then
      (match b with
        | some j => if d.markSeq j ≤ d.markSeq i then some i else b
        | none => some i)
    else b) none
/-- The active slot. -/
def Dev.activeSlot (d : Dev) : Nat := (d.newestMark.map fun i => d.flashNum (markAt i + 8) 1).getD 0
/-- The SEQ of the newest valid marker; 0 when there is none. -/
def Dev.newestSeq (d : Dev) : Nat := (d.newestMark.map d.markSeq).getD 0
/-- Is no further marker possible (R50)? -/
def Dev.markFull (d : Dev) : Bool := d.newestSeq == 0xFFFFFFFE

/-- The lowest erased position of a sector of 2,048. -/
def Dev.markFree (d : Dev) (sector : Nat) : Option Nat :=
  ((List.range 2048).map fun i => sector * 2048 + i).find? fun i => d.flashBlank (markAt i) 32
/-- Where the marker after `newest` goes, with the sector erased first where one must be (R49, R51). -/
def Dev.markAfter (d : Dev) (newest : Option Nat) : Nat × Dev :=
  match newest with
  | none => (0, if d.flashBlank (markAt 0) 0x10000 then d else d.flashErase (markAt 0) 0x10000)
  | some i =>
    match d.markFree (i / 2048) with
    | some j => (j, d)
    | none => (((1 - i / 2048) * 2048), d.flashErase (markAt ((1 - i / 2048) * 2048)) 0x10000)

/-- Where the next marker goes, with the sector erased first where one must be. -/
def Dev.markPlace (d : Dev) : Nat × Dev := d.markAfter d.newestMark

/-! ## Images (R52 to R56) -/

/-- A header field of the image at `b`. -/
def Dev.hdr (d : Dev) (b off n : Nat) : Nat := d.flashNum (b + off) n
/-- The bytes that the signature covers (R55). -/
def Dev.signed (d : Dev) (b : Nat) : List Byte := d.flashBytes b (d.hdr b 0xC 4 - 96)

/-- Write the marker that names a slot's image. -/
def Dev.writeMark (d : Dev) (slot : Nat) : Dev :=
  let b := imgBase slot
  let body := leBytes 4 0x47534D4B ++ leBytes 4 (d.newestSeq + 1) ++ leBytes 1 slot ++ [0] ++ leBytes 2 (d.hdr b 0x14 1) ++
    leBytes 4 (d.hdr b 0xC 4) ++ fitBytes 12 (Config.sha384 (d.signed b))
  let r := d.markPlace
  r.2.flashProg (markAt r.1) (body ++ leBytes 4 (crc32 body))

/-- The fuse rollback counter. -/
def Dev.rollback (d : Dev) : Nat := d.boot.fuse.getD (min 64 Config.rollback)

/-- Does a table of `n` entries of `k` bytes at `off` lie within the image? -/
def Dev.tabOk (d : Dev) (b off n k : Nat) : Bool := decide (d.hdr b off 4 + k * n ≤ d.hdr b 0xC 4)
/-- Checks 0x1, 0x8, 0x2 and 0x4 on the header of the image in slot or region `s`. -/
def Dev.headChecks (d : Dev) (s : Nat) : List (Nat × Bool) :=
  let b := imgBase s
  let len := d.hdr b 0xC 4
  [(1, d.hdr b 0 4 == 0x47534F31 && d.hdr b 4 4 == 1 && d.hdr b 8 4 == 512 && within 608 (imgRoom s) len
      && decide (d.hdr b 0x14 1 ≤ 64) && within 1 64 (d.hdr b 0x16 2) && d.tabOk b 0x18 (d.hdr b 0x1C 4) 16
      && d.tabOk b 0x20 (d.hdr b 0x24 4) 16 && d.tabOk b 0x28 (d.hdr b 0x16 2) 32),
   (8, bitAt (d.hdr b 0x15 1) 1 == (s == 2)),
   (2, Config.sha384 (d.flashBytes (b + 0x40) 97) == Config.rootHash),
   (4, decide (d.rollback ≤ d.hdr b 0x14 1))]

/-- The record at image offset `o`. -/
def Dev.imgRec (d : Dev) (b o : Nat) : Rec :=
  { addr := d.hdr b o 8, mask := d.hdr b (o + 8) 4, value := d.hdr b (o + 12) 4 }
/-- The records of a layer: 0 the factory layer, 1 the user layer, in record order. -/
def Dev.layer (d : Dev) (b l : Nat) : List Rec :=
  (List.range (d.hdr b (0x1C + 8 * l) 4)).map fun i => d.imgRec b (d.hdr b (0x18 + 8 * l) 4 + 16 * i)
/-- The bits of a register that the image may set. -/
def imgMask (a : Nat) : Nat :=
  match fieldsAt a with
  | none => 0
  | some fs => fs.foldl (fun m f => if f.img then Nat.lor m ((2 ^ f.w - 1) * 2 ^ f.lo) else m) 0
/-- Check 0x5 on record i of a layer: it names Img Y fields, and sets no bit that an earlier record of the layer sets. -/
def recOk (l : List Rec) (i : Nat) : Bool :=
  match l[i]? with
  | none => true
  | some r => decide (r.addr < 2 ^ 42) && r.mask != 0 && Nat.land r.mask (imgMask r.addr) == r.mask
      && (l.take i).all fun x => x.addr != r.addr || Nat.land x.mask r.mask == 0

/-- A segment: destination, length and image offset. -/
structure Segm where
  dst : Nat
  len : Nat
  off : Nat
  deriving DecidableEq, Repr

/-- The segments of an image, in table order. -/
def Dev.segms (d : Dev) (b : Nat) : List Segm :=
  (List.range (d.hdr b 0x16 2)).map fun i =>
    let o := d.hdr b 0x28 4 + 32 * i
    { dst := d.hdr b o 8, len := d.hdr b (o + 8) 4, off := d.hdr b (o + 12) 4 }
/-- Does a range lie within one core memory, Palette bank, hub SRAM or the descriptor store (R54)? -/
def segDest (a n : Nat) : Bool :=
  let z := a + (n - 1)
  match tgtOf a with
  | .cmem k => tgtOf z == .cmem k && decide (n ≤ 0x40000)
  | .bank r m => tgtOf z == .bank r m
  | .sram => tgtOf z == .sram
  | .store => tgtOf z == .store
  | _ => false
/-- Check 0x6 on a segment. -/
def Dev.segOk (d : Dev) (b : Nat) (x : Segm) : Bool := decide (x.off + x.len ≤ d.hdr b 0xC 4) && segDest x.dst x.len

/-- Checks 0x5, 0x6 and 0x3 with the image offset behind the data that each tests. -/
def Dev.bodyChecks (d : Dev) (b : Nat) : List (Nat × Nat × Bool) :=
  let lay := fun (l : Nat) => ((d.layer b l).mapIdx fun i _ =>
    (d.hdr b (0x18 + 8 * l) 4 + 16 * i + 16, 5, recOk (d.layer b l) i) : List (Nat × Nat × Bool))
  lay 0 ++ lay 1 ++ ((d.segms b).mapIdx fun i x => (d.hdr b 0x28 4 + 32 * i + 32, 6, d.segOk b x)) ++
    [(d.hdr b 0xC 4, 3, Config.ecdsaOk (d.flashBytes (b + 0x40) 97) (Config.sha384 (d.signed b))
      (d.flashBytes (b + (d.hdr b 0xC 4 - 96)) 96))]

/-- Verify the image in slot or region `s` (R56): none where every check passes, else the code of the first that fails
and the image offset reached. `err` the image offset of an xSPI error. -/
def Dev.verify (d : Dev) (s : Nat) (err : Option Nat) : Option (Nat × Nat) :=
  let e := err.getD (2 ^ 40)
  if e < 512 then some (7, e)
  else
    match (d.headChecks s).find? fun c => !c.2 with
    | some c => some (c.1, 512)
    | none =>
      let len := d.hdr (imgBase s) 0xC 4
      let bad := ((d.bodyChecks (imgBase s)).filter fun c => !c.2.2 && decide (c.1 ≤ e)).foldl
        (fun (b : Option (Nat × Nat)) c =>
          match b with
          | some x => if c.1 < x.2 then some (c.2.1, c.1) else b
          | none => some (c.2.1, c.1)) none
      match bad with
      | some x => some x
      | none => if e < len then some (7, e) else none

/-- A rejection (R56): FAIL_CAUSE and the event. -/
def Dev.imgReject (d : Dev) (code : Nat) : Dev := (d.setF F.GSO_BOOT_STATUS_FAIL_CAUSE code).raise evGsoImageReject loaderUid

/-! ## Layers (R53, R61, R62, R247) -/

/-- Is a register one of TRM_CH_c_CFG? -/
def isTrimCfg (a : Nat) : Bool := (List.range 4).any fun c => a == (F.TRM_CH_CFG_MODE c).addr
/-- Apply one record. -/
def Dev.applyRec (d : Dev) (r : Rec) : Dev := d.setReg r.addr (r.onto (d.reg r.addr))
/-- Apply the records that `p` picks, factory layer first. -/
def Dev.applyLayers (d : Dev) (b : Nat) (p : Nat → Bool) : Dev :=
  ((d.layer b 0 ++ d.layer b 1).filter fun r => p r.addr).foldl (fun d r => d.applyRec r) d

/-- A start owner that may not own its bank is not applied (R247). -/
def Dev.startOwner (d : Dev) (r n : Nat) : Dev :=
  if mayOwn r (d.f (F.PAL_OWNER_OWNER r n)) (d.f (F.PAL_OWNER_OWNER_CH r n))
      || (d.f (F.PAL_OWNER_OWNER r n) == dispatcherUid r && d.f (F.PAL_OWNER_OWNER_CH r n) == 0) then d
  else ((d.setF (F.PAL_OWNER_OWNER r n) (dispatcherUid r)).setF (F.PAL_OWNER_OWNER_CH r n) 0).refuse 3 (unitReq loaderUid 0)
    (F.PAL_OWNER_OWNER r n).addr true

/-- A reserved frequency code of the reference counts as a lost reference (R471). -/
def Dev.refCheck (d : Dev) : Dev := if d.refValid then d else d.refLost

/-- The layers are applied. -/
def Dev.layerApply (d : Dev) : Dev :=
  if d.boot.at_ = .verified then
    let ref := d.reg F.TB_REF_CFG_SEL.addr
    let d1 := d.applyLayers (imgBase d.boot.image) fun a => !isTrimCfg a
    let d2 := allBanks.foldl (fun d x => d.startOwner x.1 x.2) d1
    let d3 := (if d2.reg F.TB_REF_CFG_SEL.addr = ref then d2 else d2.refCheck).setF F.GSO_BOOT_STATUS_PHASE 5
    { d3 with boot := { d3.boot with at_ := .layers } }
  else d

/-! ## Boot (R57 to R60, R65, R607) -/

/-- No image (R59). -/
def Dev.noImage (d : Dev) : Dev :=
  let d1 := (({ d with boot := { d.boot with at_ := .noImage } } : Dev).setF F.GSO_BOOT_STATUS_PHASE 7).setF F.HST_STATUS_NO_IMAGE 1
  let d2 := d1.raise evGsoNoImage loaderUid
  let d3 := if d.boot.again then d2.trimNoImage else (d2.setF F.TRM_STATUS_CAUSE 4).raise evTrmSafe trimUid
  d3.showSafe

/-- The newest flush slot of the log area: a valid header with the highest FSEQ (R93, R625). -/
def flushAt (i : Nat) : Nat := 0x420000 + 4096 * i
def Dev.flushOk (d : Dev) (i : Nat) : Bool :=
  d.flashNum (flushAt i) 4 == 0x47534C47 && d.flashNum (flushAt i + 24) 4 == crc32 (d.flashBytes (flushAt i) 24)
def Dev.flushSeq (d : Dev) (i : Nat) : Nat := d.flashNum (flushAt i + 4) 4
def Dev.newestFlush (d : Dev) : Option Nat :=
  (List.range 32).foldl (fun b i =>
    if d.flushOk i then
      (match b with
        | some j => if d.flushSeq j < d.flushSeq i then some i else b
        | none => some i)
    else b) none
/-- The next flush slot. -/
def Dev.nextFlush (d : Dev) : Nat :=
  match d.newestFlush with
  | some i => (i + 1) % 32
  | none => 0

/-- GSO_PWRFAIL as the loader loads it at power-up. -/
def Dev.loadPwrfail (d : Dev) : Dev :=
  match d.newestFlush with
  | none => d
  | some i => (d.setF F.GSO_PWRFAIL_FLUSHED (b2n (d.flashNum (flushAt i + 28) 1 == 0))).setF F.GSO_PWRFAIL_ENTRIES
      (min 64 (d.flashNum (flushAt i + 8) 1))

/-- The boot starts: fuses sensed, the flash opened, the next flush slot erased. `since` the time that BOOT_US counts
from. While a flush runs the slot behind it is left to the end of that flush (log entry 94). -/
def Dev.bootStart (d : Dev) (since : Nat) : Dev :=
  let d1 : Dev := { d with boot := { d.boot with at_ := .load 0, since := since } }
  let d2 := (((d1.setF F.GSO_BOOT_STATUS_PHASE 2).setF F.GSO_BOOT_STATUS_FLOOR d.rollback).setF F.GSO_AVS_STAT_FUSE_MV fuseMv).setF
    F.LC_STATUS_SAFE 1
  if !(flashOk && Config.fusesOk) then d2.noImage
  else
    let d3 := if d.boot.again then d2 else d2.loadPwrfail
    let a := flushAt d3.nextFlush
    if d3.pf.flush.isSome || d3.flashBlank a 4096 then d3 else d3.flashErase a 4096

/-- Slot or region of candidate `c`: the active slot, the other, the factory region (R58). -/
def Dev.candSlot (d : Dev) (c : Nat) : Nat := if c = 0 then d.activeSlot else if c = 1 then 1 - d.activeSlot else 2

/-- Write the segments of an image to their destinations. -/
def Dev.writeSegms (d : Dev) (b : Nat) : Dev :=
  (d.segms b).foldl (fun e x => e.setBytes x.dst (d.flashBytes (b + x.off) x.len)) d
/-- Clear what had been written of a rejected image by image offset `at_`. -/
def Dev.clearSegms (d : Dev) (b at_ : Nat) : Dev :=
  if at_ ≤ 512 then d
  else (d.segms b).foldl (fun e x => if x.off < at_ && d.segOk b x then e.clearMem x.dst x.len else e) d

/-- The candidate is accepted: its trim configuration is applied in this tick (R58, R61). -/
def Dev.candAccept (d : Dev) (c s : Nat) : Dev :=
  let b := imgBase s
  let d1 := (d.writeSegms b).setF F.GSO_BOOT_STATUS_SLOT s
  let d2 := if c = 0 then d1
    else
      let d3 := (d1.setF F.GSO_BOOT_STATUS_FALLBACK 1).raise evGsoFallback loaderUid
      if c = 1 && !d.markFull then d3.writeMark s else d3
  let d4 := (((d2.applyLayers b isTrimCfg).trimVerified).setF F.GSO_BOOT_STATUS_PHASE 3).setF F.GSO_IMAGE_VERSION_VERSION (d.hdr b 0x10 4)
  { d4 with boot := { d4.boot with at_ := .verified, image := s } }

/-- The loader tries its candidate. -/
def Dev.candidate (d : Dev) (err : Option Nat) : Dev :=
  match d.boot.at_ with
  | .load c =>
    let s := d.candSlot c
    match d.verify s err with
    | none => d.candAccept c s
    | some (code, off) =>
      let d1 := (d.clearSegms (imgBase s) off).imgReject code
      if 2 ≤ c then d1.noImage else { d1 with boot := { d1.boot with at_ := .load (c + 1) } }
  | _ => d

/-- The measurement blocks 3 to 8 of the booted image (R559). -/
def Dev.measure (d : Dev) : Dev :=
  let b := imgBase d.boot.image
  let seg := ((d.segms b).map fun x => d.flashBytes (b + x.off) x.len).flatten
  let lay := fun l => d.flashBytes (b + d.hdr b (0x18 + 8 * l) 4) (16 * d.hdr b (0x1C + 8 * l) 4)
  let blocks := [(3, Config.sha384 (d.flashBytes b 512)), (4, Config.sha384 (lay 0)), (5, Config.sha384 (lay 1)),
    (6, Config.sha384 seg),
    (7, fitBytes 8 (Config.measRaw 7 [d.boot.image, d.newestSeq, d.hdr b 0x14 1, d.f F.GSO_BOOT_STATUS_FALLBACK])),
    (8, Config.sha384 (d.signed b))]
  blocks.foldl (fun d x => { d with meas := SMap.put d.meas x.1 x.2 }) d

/-- DORMANT is reached. AUTO_START is read here, once (log entry 90). -/
def Dev.dormantReached (sp : Spine) (d : Dev) : Dev :=
  if d.boot.at_ = .layers then
    let b := imgBase d.boot.image
    let flags := d.hdr b 0x15 1
    let level := d.hdr b 0x14 1
    let d1 := ((d.measure.setF F.GSO_BOOT_STATUS_PHASE 6).setF F.HST_STATUS_DORMANT 1).setF F.GSO_BOOT_TIME_BOOT_US
      ((sp.now - d.boot.since) / (1000 * nsUnit))
    let d2 := if bitAt flags 0 && !bitAt flags 1 && decide (d.rollback < level) then
        ({ d1 with boot := { d1.boot with fuse := some level } } : Dev).setF F.GSO_BOOT_STATUS_FLOOR level
      else d1
    let d3 : Dev := { d2 with boot := { d2.boot with at_ := .dormant, autoDue := d2.fb F.GSO_POLICY_AUTO_START } }
    let d4 := (List.range 134).foldl (fun d n =>
      if d.fb (F.GSO_FUNC_PRESENT n) && d.fnState n == 0 then d.setFnState n 1 else d) d3
    ((List.range 4).foldl (fun d m => d.modAgain sp m) (d4.raise evGsoDormant gsoUid)).autoFns sp
  else d

/-! ## Full reset (R87 to R89, R481, R586) -/

/-- Is a register held by the always-on island? -/
def aonReg (a : Nat) : Bool :=
  within (blkBase .gso + 0x40) (blkBase .gso + 0x5C) a || within (blkBase .tb) (blkBase .tb + 0x9C) a
    || (within (blkBase .trm) (blkBase .trm + 0xFFFF) a && a != F.TRM_WDOG_RUN.addr)
    || within (blkBase .hst) (blkBase .hst + 0xFFFF) a || within (blkBase .lc) (blkBase .lc + 0x3F) a
    || a == F.EVT_LOG_CFG_MIN.addr || a == F.EVT_FAULT_SRC.addr

/-- What a full reset leaves of the device: the always-on island, the flash, and what the model records of the outside. -/
def Dev.aonKept (d : Dev) : Dev :=
  let d1 : Dev :=
    { Dev.reset with
      regs := d.regs.filter fun e => aonReg e.1
      tb := { d.tb with starts := [], flog := none }
      trim := d.trim.map fun e => (e.1, { e.2 with next := none })
      trimDrop := d.trimDrop, perst := d.perst, fn := d.fn, vfMbox := d.vfMbox, mbox := d.mbox, msix := d.msix, msixPend := d.msixPend
      ring := d.ring, flash := d.flash, erased := d.erased, pf := d.pf, lc := d.lc
      cage := d.cage.map fun e => (e.1, { e.2 with apps := [] })
      pwr := { Pwr.reset with trip := d.pwr.trip }, jtag := d.jtag, log := d.log, logSeq := d.logSeq, sent := d.sent, free := d.free
      boot := { Boot.off with since := d.boot.since, staged := d.boot.staged, rstLow := d.boot.rstLow, again := true, fuse := d.boot.fuse } }
  (((d1.setF F.EVT_FAULT_FENCED 0).setF F.HST_STATUS_DORMANT 0).setF F.HST_STATUS_NO_IMAGE 0).setF F.LC_STATUS_SAFE 1

/-- The full reset that has started is executed: nothing is out of service, and the device boots again unless RESET_N holds
it. -/
def fullReset (w : Whole) : Whole :=
  if w.2.boot.rst.isSome then
    let d := w.2.aonKept
    ({ w.1 with contain := Contain.none }, if d.boot.rstLow then d else d.bootStart w.2.boot.since)
  else w

/-! ## Power (R91 to R93, R574, R606, R607, R625) -/

/-- Power good: the AON takes the levels it finds, and the boot starts unless RESET_N is low. -/
def Dev.powerGood (sp : Spine) (d : Dev) (latch key : Bool) : Dev :=
  if d.boot.at_ = .off ∧ d.boot.again = false then
    let d1 := (d.setF F.LC_STATUS_LATCH (b2n latch)).setF F.LC_STATUS_KEY (b2n key)
    if d.boot.rstLow then d1 else d1.bootStart sp.now
  else d

/-- RESET_N rises: a device held since power-up, or since the reset it started, boots. -/
def Dev.resetRelease (sp : Spine) (d : Dev) : Dev :=
  if d.boot.rstLow then
    let d1 : Dev := { d with boot := { d.boot with rstLow := false } }
    if d.boot.at_ = .off then d1.bootStart (if d.boot.again then d.boot.since else sp.now) else d1
  else d

/-- RESET_N falls. -/
def Dev.resetAssert (sp : Spine) (d : Dev) : Dev :=
  Dev.startReset sp { d with boot := { d.boot with rstLow := true } } 1

/-- Start a flush of `l`, at time `t`: bytes 0 to 27 of the slot's header. -/
def Dev.flushStart (d : Dev) (l : List (List Byte)) (t : Nat) : Dev :=
  let i := d.nextFlush
  let seq := (d.newestFlush.map d.flushSeq).getD 0 + 1
  let h := leBytes 4 0x47534C47 ++ leBytes 4 seq ++ leBytes 1 l.length ++ List.replicate 7 0 ++ leBytes 8 t
  let d1 := d.flashProg (flushAt i) (h ++ leBytes 4 (crc32 h))
  { d1 with pf := { d1.pf with flush := some (i, l), back := !d1.pf.low, wait := none } }

/-- PWRFAIL_N falls: the log is frozen and flushed; a flush or erase under way goes first (R92). Of two falls
while one erase runs, the later takes the place of the earlier (log entry 94). -/
def Dev.pwrFall (sp : Spine) (d : Dev) : Dev :=
  if d.pf.low then d
  else
    let d1 := ({ d with pf := { d.pf with low := true } } : Dev).raise evPwrfail aonUid
    let l := d.logOrder
    if d.pf.flush.isSome || d.pf.erase.isSome then { d1 with pf := { d1.pf with wait := some (l, timeNs sp) } }
    else d1.flushStart l (timeNs sp)

/-- The flush ends: its entries, then DONE; one recovered from erases the slot behind it. -/
def Dev.flushDone (d : Dev) : Dev :=
  match d.pf.flush with
  | none => d
  | some (i, l) =>
    let d1 := (d.flashProg (flushAt i + 32) l.flatten).flashProg (flushAt i + 28) [0]
    { d1 with pf := { d1.pf with flush := none, erase := if d.pf.back then some d1.nextFlush else none } }

/-- PWRFAIL_N rises again. -/
def Dev.pwrRise (d : Dev) : Dev :=
  if d.pf.low then
    let d1 := ({ d with pf := { d.pf with low := false } } : Dev).setF F.GSO_PWRFAIL_RECOVERED 1
    if d.pf.flush.isSome then { d1 with pf := { d1.pf with back := true } }
    else if d.pf.erase.isSome then d1
    else { d1 with pf := { d1.pf with erase := some d1.nextFlush } }
  else d

/-- The erase of the next flush slot ends; a flush that waits for it proceeds. -/
def Dev.flushErased (d : Dev) : Dev :=
  match d.pf.erase with
  | none => d
  | some i =>
    let d1 := d.flashErase (flushAt i) 4096
    let d2 : Dev := { d1 with pf := { d1.pf with erase := none } }
    match d.pf.wait with
    | some (l, t) => d2.flushStart l t
    | none => d2

/-- Power is lost: the flash, the fuses and what the model records of the outside remain. -/
def Dev.powerLoss (d : Dev) : Dev :=
  { Dev.reset with flash := d.flash, erased := d.erased, sent := d.sent, free := d.free, perst := d.perst
                   boot := { Boot.off with fuse := d.boot.fuse, rstLow := d.boot.rstLow } }

/-! ## Staging and commit (R85, R86, R555) -/

/-- The slot that is not active. -/
def Dev.stageSlot (d : Dev) : Nat := 1 - d.activeSlot

/-- STAGE_IMAGE: status, results and device, which holds the slot that was staged; `chunk` what the host's memory returns. -/
def Dev.stageImage (d : Dev) (f : Nat) (chunk : List Byte) (fail : Bool) : Nat × List Nat × Dev :=
  let off := d.mbArg f 2
  let len := d.mbArg f 3
  let first := bitAt (d.mbArg f 4) 0
  let b := imgBase d.stageSlot
  if d.boot.committed then (2, [], d)
  else if len = 0 ∨ 2 ^ 24 < len ∨ len % 256 ≠ 0 ∨ off ≠ (if first then 0 else d.f F.HST_STAGE_BYTES) ∨ slotSize < off + len then
    (3, [], d)
  else
    let d0 : Dev := { d with boot := { d.boot with staged := d.stageSlot } }
    let d1 := if first then ((d0.flashErase b slotSize).setF F.HST_STAGE_BYTES 0).setF F.HST_STAGE_COMPLETE 0 else d0
    let d2 : Dev := { d1 with sent := d1.sent ++ [.hostRead f (d.mbArg f 0 + d.mbArg f 1 * 2 ^ 32) len false false] }
    if fail then (5, [], d2)
    else
      let d3 := (d2.flashProg (b + off) (fitBytes len chunk)).setF F.HST_STAGE_BYTES (off + len)
      (0, [off + len], if d3.hdr b 0xC 4 ≤ off + len then d3.setF F.HST_STAGE_COMPLETE 1 else d3)

/-- COMMIT_IMAGE of the slot that was staged; `busy` the security engine is occupied, `err` the image offset of an xSPI error. -/
def Dev.commitImage (d : Dev) (busy : Bool) (err : Option Nat) : Nat × List Nat × Dev :=
  if !d.fb F.HST_STAGE_COMPLETE || d.boot.committed then (2, [], d)
  else if d.markFull then (4, [], d)
  else if busy then (1, [], d)
  else
    match d.verify d.boot.staged err with
    | some (code, _) => (3, [0, code], d.imgReject code)
    | none =>
      let d1 := (d.writeMark d.boot.staged).setF F.HST_STAGE_COMPLETE 0
      (0, [d.newestSeq + 1], { d1 with boot := { d1.boot with committed := true } })

end Sys2Proof.Machine
end

