-- ==== Sys2Proof/Machine/RegWrite.lean ====
section
/-! DEFINITION. Writes of registers: what each register does when it is written, who may write it, and the
host's writes through BAR0 (R9, R11, R13, R42, R43, R109, R539). A write by a requester that may not make it
changes nothing (log entry 44). -/

namespace Sys2Proof.Machine

/-- Is a requester a core at S or M level? -/
def coreSM (q : Req) : Bool :=
  !q.dbg && (coreOfUid q.uid.toNat).isSome && (q.lvl == 1 || q.lvl == 3)

/-! ## Block by block -/

/-- The GSO_ block. -/
def Dev.gsoWrite (sp : Spine) (d : Dev) (q : Req) (o a : Nat) (v : Word) : Dev :=
  if !reqFw q then d else if o = 0 then d.targetWrite sp q v else d.cfgWrite a v

/-- The EVT_ block. -/
def Dev.evtWrite (d : Dev) (q : Req) (o a : Nat) (v : Word) : Dev :=
  if o = 8 then d.swRaise q v
  else if 0x100 ≤ o ∧ o < 0x180 then d.statClear q ((o - 0x100) / 4) v
  else if 0x1000 ≤ o then d.evtCfgWrite q ((o - 0x1000) / 4) v
  else if reqFw q then d.plainWrite a v else d

/-- A write of TB_STEP_CMD (R484): GO requests a step, refused while traffic is active or a step is in progress. -/
def stepGoWrite (q : Req) (v : Word) (w : Whole) : Whole :=
  if !reqFw q then w
  else
    let d := w.2.setF F.TB_STEP_CMD_ABS (b2n (bitAt v.toNat 1))
    if bitAt v.toNat 0 = false then (w.1, d)
    else if d.traffic || d.fb F.TB_STATUS_STEPPING then
      (w.1, (d.setF F.TB_STATUS_STEP_REFUSED 1).raise evTbStep tbUid)
    else
      let sec : Nat := d.f F.TB_STEP_SEC_LO_SEC + d.f F.TB_STEP_SEC_HI_SEC * 2 ^ 32
      let s : Int := if bitAt v.toNat 1 then
          nsToUnits ((sec : Int) * 10 ^ 9 + (d.f F.TB_STEP_NS_NS : Int)) - (w.1.now : Int)
        else nsToUnits (sx 64 sec * 10 ^ 9 + d.fs F.TB_STEP_NS_NS)
      stepTime w.1 d s

/-- The TB_ block, but for TB_STEP_CMD. -/
def Dev.tbWrite (sp : Spine) (d : Dev) (q : Req) (o a : Nat) (v : Word) : Dev :=
  if !reqFw q then d
  else if 0x1000 ≤ o then
    let n := (o - 0x1000) / 0x20
    let r := (o - 0x1000) % 0x20
    if r = 0xC then d.trigCtrl sp q n v else if r = 0x1C then d.plainWrite a v else d.trigWrite q n a v
  else if o = 0x30 then d.offsetLo v
  else if o = 0x34 then d.offsetHi sp v
  else if o = 0x70 then
    let d1 := d.cfgWrite a v
    if d1.reg a = d.reg a then d1 else d1.refCheck
  else if o = 0x90 then d.ppsOutWrite sp v
  else d.cfgWrite a v

/-- The TRM_ block. -/
def Dev.trmWrite (sp : Spine) (d : Dev) (q : Req) (o a : Nat) (v : Word) : Dev :=
  if !reqFw q then d
  else if o = 4 then d.wdogWrite sp v
  else if 0x100 ≤ o ∧ o % 0x10 = 4 then d.trimHand sp ((o - 0x100) / 0x10) (v.toNat % 2 ^ 16) false
  else d.plainWrite a v

/-- The LC_ block; the host may write LC_CTRL. -/
def Dev.lcWrite (d : Dev) (q : Req) (o a : Nat) (v : Word) : Dev :=
  if 0x100 ≤ o ∧ o % 0x10 = 8 then d.i2cWrite q ((o - 0x100) / 0x10) v
  else if reqFw q || (o == 4 && reqIs q hostUid 0) then d.plainWrite a v else d

/-- A write of a word of the MSI-X table; a vector that it unmasks is sent if it is pending (R548). -/
def Dev.msixWrite (d : Dev) (vec w : Nat) (v : Word) : Dev :=
  ({ d with msix := SMap.put d.msix (vec * 4 + w) v } : Dev).msixFlush

/-- A write of HST_RING_k_CFG: SIZE stays while EN is 1; `host` the host's write, which leaves TYPE and FN. -/
def Dev.ringCfg (d : Dev) (k : Nat) (v : Word) (host : Bool) : Dev :=
  let a := (F.HST_RING_CFG_EN k).addr
  let x := d.reg a
  let v1 := if d.fb (F.HST_RING_CFG_EN k) then setBits v.toNat 8 4 (bitsOf x.toNat 8 4) else v.toNat
  d.plainWrite a (BitVec.ofNat 32 (if host then setBits v1 1 7 (bitsOf x.toNat 1 7) else v1))

/-- The HST_ block, by hub firmware. -/
def Dev.hstWrite (d : Dev) (q : Req) (o a : Nat) (v : Word) : Dev :=
  if !reqFw q then d
  else if o = 0x140 then d.mbCtrl 0 v
  else if 0x1000 ≤ o ∧ o < 0x3000 then
    let k := (o - 0x1000) / 0x20
    let r := (o - 0x1000) % 0x20
    if r = 0x10 then d.ringCfg k v false
    else if r < 0x10 ∧ d.fb (F.HST_RING_CFG_EN k) then d
    else d.plainWrite a v
  else if 0x4000 ≤ o ∧ o < 0xC000 then d.msixWrite ((o - 0x4000) / 16) (o % 16 / 4) v
  else if 0xD000 ≤ o then
    (if o % 8 = 0 then d.doorTail ((o - 0xD000) / 8) (v.toNat % 2 ^ 16) else d.doorHead ((o - 0xD000) / 8) (v.toNat % 2 ^ 16))
  else d.plainWrite a v

/-- A write of EUR_EVT_SEND sends one EVENT frame to the peer that has the node (R568). -/
def Dev.evtSend (sp : Spine) (d : Dev) (q : Req) (v : Word) : Dev :=
  if !reqFw q then d
  else
    match d.peerOf (bitsOf v.toNat 0 14) with
    | some k => if d.peerUp k then d.eurNote sp k 10 (leBytes 1 (bitsOf v.toNat 14 4)) else d
    | none => d

/-- The EUR_ block; CFG and MAC of a peer are fixed while EN is 1. -/
def Dev.eurWrite (sp : Spine) (d : Dev) (q : Req) (o a : Nat) (v : Word) : Dev :=
  if !reqFw q then d
  else if o = 0x10 then d.evtSend sp q v
  else if 0x8000 ≤ o ∧ o % 0x10 < 0xC ∧ d.fb (F.EUR_PEER_CFG_EN ((o - 0x8000) / 0x10)) then d
  else d.plainWrite a v

/-- The shared setting of the NCE that a register belongs to (R388). -/
def nceSharedAt (o : Nat) : Option NceShared :=
  if 0x100 ≤ o ∧ o < 0x180 then some (.cap ((o - 0x100) / 0x20))
  else if 0x200 ≤ o ∧ o < 0x280 then some (.tx ((o - 0x200) / 0x20))
  else if 0x1000 ≤ o ∧ o < 0x1800 then some (.prof ((o - 0x1000) / 0x40))
  else if 0x2000 ≤ o ∧ o < 0x2400 then some (.pulse ((o - 0x2000) / 0x100))
  else none

/-- NCE_CH_CMD (R416). -/
def Dev.nceCmd (d : Dev) (q : Req) (v : Word) : Dev :=
  if reqFw q && bitAt v.toNat 16 && decide (v.toNat % 2 ^ 11 < 1536) then d.nceAbort (v.toNat % 2 ^ 11) else d

/-- The NCE_ block; the host may write the ring pointers of a group. -/
def Dev.nceWrite (sp : Spine) (d : Dev) (q : Req) (o a : Nat) (v : Word) : Dev :=
  if 0x20000 ≤ o ∧ (o % 0x40 = 0xC ∨ o % 0x40 = 0x1C ∨ o % 0x40 = 0x2C) then
    (if reqFw q || reqIs q hostUid 0 then d.plainWrite a v else d)
  else if !reqFw q then d
  else if o = 0xC then d.nceCmd q v
  else
    match nceSharedAt o with
    | some x =>
      if o < 0x1000 ∧ o % 0x20 = 0 then d.strmCfg sp (decide (0x200 ≤ o)) (o % 0x100 / 0x20) v
      else if o < 0x1000 ∧ (0x14 ≤ o % 0x20 ∨ (0x200 ≤ o ∧ o % 0x20 = 0x10)) then d.plainWrite a v
      else if d.sharedFree x then d.plainWrite a v else d.sharedRefused
    | none =>
      if 0x10000 ≤ o ∧ o < 0x20000 ∧ o % 0x20 = 0x14 then (d.plainWrite a v).schedule ((o - 0x10000) / 0x20)
      else d.cfgWrite a v

/-- The FH_ block of a port: the doorbell takes any core at S or M level. -/
def Dev.fhWrite (sp : Spine) (d : Dev) (q : Req) (p o a : Nat) (v : Word) : Dev :=
  if o = 0x40 then (if coreSM q || reqFw q then d.doorbell sp p v else d)
  else if !reqFw q then d
  else if o = 0x50 then d.tscapArm p v
  else if o = 0x70 then (if p = 0 then (d.plainWrite a v).synce false else d)
  else if o = 0 then
    let d1 := d.cfgWrite a v
    if d1.fhMode p = d.fhMode p then d1 else d1.modMode sp (p / 4)
  else d.cfgWrite a v

/-- The GLZ_ block. -/
def Dev.glzWrite (sp : Spine) (d : Dev) (q : Req) (o a : Nat) (v : Word) : Dev :=
  if !reqFw q then d
  else if o = 0x14 then d.estimateCommand v
  else if o = 0x18 then d.captureCommand sp v
  else if 0x400 ≤ o ∧ o < 0x1000 ∧ o % 0x40 = 0x2C then d.nextTWrite ((o - 0x400) / 0x40) v
  else d.cfgWrite a v

/-- The hub PAL_ block. -/
def Dev.palhWrite (d : Dev) (q : Req) (o a : Nat) (v : Word) : Dev :=
  if !reqFw q then d
  else if o = 0x10C then d.extInvalWrite q v
  else if (o = 0x100 ∨ o = 0x104) ∧ d.fb F.PAL_EXT_CTRL_EN then d
  else d.plainWrite a v

/-- ESL_KILL (R627). -/
def Dev.killWrite (sp : Spine) (d : Dev) (q : Req) (v : Word) : Dev :=
  let s := v.toNat % 2 ^ 16
  if reqFw q && (d.slot s).st != 0 && d.dTag s == v.toNat / 2 ^ 16 then d.killTask sp s q.uid.toNat else d

/-- The hub ESL_ block; the host may write the RD pointers. -/
def Dev.eslhWrite (sp : Spine) (d : Dev) (q : Req) (o a : Nat) (v : Word) : Dev :=
  if o = 0x110 ∨ (0x200 ≤ o ∧ o % 0x10 = 0xC) then (if reqFw q || reqIs q hostUid 0 then d.plainWrite a v else d)
  else if !reqFw q then d
  else if o = 0x1C then d.killWrite sp q v
  else d.plainWrite a v

/-- A GST_ block: CTRL and PTR of a MODE 1 region channel also by a core of the region (R318, R345). -/
def Dev.gstWrite (sp : Spine) (d : Dev) (q : Req) (e o a : Nat) (v : Word) : Dev :=
  if o < 0x1000 then
    if o = 0x20 then (if e < 16 then d.swreqWrite q e v else d)
    else if reqFw q then d.plainWrite a v else d
  else
    let n := (o - 0x1000) / 0x40
    let r := (o - 0x1000) % 0x40
    if r = 4 then
      if d.gstMayDrive e n q then d.gstCtrl sp e n v
      else if gstMayCtrl e q && bitAt v.toNat 0 && !bitAt v.toNat 1 then d.gstStart sp e n
      else d
    else if r = 0 ∨ r = 0x10 ∨ r = 0x14 then
      if reqFw q || (r != 0 && d.gstMayDrive e n q) then
        (if d.chState e n = 0 then d.plainWrite a v else d.gstCfgErr e n)
      else d
    else if reqFw q then d.plainWrite a v else d

/-- A decoder's block: HARQ_BASE is fixed while EN is 1. -/
def Dev.decWrite (d : Dev) (q : Req) (r o a : Nat) (v : Word) : Dev :=
  if !reqFw q then d
  else if (o = 0x20 ∨ o = 0x24) ∧ d.fb (F.DEC_HARQ_CTRL_EN r) then d.engAlert r 2 32
  else d.plainWrite a v

/-- A region's PAL_ block. -/
def Dev.palrWrite (sp : Spine) (d : Dev) (q : Req) (r o a : Nat) (v : Word) : Dev :=
  if o < 0x100 then d.handover sp q r (o / 4) v false
  else if o < 0x200 then d.delegWrite sp q r ((o - 0x100) / 4) v
  else if o < 0x400 then d.pwrWrite sp q r ((o - 0x200) / 4) v
  else if o < 0x1100 then d.nolendWrite sp q r ((o - 0x400) / 0x40) ((o - 0x400) % 0x40 / 4) v
  else if reqFw q then d.plainWrite a v else d

/-- RUN (R108): a halted core starts at CORE_BOOT_PC at M level with IE = 0. -/
def Dev.coreStart (d : Dev) (k : Nat) : Dev :=
  if (d.core k).mode = .halted then
    ((d.setF (F.CORE_STATUS_PRIV k) 3).setF (F.CORE_STATUS_IE k) 0).mapCore k fun c =>
      { c with mode := .run, pc := BitVec.ofNat 16 (d.f (F.CORE_BOOT_PC_PC k) * 4) }
  else d

/-- A core's control registers, memory-mapped or by a hub core's MTC. -/
def Dev.coreRegWrite (d : Dev) (k o : Nat) (v : Word) : Dev :=
  if o = 4 then (if bitAt v.toNat 0 then d.coreStart k else d) else csrWrite d .m k o v

/-! ## Any register -/

/-- Is an offset of the HST_ block one that R538 lists? -/
def hstListed (o : Nat) : Bool :=
  decide (o < 0x170) || (decide (0x280 ≤ o) && decide (o < 0x2A0)) || (decide (0x300 ≤ o) && decide (o < 0x340))
    || (decide (0x1000 ≤ o) && decide (o < 0x3800)) || (decide (0x4000 ≤ o) && decide (o < 0xC100))
    || (decide (0xD000 ≤ o) && decide (o < 0xD800))

/-- Is there no register at an address, and an access to it a decode error? Offsets that a block's chapter lists as
reading zero are none. -/
def regHole (a : Nat) : Bool :=
  match blkOf a with
  | none => true
  | some (.hst, o) => !hstListed o
  | some (.fh _, o) => o != 0x70 && (fieldsAt a).isNone
  | some _ => (fieldsAt a).isNone

/-- A write of the register at an address, which is a register's. -/
def blkWrite (q : Req) (b : Blk) (o a : Nat) (v : Word) (w : Whole) : Whole :=
  let sp := w.1
  let d := w.2
  match b with
  | .tb => if o = 0x2C then stepGoWrite q v w else (sp, d.tbWrite sp q o a v)
  | .gso => (sp, d.gsoWrite sp q o a v)
  | .evt => (sp, d.evtWrite q o a v)
  | .trm => (sp, d.trmWrite sp q o a v)
  | .lc => (sp, d.lcWrite q o a v)
  | .hst => (sp, d.hstWrite q o a v)
  | .eur => (sp, d.eurWrite sp q o a v)
  | .nce => (sp, d.nceWrite sp q o a v)
  | .glz => (sp, d.glzWrite sp q o a v)
  | .palh => (sp, d.palhWrite q o a v)
  | .eslh => (sp, d.eslhWrite sp q o a v)
  | .gsth => (sp, d.gstWrite sp q 16 o a v)
  | .fh p => (sp, d.fhWrite sp q p o a v)
  | .eslr _ => (sp, if reqFw q then d.plainWrite a v else d)
  | .gstr r => (sp, d.gstWrite sp q r o a v)
  | .fft _ _ => (sp, if reqFw q then d.plainWrite a v else d)
  | .dec r => (sp, d.decWrite q r o a v)
  | .enc _ => (sp, if reqFw q then d.plainWrite a v else d)
  | .palr r => (sp, d.palrWrite sp q r o a v)
  | .core k => (sp, d.coreRegWrite k o v)
  | .cic _ => (sp, d)

/-- Is an access of a requester to a register refused as a decode error (R42, R109)? -/
def regBad (q : Req) (a : Nat) : Bool :=
  regHole a || (match blkOf a with
    | some (.core _, _) => !reqFw q
    | _ => false)

/-- A 32-bit write at a multiple of 4 in register space. -/
def regWriteWord (q : Req) (a : Nat) (v : Word) (w : Whole) : Whole :=
  match fencedDie w.1 a with
  | some die => (w.1, w.2.refuseFenced die q a true)
  | none =>
    if regBad q a then (w.1, w.2.refuse 7 q a true)
    else
      match blkOf a with
      | some (b, o) => blkWrite q b o a v w
      | none => w

/-- The words that a write's bytes hold. -/
def wordsOf (l : List Byte) (fuel : Nat) : List Word :=
  match fuel with
  | 0 => []
  | n + 1 => if l.length < 4 then [] else BitVec.ofNat 32 (ofLeBytes (l.take 4)) :: wordsOf (l.drop 4) n

/-- Write words at consecutive addresses, the lowest first. -/
def writeWords (f : Nat → Word → Whole → Whole) (a : Nat) (l : List Word) (w : Whole) : Whole :=
  match l with
  | [] => w
  | v :: t => writeWords f (a + 4) t (f a v w)

/-- What becomes of a narrow or misaligned access in register space, which has no effect (R9): in the window of a fenced
die it is refused all the same (R27), and outside every block it is a decode error (R42). -/
def narrowAcc (q : Req) (a : Nat) (write : Bool) (sp : Spine) (d : Dev) : Dev :=
  match fencedDie sp a with
  | some die => d.refuseFenced die q a write
  | none => if (blkOf a).isNone then d.refuse 7 q a write else d

/-- A write of bytes in register space: one that is narrow, or not aligned, is dropped (R9); a wider one is made of
words, in ascending order. DESIGN CHOICE (log entry 86): its last 1 to 3 bytes are narrow, and dropped. -/
def regWriteBytes (q : Req) (a : Nat) (data : List Byte) (w : Whole) : Whole :=
  if a % 4 = 0 ∧ 4 ≤ data.length then writeWords (regWriteWord q) a (wordsOf data data.length) w
  else (w.1, narrowAcc q a true w.1 w.2)

/-! ## The host's writes through BAR0 (R43, R538, R539) -/

/-- Is the PCI Express function in service (R23)? In a package fault it still answers through the recovery window (R28). -/
def hostUp (sp : Spine) : Bool := !sp.contain.units.contains hostUid

/-- Does the device answer the host beyond the recovery window (R28, R59, R63)? -/
def hostFull (w : Whole) : Bool := w.1.contain.pkg == 0 && w.2.fb F.HST_STATUS_DORMANT && hostUp w.1

/-- The host's write is dropped and counted. -/
def Dev.hostDeny (d : Dev) (off : Nat) : Dev :=
  ((d.setF F.HST_DENY_ADDR off).countF F.HST_DENY_COUNT 1).raise evHstWriteDenied hostUid

/-- May the host write the register at offset `o` of a block; the host has its own way into the HST_ block. -/
def hostMay (b : Blk) (o : Nat) : Bool :=
  match b with
  | .lc => o == 4
  | .evt => o == 8 || (decide (0x100 ≤ o) && decide (o < 0x180))
  | .eslh => o == 0x110 || (decide (0x200 ≤ o) && o % 0x10 == 0xC)
  | .nce => decide (0x20000 ≤ o) && (o % 0x40 == 0xC || o % 0x40 == 0x1C || o % 0x40 == 0x2C)
  | _ => false

/-- The host's write of a word of its own view of the HST_ block, as function `f`: `off` the offset it gave. -/
def Dev.hostHst (d : Dev) (f o off : Nat) (v : Word) : Dev :=
  if 0x100 ≤ o ∧ o < 0x170 then
    (if o = 0x140 then d.mbCtrl f v
    else if o = 0x100 then d.setMb f 0 (BitVec.ofNat 32 (v.toNat % 256))
    else if 0x104 ≤ o ∧ o < 0x124 then d.setMb f (o - 0x100) v
    else d.hostDeny off)
  else if 0xD000 ≤ o ∧ o < 0xD800 then
    let k := (o - 0xD000) / 8
    if d.f (F.HST_RING_CFG_FN k) ≠ f then d
    else if o % 8 = 0 then d.doorTail k (v.toNat % 2 ^ 16) else d.doorHead k (v.toNat % 2 ^ 16)
  else if 0x4000 ≤ o ∧ o < 0xC000 then
    let i := (o - 0x4000) / 16
    if f = 0 then d.msixWrite i (o % 16 / 4) v
    else if i < min 128 (d.f (F.HST_VF_VEC_CNT (f - 1))) then d.msixWrite (d.f (F.HST_VF_VEC_BASE (f - 1)) + i) (o % 16 / 4) v
    else d.hostDeny off
  else if f = 0 ∧ 0x1000 ≤ o ∧ o < 0x3000 then
    let k := (o - 0x1000) / 0x20
    let r := (o - 0x1000) % 0x20
    if r = 0x10 then d.ringCfg k v true
    else if r < 0x10 then
      (if d.fb (F.HST_RING_CFG_EN k) then d.hostDeny off else d.plainWrite (blkBase .hst + o) v)
    else d.hostDeny off
  else d.hostDeny off

/-- The device address of an offset of BAR0. -/
def bar0Addr (off : Nat) : Nat := if off < 0x10000 then blkBase .hst + off else 0x02010000000 + (off - 0x10000)

/-- Does the device take the host's access at an offset of a function's BAR0? -/
def hostTaken (f off : Nat) (w : Whole) : Bool :=
  if f = 0 then hostFull w || (hostUp w.1 && decide (off < 0x10000)) else hostFull w && w.2.fnEnabled f

/-- The host's write of a word at an offset of its BAR0. -/
def hostWriteWord (f : Nat) (off : Nat) (v : Word) (w : Whole) : Whole :=
  if hostTaken f off w = false then w
  else
    let a := bar0Addr off
    if regHole a then (w.1, w.2.refuse 7 hostReq a true)
    else
      match blkOf a with
      | some (.hst, o) => (w.1, w.2.hostHst f o off v)
      | some (b, o) => if hostMay b o then blkWrite hostReq b o a v w else (w.1, w.2.hostDeny off)
      | none => w

/-- The host's write of bytes at an offset of its BAR0: words, or a narrow or misaligned write (R9, R42). -/
def hostWriteBytes (f : Nat) (off : Nat) (data : List Byte) (w : Whole) : Whole :=
  if off % 4 = 0 ∧ 4 ≤ data.length then writeWords (hostWriteWord f) off (wordsOf data data.length) w
  else if hostTaken f off w then (w.1, narrowAcc hostReq (bar0Addr off) true w.1 w.2) else w

end Sys2Proof.Machine
end

