-- ==== Sys2Proof/Machine/ReadReg.lean ====
section
/-! DEFINITION. Reads of registers: the fields that show state held elsewhere, what a read leaves behind, and the
latch of 64-bit pairs (R9 to R12, R42, R470, R538). -/

namespace Sys2Proof.Machine

/-! ## Request lines (R340, R341) -/

/-- The request lines of an engine, as the peripherals drive them. -/
def Dev.reqLine (sp : Spine) (d : Dev) (e i : Nat) : Bool :=
  if e < 16 then decide (i < 16) && bitAt (d.f (F.GST_SWREQ_LINE (gstBaseOf e))) i
  else if i < 32 then (if i % 2 = 0 then d.rxLine (i / 2) else d.txLine (i / 2))
  else if i < 36 then d.capLine (i - 32) false
  else if i < 40 then d.capLine (i - 36) true
  else if i < 44 then d.txPlaneLine sp (i - 40) false
  else if i < 48 then d.txPlaneLine sp (i - 44) true
  else if i < 52 then d.captLine (i - 48)
  else false

/-- A number whose bit i, below `n`, is `f i`. -/
def packNat (f : Nat → Bool) (n : Nat) : Nat :=
  match n with
  | 0 => 0
  | m + 1 => packNat f m + b2n (f m) * 2 ^ m

/-! ## Fields that show state held elsewhere -/

/-- STATE of PAL_PWR_n. -/
def PwrPhase.code (x : PwrPhase) : Nat :=
  match x with
  | .on => 0
  | .retention => 1
  | .off => 2
  | .waking | .powering => 3

/-- Does Wash hold a window of a bank? -/
def Dev.borrowed (d : Dev) (r n : Nat) : Bool :=
  d.wash.any fun e => match e.2.tgt with
    | .bank r' n' _ => r'.val == r && n'.val == n
    | _ => false

/-- A region's PAL_ block. -/
def Dev.palrView (sp : Spine) (d : Dev) (r o : Nat) (raw : Nat) : Nat :=
  if o < 0x100 then
    setBits raw 31 1 (b2n (match (d.bank r (o / 4)).drain with
      | some x => x.own
      | none => false))
  else if o < 0x200 then
    setBits raw 31 1 (b2n (match (d.bank r ((o - 0x100) / 4)).drain with
      | some x => !x.own
      | none => false))
  else if o < 0x400 then
    let n := (o - 0x200) / 4
    setBits (setBits (setBits raw 2 2 (d.bank r n).phase.code) 4 1 (b2n (sp.contain.units.contains (bankUid r n)))) 5 1
      (b2n (d.borrowed r n))
  else raw

/-- Cores of a region that run tasks. -/
def Dev.runCores (d : Dev) (r : Nat) : Nat :=
  ((List.range 24).filter fun i => (d.core (r * 24 + i)).task.isSome).length

/-- A region's ESL_ block. -/
def Dev.eslrView (d : Dev) (r o : Nat) (raw : Nat) : Nat :=
  if o = 4 then (d.readyList r).length + d.runCores r * 2 ^ 16
  else if 0x200 ≤ o ∧ o < 0x240 then ((d.readyList r).filter fun s => d.dPrio s == (o - 0x200) / 4).length
  else raw

/-- The hub ESL_ block. -/
def Dev.eslhView (d : Dev) (o : Nat) (raw : Nat) : Nat :=
  if o = 4 then 65536 - (d.slots.filter fun e => e.2.st != 0).length
  else if o = 8 then setBits raw 16 3 (d.slot (raw % 2 ^ 16)).st
  else raw

/-- Does a running channel wait for its request line (R336)? -/
def Dev.waitsReq (sp : Spine) (d : Dev) (e n : Nat) : Bool :=
  let c := d.chan e n
  let b := gstBaseOf e
  c.desc.isSome && c.burst.isNone && !c.resp && c.stop == 0 && d.fb (F.GST_CH_CFG_REQ_EN b n) && c.unitPos == 0
    && !d.reqLine sp e (d.f (F.GST_CH_CFG_REQ_LINE b n))

/-- A GST_ block. -/
def Dev.gstView (sp : Spine) (d : Dev) (e o : Nat) (raw : Nat) : Nat :=
  if o = 0 then
    ((List.range (gstChans e)).filter fun n => d.chState e n != 0).length + d.gstInflight e * 2 ^ 8
      + b2n (e == 16 && sp.contain.units.contains (gustUid 16)) * 2 ^ 16
  else if o = 0x18 then packNat (fun i => d.reqLine sp e i) 32
  else if o = 0x1C then packNat (fun i => d.reqLine sp e (32 + i)) 32
  else if o = 0x20 ∧ e = 16 then 0
  else if 0x1000 ≤ o ∧ (o - 0x1000) % 0x40 = 8 ∧ raw % 8 = 1 ∧ d.waitsReq sp e ((o - 0x1000) / 0x40) then setBits raw 0 3 2
  else raw

/-- The STATUS register of an engine. -/
def Dev.engView (sp : Spine) (d : Dev) (r e o : Nat) (raw : Nat) : Nat :=
  if o = 0 then
    let x := d.engine r e
    x.queue.length + b2n x.run.isSome * 2 ^ 5 + b2n (sp.contain.units.contains (regionUid r e)) * 2 ^ 6 + b2n x.parked * 2 ^ 7
  else raw

/-- The FREE count of a doorbell (R543). -/
def Dev.dbFree (d : Dev) (k : Nat) : Nat := d.ringLen k - d.ringFill k

/-- The HST_ block's windows: event log, MSI-X table and pending bits. -/
def Dev.hstTable (d : Dev) (o : Nat) : Option Nat :=
  if 0x3000 ≤ o ∧ o < 0x3800 then
    some (ofLeBytes ((List.range 4).map fun i => d.logByte (o - 0x3000 + i)))
  else if 0x4000 ≤ o ∧ o < 0xC000 then some (d.msixWord ((o - 0x4000) / 16) (o % 16 / 4)).toNat
  else if 0xC000 ≤ o ∧ o < 0xC100 then some (packNat (fun i => d.msixPend.contains ((o - 0xC000) * 8 + i)) 32)
  else none

/-- The HST_ block's registers. -/
def Dev.hstView (d : Dev) (o : Nat) (raw : Nat) : Nat :=
  if o = 4 then Config.serial % 2 ^ 32
  else if o = 8 then Config.serial / 2 ^ 32 % 2 ^ 32
  else if 0xD000 ≤ o ∧ o % 8 = 0 then setBits raw 16 16 (d.dbFree ((o - 0xD000) / 8))
  else raw

/-- A register as reads see it, before its access codes. -/
def Dev.regView (sp : Spine) (d : Dev) (b : Blk) (o a : Nat) : Nat :=
  let raw := (d.reg a).toNat
  match b with
  | .core k => (csrValue sp d k o).toNat
  | .cic c => d.cicSrc c (o / 4)
  | .palr r => d.palrView sp r o raw
  | .palh => if o = 0 then setBits raw 0 1 (b2n (within 4 6 (d.f F.GSO_BOOT_STATUS_PHASE))) else raw
  | .eslr r => d.eslrView r o raw
  | .eslh => d.eslhView o raw
  | .gstr r => d.gstView sp r o raw
  | .gsth => d.gstView sp 16 o raw
  | .fft r e => d.engView sp r e o raw
  | .dec r => d.engView sp r 2 o raw
  | .enc r => d.engView sp r 3 o raw
  | .fh p => if o = 0 ∧ p % 4 ≠ 0 then setBits raw 0 3 0 else raw
  | .nce => if o = 0 then setBits raw 0 11 d.unitsUsed else raw
  | .glz =>
    if 0x40 ≤ o ∧ o < 0x80 then setBits raw 13 1 (b2n (d.roundOwned ((o - 0x40) / 4)))
    else if 0x400 ≤ o ∧ o < 0x1000 ∧ o % 0x40 = 0x30 then d.glzAge sp ((o - 0x400) / 0x40)
    else raw
  | .tb => if o = 0 then setBits raw 12 1 (b2n d.traffic) else raw
  | .hst => d.hstView o raw
  | .evt => if o = 0x18 then setBits raw 1 1 (b2n Config.dbgLock) else raw
  | _ => raw

/-- The value that a read of a register returns. -/
def Dev.regValue (sp : Spine) (d : Dev) (b : Blk) (o a : Nat) : Word :=
  match b, d.hstTable o with
  | .hst, some v => BitVec.ofNat 32 v
  | _, _ => BitVec.ofNat 32 (readAcc ((fieldsAt a).getD []) (d.regView sp b o a))

/-! ## What a read leaves behind -/

/-- A read of TB_NOW_NS latches the seconds and the fraction of the same instant (R470). -/
def Dev.nowLatch (sp : Spine) (d : Dev) : Dev :=
  let ns := timeNs sp
  (((d.setF F.TB_NOW_NS_NS (ns % 10 ^ 9)).setF F.TB_NOW_SEC_LO_SEC (ns / 10 ^ 9)).setF F.TB_NOW_SEC_HI_SEC
    (ns / 10 ^ 9 / 2 ^ 32)).setF F.TB_NOW_FRAC_FRAC (sp.now * 2 ^ 16 / nsUnit)

/-- A read of a register of a block: its value, and the device after it. -/
def Dev.blkRead (sp : Spine) (d : Dev) (b : Blk) (o a : Nat) : Word × Dev :=
  match b with
  | .fh p => if o = 0x60 then d.txtsPop p else (d.regValue sp b o a, d.rclClear a)
  | .tb =>
    if o = 0x10 then (let d1 := d.nowLatch sp; (d1.regValue sp b o a, d1)) else (d.regValue sp b o a, d.rclClear a)
  | .gso =>
    let d1 := d.rclClear a
    (d.regValue sp b o a,
      if 0x3010 ≤ o ∧ o < 0x3024 then
        { d1 with pwr := { d1.pwr with seen := d1.pwr.seen.filter fun x => x != (o - 0x3010) / 4 } }
      else d1)
  | _ => (d.regValue sp b o a, d.rclClear a)

/-- A 32-bit read at a multiple of 4 in register space. The low word of a pair latches the high word, which the next
read of the high word returns (R10; log entry 45). -/
def Dev.regReadWord (sp : Spine) (d : Dev) (q : Req) (a : Nat) : Word × Dev :=
  match fencedDie sp a with
  | some die => (0, d.refuseFenced die q a false)
  | none =>
    if regBad q a then (0, d.refuse 7 q a false)
    else
      match blkOf a with
      | none => (0, d)
      | some (b, o) =>
        match d.latch.find? fun e => e.1 == a with
        | some (_, v) => (v, { d with latch := d.latch.filter fun e => e.1 != a })
        | none =>
          let r := d.blkRead sp b o a
          if isPairLow (blkPairs b) o then
            (r.1, { r.2 with latch := SMap.put r.2.latch (a + 4) (r.2.regValue sp b (o + 4) (a + 4)) })
          else r

/-- Reads of `n` words at consecutive addresses, the lowest first, as bytes. -/
def readWords (f : Dev → Nat → Word × Dev) (d : Dev) (a n : Nat) : List Byte × Dev :=
  match n with
  | 0 => ([], d)
  | m + 1 =>
    let r := f d a
    let t := readWords f r.2 (a + 4) m
    (leBytes 4 r.1.toNat ++ t.1, t.2)

/-- A read of `n` bytes in register space: a narrow or misaligned one reads zero (R9). DESIGN CHOICE (log entry 86): the
last 1 to 3 bytes of a wide read are narrow, and read zero. -/
def Dev.regReadBytes (sp : Spine) (d : Dev) (q : Req) (a n : Nat) : List Byte × Dev :=
  if a % 4 = 0 ∧ 4 ≤ n then
    let r := readWords (fun d x => d.regReadWord sp q x) d a (n / 4)
    (r.1 ++ List.replicate (n % 4) 0, r.2)
  else (List.replicate n 0, narrowAcc q a false sp d)

end Sys2Proof.Machine
end

