-- ==== Sys2Proof/Machine/Bus.lean ====
section
/-! DEFINITION. An access of a unit to any device address: memories, registers, the FIFO ports and windows inside
the register blocks, the host window and the fabric window (R40 to R42, R229, R390, R448, R451, R457, R502). -/

namespace Sys2Proof.Machine

/-! ## Ports and windows inside the register blocks -/

/-- A FIFO port, or an area of plain words. -/
inductive RegArea where
  | fhRx (q : Nat) | fhTx (q : Nat)
  | cap (k : Nat) (exp : Bool) | txPlane (k : Nat) (exp : Bool)
  | glzCapt (k : Nat)
  | fhWin | acc | sets
  deriving DecidableEq, Repr

/-- The port or area at a register address; none where registers stand. -/
def regArea (a : Nat) : Option RegArea :=
  match blkOf a with
  | some (.fh p, o) =>
    if o < 0x8000 then none
    else if o < 0x9000 then some (.fhRx p)
    else if o < 0xA000 then some (.fhTx p)
    else if o < 0xE000 then some .fhWin
    else none
  | some (.nce, o) =>
    if o < 0xF0000 then none
    else
      let k := o % 0x4000 / 0x1000
      match (o - 0xF0000) / 0x4000 with
      | 0 => some (.cap k false)
      | 1 => some (.cap k true)
      | 2 => some (.txPlane k false)
      | _ => some (.txPlane k true)
  | some (.glz, o) =>
    if o < 0x20000 then none
    else if o < 0xC0000 then some .acc
    else if o < 0xD0C00 then some .sets
    else if 0xF0000 ≤ o ∧ o < 0xF4000 then some (.glzCapt ((o - 0xF0000) / 0x1000))
    else none
  | _ => none

/-- May a requester write an area of plain words? -/
def areaWriter (x : RegArea) (q : Req) : Bool :=
  match x with
  | .acc => reqFw q || coreSM q
  | _ => reqFw q

/-- An access of plain words (R9). -/
def Dev.areaAcc (d : Dev) (x : RegArea) (q : Req) (a n : Nat) (write : Bool) (data : List Byte) : AccOut × Dev :=
  if write then
    (.ok [], if a % 4 = 0 ∧ areaWriter x q then d.setBytes a (data.take (data.length / 4 * 4)) else d)
  else (.ok (if a % 4 = 0 then d.bytes a (n / 4 * 4) ++ List.replicate (n % 4) 0 else List.replicate n 0), d)

/-- An access of a port or area. -/
def Dev.portAcc (sp : Spine) (d : Dev) (x : RegArea) (q : Req) (a n : Nat) (write : Bool) (data : List Byte) :
    AccOut × Dev :=
  match x, write with
  | .fhRx p, false => let r := d.rxFifo p n; (.ok r.1, r.2)
  | .fhTx p, true => (.ok [], d.txFifo p (data.length + 1) data)
  | .cap k exp, true => (.ok [], d.capWrite sp k exp data)
  | .txPlane k exp, false => let r := d.txPlaneRead sp k exp n; (.ok r.1, r.2)
  | .glzCapt k, false => let r := d.captRead k n; (.ok r.1, r.2)
  | .fhWin, w => d.areaAcc .fhWin q a n w data
  | .acc, w => d.areaAcc .acc q a n w data
  | .sets, w => d.areaAcc .sets q a n w data
  | _, w => (.refused, d.refuse 7 q a w)

/-- Is the first word of a register access refused? -/
def regRefused (sp : Spine) (q : Req) (a : Nat) : Bool :=
  (fencedDie sp a).isSome || (a % 4 == 0 && regBad q a)

/-- An access in register space. -/
def regAcc (q : Req) (a n : Nat) (write : Bool) (data : List Byte) (w : Whole) : AccOut × Whole :=
  match regArea a with
  | some x => let r := w.2.portAcc w.1 x q a n write data; (r.1, (w.1, r.2))
  | none =>
    let out := fun l => if regRefused w.1 q a then AccOut.refused else .ok l
    if write then (out [], regWriteBytes q a data w)
    else let r := w.2.regReadBytes w.1 q a n; (out r.1, (w.1, r.2))

/-! ## Any address -/

/-- A bank's port has done an access of a requester that had waited with it: those that wait behind it go on. -/
def portOn (a : Nat) (back : Bool) (w : Whole) (r : AccOut × Dev) : AccOut × Whole :=
  match tgtOf a with
  | .bank b n =>
    if back && r.1 != .wait && !(r.2.bank b n).waiting.isEmpty && (r.2.bank b n).phase == .on then
      (r.1, (w.1, r.2.serveWaiting w.1 b n))
    else (r.1, (w.1, r.2))
  | _ => (r.1, (w.1, r.2))

/-- An access of a requester to a device address: `late` a write issued after a drain request, `back` that the requester
holds it and comes again if it waits, `ext` what the host's memory returns, `tell` that a fabric answer is to be sent. -/
def busAcc (q : Req) (a n : Nat) (write : Bool) (data : List Byte) (late back : Bool) (ext : List Byte)
    (tell : Bool) (w : Whole) : AccOut × Whole :=
  match tgtOf a with
  | .regs => regAcc q a n write data w
  | .host => let r := w.2.hostWin q a n write data ext; (r.1, (w.1, r.2))
  | .fabric => let r := w.2.fabWin w.1 q a n write data tell; (r.1, (w.1, r.2))
  | _ => portOn a back w (w.2.unitAcc w.1 q a n write data late back)

/-- A read; if it waits, its requester comes again. -/
def busRead (q : Req) (a n : Nat) (ext : List Byte) (w : Whole) : AccOut × Whole :=
  busAcc q a n false [] false true ext false w
/-- A write; if it waits, its requester comes again. -/
def busWrite (q : Req) (a : Nat) (data : List Byte) (late : Bool) (w : Whole) : AccOut × Whole :=
  busAcc q a data.length true data late true [] false w

/-- What becomes of several reads or writes: the outcome of the first that does not succeed, else their bytes. -/
def busReads (q : Req) (l : List (Nat × Nat)) (ext : List Byte) (w : Whole) : AccOut × Whole :=
  match l with
  | [] => (.ok [], w)
  | (a, n) :: t =>
    let r := busRead q a n ext w
    match r.1 with
    | .ok x =>
      let u := busReads q t (ext.drop n) r.2
      (match u.1 with
      | .ok y => (.ok (x ++ y), u.2)
      | o => (o, u.2))
    | o => (o, r.2)

/-- Writes at several addresses, stopping at the first that does not succeed. -/
def busWrites (q : Req) (l : List (Nat × List Byte)) (w : Whole) : AccOut × Whole :=
  match l with
  | [] => (.ok [], w)
  | (a, x) :: t =>
    let r := busWrite q a x (w.2.lateOf q a x.length) w
    match r.1 with
    | .ok _ => busWrites q t r.2
    | o => (o, r.2)

/-- A posted write, of which the sender hears nothing more: one that waits at a bank's port waits there. -/
def busPost (q : Req) (a : Nat) (data : List Byte) (w : Whole) : Whole :=
  (busAcc q a data.length true data (w.2.drainAsked q.uid.toNat q.ch.toNat a) false [] true w).2

end Sys2Proof.Machine
end

