-- ==== Sys2Proof/Machine/EaselDone.lean ====
section
/-! DEFINITION. The completion of a task at the dispatcher and the store, and the end of its deadline (R298 to R303,
R306, R309, R313). -/

namespace Sys2Proof.Machine

/-- The 4-byte fields of a descriptor that a completion reads. -/
def Dev.dComplEvent (d : Dev) (s : Nat) : Nat := d.df s 0x0C 17 10
/-- EVT_EN. -/
def Dev.dEvtEn (d : Dev) (s : Nat) : Bool := d.df s 0x0C 27 1 == 1
/-- CQ. -/
def Dev.dCq (d : Dev) (s : Nat) : Nat := d.df s 0x1C 24 4
/-- CQ_EN. -/
def Dev.dCqEn (d : Dev) (s : Nat) : Bool := d.df s 0x1C 28 1 == 1

/-- Does a completion status poison the successors (R309)? -/
def poisons (status : Nat) : Bool := decide (2 ≤ status)

/-- The region of the first of several successors, decremented in order, whose release finds no free ready-list entry. -/
def Dev.fullFor (sp : Spine) (d : Dev) (poison : Bool) (l : List Nat) : Option Nat :=
  match l with
  | [] => none
  | t :: u =>
    let y := d.slot t
    let goes := y.st == 1 && y.fin.isNone && d.dRel t == 2 && y.dep == 1 && (!(d.dPoison t || poison) || d.dPoisonOk t)
    match (if goes then d.chooseRegion sp t else none) with
    | some r => if d.freeEntries r = 0 then some r else (d.decrement sp t 0 poison).fullFor sp poison u
    | none => (d.decrement sp t 0 poison).fullFor sp poison u

/-- Would this completion release a successor that finds no free ready-list entry, and in which region (R306)? -/
def Dev.completionHeld (sp : Spine) (d : Dev) (s status : Nat) : Option Nat :=
  if (d.slot s).st = 4 ∧ d.dType s ≠ 0 then d.fullFor sp (poisons status) (d.dSuccs s) else none

/-- The completion record (R300). -/
def Dev.cplRecord (sp : Spine) (d : Dev) (s status : Nat) : List Byte :=
  let x := d.slot s
  leBytes 4 (d.dTaskId s) ++ leBytes 1 status ++ leBytes 1 (b2n (d.dPoison s && (x.st == 4 || x.st == 5))) ++ leBytes 2 0 ++ leBytes 8 (timeNs sp)

/-- The records of a completion ring: 2^SIZE of them, sizes outside 4 to 15 acting as 4. -/
def Dev.cqLen (d : Dev) (k : Nat) : Nat :=
  let z := d.f (F.ESL_CQ_CTRL_SIZE k)
  2 ^ (if z < 4 then 4 else z)

/-- Append a record to ring `k`; one that is off drops it, a full one also raises the event in the region where the
task ran. -/
def cqAppend (k s : Nat) (rec_ : List Byte) (w : Whole) : Whole :=
  let d := w.2
  let wr := d.f (F.ESL_CQ_PTR_WR k)
  if d.fb (F.ESL_CQ_CTRL_EN k) = false then (w.1, d.countF (F.ESL_CQ_CTRL_LOST k) 1)
  else if (wr + 65536 - d.f (F.ESL_CQ_PTR_RD k)) % 65536 = d.cqLen k then
    let er := d.eventRegion s
    (w.1, (er.2.countF (F.ESL_CQ_CTRL_LOST k) 1).raise (evEsl er.1 7) storeUid)
  else
    let a := d.f (F.ESL_CQ_BASE_LO_BASE k) * 16 + d.f (F.ESL_CQ_BASE_HI_BASE k) * 2 ^ 32 + wr % d.cqLen k * 16
    let w1 := busPost (unitReq storeUid 0) a rec_ w
    (w1.1, w1.2.setF (F.ESL_CQ_PTR_WR k) (wr + 1))

/-- Is an event number reserved, or past the last (R589)? -/
def evtReserved (e : Nat) : Bool := within 10 15 e || within 26 47 e || decide (987 ≤ e)

/-- Process the completion of a slot whose unit has signalled its end, once, in the order of R298. A task that came
from a peer has its record sent back instead of steps 2 to 4 (R313). -/
def complete (s : Nat) (w : Whole) : Whole :=
  let sp := w.1
  let d := w.2
  let x := d.slot s
  match x.fin with
  | none => w
  | some status =>
    match d.completionHeld sp s status with
    | some r =>
      (sp, if x.held then d
        else (d.backpressure sp s r (taskUnit (d.dType s) (x.region.getD 0) x.unit).1).mapSlot s fun x => { x with held := true })
    | none =>
      let desc := d.bytes (slotAddr s) 64
      let rec_ := d.cplRecord sp s status
      let d1 := if x.st = 4 then d.returnGrants sp s else d
      match x.spillFrom with
      | some (k, tag) =>
        let d2 := ((d1.eurSend sp k 7 tag rec_).floorCharge sp s).setSlot s Slot.free
        (sp, (d2.slotProgress sp s desc).carrSettle sp)
      | none =>
        let w2 : Whole := if d1.dCqEn s then cqAppend (d1.dCq s) s rec_ (sp, d1) else (sp, d1)
        let d3 := if w2.2.dEvtEn s && !evtReserved (w2.2.dComplEvent s) then w2.2.raise (w2.2.dComplEvent s) storeUid else w2.2
        let r := d3.eventRegion s
        let d4 := (d3.dSuccs s).foldl (fun d t => d.decrement sp t r.1 (poisons status))
          (if x.region.isNone && !(d3.dSuccs s).isEmpty then r.2 else d3)
        let d5 := (d4.floorCharge sp s).setSlot s Slot.free
        (w2.1, (d5.slotProgress sp s desc).carrSettle sp)

/-- A deadline passes (R302, R303): the record, the count and the event once; KILL_ON_MISS kills the task, and a miss
in a carrier's slot counts (R103). -/
def Dev.miss (sp : Spine) (d : Dev) (s lag : Nat) : Dev :=
  match d.missJudge sp s lag with
  | none => d
  | some (t, past, uid, d1) =>
    if past && !(d.slot s).missed && (d.slot s).fin.isNone then
      let d2 := (d1.missNote sp s t uid).missSlot s
      if d2.dKillOnMiss s then d2.missKill sp s else d2
    else d1


end Sys2Proof.Machine
end

