-- ==== Sys2Proof/Machine/GustMove.lean ====
section
/-! DEFINITION. What moves a Gust program: fetches, the data of bursts, their end, and the writes that have left an
engine (R324 to R335, R343, R344). -/

namespace Sys2Proof.Machine

/-- The requester that a Gust channel is. -/
def gstReq (e n : Nat) : Req := unitReq (gustUid e) n

/-- Does a channel run a program that may act: no requested end, and nothing out of service? -/
def Dev.gstActs (sp : Spine) (d : Dev) (e n : Nat) : Bool :=
  d.chRuns e n && !sp.contain.gone (gustUid e) n && sp.contain.pkg == 0 && decide (n < gstChans e)

/-! ## Fetches (R330) -/

/-- Is a stream of the channel the peripheral's side? -/
def Dev.gstSide (d : Dev) (e n side : Nat) : Bool :=
  d.fb (F.GST_CH_CFG_REQ_EN (gstBaseOf e) n) && d.f (F.GST_CH_CFG_REQ_SIDE (gstBaseOf e) n) == side

/-- The address and length of the next fetch a channel needs, and what it is: 0 the descriptor, 1 a source entry, 2 a
destination entry. -/
def Dev.gstFetch (d : Dev) (e n : Nat) : Option (Nat × Nat × Nat) :=
  let c := d.chan e n
  let b := gstBaseOf e
  match c.desc with
  | none => some (d.f (F.GST_CH_CUR_LO_ADDR b n) * 64 + d.f (F.GST_CH_CUR_HI_ADDR b n) * 2 ^ 32, 64, 0)
  | some x =>
    if x.bad ∨ x.op = 3 then none
    else if c.sEnt.isNone ∧ c.si < x.srcN then some (x.src + 16 * c.si, 16, 1)
    else if c.dEnt.isNone ∧ c.di < x.dstN then some (x.dst + 16 * c.di, 16, 2)
    else none

/-- A fetched descriptor or entry is checked and kept, or ends the program (R323). -/
def Dev.gstFetched (d : Dev) (e n at_ kind : Nat) (l : List Byte) : Dev :=
  if kind = 0 then
    let x := gstDesc at_ l
    if x.bad then d.gstEnd e n 1 0 else d.mapChan e n fun c => { c with desc := some x }
  else
    match d.gstEntry e n (d.gstSide e n (kind - 1)) l with
    | none => d.gstEnd e n 2 0
    | some y =>
      if kind = 1 then d.mapChan e n fun c => { c with sEnt := some y, si := c.si + 1 }
      else d.mapChan e n fun c => { c with dEnt := some y, di := c.di + 1 }

/-- The next fetch of a channel. -/
def gstFetchStep (e n : Nat) (ext : List Byte) (w : Whole) : Whole :=
  if w.2.gstActs w.1 e n && (w.2.chan e n).stop == 0 then
    match w.2.gstFetch e n with
    | none => w
    | some (a, len, kind) =>
      let r := busRead (gstReq e n) a len ext w
      (match r.1 with
      | .ok l => (r.2.1, r.2.2.gstFetched e n a kind l)
      | .wait => r.2
      | _ => (r.2.1, r.2.2.gstEnd e n 7 0))
  else w

/-! ## The data of a burst (R324 to R326, R343) -/

/-- The pattern bytes of a stream from offset `pos`. -/
def patBytes (pat pos n : Nat) : List Byte := (List.range n).map fun i => BitVec.ofNat 8 (pat / 256 ^ ((pos + i) % 8))

/-- The burst in flight whose data is still to come, of a descriptor with operation `op`. -/
def Dev.gstDue (sp : Spine) (d : Dev) (e n op : Nat) : Option (GBurst × GDesc) :=
  match (d.chan e n).burst, (d.chan e n).desc with
  | some b, some x => if d.gstActs sp e n && b.data.isNone && x.op == op then some (b, x) else none
  | _, _ => none

/-- The burst's data. -/
def Dev.gstData (d : Dev) (e n : Nat) (b : GBurst) (l : List Byte) (diff : Option Nat) : Dev :=
  d.mapChan e n fun c => { c with burst := some { b with data := some l, diff := diff } }

/-- A read of a burst did not succeed. -/
def Dev.gstReadBad (d : Dev) (e n : Nat) (o : AccOut) : Dev :=
  match o with
  | .refused => d.gstEnd e n 4 0
  | .err => d.gstEnd e n 6 0
  | _ => d

/-- COPY: the burst's source bytes are read. -/
def gstCopy (e n : Nat) (ext : List Byte) (w : Whole) : Whole :=
  match w.2.gstDue w.1 e n 0 with
  | none => w
  | some (b, _) =>
    let r := busRead (gstReq e n) b.sa b.n ext w
    match r.1 with
    | .ok l => (r.2.1, r.2.2.gstData e n b l none)
    | o => (r.2.1, r.2.2.gstReadBad e n o)

/-- FILL: the burst's bytes are the pattern's. -/
def Dev.gstFill (sp : Spine) (d : Dev) (e n : Nat) : Dev :=
  match d.gstDue sp e n 1 with
  | none => d
  | some (b, x) => d.gstData e n b (patBytes x.pat (d.chan e n).pos b.n) none

/-- COMPARE: the burst's destination bytes are read, and its source bytes unless they are the pattern's. -/
def gstCompare (e n : Nat) (ext ext2 : List Byte) (w : Whole) : Whole :=
  match w.2.gstDue w.1 e n 2 with
  | none => w
  | some (b, x) =>
    let s : AccOut × Whole := if x.cmpPat then (.ok (patBytes x.pat (w.2.chan e n).pos b.n), w) else busRead (gstReq e n) b.sa b.n ext w
    match s.1 with
    | .ok l =>
      let t := busRead (gstReq e n) b.da b.n ext2 s.2
      (match t.1 with
      | .ok m => (t.2.1, t.2.2.gstData e n b m (firstIdx (fun p => p.1 != p.2) (l.zip m)))
      | o => (t.2.1, t.2.2.gstReadBad e n o))
    | o => (s.2.1, s.2.2.gstReadBad e n o)

/-! ## The end of a burst (R333, R344) -/

/-- The bytes of a burst are counted, modulo 2^32. -/
def Dev.gstBytes (d : Dev) (e n k : Nat) : Dev :=
  d.setF (F.GST_CH_BYTES_BYTES (gstBaseOf e) n) (d.f (F.GST_CH_BYTES_BYTES (gstBaseOf e) n) + k)

/-- A burst of writes leaves the engine. -/
def Dev.gstIssue (d : Dev) (e n a : Nat) (data : List Byte) (asks : Bool) : Dev :=
  let c := d.chan e n
  let x : GWrite :=
    { ch := n, seq := c.seq, dn := c.dn, a := a, data := data, asks := asks, late := d.drainAsked (gustUid e) n a }
  { d with gustW := SMap.put d.gustW e (d.gustWrites e ++ [x]) }

/-- The result of a COMPARE. -/
def Dev.gstResult (d : Dev) (e n v : Nat) : Dev := d.setF (F.GST_CMP_RESULT_RESULT (gstBaseOf e) n) v

/-- Does the descriptor's last byte go with these `k` bytes, on both streams? -/
def Dev.gstLast (d : Dev) (e n k : Nat) : Bool :=
  let c := d.chan e n
  match c.desc with
  | none => false
  | some x =>
    (x.srcN == 0 || ((gstAdvance c.sEnt k).isNone && c.si == x.srcN)) && (gstAdvance c.dEnt k).isNone && c.di == x.dstN

/-- After a burst the streams move on; an end that was requested meanwhile takes effect (R344), once the descriptor is
counted if the burst was its last and no response is owed. -/
def Dev.gstAfter (d : Dev) (e n k : Nat) : Dev :=
  let c := d.chan e n
  match c.desc with
  | none => d
  | some x =>
    if c.stop = 0 then d.gstMove e n k
    else (if d.gstLast e n k && !(x.delivered && d.gstOwed e n) then d.gstDescCount e n x else d).gstEnd e n c.stop 0

/-- After a COMPARE has found a difference in its burst (R326, R344). -/
def Dev.gstDiffers (d : Dev) (e n k : Nat) (x : GDesc) : Dev :=
  let stop := (d.chan e n).stop
  if stop ≠ 0 then (d.gstDescCount e n x).gstEnd e n stop 0
  else if x.cmpHalt then d.gstEnd e n 8 0
  else (d.mapChan e n fun c => { c with burst := none, unitPos := (c.unitPos + k) % d.chBurst e n }).gstDescDone e n

/-- The burst in flight leaves flight. -/
def Dev.gstBurstDone (sp : Spine) (d : Dev) (e n : Nat) : Dev :=
  match (d.chan e n).burst, (d.chan e n).desc with
  | some b, some x =>
    (match b.data with
    | none => d
    | some l =>
      if !d.gstActs sp e n then d
      else if x.op = 2 then
        (match b.diff with
        | some i => (((d.gstResult e n ((d.chan e n).pos + i)).gstEvent e n 2).gstBytes e n (i + 1)).gstDiffers e n b.n x
        | none =>
          let d1 := d.gstBytes e n b.n
          (if d.gstLast e n b.n then d1.gstResult e n (2 ^ 32 - 1) else d1).gstAfter e n b.n)
      else ((d.gstIssue e n b.da l x.delivered).gstBytes e n b.n).gstAfter e n b.n)
  | _, _ => d

/-! ## FENCE and write responses (R327, R334, R335) -/

/-- FENCE: once every write of the program has returned its response, the zero-length write goes out; one that came
back refused ends the program. -/
def Dev.gstFence (sp : Spine) (d : Dev) (e n : Nat) : Dev :=
  let c := d.chan e n
  match c.desc with
  | some x =>
    if d.gstActs sp e n && x.op == 3 && !x.bad && !c.fenceOut && c.stop == 0 then
      let d1 := d.setF (F.GST_CH_STATUS_STATE (gstBaseOf e) n) 3
      if d.gstPending e n then d1
      else if c.lost || c.refused then d1.gstEnd e n 5 0
      else (d1.gstIssue e n x.fence [] true).mapChan e n fun c => { c with fenceOut := true }
    else d
  | none => d

/-- The channel hears of a write of its program. -/
def Dev.gstHear (d : Dev) (e : Nat) (x : GWrite) (refused : Bool) : Dev :=
  let n := x.ch
  let c := d.chan e n
  if c.seq ≠ x.seq ∨ d.chRuns e n = false then d
  else if c.fenceOut then (if refused then d.gstEnd e n 5 0 else d.gstDescDone e n)
  else
    let d1 := d.mapChan e n fun c =>
      if x.asks then { c with refused := c.refused || refused } else { c with lost := c.lost || refused }
    if c.resp && !d1.gstOwed e n then
      (if (d1.chan e n).refused then d1.gstEnd e n 5 0 else d1.gstDescDone e n)
    else d1

/-- The i-th write an engine has under way reaches its target, unless an earlier one goes to the same destination
(R272, R332). -/
def gstLand (e i : Nat) (w : Whole) : Whole :=
  let l := w.2.gustWrites e
  match l[i]? with
  | none => w
  | some x =>
    if w.1.contain.pkg ≠ 0 ∨ (l.take i).any (fun y => destsMeet y.a y.data.length x.a x.data.length) then w
    else
      let r := busAcc (gstReq e x.ch) x.a x.data.length true x.data x.late true [] false w
      match r.1 with
      | .wait => r.2
      | o =>
        let d1 : Dev := { r.2.2 with gustW := SMap.put r.2.2.gustW e ((r.2.2.gustWrites e).eraseIdx i) }
        (r.2.1, d1.gstHear e x (decide (o = .refused)))

/-- A grant by the request lines as the peripherals drive them now. -/
def Dev.gstGrants (sp : Spine) (d : Dev) (e : Nat) : Dev :=
  if sp.contain.pkg = 0 then d.gstGrant sp (fun i => d.reqLine sp e i) e else d

end Sys2Proof.Machine
end

