-- ==== Sys2Proof/Machine/EngineRun.lean ====
section
/-! DEFINITION. What the channel engines do with their tasks (R348 to R352, R358 to R366, R370 to R383). -/

namespace Sys2Proof.Machine

/-- The requester that an engine is. -/
def engReq (r e : Nat) : Req := unitReq (regionUid r e) 0

/-- Can an engine act? -/
def engActs (sp : Spine) (r e : Nat) : Bool := !sp.contain.out (regionUid r e) && sp.contain.pkg == 0

/-- Cut a range of addresses at multiples of 4 KiB. -/
def spans (a n : Nat) : List (Nat × Nat) :=
  (List.range ((a % 4096 + n + 4095) / 4096)).map fun i =>
    let lo := max a ((a / 4096 + i) * 4096)
    (lo, min (a + n) ((a / 4096 + i + 1) * 4096) - lo)

/-- The writes that put bytes from an address on. -/
def outsAt (a : Nat) (data : List Byte) : List EngOut :=
  (spans a data.length).map fun x => { at_ := x.1, data := (data.drop (x.1 - a)).take x.2, commit := false }

/-- Read a range. -/
def engRead (r e a n : Nat) (ext : List Byte) (w : Whole) : AccOut × Whole :=
  busReads (engReq r e) (spans a n) ext w

/-! ## Writes (R351, R352, R379) -/

/-- Make writes in order until one waits or is refused: whether one was refused, those not made, the old bytes
of the headers written. -/
def engPut (r e : Nat) (l : List EngOut) (undo : List (Nat × List Byte)) (w : Whole) :
    Bool × List EngOut × List (Nat × List Byte) × Whole :=
  match l with
  | [] => (false, [], undo, w)
  | o :: t =>
    let old := w.2.bytes o.at_ o.data.length
    let x := busWrite (engReq r e) o.at_ o.data (w.2.lateOf (engReq r e) o.at_ o.data.length) w
    match x.1 with
    | .ok _ => engPut r e t (if o.commit then undo ++ [(o.at_, old)] else undo) x.2
    | .wait => (false, o :: t, undo, x.2)
    | _ => (true, t, undo, x.2)

/-- Change the running task. -/
def Dev.mapRun (d : Dev) (r e : Nat) (f : EngRun → EngRun) : Dev :=
  d.mapEngine r e fun x => { x with run := x.run.map f }

/-- A decoder task's record with a status from 2 on: nothing passed, no iterations (R374, R380). -/
def badRecord (d : Dev) (t : EngRun) (status : Nat) : List EngOut :=
  let x := codeDesc false t.op t.desc
  if dAddrOk t.desc 0x28 && x.result % 32 == 0 then
    outsAt x.result (decRecord (d.dTaskId t.slot) status 0 x.first x.num 0 0 0 0 (codeBlocks x.par))
  else []

/-- Go on with the writes of a task whose computing is done; when all are made, or one is refused, it has its code. -/
def engDrain (r e : Nat) (w : Whole) : Whole :=
  match (w.2.engine r e).run with
  | some t =>
    (match t.code, t.fin with
    | none, some c =>
      let x := engPut r e t.outs t.undo w
      if x.1 then
        let recd := if e = 2 ∧ x.2.1 ≠ [] then badRecord x.2.2.2.2 t 6 else []
        let y := engPut r e recd [] x.2.2.2
        (y.2.2.2.1, y.2.2.2.2.mapRun r e fun u =>
          { u with undo := x.2.2.1, outs := y.2.1, fin := some 4, code := if y.2.1.isEmpty then some 4 else none })
      else
        (x.2.2.2.1, x.2.2.2.2.mapRun r e fun u =>
          { u with undo := x.2.2.1, outs := x.2.1, code := if x.2.1.isEmpty then some c else none })
    | _, _ => w)
  | none => w

/-- The task's computing is done: these writes are to be made, then it ends with a code. -/
def engFinish (r e : Nat) (outs : List EngOut) (code : Nat) (w : Whole) : Whole :=
  engDrain r e (w.1, w.2.mapRun r e fun t => { t with outs := outs, fin := some code })

/-- A task ends with an error that its record tells, if it is a decoder's. -/
def engFail (r e code status : Nat) (w : Whole) : Whole :=
  match (w.2.engine r e).run with
  | some t => engFinish r e (if e = 2 then badRecord w.2 t status else []) code w
  | none => w

/-- What a read gave: the task goes on with its bytes, waits, or ends with READ. -/
def engGot (r e : Nat) (x : AccOut × Whole) (k : List Byte → Whole → Whole) : Whole :=
  match x.1 with
  | .ok l => k l x.2
  | .wait => x.2
  | _ => engFail r e 3 5 x.2

/-! ## Starting a task (R348 to R350) -/

/-- The operations of an engine. -/
def engOps (e : Nat) : Nat := if e < 2 then 3 else 5

/-- An engine takes the task at the front of its queue and reads its descriptor. -/
def engStart (r e : Nat) (ext : List Byte) (w : Whole) : Whole :=
  let x := w.2.engine r e
  if engActs w.1 r e && x.run.isNone && !w.2.unitHeld r 1 e then
    match x.queue with
    | [] => w
    | s :: q =>
      let word := w.2.df s 0x20 0 32
      let t : EngRun := { slot := s, op := word % 16, desc := [], code := none, undo := [], outs := [], fin := none }
      let set := fun (v : Whole) (t : EngRun) => (v.1, v.2.setEngine r e { x with queue := q, run := some t })
      if bitsOf word 4 4 ≠ engClass e then set w { t with code := some 1 }
      else
        let a := busRead (engReq r e) (w.2.dBuf0 s) 64 ext w
        (match a.1 with
        | .wait => a.2
        | .ok l =>
          if word / 256 = 0 ∧ word % 16 < engOps e then set a.2 { t with desc := l }
          else engFail r e 2 3 (set a.2 { t with desc := l })
        | _ => set a.2 { t with code := some 3 })
  else w

/-- Run a task's operation: only the operation that the running task names, and only until its computing is
done; after that its writes go on. -/
def engRun (r e op : Nat) (k : EngRun → Whole → Whole) (w : Whole) : Whole :=
  if engActs w.1 r e then
    match (w.2.engine r e).run with
    | some t => if t.op = op ∧ t.code = none then (if t.fin.isSome then engDrain r e w else k t w) else w
    | none => w
  else w

/-! ## FFT engines (R358 to R366) -/

/-- Six shift codes, none of them reserved. -/
def shiftsOk (v : Nat) : Bool := (List.range 6).all fun i => bitsOf v (2 * i) 2 != 3

/-- One side's addresses: format, mantissa and exponent plane. -/
def planeOk (fmt : Nat) (l : List Byte) (m e : Nat) : Bool :=
  dAddrOk l m && dAddrOk l e && dw l m 8 % 64 == 0 && (if fmt = 0 then dw l e 8 % 2 == 0 else dw l e 8 == 0)

/-- The checks of R360 and of the fields that R359 gives as zero. -/
def fftOk (op : Nat) (l : List Byte) : Bool :=
  let w0 := dw l 0 4
  let w1 := dw l 4 4
  let w2 := dw l 8 4
  let w4 := dw l 0x10 4
  let inF := bitsOf w0 4 2
  let outF := bitsOf w0 6 2
  let hs := bitAt w0 8
  let cp := bitAt w0 9
  let cpLen := bitsOf w2 0 10
  let wofs := bitsOf w2 10 10
  let first := bitsOf w4 0 13
  let count := bitsOf w4 16 13
  bitsOf w0 11 5 == 0 && bitsOf w0 19 13 == 0 && bitsOf w1 29 3 == 0 && bitsOf w2 20 12 == 0 && bitsOf w4 13 3 == 0
    && bitsOf w4 29 3 == 0 && dw l 0x14 4 == 0 && dw l 0x38 8 == 0
    && decide (inF ≤ 1) && decide (outF ≤ 1) && shiftsOk (bitsOf w1 0 12) && shiftsOk (bitsOf w1 12 12)
    && decide (bitsOf w1 24 5 ≤ 24) && planeOk inF l 0x18 0x20 && planeOk outF l 0x28 0x30
    && (cp || (cpLen == 0 && wofs == 0)) && decide (wofs ≤ cpLen) && (inF != 0 || (cpLen - wofs) % 16 == 0)
    && (if op = 2 then
          (cztLen (bitsOf w0 0 4)).isSome && !hs && !cp && dw l 0xC 4 == 0 && first == 0 && count == 0
        else
          !bitAt w0 10 && bitsOf w1 12 12 == 0
            && (match fftRadices (bitsOf w0 0 4) with
                | some rs => decide (1 ≤ count) && decide (first + count ≤ fftLen rs)
                | none => false)
            && ((if op = 0 then outF else inF) != 0 || count % 16 == 0))

/-- A number of samples in a buffer of a format: dab buffers hold whole dabs. -/
def bufCount (fmt n : Nat) : Nat := if fmt = 0 then (n + 15) / 16 * 16 else n

/-- Read `n` samples of a format. -/
def fftInput (r e fmt n : Nat) (l : List Byte) (ext : List Byte) (w : Whole)
    (k : List (Int × Int) → Whole → Whole) : Whole :=
  let c := bufCount fmt n
  if fmt = 0 then
    engGot r e (engRead r e (dAddr l 0x18) (2 * c) ext w) fun mant v =>
      engGot r e (engRead r e (dAddr l 0x20) (c / 16) (ext.drop (2 * c)) v) fun exps v => k (dabIn mant exps c) v
  else engGot r e (engRead r e (dAddr l 0x18) (4 * c) ext w) fun b v => k (c16In b c) v

/-- The clamps counted, and the output written (R364, R366). -/
def fftResult (r e : Nat) (l : List Byte) (y : List CVal × Nat) (w : Whole) : Whole :=
  let o := fftOut (bitsOf (dw l 4 4) 24 5) y.1
  let sat := y.2 + o.2
  let d := if sat = 0 then w.2 else (w.2.countF (F.FFT_SAT_COUNT r e) sat).engAlert r e 8
  let planes := dabOut (bitsOf (dw l 0 4) 16 3) o.1
  let outs := if bitsOf (dw l 0 4) 6 2 = 0 then outsAt (dAddr l 0x28) planes.1 ++ outsAt (dAddr l 0x30) planes.2
    else outsAt (dAddr l 0x28) (c16Out o.1)
  engFinish r e outs 0 (w.1, d)

/-- The parameters of an FFT or IFFT. -/
def fftParOf (l : List Byte) : FftPar :=
  let w0 := dw l 0 4
  let w2 := dw l 8 4
  let w4 := dw l 0x10 4
  { rs := (fftRadices (bitsOf w0 0 4)).getD [], hs := bitAt w0 8, cp := bitAt w0 9, scale := bitsOf (dw l 4 4) 0 12
    cpLen := bitsOf w2 0 10, wofs := bitsOf w2 10 10, phase := dw l 0xC 4, first := bitsOf w4 0 13, count := bitsOf w4 16 13 }

/-- FFT, IFFT or CZT of a task. -/
def fftTask (r e op : Nat) (ext : List Byte) (w : Whole) : Whole :=
  if 2 ≤ e then w
  else engRun r e op (fun t w =>
    let l := t.desc
    if fftOk op l then
      let w0 := dw l 0 4
      let inF := bitsOf w0 4 2
      let p := fftParOf l
      if op = 2 then
        match cztLen (bitsOf w0 0 4) with
        | some (n, rs) =>
          fftInput r e inF n l ext w fun inp v =>
            fftResult r e l (cztRun (bitAt w0 10) n rs (bitsOf (dw l 4 4) 0 12) (bitsOf (dw l 4 4) 12 12) inp) v
        | none => w
      else if op = 0 then
        fftInput r e inF (fftLen p.rs + p.cpLen) l ext w fun inp v => fftResult r e l (fftForward p inp) v
      else fftInput r e inF p.count l ext w fun inp v => fftResult r e l (fftInverse p inp) v
    else engFail r e 2 3 w) w

/-! ## Decoder (R370 to R379) -/

/-- A code block read for decoding: its LLRs, and for an operation with HARQ its old header and the old soft values. -/
structure CbIn where
  r : Nat
  llr : List Byte
  head : List Byte
  old : List Byte
  deriving DecidableEq, Repr

/-- Are the fields of a header those of the task? -/
def headMatches (x : CodeDesc) (r : Nat) (h : List Byte) : Bool :=
  dw h 2 2 == codeNcb x.par r % 65536 && dw h 4 4 == x.par.a && dw h 8 1 == softCode x.par
/-- VALID of a header. -/
def headValid (h : List Byte) : Bool := bitAt (dw h 0 1) 1
/-- ACT of a header. -/
def headAct (h : List Byte) : Nat := bitsOf (dw h 0 1) 0 1
/-- Are the old soft values of a block combined (R378)? -/
def headUsed (x : CodeDesc) (r : Nat) (h : List Byte) : Bool := !x.new && headValid h && headMatches x r h

/-- Read the code blocks of a task: LLRs from `at_`, and areas of the soft buffer, which lies in HBM, at `buf`. -/
def readBlocks (r : Nat) (x : CodeDesc) (buf : Nat) (l : List Nat) (at_ : Nat) (ext : List Byte) (acc : List CbIn) (w : Whole)
    (k : List CbIn → Whole → Whole) : Whole :=
  match l with
  | [] => k acc w
  | b :: t =>
    let e := codeE x.par b
    let area := buf + b * (64 + 2 * softP x.par)
    engGot r 2 (engRead r 2 at_ e ext w) fun llr v =>
      engGot r 2 (engRead r 2 area 32 [] v) fun head v =>
        if headUsed x b head then
          engGot r 2 (engRead r 2 (area + 64 + headAct head * softP x.par) (codeNcb x.par b) [] v) fun old v =>
            readBlocks r x buf t (at_ + e) (ext.drop e) (acc ++ [{ r := b, llr := llr, head := head, old := old }]) v k
        else readBlocks r x buf t (at_ + e) (ext.drop e) (acc ++ [{ r := b, llr := llr, head := head, old := [] }]) v k

/-- The soft values of a block after combining. -/
def cbSoft (x : CodeDesc) (b : CbIn) : List Int :=
  let new := rateRecover x.par b.r b.llr
  if headUsed x b.r b.head then combine new (b.old.map fun v => sx 8 v.toNat) else new

/-- The header a block gets at the commit (R379). -/
def newHead (x : CodeDesc) (b : CbIn) : List Byte :=
  softHeader (1 - headAct b.head) (if x.new then 1 else min 255 (dw b.head 1 1 + 1)) (codeNcb x.par b.r) x.par

/-- The transport block check of a task that covers every block: 0 not checked, 1 pass, 2 fail. -/
def tbCheck (x : CodeDesc) (payload : List (List Bool)) : Nat :=
  if x.first = 0 ∧ x.num = codeBlocks x.par then (if tbCrcOk x.par payload.flatten then 1 else 2) else 0

/-- The counters of decoded blocks. -/
def Dev.decCount (d : Dev) (r blocks fails iters : Nat) : Dev :=
  ((d.countF (F.DEC_CB_COUNT r) blocks).countF (F.DEC_CB_FAIL_COUNT r) fails).countF (F.DEC_ITER_COUNT r) iters

/-- The mask whose bit i is the i-th of a list. -/
def maskOf (l : List Bool) : Nat := l.zipIdx.foldl (fun n v => n + b2n v.1 * 2 ^ v.2) 0

/-- Decode the blocks of a HARQ task: copies and payloads, then the headers, then the record. -/
def decodeBlocks (r : Nat) (t : EngRun) (x : CodeDesc) (buf : Nat) (l : List CbIn) (w : Whole) : Whole :=
  let p := x.par
  let res := l.map fun b => (b, cbSoft x b, decodeBlock p b.r x.et x.maxIter (cbSoft x b))
  let pass := res.map fun y => blockCrc p y.2.2.1
  let pay := res.map fun y => payloadOf p y.1.r y.2.2.1
  let its := res.map fun y => y.2.2.2
  let tb := tbCheck x pay
  let mism := l.any fun b => headValid b.head && !headMatches x b.r b.head
  let copies := res.flatMap fun y =>
    outsAt (buf + y.1.r * (64 + 2 * softP p) + 64 + (1 - headAct y.1.head) * softP p)
      (y.2.1.map fun v => BitVec.ofNat 8 (wrapInt 8 v))
  let outs := (res.zip pay).flatMap fun y => outsAt (x.out + y.1.1.r * x.stride) (packBits y.2)
  let heads := l.map fun b => ({ at_ := buf + b.r * (64 + 2 * softP p), data := newHead x b, commit := true } : EngOut)
  let fails := (pass.filter fun b => !b).length
  let d := w.2.decCount r l.length fails (its.foldl (· + ·) 0)
  let d := if mism then d.engAlert r 2 16 else d
  let recd := decRecord (d.dTaskId t.slot) (if fails = 0 ∧ tb ≠ 2 then 0 else 1) tb x.first x.num (maskOf pass)
    (its.foldl (· + ·) 0) (its.foldl max 0) (b2n mism + 2 * b2n x.new) (codeBlocks p)
  engFinish r 2 (copies ++ outs ++ heads ++ outsAt x.result recd) 0 (w.1, d)

/-- The base of the HARQ index (R375). -/
def Dev.harqBase (d : Dev) (r : Nat) : Nat := d.f (F.DEC_HARQ_BASE_LO_BASE r) * 2 ^ 24 + d.f (F.DEC_HARQ_BASE_HI_BASE r) * 2 ^ 32

/-- LDPC or turbo decoding of a task. -/
def harqTask (r op : Nat) (ext : List Byte) (w : Whole) : Whole :=
  engRun r 2 op (fun t w =>
    let x := codeDesc false op t.desc
    if decOk op t.desc then
      if w.2.fb (F.DEC_HARQ_CTRL_EN r) then
        engGot r 2 (engRead r 2 (w.2.harqBase r + (w.2.dContext t.slot * 16 + x.proc) * 8) 8 [] w) fun ent v =>
          let n := dw ent 0 8
          let buf := bitsOf n 8 26 * 256
          let size := bitsOf n 34 20 * 256
          if bitAt n 0 && decide (buf + size ≤ 0x400000000)
              && decide (codeBlocks x.par * (64 + 2 * softP x.par) ≤ size) then
            readBlocks r x buf ((List.range x.num).map fun i => x.first + i) x.inp ext [] v fun l v => decodeBlocks r t x buf l v
          else engFail r 2 5 4 v
      else engFail r 2 5 4 w
    else engFail r 2 2 3 w) w

/-- A decoder task that writes one payload and its record: polar and small block codes; `crcs` whether each block's CRC
holds. -/
def decodeOne (r : Nat) (t : EngRun) (x : CodeDesc) (pay : List Bool) (crcs : List Bool) (w : Whole) : Whole :=
  let pass := crcs.all id
  let d := w.2.decCount r crcs.length (crcs.filter fun b => !b).length 0
  let recd := decRecord (d.dTaskId t.slot) (b2n (!pass)) 0 x.first x.num (b2n pass) 0 0 0 (codeBlocks x.par)
  engFinish r 2 (outsAt x.out (packBits pay) ++ outsAt x.result recd) 0 (w.1, d)

/-- Polar decoding of a task. -/
def polarTask (r : Nat) (ext : List Byte) (w : Whole) : Whole :=
  engRun r 2 1 (fun t w =>
    let x := codeDesc false 1 t.desc
    if decOk 1 t.desc then
      engGot r 2 (engRead r 2 x.inp x.par.g ext w) fun llr v =>
        let y := uciDecode x.par (llr.map llrIn)
        decodeOne r t x y.1 y.2 v
    else engFail r 2 2 3 w) w

/-- Small block decoding of a task. -/
def smallTask (r : Nat) (ext : List Byte) (w : Whole) : Whole :=
  engRun r 2 3 (fun t w =>
    let x := codeDesc false 3 t.desc
    if decOk 3 t.desc then
      engGot r 2 (engRead r 2 x.inp x.par.g ext w) fun llr v =>
        decodeOne r t x (indexBits x.par.a (smallDecode x.par llr)) [true] v
    else engFail r 2 2 3 w) w

/-- The ranges of the payloads that TB_CRC reads. -/
def tbSpans (x : CodeDesc) : List (Nat × Nat) :=
  (List.range x.num).flatMap fun i => spans (x.inp + i * x.stride) ((tbPayLen x i + 7) / 8)

/-- The payload bits of blocks `l` in the bytes TB_CRC reads. -/
def tbBits (x : CodeDesc) (l : List Nat) (b : List Byte) : List Bool :=
  match l with
  | [] => []
  | i :: t => unpackBits (tbPayLen x i) b ++ tbBits x t (b.drop ((tbPayLen x i + 7) / 8))

/-- The transport block check of a task (R373). -/
def tbCrcTask (r : Nat) (ext : List Byte) (w : Whole) : Whole :=
  engRun r 2 4 (fun t w =>
    let x := codeDesc false 4 t.desc
    if decOk 4 t.desc then
      engGot r 2 (busReads (engReq r 2) (tbSpans x) ext w) fun b v =>
        let pass := tbCrcOk x.par (tbBits x (List.range x.num) b)
        let recd := decRecord (v.2.dTaskId t.slot) (b2n (!pass)) (if pass then 1 else 2) x.first x.num (b2n pass) 0 0 0 x.num
        engFinish r 2 (outsAt x.result recd) 0 v
    else engFail r 2 2 3 w) w

/-! ## Encoder (R382, R383) -/

/-- The bits an encoder task reads at IN; the CFI code has its value in A and reads nothing. -/
def encBits (x : CodeDesc) : Nat := if x.par.op = 4 ∧ x.par.kind = 0 then 0 else x.par.a

/-- An encoder task. -/
def encTask (r op : Nat) (ext : List Byte) (w : Whole) : Whole :=
  engRun r 3 op (fun t w =>
    let x := codeDesc true op t.desc
    if encOk op t.desc then
      engGot r 3 (engRead r 3 x.inp ((encBits x + 7) / 8) ext w) fun b v =>
        let bits := unpackBits (encBits x) b
        let tb := op == 0 || op == 2
        let blocks := if tb then (List.range x.num).map fun i => x.first + i else [0]
        let outs := blocks.flatMap fun i =>
          outsAt (if tb then x.out + i * x.stride else x.out) (packBits (encoded x.par i x.rnti x.ant bits))
        engFinish r 3 outs 0 (v.1, v.2.countF (F.ENC_CB_COUNT r) blocks.length)
    else engFail r 3 2 3 w) w

/-! ## Completion (R352, R380) -/

/-- A killed task's write that was issued lands, and of a decoder's commit it is undone; then a decoder writes its record
(R354, R380). Answers whether all of it is made. -/
def engLast (r e : Nat) (t : EngRun) (w : Whole) : Bool × Whole :=
  if t.code = some 6 then
    let x := engPut r e t.outs [] w
    if !x.1 && !x.2.1.isEmpty then (false, x.2.2.2)
    else
      let v : Whole := (x.2.2.2.1, (x.2.2.2.2.engUndo x.2.2.1).mapRun r e fun u => { u with outs := [] })
      if e = 2 ∧ t.desc ≠ [] then
        let y := engPut r e (badRecord v.2 t 2) [] v
        (y.1 || y.2.1.isEmpty, y.2.2.2)
      else (true, v)
  else (true, w)

/-- After every write has returned, the engine signals the completion of its running task. -/
def engComplete (r e : Nat) (w : Whole) : Whole :=
  if engActs w.1 r e then
    let w := engDrain r e w
    match (w.2.engine r e).run with
    | some t =>
      (match t.code with
      | some c =>
        let x := engLast r e t w
        if x.1 then
          let d := x.2.2.mapEngine r e fun y => { y with run := none }
          (x.2.1, (d.engEndTask r e t.slot c).delegateDone (regionUid r e) 0)
        else x.2
      | none => w)
    | none => w
  else w

end Sys2Proof.Machine
end

