-- ==== Sys2Proof/Machine/Control.lean ====
section
/-! DEFINITION. Loads, stores, branches, loops and the SYS instructions of the AK core (R123, R131, R139
to R143, R147, R150, R151, R154, R155). -/

namespace Sys2Proof.Machine

/-! ## Scalar loads and stores -/

/-- The access size of an M-format instruction; SZ = 3 is a register pair. -/
def mSize (m : MForm) : Nat := 2 ^ m.sz.toNat

/-- The precise exception of a scalar access, in the order: odd pair, window, alignment, access. -/
def memTrap (word : Nat) (m : MForm) (rd : Reg) (o : AddrOut) (rb : Word) (map : Option (Nat × Path)) :
    Option (Nat × Nat) :=
  if m.sz = 3 ∧ Reg.odd rd then some (tIllegal, word)
  else if o.bad then some (tWindow, rb.toNat)
  else if o.addr % mSize m ≠ 0 then some (tAlign, o.addr)
  else if map.isNone then some (tAccess, o.addr)
  else none

/-- The base update of a post-increment. -/
def baseUpdate (pi : Bool) (rb : Reg) (o : AddrOut) : List Eff :=
  if pi then [.wr (.g rb (BitVec.ofNat 32 o.base)) 1 false] else []

def semLd (d : Dev) (h : Hd) (rd rb : Reg) (m : MForm) : Sem :=
  let h' := h.noGn
  let word := encM h' 0x0B rd rb m
  let o := d.address h.k (d.g h.k rb).toNat (m.imm.toInt * (mSize m : Int)) m.pi m.cwe m.cw.toNat
  let map := d.mapAddr h.k o.addr false
  let da := (map.getD (0, .scratch)).1
  let path := (map.getD (0, .scratch)).2
  { cls := .s, word := word, run := d.guard h', mem := some false
    dests := (if m.sz = 3 then [.g rd, .g (Reg.next rd)] else [.g rd]) ++ (if m.pi then [.g rb] else [])
    srcs := [rd, rb] ++ (if m.sz = 3 then [Reg.next rd] else [])
    trap := memTrap word m rd o (d.g h.k rb) map
    eff := .ld (if m.sz = 3 then .pair rd else .g rd (mSize m) (!m.u))
        [{ ca := o.addr, da := da, path := path, size := mSize m, unit := mSize m, lane := 0, data := [] }] 4 :: baseUpdate m.pi rb o }

def semSt (d : Dev) (h : Hd) (rd rb : Reg) (m : MForm) : Sem :=
  let h' := h.noGn
  let word := encM h' 0x0C rd rb m
  let o := d.address h.k (d.g h.k rb).toNat (m.imm.toInt * (mSize m : Int)) m.pi m.cwe m.cw.toNat
  let map := d.mapAddr h.k o.addr true
  let v := if m.sz = 3 then (d.g h.k rd).toNat + (d.g h.k (Reg.next rd)).toNat * 2 ^ 32 else (d.g h.k rd).toNat
  { cls := .s, word := word, run := d.guard h', mem := some true
    dests := if m.pi then [.g rb] else []
    srcs := [rd, rb] ++ (if m.sz = 3 then [Reg.next rd] else [])
    trap := memTrap word m rd o (d.g h.k rb) map
    eff := .st [{ ca := o.addr, da := (map.getD (0, .scratch)).1, path := (map.getD (0, .scratch)).2
                  size := mSize m, unit := mSize m, lane := 0, data := leBytes (mSize m) v }] :: baseUpdate m.pi rb o }

/-! ## Branches -/

/-- A branch to byte offset `t`: FETCH_FAULT outside instruction memory (R148); the low two bits of a
target fall away (log entry 15). -/
def semBranch (word : Nat) (sq : Seq) (taken : Bool) (t : Int) (dests : List DReg) (srcs : List Reg)
    (link : List Eff) : Sem :=
  { cls := .c, word := word, run := true, dests := dests, srcs := srcs
    seq := if taken then sq else .none
    trap := if taken && (decide (t < 0) || decide (65536 ≤ t)) then some (tFetch, wrapInt 32 t) else none
    eff := (if taken then link else []) ++
      [.branch (if taken then some (BitVec.ofNat 16 (t.toNat / 4 * 4)) else none)] }

/-- A branch offset counts words from the address of the branch's own bundle (log entry 15). -/
def semBr (d : Dev) (h : Hd) (off : BitVec 22) : Sem :=
  semBranch (encB h 0x14 off) .branch (d.guard h) (((d.core h.k).pc.toNat : Int) + off.toInt * 4) [] [] []
/-- The link of CALL and JALR: the address of the bundle after the third delay slot (R139). -/
def Dev.linkPc (d : Dev) (k : Nat) : Word := BitVec.ofNat 32 (d.bundleAt k (d.nextPc k) 3)
def semCall (d : Dev) (h : Hd) (off : BitVec 26) : Sem :=
  semBranch (encBase h 0x15 + off.toNat) .call true (((d.core h.k).pc.toNat : Int) + off.toInt * 4) [.g 31] [31]
    [.wr (.g 31 (d.linkPc h.k)) 1 false]
def semJr (d : Dev) (h : Hd) (rs1 : Reg) : Sem :=
  semBranch (encR h 0x16 0 rs1 0 0) .branch (d.guard h) ((d.g h.k rs1).toNat : Int) [] [rs1] []
def semJalr (d : Dev) (h : Hd) (rd rs1 : Reg) : Sem :=
  semBranch (encR h 0x16 rd rs1 0 1) .call (d.guard h) ((d.g h.k rs1).toNat : Int) [.g rd] [rd, rs1]
    [.wr (.g rd (d.linkPc h.k)) 1 false]

/-! ## Loops -/

/-- The count of an L-format instruction: count14, or register rs when R = 1 (R141). -/
def loopCount (d : Dev) (k : Nat) (r : Bool) (cnt : BitVec 14) : Nat :=
  if r then (d.g k (cnt.setWidth 5)).toNat else cnt.toNat

/-- The exceptions of LOOP, LOOP.S and RPT: OPERAND for a register count above 65,536, and LOOP_CEIL
with IE = 1 for a bundle count above CEIL (R141, R150). -/
def loopTrap (d : Dev) (k : Nat) (r : Bool) (n total : Nat) : Option (Nat × Nat) :=
  if r ∧ 65536 < n then some (tOperand, n)
  else
    let ceil := d.f (F.CORE_LOOP_CEIL_CEIL k)
    if d.fb (F.CORE_STATUS_IE k) ∧ ceil ≠ 0 ∧ ceil < total then some (tLoopCeil, min total 0xFFFFFFFF) else none

/-- The effect of LOOP and LOOP.S: a body of `len` bundles (1 to 256) that follow the core's bundle, as instruction
memory holds them, run `n` times; a count of 0 skips it (R141, R143). -/
def Dev.loopEff (d : Dev) (k n len stg : Nat) : Eff :=
  let b := d.nextPc k
  if n = 0 then .skip (d.bundleAt k b len)
  else .loop n (d.bundleAt k b (len - 1)) { tail := d.bundleAt k b (len - 3), stg := stg }

def semLoop (d : Dev) (h : Hd) (len1 : BitVec 8) (r : Bool) (cnt : BitVec 14) : Sem :=
  let n := loopCount d h.k r cnt
  { cls := .c, word := encL h false r 0 len1 cnt, seq := .loop, srcs := if r then [cnt.setWidth 5] else []
    trap := loopTrap d h.k r n (n * (len1.toNat + 1))
    eff := [d.loopEff h.k n (len1.toNat + 1) 0] }

def semLoopS (d : Dev) (h : Hd) (stg : BitVec 2) (len1 : BitVec 8) (r : Bool) (cnt : BitVec 14) : Sem :=
  let n := loopCount d h.k r cnt
  { cls := .c, word := encL h false r stg len1 cnt, seq := .loop, srcs := if r then [cnt.setWidth 5] else []
    trap := loopTrap d h.k r n ((n + stg.toNat) * (len1.toNat + 1))
    eff := [d.loopEff h.k (if n = 0 then 0 else n + stg.toNat) (len1.toNat + 1) stg.toNat] }

def semRpt (d : Dev) (h : Hd) (r : Bool) (cnt : BitVec 14) : Sem :=
  let n := loopCount d h.k r cnt
  { cls := .c, word := encL h true r 0 0 cnt, seq := .loop, srcs := if r then [cnt.setWidth 5] else []
    trap := loopTrap d h.k r n n
    eff := [if n = 0 then .skip (d.bundleAt h.k (d.nextPc h.k) 1) else .rpt n] }

/-! ## SYS -/

/-- A SYS instruction; `priv` says that it raises PRIV at U level (R123). -/
def semSys (d : Dev) (h : Hd) (word : Nat) (priv : Bool) (srcs : List Reg) (e : List Eff) : Sem :=
  { cls := .c, word := word, srcs := srcs
    trap := if priv && d.level h.k == .u then some (tPriv, word) else none
    eff := e }

def semNop (d : Dev) (h : Hd) : Sem := semSys d h (encSys h 0 0 0 0) false [] []
def semFenceW (d : Dev) (h : Hd) : Sem := semSys d h (encSys h 0 0 0 1) false [] [.fence]

/-- The device address ranges that a core address range covers, segment by segment; a part in an
invalid segment covers nothing (log entry 16). -/
def cacheRanges (d : Dev) (k lo n : Nat) : List (Nat × Nat) :=
  (List.range 16).filterMap fun i =>
    let s := d.seg k i
    let a := max lo (i * 0x10000000)
    let b := min (lo + n) ((i + 1) * 0x10000000)
    if s.v && decide (a < b) then some (s.base * 0x10000000 + a % 0x10000000, b - a) else none

def semCache (d : Dev) (h : Hd) (minor : Nat) (priv clean inval : Bool) (rs1 rs2 : Reg) : Sem :=
  semSys d h (encSys h 0 rs1 rs2 minor) priv [rs1, rs2]
    [.cache clean inval (cacheRanges d h.k (d.g h.k rs1).toNat (d.g h.k rs2).toNat)]
def semClean (d : Dev) (h : Hd) (rs1 rs2 : Reg) : Sem := semCache d h 3 false true false rs1 rs2
def semInval (d : Dev) (h : Hd) (rs1 rs2 : Reg) : Sem := semCache d h 4 true false true rs1 rs2
def semFlush (d : Dev) (h : Hd) (rs1 rs2 : Reg) : Sem := semCache d h 5 true true true rs1 rs2
def semCleanAll (d : Dev) (h : Hd) : Sem := semSys d h (encSys h 0 0 0 6) true [] [.cacheAll false]
def semFlushAll (d : Dev) (h : Hd) : Sem := semSys d h (encSys h 0 0 0 7) true [] [.cacheAll true]

/-- MFC; a number that names no register reads as zero (log entry 17). -/
def semMfc (sp : Spine) (d : Dev) (h : Hd) (rd : Reg) (csr : BitVec 12) : Sem :=
  let v := match csrOf h.k csr.toNat with
    | some (k', o) => csrRead sp d k' o
    | none => 0
  { cls := .c, word := encCsr h rd csr 8, dests := [.g rd], srcs := [rd]
    eff := [.wr (.g rd v) 1 false] ++ (match csrOf h.k csr.toNat with
      | some (k', o) => [.mfc (k' * 0x1000 + o)]
      | none => []) }

def semMtc (d : Dev) (h : Hd) (rs : Reg) (csr : BitVec 12) : Sem :=
  let word := encCsr h rs csr 9
  match csrOf h.k csr.toNat with
  | none => { cls := .c, word := word, srcs := [rs], trap := if d.level h.k == .u then some (tPriv, word) else none }
  | some (k', o) =>
    { cls := .c, word := word, srcs := [rs], seq := if o = 8 then .mtcStatus else .none
      trap := if mtcAllowed (d.level h.k) k' o then none else some (tPriv, word)
      eff := [.mtc (k' * 0x1000 + o) (d.g h.k rs)] }

def semTrap (d : Dev) (h : Hd) (code : BitVec 12) : Sem :=
  semSys d h (encCsr h 0 code 10) false [] [.trapEnd code.toNat]
def semEret (d : Dev) (h : Hd) : Sem := { semSys d h (encSys h 0 0 0 11) true [] [.eret] with seq := .eret }
def semWfi (d : Dev) (h : Hd) : Sem := semSys d h (encSys h 0 0 0 12) true [] [.wfi]
def semPclr (d : Dev) (h : Hd) (pd : PReg) : Sem :=
  { cls := .c, word := encSys h (BitVec.ofNat 5 pd.toNat) 0 0 14, dests := [.p pd]
    eff := [.wr (.p (d.pp h.k pd) 0) 1 false] }

end Sys2Proof.Machine
end

