-- ==== Sys2Proof/Machine/VecMem.lean ====
section
/-! DEFINITION. Vector loads, stores, gathers and scatters (R187 to R199). -/

namespace Sys2Proof.Machine

/-- The VMEM size in bytes of code SZ. -/
def vSize (sz : BitVec 2) : Nat := 2 ^ sz.toNat

/-- The element data of a store: element `i` of size `s` from a register. -/
def storeData (v : BitVec 512) (s i : Nat) : List Byte := leBytes s (lane v s i)

/-- Check an access of an element of `s` bytes at `ca`: ALIGN, then ACCESS_FAULT; else its mapping. It is of `n` of the
element's bytes from byte `off`, at core address `at_`. -/
def elemPart (d : Dev) (k : Nat) (write : Bool) (ca s lane : Nat) (data : List Byte) (off n at_ : Nat) : Nat × Nat ⊕ Elem :=
  if ca % s ≠ 0 then .inl (tAlign, ca)
  else match d.mapAddr k at_ write with
    | none => .inl (tAccess, ca)
    | some (da, p) =>
      .inr { ca := ca, da := da, path := p, size := n, unit := s, lane := lane + off, data := (data.drop off).take n }

/-- Check a whole element. -/
def elemOf (d : Dev) (k : Nat) (write : Bool) (ca s lane : Nat) (data : List Byte) : Nat × Nat ⊕ Elem :=
  elemPart d k write ca s lane data 0 s ca

/-- The accesses of the element of a unit-stride access at byte `p`: two where the element's bytes lie at both ends of a
circular window (R134). -/
def windowElem (d : Dev) (k : Nat) (write : Bool) (o : AddrOut) (p s lane : Nat) (data : List Byte) :
    List (Nat × Nat ⊕ Elem) :=
  if o.at (p + s / 2) = o.at p + s / 2 then [elemOf d k write (o.at p) s lane data]
  else [0, s / 2].map fun off => elemPart d k write (o.at p) s lane data off (s / 2) (o.at (p + off))

/-- The elements of a list of checks up to the first that faults, and that fault. -/
def splitElems (l : List (Nat × (Nat × Nat ⊕ Elem))) : List Elem × Option (Nat × (Nat × Nat)) :=
  match l with
  | [] => ([], none)
  | (i, .inl t) :: _ => ([], some (i, t))
  | (_, .inr e) :: r => ((e :: (splitElems r).1), (splitElems r).2)

/-- The MOD and rx fields of a unit-stride access. -/
def vFormRx (m : VForm) : Reg := BitVec.ofNat 5 (b2n m.cwe * 16 + m.cw.toNat * 2)

/-- Can two neighbouring elements of a unit-stride access be one access (R192, R194)? They go to one cache line, or to
one bank; register accesses stay apart. -/
def joins (e f : Elem) : Bool :=
  let blk := fun (a : Nat) => if e.path = .cached then a / 64 else a / 0x20000
  e.path == f.path && e.path != .regs && e.ca + e.size == f.ca && e.da + e.size == f.da && e.lane + e.size == f.lane && blk e.da == blk f.da

/-- Join the neighbouring elements of a unit-stride access. -/
def joinElems (l : List Elem) : List Elem :=
  match l with
  | [] => []
  | e :: t =>
    match joinElems t with
    | [] => [e]
    | f :: r => if joins e f then { e with size := e.size + f.size, data := e.data ++ f.data } :: r else e :: f :: r

/-- A unit-stride or strided access (R189, R190, R196): precise as a whole, all its elements checked
before any is accessed. `part i data` checks element i's accesses, `winBad` is the window trap, `upd` the new base. -/
def semVecMem (d : Dev) (h : Hd) (word : Nat) (write : Bool) (vd rb : Reg) (s : Nat) (pi : Bool)
    (part : Nat → List Byte → List (Nat × Nat ⊕ Elem)) (winBad : Bool) (upd : Nat) (srcs : List Reg) (unit : Bool) : Sem :=
  let act := d.active h.k h.pg s (64 / s)
  let v := d.v h.k vd
  let chk := splitElems (act.flatMap fun i => (part i (if write then storeData v s i else [])).map fun x => (i, x))
  { cls := .s, word := word, mem := some write
    dests := (if write then [] else [.v vd]) ++ (if pi then [.g rb] else [])
    srcs := rb :: srcs
    trap := if act = [] then none
      else if winBad then some (tWindow, (d.g h.k rb).toNat)
      else match chk.2 with
        | some (_, t) => some t
        | none => none
    eff := if act = [] then []
      else (if write then .st (if unit then joinElems chk.1 else chk.1)
          else .ld (.v (d.pv h.k vd)) (if unit then joinElems chk.1 else chk.1) 5) ::
        (if pi then [.wr (.g rb (BitVec.ofNat 32 upd)) 1 false] else []) }

/-- VLD and VST: element i at rb + i * size, with the window of R133 and R134. -/
def semVUnit (d : Dev) (h : Hd) (write : Bool) (vd rb : Reg) (m : VForm) : Sem :=
  let h' := h.noGn
  let s := vSize m.sz
  let n := min (d.vl h.k) (64 / s)
  let o := d.address h.k (d.g h.k rb).toNat (if m.pi then ((n * s : Nat) : Int) else 0) m.pi m.cwe m.cw.toNat
  semVecMem d h' (encVm h' vd rb (vFormRx m) (b2n write) m.sz.toNat (b2n m.pi * 4)) write vd rb s m.pi
    (fun i data => windowElem d h.k write o (i * s) s (s * i) data) o.bad o.base [] true
def semVld (d : Dev) (h : Hd) (vd rb : Reg) (m : VForm) : Sem := semVUnit d h false vd rb m
def semVst (d : Dev) (h : Hd) (vd rb : Reg) (m : VForm) : Sem := semVUnit d h true vd rb m

/-- VLDS and VSTS: element i at rb + i * stride. -/
def semVStride (d : Dev) (h : Hd) (write : Bool) (vd rb rx : Reg) (sz : BitVec 2) (pi : Bool) : Sem :=
  let h' := h.noGn
  let s := vSize sz
  let n := min (d.vl h.k) (64 / s)
  let b := ((d.g h.k rb).toNat : Int)
  let st := (d.g h.k rx).toInt
  semVecMem d h' (encVm h' vd rb rx (2 + b2n write) sz.toNat (b2n pi * 4)) write vd rb s pi
    (fun i data => [elemOf d h.k write (wrapInt 32 (b + (i : Int) * st)) s (s * i) data]) false
    (wrapInt 32 (b + (n : Int) * st)) [rx] false
def semVlds (d : Dev) (h : Hd) (vd rb rx : Reg) (sz : BitVec 2) (pi : Bool) : Sem := semVStride d h false vd rb rx sz pi
def semVsts (d : Dev) (h : Hd) (vd rb rx : Reg) (sz : BitVec 2) (pi : Bool) : Sem := semVStride d h true vd rb rx sz pi

/-- A gather or scatter (R191, R197, R198): active elements from VSTART upward; the element that
faults leaves those below it done. -/
def semVIndexed (d : Dev) (h : Hd) (write : Bool) (vd rb vx : Reg) (sz : BitVec 2) (x : Bool) (sc : BitVec 2) : Sem :=
  let h' := h.noGn
  let word := encVm h' vd rb vx (4 + b2n write) sz.toNat (b2n x * 4 + sc.toNat)
  let s := vSize sz
  let is := if x then 4 else 2
  let N := min (64 / s) (64 / is)
  let act0 := d.active h.k h.pg s N
  let vstart := d.f (F.VEC_VSTART_VSTART h.k)
  let act := act0.filter fun i => decide (vstart ≤ i)
  let count := min (d.vl h.k) N
  let v := d.v h.k vd
  let idx := d.v h.k vx
  let chk := splitElems (act.map fun i =>
    (i, elemOf d h.k write (wrapInt 32 (((d.g h.k rb).toNat : Int) + laneS idx is i * ((2 ^ sc.toNat : Nat) : Int)))
      s (s * i) (if write then storeData v s i else [])))
  let body : List Eff := if write then [.st chk.1] else [.ld (.v (d.pv h.k vd)) chk.1 5]
  let illegal := !write && vd == vx && !(act0 == [])
  { cls := .s, word := word, mem := some write, vx := true, dests := if write then [] else [.v vd], srcs := [rb]
    trap := if illegal then some (tIllegal, word) else chk.2.map (·.2)
    gather := if illegal || act0 == [] then none
      else some { done := if act = [] then [] else body, at_ := ((chk.2.map (·.1)).getD count), count := count }
    eff := (if act = [] then [] else body) ++ (if act0 = [] ∧ vstart < count then [] else [.vstart 0]) }
def semVldx (d : Dev) (h : Hd) (vd rb vx : Reg) (sz : BitVec 2) (x : Bool) (sc : BitVec 2) : Sem :=
  semVIndexed d h false vd rb vx sz x sc
def semVstx (d : Dev) (h : Hd) (vd rb vx : Reg) (sz : BitVec 2) (x : Bool) (sc : BitVec 2) : Sem :=
  semVIndexed d h true vd rb vx sz x sc

end Sys2Proof.Machine
end

