-- ==== Sys2Proof/Machine/CoreSem.lean ====
section
/-! DEFINITION. The Easel instructions of a core (R283 to R286, R296, R297), and what each instruction of a core does
at the issue of its bundle. -/

namespace Sys2Proof.Machine

/-! ## Easel instructions -/

/-- The ESL format of R283. -/
def encEsl (h : Hd) (rd rs1 : Reg) (pd : PReg) (minor : Nat) : Nat :=
  encBase h 0x1A + rd.toNat * 2 ^ 21 + rs1.toNat * 2 ^ 16 + pd.toNat * 2 ^ 8 + minor

/-- SUBMIT, SUBMIT.T and CANCEL raise PRIV at U level. -/
def eslPriv (d : Dev) (h : Hd) (word : Nat) : Option (Nat × Nat) :=
  if d.level h.k == .u then some (tPriv, word) else none

def semSubmit (d : Dev) (h : Hd) (rd rs1 : Reg) : Sem :=
  { cls := .c, word := encEsl h rd rs1 0 0, dests := [.g rd], srcs := [rd, rs1]
    trap := eslPriv d h (encEsl h rd rs1 0 0), eff := [.esl (.submit (d.g h.k rs1) rd)] }
def semSubmitT (d : Dev) (h : Hd) (rd rs1 : Reg) (pd : PReg) : Sem :=
  { cls := .c, word := encEsl h rd rs1 pd 1, dests := [.g rd, .p pd], srcs := [rd, rs1]
    trap := eslPriv d h (encEsl h rd rs1 pd 1), eff := [.esl (.submitT (d.g h.k rs1) rd (d.pp h.k pd))] }
def semCancel (d : Dev) (h : Hd) (rd rs1 : Reg) : Sem :=
  { cls := .c, word := encEsl h rd rs1 0 2, dests := [.g rd], srcs := [rd, rs1]
    trap := eslPriv d h (encEsl h rd rs1 0 2), eff := [.esl (.cancel (d.g h.k rs1) rd)] }

/-- WAIT and DONE are illegal on a hub core. -/
def eslHub (h : Hd) (word : Nat) : Option (Nat × Nat) := if isHubCore h.k then some (tIllegal, word) else none

def semWait (_d : Dev) (h : Hd) : Sem :=
  { cls := .c, word := encEsl h 0 0 0 3, trap := eslHub h (encEsl h 0 0 0 3), eff := [.esl .wait] }
def semDone (d : Dev) (h : Hd) (rs1 : Reg) : Sem :=
  { cls := .c, word := encEsl h 0 rs1 0 4, srcs := [rs1], trap := eslHub h (encEsl h 0 rs1 0 4)
    eff := [.esl (.done (d.g h.k rs1))] }

/-! ## Every instruction -/

/-- An instruction that a hub core does not have (R111). -/
def notHub (h : Hd) (x : Sem) : Sem :=
  if isHubCore h.k then { x with trap := some (tIllegal, x.word), gather := none } else x

/-- What a vector or coprocessor instruction does. -/
def semVecOf (sp : Spine) (d : Dev) (i : Instr) : Option (Hd × Sem) :=
  match i with
  | .vadd h vd vs1 vs2 t => some (h, notHub h (semVadd d h vd vs1 vs2 t))
  | .vsub h vd vs1 vs2 t => some (h, notHub h (semVsub d h vd vs1 vs2 t))
  | .vand h vd vs1 vs2 t => some (h, notHub h (semVand d h vd vs1 vs2 t))
  | .vor h vd vs1 vs2 t => some (h, notHub h (semVor d h vd vs1 vs2 t))
  | .vxor h vd vs1 vs2 t => some (h, notHub h (semVxor d h vd vs1 vs2 t))
  | .vshl h vd vs1 vs2 t => some (h, notHub h (semVshl d h vd vs1 vs2 t))
  | .vshr h vd vs1 vs2 t => some (h, notHub h (semVshr d h vd vs1 vs2 t))
  | .vsra h vd vs1 vs2 t => some (h, notHub h (semVsra d h vd vs1 vs2 t))
  | .vshli h vd vs1 imm t => some (h, notHub h (semVshli d h vd vs1 imm t))
  | .vshri h vd vs1 imm t => some (h, notHub h (semVshri d h vd vs1 imm t))
  | .vsrai h vd vs1 imm t => some (h, notHub h (semVsrai d h vd vs1 imm t))
  | .vmin h vd vs1 vs2 t => some (h, notHub h (semVmin d h vd vs1 vs2 t))
  | .vmax h vd vs1 vs2 t => some (h, notHub h (semVmax d h vd vs1 vs2 t))
  | .vabs h vd vs1 t => some (h, notHub h (semVabs d h vd vs1 t))
  | .vcmpeq h pd vs1 vs2 t => some (h, notHub h (semVcmpeq d h pd vs1 vs2 t))
  | .vcmpne h pd vs1 vs2 t => some (h, notHub h (semVcmpne d h pd vs1 vs2 t))
  | .vcmplt h pd vs1 vs2 t => some (h, notHub h (semVcmplt d h pd vs1 vs2 t))
  | .vcmple h pd vs1 vs2 t => some (h, notHub h (semVcmple d h pd vs1 vs2 t))
  | .vmul h vd vs1 vs2 t => some (h, notHub h (semVmul d h vd vs1 vs2 t))
  | .vmulw h hi vd vs1 vs2 t => some (h, notHub h (semVmulw d h hi vd vs1 vs2 t))
  | .vcmulw h hi cj vd vs1 vs2 t => some (h, notHub h (semVcmulw d h hi cj vd vs1 vs2 t))
  | .dot4 h vd vs1 vs2 t => some (h, notHub h (semDot4 d h vd vs1 vs2 t))
  | .dot4A h vd vs1 vs2 t => some (h, notHub h (semDot4A d h vd vs1 vs2 t))
  | .dot2 h vd vs1 vs2 t => some (h, notHub h (semDot2 d h vd vs1 vs2 t))
  | .dot2A h vd vs1 vs2 t => some (h, notHub h (semDot2A d h vd vs1 vs2 t))
  | .cdot h hi cj acc vd vs1 vs2 t => some (h, notHub h (semCdot d h hi cj acc vd vs1 vs2 t))
  | .vdabX h hi vd vs1 gs sh => some (h, notHub h (semVdabX d h hi vd vs1 gs sh))
  | .vqadd h vd vs1 vs2 t => some (h, notHub h (semVqadd d h vd vs1 vs2 t))
  | .vqsub h vd vs1 vs2 t => some (h, notHub h (semVqsub d h vd vs1 vs2 t))
  | .vqmul h vd vs1 vs2 t => some (h, notHub h (semVqmul d h vd vs1 vs2 t))
  | .vqnarrow h hi vd vs1 sh t => some (h, notHub h (semVqnarrow d h hi vd vs1 sh t))
  | .vmov h vd vs1 t => some (h, notHub h (semVmov d h vd vs1 t))
  | .vsel h vd vs1 vs2 t => some (h, notHub h (semVsel d h vd vs1 vs2 t))
  | .vperm h vd vs1 vs2 t => some (h, notHub h (semVperm d h vd vs1 vs2 t))
  | .vbcast h vd gs t => some (h, notHub h (semVbcast d h vd gs t))
  | .vext h gd vs1 gs t => some (h, notHub h (semVext d h gd vs1 gs t))
  | .vsetvl h gd gs t => some (h, notHub h (semVsetvl d h gd gs t))
  | .pand h pd ps1 ps2 => some (h, notHub h (semPand d h pd ps1 ps2))
  | .por h pd ps1 ps2 => some (h, notHub h (semPor d h pd ps1 ps2))
  | .pxor h pd ps1 ps2 => some (h, notHub h (semPxor d h pd ps1 ps2))
  | .pandn h pd ps1 ps2 => some (h, notHub h (semPandn d h pd ps1 ps2))
  | .vmaxi h gd vs1 t => some (h, notHub h (semVmaxi d h gd vs1 t))
  | .vmini h gd vs1 t => some (h, notHub h (semVmini d h gd vs1 t))
  | .vmaxiC h gd vs1 gs t => some (h, notHub h (semVmaxiC d h gd vs1 gs t))
  | .vminiC h gd vs1 gs t => some (h, notHub h (semVminiC d h gd vs1 gs t))
  | .vdabN h vd vs1 vs2 gd => some (h, notHub h (semVdabN d h vd vs1 vs2 gd))
  | .vfadd h vd vs1 vs2 t => some (h, notHub h (semVfadd d h vd vs1 vs2 t))
  | .vfsub h vd vs1 vs2 t => some (h, notHub h (semVfsub d h vd vs1 vs2 t))
  | .vfmul h vd vs1 vs2 t => some (h, notHub h (semVfmul d h vd vs1 vs2 t))
  | .vfma h vd vs1 vs2 t => some (h, notHub h (semVfma d h vd vs1 vs2 t))
  | .vfmin h vd vs1 vs2 t => some (h, notHub h (semVfmin d h vd vs1 vs2 t))
  | .vfmax h vd vs1 vs2 t => some (h, notHub h (semVfmax d h vd vs1 vs2 t))
  | .vfcmpeq h pd vs1 vs2 t => some (h, notHub h (semVfcmpeq d h pd vs1 vs2 t))
  | .vfcmplt h pd vs1 vs2 t => some (h, notHub h (semVfcmplt d h pd vs1 vs2 t))
  | .vfcvtFi h vd vs1 t => some (h, notHub h (semVfcvtFi d h vd vs1 t))
  | .vfcvtIf h vd vs1 t => some (h, notHub h (semVfcvtIf d h vd vs1 t))
  | .vfcvtW h vd vs1 t => some (h, notHub h (semVfcvtW d h vd vs1 t))
  | .vfcvtN h vd vs1 t => some (h, notHub h (semVfcvtN d h vd vs1 t))
  | .scalarForms h op fd fs1 fs2 t => some (h, notHub h (semScalarForms d h op fd fs1 fs2 t))
  | .fmvFg h fd gs t => some (h, notHub h (semFmvFg d h fd gs t))
  | .fmvGf h gd fs t => some (h, notHub h (semFmvGf d h gd fs t))
  | .vld h vd rb m => some (h, notHub h (semVld d h vd rb m))
  | .vst h vd rb m => some (h, notHub h (semVst d h vd rb m))
  | .vlds h vd rb rx sz pi => some (h, notHub h (semVlds d h vd rb rx sz pi))
  | .vsts h vd rb rx sz pi => some (h, notHub h (semVsts d h vd rb rx sz pi))
  | .vldx h vd rb vx sz x sc => some (h, notHub h (semVldx d h vd rb vx sz x sc))
  | .vstx h vd rb vx sz x sc => some (h, notHub h (semVstx d h vd rb vx sz x sc))
  | .rcp h rd rs1 => some (h, notHub h (semRcp d h rd rs1))
  | .rsqrt h rd rs1 => some (h, notHub h (semRsqrt d h rd rs1))
  | .atan2 h rd rs1 rs2 => some (h, notHub h (semAtan2 d h rd rs1 rs2))
  | .cdiv h rd rs1 rs2 => some (h, notHub h (semCdiv d h rd rs1 rs2))
  | .log2 h rd rs1 => some (h, notHub h (semLog2 d h rd rs1))
  | .exp2 h rd rs1 => some (h, notHub h (semExp2 d h rd rs1))
  | .chol h rc rs rt pd => some (h, notHub h (semChol sp d h rc rs rt pd))
  | .inv h rc rs rt pd => some (h, notHub h (semInv sp d h rc rs rt pd))
  | .sort h rc rs rt pd => some (h, notHub h (semSort sp d h rc rs rt pd))
  | .topk h rc rs rt pd => some (h, notHub h (semTopk sp d h rc rs rt pd))
  | .search h rc rs rt pd => some (h, notHub h (semSearch sp d h rc rs rt pd))
  | _ => none

/-- What an instruction of a core does; none for a command that is no instruction of a core. -/
def semOf (sp : Spine) (d : Dev) (i : Instr) : Option (Hd × Sem) :=
  match i with
  | .add h rd rs1 rs2 => some (h, semAdd d h rd rs1 rs2)
  | .sub h rd rs1 rs2 => some (h, semSub d h rd rs1 rs2)
  | .and h rd rs1 rs2 => some (h, semAnd d h rd rs1 rs2)
  | .or h rd rs1 rs2 => some (h, semOr d h rd rs1 rs2)
  | .xor h rd rs1 rs2 => some (h, semXor d h rd rs1 rs2)
  | .shl h rd rs1 rs2 => some (h, semShl d h rd rs1 rs2)
  | .shr h rd rs1 rs2 => some (h, semShr d h rd rs1 rs2)
  | .sra h rd rs1 rs2 => some (h, semSra d h rd rs1 rs2)
  | .min h rd rs1 rs2 => some (h, semMin d h rd rs1 rs2)
  | .max h rd rs1 rs2 => some (h, semMax d h rd rs1 rs2)
  | .minu h rd rs1 rs2 => some (h, semMinu d h rd rs1 rs2)
  | .maxu h rd rs1 rs2 => some (h, semMaxu d h rd rs1 rs2)
  | .abs h rd rs1 => some (h, semAbs d h rd rs1)
  | .clz h rd rs1 => some (h, semClz d h rd rs1)
  | .cmpeq h pd rs1 rs2 => some (h, semCmpeq d h pd rs1 rs2)
  | .cmpne h pd rs1 rs2 => some (h, semCmpne d h pd rs1 rs2)
  | .cmplt h pd rs1 rs2 => some (h, semCmplt d h pd rs1 rs2)
  | .cmpltu h pd rs1 rs2 => some (h, semCmpltu d h pd rs1 rs2)
  | .cmple h pd rs1 rs2 => some (h, semCmple d h pd rs1 rs2)
  | .cmpleu h pd rs1 rs2 => some (h, semCmpleu d h pd rs1 rs2)
  | .addi h rd rs1 imm => some (h, semAddi d h rd rs1 imm)
  | .andi h rd rs1 imm => some (h, semAndi d h rd rs1 imm)
  | .ori h rd rs1 imm => some (h, semOri d h rd rs1 imm)
  | .xori h rd rs1 imm => some (h, semXori d h rd rs1 imm)
  | .shli h rd rs1 sh => some (h, semShli d h rd rs1 sh)
  | .shri h rd rs1 sh => some (h, semShri d h rd rs1 sh)
  | .srai h rd rs1 sh => some (h, semSrai d h rd rs1 sh)
  | .cmpi h cond pd rs1 imm => some (h, semCmpi d h cond pd rs1 imm)
  | .movi h rd hi imm => some (h, semMovi d h rd hi imm)
  | .mul h rd rs1 rs2 => some (h, semMul d h rd rs1 rs2)
  | .mulh h rd rs1 rs2 => some (h, semMulh d h rd rs1 rs2)
  | .mulhu h rd rs1 rs2 => some (h, semMulhu d h rd rs1 rs2)
  | .macaHh h ad rs1 rs2 => some (h, semMacaHh d h ad rs1 rs2)
  | .msuaHh h ad rs1 rs2 => some (h, semMsuaHh d h ad rs1 rs2)
  | .macaB4 h ad rs1 rs2 => some (h, semMacaB4 d h ad rs1 rs2)
  | .aclr h ad => some (h, semAclr d h ad)
  | .amovg h ad rs1 => some (h, semAmovg d h ad rs1)
  | .anarrow h rd as sh => some (h, semAnarrow d h rd as sh)
  | .ahi h rd as => some (h, semAhi d h rd as)
  | .maxi h rd rs1 rs2 => some (h, semMaxi d h rd rs1 rs2)
  | .mini h rd rs1 rs2 => some (h, semMini d h rd rs1 rs2)
  | .maxiu h rd rs1 rs2 => some (h, semMaxiu d h rd rs1 rs2)
  | .miniu h rd rs1 rs2 => some (h, semMiniu d h rd rs1 rs2)
  | .ld h rd rb m => some (h, semLd d h rd rb m)
  | .st h rd rb m => some (h, semSt d h rd rb m)
  | .br h off => some (h, semBr d h off)
  | .call h off => some (h, semCall d h off)
  | .jr h rs1 => some (h, semJr d h rs1)
  | .jalr h rd rs1 => some (h, semJalr d h rd rs1)
  | .loop h len1 r cnt => some (h, semLoop d h len1 r cnt)
  | .loopS h stg len1 r cnt => some (h, semLoopS d h stg len1 r cnt)
  | .rpt h r cnt => some (h, semRpt d h r cnt)
  | .nop h => some (h, semNop d h)
  | .fenceW h => some (h, semFenceW d h)
  | .clean h rs1 rs2 => some (h, semClean d h rs1 rs2)
  | .inval h rs1 rs2 => some (h, semInval d h rs1 rs2)
  | .flush h rs1 rs2 => some (h, semFlush d h rs1 rs2)
  | .cleanAll h => some (h, semCleanAll d h)
  | .flushAll h => some (h, semFlushAll d h)
  | .mfc h rd csr => some (h, semMfc sp d h rd csr)
  | .mtc h rs csr => some (h, semMtc d h rs csr)
  | .trap h code => some (h, semTrap d h code)
  | .eret h => some (h, semEret d h)
  | .wfi h => some (h, semWfi d h)
  | .pclr h pd => some (h, semPclr d h pd)
  | .submit h rd rs1 => some (h, semSubmit d h rd rs1)
  | .submitT h rd rs1 pd => some (h, semSubmitT d h rd rs1 pd)
  | .cancel h rd rs1 => some (h, semCancel d h rd rs1)
  | .wait h => some (h, semWait d h)
  | .done h rs1 => some (h, semDone d h rs1)
  | _ => semVecOf sp d i

/-- The header of an instruction of a core. -/
def headOf (i : Instr) : Option Hd :=
  match i with
  | .add h _ _ _ => some h
  | .sub h _ _ _ => some h
  | .and h _ _ _ => some h
  | .or h _ _ _ => some h
  | .xor h _ _ _ => some h
  | .shl h _ _ _ => some h
  | .shr h _ _ _ => some h
  | .sra h _ _ _ => some h
  | .min h _ _ _ => some h
  | .max h _ _ _ => some h
  | .minu h _ _ _ => some h
  | .maxu h _ _ _ => some h
  | .abs h _ _ => some h
  | .clz h _ _ => some h
  | .cmpeq h _ _ _ => some h
  | .cmpne h _ _ _ => some h
  | .cmplt h _ _ _ => some h
  | .cmpltu h _ _ _ => some h
  | .cmple h _ _ _ => some h
  | .cmpleu h _ _ _ => some h
  | .addi h _ _ _ => some h
  | .andi h _ _ _ => some h
  | .ori h _ _ _ => some h
  | .xori h _ _ _ => some h
  | .shli h _ _ _ => some h
  | .shri h _ _ _ => some h
  | .srai h _ _ _ => some h
  | .cmpi h _ _ _ _ => some h
  | .movi h _ _ _ => some h
  | .mul h _ _ _ => some h
  | .mulh h _ _ _ => some h
  | .mulhu h _ _ _ => some h
  | .macaHh h _ _ _ => some h
  | .msuaHh h _ _ _ => some h
  | .macaB4 h _ _ _ => some h
  | .aclr h _ => some h
  | .amovg h _ _ => some h
  | .anarrow h _ _ _ => some h
  | .ahi h _ _ => some h
  | .maxi h _ _ _ => some h
  | .mini h _ _ _ => some h
  | .maxiu h _ _ _ => some h
  | .miniu h _ _ _ => some h
  | .ld h _ _ _ => some h
  | .st h _ _ _ => some h
  | .br h _ => some h
  | .call h _ => some h
  | .jr h _ => some h
  | .jalr h _ _ => some h
  | .loop h _ _ _ => some h
  | .loopS h _ _ _ _ => some h
  | .rpt h _ _ => some h
  | .nop h => some h
  | .fenceW h => some h
  | .clean h _ _ => some h
  | .inval h _ _ => some h
  | .flush h _ _ => some h
  | .cleanAll h => some h
  | .flushAll h => some h
  | .mfc h _ _ => some h
  | .mtc h _ _ => some h
  | .trap h _ => some h
  | .eret h => some h
  | .wfi h => some h
  | .pclr h _ => some h
  | .submit h _ _ => some h
  | .submitT h _ _ _ => some h
  | .cancel h _ _ => some h
  | .wait h => some h
  | .done h _ => some h
  | .vadd h _ _ _ _ => some h
  | .vsub h _ _ _ _ => some h
  | .vand h _ _ _ _ => some h
  | .vor h _ _ _ _ => some h
  | .vxor h _ _ _ _ => some h
  | .vshl h _ _ _ _ => some h
  | .vshr h _ _ _ _ => some h
  | .vsra h _ _ _ _ => some h
  | .vshli h _ _ _ _ => some h
  | .vshri h _ _ _ _ => some h
  | .vsrai h _ _ _ _ => some h
  | .vmin h _ _ _ _ => some h
  | .vmax h _ _ _ _ => some h
  | .vabs h _ _ _ => some h
  | .vcmpeq h _ _ _ _ => some h
  | .vcmpne h _ _ _ _ => some h
  | .vcmplt h _ _ _ _ => some h
  | .vcmple h _ _ _ _ => some h
  | .vmul h _ _ _ _ => some h
  | .vmulw h _ _ _ _ _ => some h
  | .vcmulw h _ _ _ _ _ _ => some h
  | .dot4 h _ _ _ _ => some h
  | .dot4A h _ _ _ _ => some h
  | .dot2 h _ _ _ _ => some h
  | .dot2A h _ _ _ _ => some h
  | .cdot h _ _ _ _ _ _ _ => some h
  | .vdabX h _ _ _ _ _ => some h
  | .vqadd h _ _ _ _ => some h
  | .vqsub h _ _ _ _ => some h
  | .vqmul h _ _ _ _ => some h
  | .vqnarrow h _ _ _ _ _ => some h
  | .vmov h _ _ _ => some h
  | .vsel h _ _ _ _ => some h
  | .vperm h _ _ _ _ => some h
  | .vbcast h _ _ _ => some h
  | .vext h _ _ _ _ => some h
  | .vsetvl h _ _ _ => some h
  | .pand h _ _ _ => some h
  | .por h _ _ _ => some h
  | .pxor h _ _ _ => some h
  | .pandn h _ _ _ => some h
  | .vmaxi h _ _ _ => some h
  | .vmini h _ _ _ => some h
  | .vmaxiC h _ _ _ _ => some h
  | .vminiC h _ _ _ _ => some h
  | .vdabN h _ _ _ _ => some h
  | .vfadd h _ _ _ _ => some h
  | .vfsub h _ _ _ _ => some h
  | .vfmul h _ _ _ _ => some h
  | .vfma h _ _ _ _ => some h
  | .vfmin h _ _ _ _ => some h
  | .vfmax h _ _ _ _ => some h
  | .vfcmpeq h _ _ _ _ => some h
  | .vfcmplt h _ _ _ _ => some h
  | .vfcvtFi h _ _ _ => some h
  | .vfcvtIf h _ _ _ => some h
  | .vfcvtW h _ _ _ => some h
  | .vfcvtN h _ _ _ => some h
  | .scalarForms h _ _ _ _ _ => some h
  | .fmvFg h _ _ _ => some h
  | .fmvGf h _ _ _ => some h
  | .vld h _ _ _ => some h
  | .vst h _ _ _ => some h
  | .vlds h _ _ _ _ _ => some h
  | .vsts h _ _ _ _ _ => some h
  | .vldx h _ _ _ _ _ _ => some h
  | .vstx h _ _ _ _ _ _ => some h
  | .rcp h _ _ => some h
  | .rsqrt h _ _ => some h
  | .atan2 h _ _ _ => some h
  | .cdiv h _ _ _ => some h
  | .log2 h _ _ => some h
  | .exp2 h _ _ => some h
  | .chol h _ _ _ _ => some h
  | .inv h _ _ _ _ => some h
  | .sort h _ _ _ _ => some h
  | .topk h _ _ _ _ => some h
  | .search h _ _ _ _ => some h
  | _ => none

end Sys2Proof.Machine
end

