-- ==== Sys2Proof/Machine/Issue.lean ====
section
/-! DEFINITION. The issue of bundles: their checks, stalls, memory accesses and effects; exceptions, interrupts and
returns (R116, R117, R125 to R157, R173, R192 to R199, R206 to R215, R285, R296, R297). -/

namespace Sys2Proof.Machine

/-! ## Results in flight (R125, R126) -/

/-- Write one result. -/
def Dev.applyWr (d : Dev) (k : Nat) (x : RegWr) : Dev :=
  match x with
  | .g r v => d.mapCore k fun c => { c with g := SMap.set c.g r.toNat v 0 }
  | .a r v => d.mapCore k fun c => { c with a := SMap.set c.a r.toNat v 0 }
  | .p r v => d.mapCore k fun c => { c with p := SMap.set c.p r.toNat v 0 }
  | .v r ls v => d.mapCore k fun c => { c with v := SMap.set c.v r.toNat (mergeLanes ls (c.rv r) v) 0 }
  | .vl n => d.setF (F.VEC_VL_VL k) n

/-- The end of one bundle: every result is one bundle nearer, and those that are due are written in issue order. -/
def Dev.landStep (d : Dev) (k : Nat) : Dev :=
  let l := (d.core k).inflight.map fun x => { x with rem := x.rem - 1 }
  ((l.filter fun x => x.rem == 0).foldl (fun d x => d.applyWr k x.wr) d).mapCore k fun c =>
    { c with inflight := l.filter fun x => x.rem != 0 }

/-- Every result in flight is written; no latency exceeds the fuel. -/
def Dev.landAll (d : Dev) (k : Nat) (fuel : Nat) : Dev :=
  match fuel with
  | 0 => d
  | n + 1 => (d.landStep k).landAll k n

/-! ## Exceptions, interrupts and returns (R144 to R151) -/

/-- What taking an exception or interrupt writes to the core's registers (R146, R148): level, IE, delay slots, branch target
and loop state are saved; M level, IE clear, no loop; pc, cause and value. -/
def Dev.trapSave (d : Dev) (k epc : Nat) (int : Bool) (code : Nat) (tval : Option Nat) (eob : Bool) (ds : Nat)
    (target : Option (BitVec 16)) : Dev :=
  let d1 := (((d.setF (F.CORE_STATUS_PPRIV k) (d.f (F.CORE_STATUS_PRIV k))).setF (F.CORE_STATUS_PIE k)
    (d.f (F.CORE_STATUS_IE k))).setF (F.CORE_STATUS_PRIV k) 3).setF (F.CORE_STATUS_IE k) 0
  let d2 := (((d1.setF (F.CORE_ESTATE_DS k) ds).setF (F.CORE_ESTATE_LA k) (d.f (F.CORE_STATUS_LA k))).setF
    (F.CORE_ESTATE_RA k) (d.f (F.CORE_STATUS_RA k))).setF (F.CORE_ESTATE_EOB k) (b2n eob)
  let d3 := ((match target with
    | some t => d2.setF (F.CORE_EBT_EBT k) (t.toNat / 4)
    | none => d2).setF (F.CORE_STATUS_LA k) 0).setF (F.CORE_STATUS_RA k) 0
  let d4 := ((d3.setF (F.CORE_EPC_EPC k) (epc / 4)).setF (F.CORE_CAUSE_CODE k) code).setF (F.CORE_CAUSE_INT k) (b2n int)
  match tval with
    | some v => d4.setF (F.CORE_TVAL_TVAL k) v
    | none => d4

/-- Taking an exception or interrupt (R146): results in flight are written, the state is saved, and the core fetches from
the trap base. `eob` marks the end of a bundle. -/
def Dev.trapEnter (d : Dev) (k epc : Nat) (int : Bool) (code : Nat) (tval : Option Nat) (eob : Bool) : Dev :=
  let d := d.landAll k 8
  let c := d.core k
  (d.trapSave k epc int code tval eob c.ds c.target).mapCore k fun c =>
    { c with pc := BitVec.ofNat 16 (d.f (F.CORE_TVEC_BASE k) * 64 + (if int then 0x40 else 0)), ds := 0, target := none
             bundle := [], stall := .none, got := [], fills := [], emitted := 0, eslDone := none, mode := .run }

/-- ERET (R147). -/
def Dev.trapReturn (d : Dev) (k : Nat) : Dev :=
  let ds := d.f (F.CORE_ESTATE_DS k)
  ((((d.setF (F.CORE_STATUS_PRIV k) (d.f (F.CORE_STATUS_PPRIV k))).setF (F.CORE_STATUS_IE k)
    (d.f (F.CORE_STATUS_PIE k))).setF (F.CORE_STATUS_LA k) (d.f (F.CORE_ESTATE_LA k))).setF (F.CORE_STATUS_RA k)
    (d.f (F.CORE_ESTATE_RA k))).mapCore k fun c =>
      { c with pc := BitVec.ofNat 16 (d.f (F.CORE_EPC_EPC k) * 4), ds := ds
               target := if ds = 0 then none else some (BitVec.ofNat 16 (d.f (F.CORE_EBT_EBT k) * 4)) }

/-- The enabled pending lines of a core (R149). -/
def Dev.linesOn (d : Dev) (k : Nat) : Nat :=
  Nat.land (d.pendMask k) (d.f (F.CORE_IEN_IEN k 0) + d.f (F.CORE_IEN_IEN k 1) * 2 ^ 32)

/-- The lowest set bit of a mask of 64 lines. -/
def lowestLine (m : Nat) : Nat := ((List.range 64).find? fun i => bitAt m i).getD 0

/-! ## Loops (R141 to R143) -/

/-- The loop count has run out: the loop is left. -/
def Dev.loopEnd (d : Dev) (k : Nat) : Dev :=
  if d.fb (F.CORE_STATUS_LA k) ∧ d.f (F.CORE_LC_LC k) = 0 then d.setF (F.CORE_STATUS_LA k) 0 else d
/-- The repeat count has run out. -/
def Dev.rptEnd (d : Dev) (k : Nat) : Dev :=
  if d.fb (F.CORE_STATUS_RA k) ∧ d.f (F.CORE_RC_RC k) = 0 then d.setF (F.CORE_STATUS_RA k) 0 else d

/-- Before an iteration of LOOP.S: the bases rotate, and logical p4 says whether a first stage starts. -/
def Dev.rotate (d : Dev) (k stg : Nat) : Dev :=
  let rp := (d.f (F.CORE_LOOP_BASE_RP k) + 3) % 4
  let d1 := (d.setF (F.CORE_LOOP_BASE_RV k) ((d.f (F.CORE_LOOP_BASE_RV k) + 15) % 16)).setF (F.CORE_LOOP_BASE_RP k) rp
  d1.applyWr k (.p (physP rp 4) (if stg < d.f (F.CORE_LC_LC k) then BitVec.allOnes 64 else 0))

/-- What the core keeps of the active loop. -/
def Dev.loopInfo (d : Dev) (k : Nat) : LoopInfo :=
  (SMap.get (d.core k).loops (d.f (F.CORE_LS_LS k)) none).getD { tail := 0, stg := 0 }

/-- Set the pc. -/
def Dev.setPc (d : Dev) (k n : Nat) : Dev := d.mapCore k fun c => { c with pc := BitVec.ofNat 16 n }

/-- The target of a taken branch, after its delay slots: outside the loop body, the loop ends. -/
def Dev.jump (d : Dev) (k t : Nat) : Dev :=
  let d1 := (d.setPc k t).mapCore k fun c => { c with ds := 0, target := none }
  let out := decide (t / 4 < d.f (F.CORE_LS_LS k)) || decide (d.f (F.CORE_LE_LE k) < t / 4)
  let d2 := if d.fb (F.CORE_STATUS_LA k) && out then (d1.setF (F.CORE_STATUS_LA k) 0).setF (F.CORE_LC_LC k) 0 else d1
  d2.setF (F.CORE_STATUS_RA k) 0

/-- Where execution goes after a bundle that neither branches nor starts a loop. -/
def Dev.goOn (d : Dev) (k next : Nat) : Dev :=
  let c := d.core k
  if c.ds = 1 then d.jump k ((c.target.map (·.toNat)).getD next)
  else
    let d := d.mapCore k fun c => { c with ds := c.ds - 1 }
    if d.fb (F.CORE_STATUS_RA k) then
      let rc := d.f (F.CORE_RC_RC k) - 1
      (d.setF (F.CORE_RC_RC k) rc).setPc k (if rc = 0 then next else c.pc.toNat)
    else if d.fb (F.CORE_STATUS_LA k) ∧ c.pc.toNat / 4 = d.f (F.CORE_LE_LE k) then
      let lc := d.f (F.CORE_LC_LC k) - 1
      let d1 := d.setF (F.CORE_LC_LC k) lc
      if lc = 0 then d1.setPc k next
      else
        let d2 := d1.setPc k (d.f (F.CORE_LS_LS k) * 4)
        let i := d.loopInfo k
        if i.stg = 0 then d2 else d2.rotate k i.stg
    else d.setPc k next

/-- The first effect of a bundle that says where execution goes. -/
def goesOf (l : List Eff) : Option Eff := l.find? fun e =>
  match e with
  | .branch (some _) | .skip _ | .loop _ _ _ | .rpt _ | .eret => true
  | _ => false

/-- Where execution goes after a bundle. -/
def Dev.advance (d : Dev) (k next : Nat) (l : List Eff) : Dev :=
  match goesOf l with
  | some (.branch (some b)) => (d.setPc k next).mapCore k fun c => { c with ds := 3, target := some b }
  | some (.skip b) => d.setPc k b
  | some (.loop n le i) =>
    let d1 := (((d.setF (F.CORE_LC_LC k) n).setF (F.CORE_LS_LS k) (next / 4)).setF (F.CORE_LE_LE k) (le % 2 ^ 16 / 4)).setF
      (F.CORE_STATUS_LA k) 1
    let d2 := (d1.mapCore k fun c => { c with loops := SMap.set c.loops (next / 4) (some i) none }).setPc k next
    if i.stg = 0 then d2 else d2.rotate k i.stg
  | some (.rpt n) => ((d.setF (F.CORE_RC_RC k) n).setF (F.CORE_STATUS_RA k) 1).setPc k next
  | some .eret => d.trapReturn k
  | _ => d.goOn k next

/-! ## Memory of a core (R115, R132, R153 to R156) -/

/-- The index and data of the L1 line that holds a device address. -/
def Core.lineAt (c : Core) (a : Nat) : Option (Nat × Line) :=
  (List.range 4).findSome? fun i =>
    match SMap.get c.l1 (a / 64 % 128 * 4 + i) none with
    | some l => if l.addr = a / 64 * 64 then some (a / 64 % 128 * 4 + i, l) else none
    | none => none

/-- Bytes with the part of a later write over them. -/
def laid (a : Nat) (l : List Byte) (x : Nat × List Byte) : List Byte :=
  l.mapIdx fun i b => if x.1 ≤ a + i ∧ a + i < x.1 + x.2.length then x.2.getD (a + i - x.1) b else b

/-- Does a write of a core overlap `n` bytes from `a`? -/
def WbEnt.meets (e : WbEnt) (a n : Nat) : Bool := decide (e.addr < a + n) && decide (a < e.addr + e.data.length)

/-- Must a load wait for writes of the core that are under way? Port A serves a core's queue in order, a register load
follows the register stores, and any other load the writes of the bytes it reads (R115, R132; log entry 53). -/
def Core.waits (c : Core) (e : Elem) : Bool :=
  match e.path with
  | .scratch => false
  | .portA => !c.portA.isEmpty
  | .regs => c.wb.any fun x => inRegSpace x.addr
  | .cached => c.wb.any fun x => x.meets (e.da / 64 * 64) 64
  | .uncached => c.wb.any fun x => x.meets e.da e.size

/-- The data of the line that holds a device address: in the L1, or fetched by the bundle; none for one that was refused
to it. -/
def Core.lineFor (c : Core) (a : Nat) : Option (Option (List Byte)) :=
  match c.lineAt a with
  | some x => some (some x.2.data)
  | none => SMap.get (c.fills.map fun e => (e.1, some e.2)) (a / 64) none

/-- Can an access be served without leaving the core: by its scratch, or a line that it holds? -/
def Core.near (c : Core) (e : Elem) : Bool :=
  match e.path with
  | .scratch => true
  | .cached => (c.lineFor e.da).isSome
  | _ => false

/-- Keep a line that the bundle has fetched. -/
def Dev.keepLine (d : Dev) (k a : Nat) (l : Option (List Byte)) : Dev :=
  d.mapCore k fun c => { c with fills := SMap.put c.fills (a / 64) l }

/-- The bytes of one access of a load; a refused one reads as zero (R194). A line that misses the L1 is fetched. `st` is
what the bundle stores before the load, which its scratch and lines do not show yet (R193). -/
def fetchElem (k lvl : Nat) (e : Elem) (st : List (Nat × List Byte)) (ext : List Byte) (w : Whole) : AccOut × Whole :=
  let c := w.2.core k
  let zero := List.replicate e.size (0 : Byte)
  let lay := fun (l : List Byte) => st.foldl (laid e.da) l
  let part := fun (l : List Byte) => lay ((l.drop (e.da % 64)).take e.size)
  let ok := fun (r : AccOut × Whole) => if r.1 = .refused then (.ok zero, r.2) else r
  if c.waits e then (.wait, w)
  else
    match e.path with
    | .scratch =>
      let r := w.2.memAcc e.da e.size false []
      (match r.1 with
      | .ok l => (.ok (lay l), (w.1, r.2))
      | o => (o, (w.1, r.2)))
    | .cached =>
      match c.lineFor e.da with
      | some (some l) => (.ok (part l), w)
      | _ =>
        let r := busRead (coreReq k lvl) (e.da / 64 * 64) 64 ext w
        (match r.1 with
        | .ok l => (.ok (part l), (r.2.1, r.2.2.keepLine k e.da (some l)))
        | _ => ok r)
    | _ => ok (busRead (coreReq k lvl) e.da e.size ext w)

/-- How many of the bytes that the host's memory returns an access takes. -/
def Core.extOf (c : Core) (e : Elem) : Nat := if c.near e then 0 else if e.path = .cached then 64 else e.size

/-- The accesses of a bundle's loads in order, from number `i`: those in register space, or the others. Each that has not
been made is made, and its bytes are kept; the first that must wait stops the rest, and so does an uncorrectable word. -/
def fetchElems (k lvl : Nat) (regs : Bool) (l : List (Elem × List (Nat × List Byte))) (i : Nat) (ext : List Byte)
    (w : Whole) : Bool × Whole :=
  match l with
  | [] => (false, w)
  | (e, st) :: t =>
    if ((e.path == .regs) != regs) || ((w.2.core k).got.any fun x => x.1 == i) then fetchElems k lvl regs t (i + 1) ext w
    else
      let n := (w.2.core k).extOf e
      let r := fetchElem k lvl e st ext w
      let keep := fun (b : Option (List Byte)) =>
        (r.2.1, r.2.2.mapCore k fun c => { c with got := SMap.put c.got i b })
      match r.1 with
      | .wait => (true, r.2)
      | .ok b => fetchElems k lvl regs t (i + 1) (ext.drop n) (keep (some b))
      | _ => (false, keep none)

/-- Fetch the lines of the accesses of a store that miss the L1 (R153); one that cannot be had is stored past the cache. -/
def fetchLines (k lvl : Nat) (l : List Elem) (ext : List Byte) (w : Whole) : Bool × Whole :=
  match l with
  | [] => (false, w)
  | e :: t =>
    if e.path ≠ .cached ∨ ((w.2.core k).lineFor e.da).isSome then fetchLines k lvl t ext w
    else if (w.2.core k).waits e then (true, w)
    else
      let r := busRead (coreReq k lvl) (e.da / 64 * 64) 64 ext w
      match r.1 with
      | .wait => (true, r.2)
      | .ok b => fetchLines k lvl t (ext.drop 64) (r.2.1, r.2.2.keepLine k e.da (some b))
      | _ => fetchLines k lvl t (ext.drop 64) (r.2.1, r.2.2.keepLine k e.da none)

/-- A write joins the write buffer, if it has room: 8 entries (R153). -/
def emit (k lvl a : Nat) (data : List Byte) (d : Dev) : Option Dev :=
  if (d.core k).wb.length < 8 then
    some (d.mapCore k fun c =>
      { c with wb := c.wb ++ [{ addr := a, data := data, lvl := lvl, late := d.drainAsked (coreUid k) 0 a }] })
  else none

/-- Place a fetched line: in a free way of its set, else in any, whose line is written back if it is dirty and the write
buffer has room. Which way is open (log entry 46). -/
def fill (k lvl ix : Nat) (data : List Byte) (d : Dev) : Option Dev :=
  let set := ix % 128 * 4
  let put := fun (d : Dev) (i : Nat) =>
    d.mapCore k fun c => { c with l1 := SMap.set c.l1 (set + i) (some { addr := ix * 64, dirty := false, data := data }) none }
  match (List.range 4).find? fun i => (SMap.get (d.core k).l1 (set + i) none).isNone with
  | some i => some (put d i)
  | none =>
    let r := d.draw 4
    match SMap.get (d.core k).l1 (set + r.1) none with
    | some old => if old.dirty then (emit k lvl old.addr old.data r.2).map (put · r.1) else some (put r.2 r.1)
    | none => some (put r.2 r.1)

/-- Place the lines that a bundle has fetched; false where one must wait for room. -/
def fillAll (k lvl : Nat) (l : SMap (Option (List Byte))) (d : Dev) : Bool × Dev :=
  match l with
  | [] => (true, d)
  | (ix, b) :: t =>
    let drop := fun (d : Dev) => d.mapCore k fun c => { c with fills := t }
    match b with
    | none => fillAll k lvl t d
    | some b =>
      match fill k lvl ix b d with
      | some d1 => fillAll k lvl t (drop d1)
      | none => (false, d)

/-- One access of a store: the scratch and the L1 take it at once, the port A queue and the write buffer where they have
room (R115, R132). -/
def storeElem (k lvl : Nat) (e : Elem) (d : Dev) : Option Dev :=
  match e.path with
  | .scratch => some (d.memPut e.da e.data).2
  | .portA =>
    if (d.core k).portA.length < 4 then
      some (d.mapCore k fun c =>
        { c with portA := c.portA ++ [{ addr := e.da, data := e.data, lvl := lvl, late := d.drainAsked (coreUid k) 0 e.da }] })
    else none
  | .cached =>
    match (d.core k).lineAt e.da with
    | some (i, ln) =>
      some (d.mapCore k fun c =>
        { c with l1 := SMap.set c.l1 i (some { ln with dirty := true, data := laid ln.addr ln.data (e.da, e.data) }) none })
    | none => emit k lvl e.da e.data d
  | _ => emit k lvl e.da e.data d

/-- The accesses of a store in order; false where one must wait for room. Those made are counted. -/
def storeAll (k lvl : Nat) (l : List Elem) (d : Dev) : Bool × Dev :=
  match l with
  | [] => (true, d)
  | e :: t =>
    match storeElem k lvl e d with
    | some d1 => storeAll k lvl t (d1.mapCore k fun c => { c with emitted := c.emitted + 1 })
    | none => (false, d)

/-- CLEAN, INVAL and FLUSH over the lines that `hit` names (R154); false where a line must wait for room. -/
def cacheOp (k lvl : Nat) (clean inval : Bool) (hit : Nat → Bool) (l : SMap (Option Line)) (d : Dev) : Bool × Dev :=
  match l with
  | [] => (true, d)
  | x :: t =>
    match x.2 with
    | none => cacheOp k lvl clean inval hit t d
    | some ln =>
      if hit ln.addr then
        let put := fun (d : Dev) => d.mapCore k fun c =>
          { c with l1 := SMap.set c.l1 x.1 (if inval then none else some { ln with dirty := false }) none }
        match (if clean && ln.dirty then emit k lvl ln.addr ln.data d else some d) with
        | some d1 => cacheOp k lvl clean inval hit t (put d1)
        | none => (false, d)
      else cacheOp k lvl clean inval hit t d

/-! ## Effects of a bundle -/

/-- What is collected while a bundle takes effect: results to put in flight. -/
structure Fx where
  w : Whole
  wr : List InFlight

/-- A result put in flight. -/
def inFlight (x : RegWr) (lat : Nat) (acc : Bool) : InFlight := { wr := x, rem := lat, acc := acc, fresh := true }

/-- The register writes of a load. -/
def loadWr (dst : LdDst) (es : List Elem) (bs : List (List Byte)) : List RegWr :=
  let all := bs.flatten
  match dst with
  | .g r size s => [.g r (if s then BitVec.ofInt 32 (sx (8 * size) (ofLeBytes all)) else BitVec.ofNat 32 (ofLeBytes all))]
  | .pair r => [.g r (BitVec.ofNat 32 (ofLeBytes (all.take 4))), .g (Reg.next r) (BitVec.ofNat 32 (ofLeBytes (all.drop 4)))]
  | .v r =>
    let l := es.zip bs
    [.v r (BitVec.ofNat 64 (l.foldl (fun m x => Nat.lor m ((2 ^ x.1.size - 1) * 2 ^ x.1.lane)) 0))
      (BitVec.ofNat 512 (l.foldl (fun m x => Nat.lor m (ofLeBytes x.2 * 2 ^ (8 * x.1.lane))) 0))]

/-- A try of a core found a CS unit busy: CSB, and the counter of such tries (R214). -/
def Dev.csBusy (d : Dev) (k unit : Nat) : Dev :=
  (d.setCsb k true).countF (if unit = 0 then F.CP_CSBUSY_BUSY0 k else F.CP_CSBUSY_BUSY1 k) 1

/-- The place of a core of the cluster in the order in which a unit that last accepted `prev` accepts tries of one cycle. -/
def csPlace (prev k : Nat) : Nat := (k + 3 - prev) % 4

/-- A try at a CS unit: is it accepted? Of several in one cycle, the unit accepts that of the first core after the one
it last accepted, so that an earlier try of this cycle may turn out to have found the unit busy (R214, R215; log entry
55). -/
def csTry (k unit : Nat) (op : CsOp) (pd : PReg) (now : Nat) (d : Dev) : Bool × Dev :=
  let c := coreCluster k
  let u := d.csUnit c unit
  let take := fun (d : Dev) (prev : Nat) =>
    (true, (d.setCs c unit { op := some op, last := k % 4, tie := some { now := now, prev := prev, pd := pd } }).setCsb k false)
  match u.op, u.tie with
  | none, _ => take d u.last
  | some o, some t =>
    if t.now = now ∧ csPlace t.prev (k % 4) < csPlace t.prev (o.core.val % 4) then
      take ((d.applyWr o.core.val (.p t.pd (BitVec.allOnes 64))).csBusy o.core.val unit) t.prev
    else (false, d.csBusy k unit)
  | _, _ => (false, d.csBusy k unit)

/-- The cycle of a core's last try is over: it issues its next bundle. -/
def Dev.csSeen (d : Dev) (k : Nat) : Dev :=
  (List.range 2).foldl (fun d u =>
    let x := d.csUnit (coreCluster k) u
    if (x.op.map (·.core.val)) = some k ∧ x.tie.isSome then d.setCs (coreCluster k) u { x with tie := none } else d) d

/-- One effect in slot order: results, and tries at a shared coprocessor. A load's accesses hold their bytes. -/
def fxStep (k : Nat) (x : Fx) (e : Eff) : Fx :=
  match e with
  | .wr r lat acc => { x with wr := x.wr ++ [inFlight r lat acc] }
  | .ld dst es lat => { x with wr := x.wr ++ (loadWr dst es (es.map (·.data))).map fun r => inFlight r lat false }
  | .cs unit op pd =>
    let r := csTry k unit op pd x.w.1.now x.w.2
    { x with w := (x.w.1, r.2), wr := x.wr ++ [inFlight (.p pd (if r.1 then 0 else BitVec.allOnes 64)) 1 false] }
  | _ => x

/-- What takes effect once the bundle's results are in flight: control registers, then flags. -/
def fxLate (k lvl : Nat) (w : Whole) (e : Eff) : Whole :=
  match e with
  | .mtc a v =>
    let k' := a / 0x1000
    let o := a % 0x1000
    (w.1, if o = 4 then (if bitAt v.toNat 0 then w.2.coreStart k' else w.2) else csrWrite w.2 (levelOf lvl) k' o v)
  | .mfc a => (w.1, csrAfterRead w.1 w.2 (a / 0x1000) (a % 0x1000))
  | .vstart n => (w.1, w.2.setF (F.VEC_VSTART_VSTART k) n)
  | .cx res n => (w.1, { w.2.mapCore k fun c => { c with cx := c.cx ++ [{ res := res }] } with free := w.2.free + n })
  | .wfi => (w.1, w.2.mapCore k fun c => { c with mode := .wfi })
  | _ => w

/-- The sticky flags that a bundle sets. -/
def fxFlag (k : Nat) (d : Dev) (e : Eff) : Dev :=
  match e with
  | .aov _ => d.setAov k
  | .vov => d.setVov k
  | .qsat => d.setQsat k
  | _ => d

/-- An Easel instruction at the end of its stall: the results it writes, or that its bundle stays stalled. -/
def eslRun (k : Nat) (op : EslOp) (first : Bool) (sp : Spine) (d : Dev) : Option (List InFlight) × Dev :=
  let uid := coreUid k
  let sub := fun (slot : Word) =>
    d.submit sp (slot.toNat % 65536) uid (decide (slot.toNat < 65536) && d.coreSlot (slot.toNat % 65536)) first
  let st := fun (rd : Reg) (n : Nat) => inFlight (.g rd (BitVec.ofNat 32 n)) 1 false
  match op with
  | .submit slot rd => let r := sub slot; (if r.1 % 256 = 1 then none else some [st rd r.1], r.2)
  | .submitT slot rd pd =>
    let r := sub slot
    (some [st rd r.1, inFlight (.p pd (predOf (r.1 != 0))) 1 false], r.2)
  | .cancel id rd => let r := d.cancel sp id.toNat uid; (some [st rd r.1], r.2)
  | .wait => (some [], d)
  | .done status =>
    let d1 := match (d.core k).task with
      | some s => d.signalEnd s (if status.toNat % 16 = 0 then 0 else 1)
      | none => d
    (some [], d1.mapCore k fun c => { c with task := none, kill := false })

/-- The Easel instruction of a bundle. -/
def eslOf (l : List Eff) : Option EslOp := l.findSome? fun e =>
  match e with
  | .esl op => some op
  | _ => none

/-! ## Checks of a bundle -/

/-- The order of classes: at most two S, then at most one V, then at most one C (R116). -/
def classesOk (l : List Cls) : Bool :=
  l == (l.filter (· == .s)) ++ (l.filter (· == .v)) ++ (l.filter (· == .c))
    && decide ((l.filter (· == .s)).length ≤ 2) && decide ((l.filter (· == .v)).length ≤ 1)
    && decide ((l.filter (· == .c)).length ≤ 1)

/-- Do two instructions name one destination (R117)? -/
def destsClash (l : List (List DReg)) : Bool :=
  match l with
  | [] => false
  | x :: t => (t.any fun y => x.any fun r => y.contains r) || destsClash t

/-- Does a bundle raise ILLEGAL_BUNDLE (R116, R117, R130, R191)? -/
def bundleBad (l : List Sem) : Bool :=
  !classesOk (l.map (·.cls)) || decide (4 < l.length) || destsClash (l.map (·.dests))
    || decide (2 < (l.filter fun x => x.mem.isSome).length) || decide (1 < (l.filter fun x => x.mem == some true).length)
    || decide (1 < (l.filter fun x => x.vx).length)

/-- Does an instruction raise ILLEGAL_SEQUENCE (R140)? -/
def Dev.seqBad (d : Dev) (k : Nat) (x : Sem) : Bool :=
  let c := d.core k
  let la := d.fb (F.CORE_STATUS_LA k)
  let ra := d.fb (F.CORE_STATUS_RA k)
  let last3 := la && decide ((d.loopInfo k).tail ≤ c.pc.toNat) && decide (c.pc.toNat / 4 ≤ d.f (F.CORE_LE_LE k))
  match x.seq with
  | .none => false
  | .branch => c.ds != 0 || last3
  | .call => c.ds != 0 || la
  | .loop => c.ds != 0 || la || ra
  | .eret => c.ds != 0
  | .mtcStatus => la || ra

/-- The precise exception of one instruction. -/
def Dev.trapOf (d : Dev) (k : Nat) (x : Sem) : Option (Nat × Nat) :=
  if x.run = false then none else if d.seqBad k x then some (tIllegalSeq, x.word) else x.trap

/-- The first precise exception in slot order, with its place in the bundle. -/
def Dev.firstTrap (d : Dev) (k : Nat) (l : List Sem) (i : Nat) : Option (Nat × Nat × Nat) :=
  match l with
  | [] => none
  | x :: t =>
    match d.trapOf k x with
    | some (c, v) => some (i, c, v)
    | none => d.firstTrap k t (i + 1)

/-- What an exception later in its bundle leaves of a gather or scatter (R197, R199). -/
def standOf (x : Sem) : List Eff :=
  match x.gather with
  | some p => p.done ++ [.vstart p.at_]
  | none => []

/-- What acts of a bundle: the instructions that execute; of one that faults at place `i`, the progress of its gather or
scatter. -/
def actsOf (l : List Sem) (stop : Option Nat) : List Sem :=
  match stop with
  | none => l.filter (·.run)
  | some i => ((l.take (i + 1)).filter fun x => x.gather.isSome).map fun x => { x with eff := standOf x }

/-! ## The accesses of a bundle (R144, R193, R196 to R199) -/

/-- The accesses of a bundle's loads in order, each with what the bundle stores before it. -/
def loadAccs (l : List Eff) (st : List (Nat × List Byte)) : List (Elem × List (Nat × List Byte)) :=
  match l with
  | [] => []
  | e :: t =>
    match e with
    | .ld _ es _ => es.map (fun x => (x, st)) ++ loadAccs t st
    | .st es => loadAccs t (st ++ es.map fun x => (x.da, x.data))
    | _ => loadAccs t st

/-- Is an effect a store? -/
def Eff.isStore (e : Eff) : Bool :=
  match e with
  | .st _ => true
  | _ => false

/-- The accesses of a bundle's store. -/
def storeAccs (l : List Eff) : List Elem := l.flatMap fun e =>
  match e with
  | .st es => es
  | _ => []

/-- Must the store in S0 leave before the load in S1 is made, since the load could not see it otherwise (R193)? -/
def storeFirst (l : List Eff) : Bool :=
  (loadAccs l []).any fun x => x.2 != [] && (storeAccs l).any fun y =>
    y.path == x.1.path && (x.1.path == .regs || ((x.1.path == .portA || x.1.path == .uncached) &&
      decide (y.da < x.1.da + x.1.size) && decide (x.1.da < y.da + y.size)))

/-- Accesses with the bytes that they have brought. -/
def bring (got : SMap (Option (List Byte))) (i : Nat) (es : List Elem) : List Elem :=
  es.mapIdx fun j e => { e with data := (SMap.get got (i + j) none).getD [] }
/-- A load with these accesses. -/
def Eff.withElems (es : List Elem) (e : Eff) : Eff :=
  match e with
  | .ld dst _ lat => .ld dst es lat
  | e => e
/-- The accesses of an instruction's load. -/
def loadOf (x : Sem) : Option (LdDst × List Elem × Nat) := x.eff.findSome? fun e =>
  match e with
  | .ld dst es lat => some (dst, es, lat)
  | _ => none

/-- The address that DATA_ERROR reports for an access that met an uncorrectable word: the lowest element of it with a byte in
one; an element in a line of the L1 fails with the line (R148, R196). -/
def Dev.errAddr (d : Dev) (e : Elem) : Nat :=
  if e.path = .cached then e.ca
  else match d.firstUe e.da e.size with
    | some u => e.ca + (u - e.da) / e.unit * e.unit
    | none => e.ca

/-- The effects of a bundle with the bytes of its loads; or, where a load met an uncorrectable word, what stands and the
address of DATA_ERROR: the gathers and scatters before it, and of a gather the elements below (R144, R197, R199). -/
def resolve (d : Dev) (got : SMap (Option (List Byte))) (i : Nat) (acc stand : List Eff) (l : List Sem) :
    List Eff × Option Nat :=
  match l with
  | [] => (acc, none)
  | x :: t =>
    match loadOf x with
    | none => resolve d got i (acc ++ x.eff) (stand ++ standOf x) t
    | some (dst, es, lat) =>
      let es' := bring got i es
      match (List.range es.length).find? fun j => SMap.get got (i + j) (some []) == none with
      | some j =>
        let bad := es.getD j { ca := 0, da := 0, path := .scratch, size := 0, unit := 1, lane := 0, data := [] }
        (stand ++ (if x.gather.isSome then [.ld dst (es'.take j) lat, .vstart (bad.lane / bad.unit)] else []),
          some (d.errAddr bad))
      | none =>
        resolve d got (i + es.length) (acc ++ x.eff.map (Eff.withElems es')) (stand ++ (standOf x).map (Eff.withElems es')) t

/-! ## Stalls (R132, R155, R207) -/

/-- Does a bundle name a register that a coprocessor result is to write? -/
def scbHit (c : Core) (l : List Sem) : Bool :=
  let m := scbBits c.cx
  l.any fun x => (x.srcs.any fun r => bitAt m r.toNat) || x.dests.any fun y =>
    match y with
    | .g r => bitAt m r.toNat
    | _ => false

/-- Does a bundle wait for the core's writes to complete? -/
def fences (l : List Eff) : Bool := l.any fun e =>
  match e with
  | .fence | .esl (.done _) => true
  | _ => false

/-- Has every write of a core completed (R155)? -/
def Dev.quiet (d : Dev) (k : Nat) : Bool :=
  (d.core k).wb.isEmpty && (d.core k).portA.isEmpty && !d.fabWrites (coreUid k) 0

/-- Does a bundle still need data from outside the core? -/
def Core.far (c : Core) (l : List Eff) : Bool :=
  ((loadAccs l []).mapIdx fun i x => !c.near x.1 && !(c.got.any fun y => y.1 == i)).contains true
    || (storeAccs l).any fun x => x.path == .cached && !c.near x

/-- A bundle stalls. -/
def Dev.stallAt (d : Dev) (k : Nat) (s : Stall) : Dev := d.mapCore k fun c => { c with stall := s }

/-! ## Issue -/

/-- Can a core issue: it runs, and neither it nor the package is out of service? -/
def Dev.issues (sp : Spine) (d : Dev) (k : Nat) : Bool :=
  (d.core k).mode == .run && !sp.contain.out (coreUid k) && sp.contain.pkg == 0 && !d.parked.contains (coreCluster k)

/-- The bundle is done: empty, and a debug step is over (R602). -/
def Dev.bundleDone (d : Dev) (k : Nat) : Dev :=
  d.mapCore k fun c =>
    let c1 : Core :=
      { c with bundle := [], stall := .none, got := [], fills := [], emitted := 0, eslDone := none }
    if c.step then { c1 with was := c1.mode, mode := .debug, step := false } else c1

/-- The accumulator that overflows first in a bundle. -/
def aovOf (l : List Eff) : Option Nat := l.findSome? fun e =>
  match e with
  | .aov a => some a
  | _ => none

/-- The code of a bundle's TRAP. -/
def trapEndOf (l : List Eff) : Option Nat := l.findSome? fun e =>
  match e with
  | .trapEnd c => some c
  | _ => none

/-- The exception at the end of a bundle: ACC_OVF, VEC_OVF, TRAP (R145). `epc` is the bundle that would issue next. -/
def Dev.endTrap (d0 d : Dev) (k epc : Nat) (l : List Eff) : Dev :=
  let aov := aovOf l
  let vov := l.contains .vov && d0.fb (F.CORE_STATUS_VOV_EN k)
  let trap := trapEndOf l
  let take := fun (code v : Nat) => (d.loopEnd k).rptEnd k |>.trapEnter k epc false code (some v) true
  match (if d0.fb (F.CORE_STATUS_AOV_EN k) then aov else none) with
  | some a => take tAccOvf (a + b2n vov * 256)
  | none => if vov then take tVecOvf 0 else match trap with
    | some c => take tTrap c
    | none => d

/-- The bundle's results, flags and the way on, once nothing stalls it and its loads have their bytes. `stop` is the precise
exception that ends it after the progress of a gather (R199). -/
def commit (k size : Nat) (effs : List Eff) (esl : List InFlight) (stop : Option (Nat × Nat)) (w : Whole) : Whole :=
  let lvl := w.2.f (F.CORE_STATUS_PRIV k)
  let d0 := w.2
  let x := effs.foldl (fxStep k) { w := (w.1, w.2.csSeen k), wr := esl }
  let d1 := (x.w.2.mapCore k fun c =>
    { c with inflight := (c.inflight.map fun y => { y with fresh := false }) ++ x.wr }).landStep k
  let w2 := effs.foldl (fxLate k lvl) (x.w.1, d1)
  let d2 := effs.foldl (fxFlag k) w2.2
  match stop with
  | some (c, v) => (w2.1, (d2.trapEnter k (d0.core k).pc.toNat false c (some v) false).bundleDone k)
  | none =>
    let next := (d0.core k).pc.toNat + size
    match eslOf effs with
    | some .wait =>
      let d3 := d2.mapCore k fun c => { c with resume := BitVec.ofNat 16 next, mode := .easel, kill := false }
      (w2.1, (d0.endTrap d3 k (next % 2 ^ 16) effs).bundleDone k)
    | _ =>
      let d3 := d2.advance k next effs
      (w2.1, (d0.endTrap d3 k (d3.core k).pc.toNat effs).bundleDone k)

/-- The lines, stores and cache operations of a bundle; false where one must wait for room in the write buffer or the port A
queue. What has been done is not done again. -/
def putAll (k lvl : Nat) (effs : List Eff) (d : Dev) : Bool × Dev :=
  let r1 := fillAll k lvl (d.core k).fills d
  if !r1.1 then r1
  else
    let r2 := storeAll k lvl ((storeAccs effs).drop (r1.2.core k).emitted) r1.2
    if !r2.1 then r2
    else effs.foldl (fun r e =>
      if !r.1 then r
      else match e with
        | .cache clean inval rs =>
          cacheOp k lvl clean inval (fun a => rs.any fun x => decide (a < x.1 + x.2) && decide (x.1 < a + 64))
            (r.2.core k).l1 r.2
        | .cacheAll inval => cacheOp k lvl true inval (fun _ => true) (r.2.core k).l1 r.2
        | _ => r) r2

/-- The end of an issue: register loads, lines and stores, then the rest. -/
def issueEnd (k size : Nat) (acts : List Sem) (esl : List InFlight) (stop : Option (Nat × Nat)) (w : Whole) : Whole :=
  let lvl := w.2.f (F.CORE_STATUS_PRIV k)
  let r := fetchElems k lvl true (loadAccs (acts.flatMap (·.eff)) []) 0 [] w
  let effs := (resolve r.2.2 (r.2.2.core k).got 0 [] [] acts).1
  let p := putAll k lvl effs r.2.2
  if p.1 then commit k size effs esl stop (r.2.1, p.2) else (r.2.1, p.2.stallAt k .store)

/-- Does a load in register space wait for the register stores of the core? -/
def Core.regWaits (c : Core) (l : List Elem) : Bool := l.any fun e => e.path == .regs && c.waits e

/-- The issue of a bundle whose instructions `acts` act: its memory is read, its Easel instruction acts, and then it takes
effect. A precise exception that `stop` names, or DATA_ERROR, ends it; nothing but the progress of gathers and scatters
then stands (R144). -/
def issueGo (k size : Nat) (acts : List Sem) (stop : Option (Nat × Nat)) (ext : List Byte) (w : Whole) : Whole :=
  let lvl := w.2.f (F.CORE_STATUS_PRIV k)
  let effs := acts.flatMap (·.eff)
  let a := fetchLines k lvl (storeAccs effs) ext w
  let b := if storeFirst effs && !a.1 then putAll k lvl (effs.filter Eff.isStore) a.2.2 else (true, a.2.2)
  let c := if a.1 || !b.1 then (false, (a.2.1, b.2)) else fetchElems k lvl false (loadAccs effs []) 0 ext (a.2.1, b.2)
  let d := c.2.2
  let r := resolve d (d.core k).got 0 [] [] acts
  let stand := fun (v : Nat) =>
    let p := putAll k lvl r.1 d
    if p.1 then commit k size r.1 [] (some (tDataError, v)) (c.2.1, p.2) else (c.2.1, p.2.stallAt k .store)
  if a.1 || c.1 then (c.2.1, d.stallAt k .load)
  else if !b.1 then (c.2.1, d.stallAt k .store)
  else
    match r.2 with
    | some v => stand v
    | none =>
      if (d.core k).regWaits ((loadAccs effs []).map (·.1)) then (c.2.1, d.stallAt k .load)
      else
        match (if stop.isNone && (d.core k).eslDone.isNone then eslOf effs else none) with
        | none => issueEnd k size acts ((d.core k).eslDone.getD []) stop (c.2.1, d)
        | some op =>
          let y := eslRun k op ((w.2.core k).stall != .submit) c.2.1 d
          match y.1 with
          | none => (c.2.1, y.2.stallAt k .submit)
          | some l => issueEnd k size acts l stop (c.2.1, y.2.mapCore k fun c => { c with eslDone := some l })

/-- What each instruction of a core's bundle does. A word of instruction memory that holds no listed instruction raises ILLEGAL
in its slot, whatever the command that stands for it (R119, R120; log entry 11). -/
def semsOf (sp : Spine) (d : Dev) (k : Nat) : List Sem :=
  ((d.core k).bundle.filterMap (semOf sp d)).mapIdx fun i x =>
    if d.listedAt k i then x.2
    else { x.2 with run := true, seq := .none, gather := none
                    trap := some (tIllegal, d.iword k ((d.core k).pc.toNat + 4 * i)) }

/-- Try to issue the bundle that a core holds; `back` is what the memory returned to its stalled load. A fence (R155) waits
for the stores of earlier bundles, not of its own (log entry 97). -/
def issue (k : Nat) (back : Option (List Byte)) (w : Whole) : Whole :=
  let b := (w.2.core k).bundle
  let whole := ((b.getLast?.bind headOf).map (·.last)).getD false
  if w.2.issues w.1 k && whole then
    let d := (w.2.loopEnd k).rptEnd k
    let w := (w.1, d)
    let sems := semsOf w.1 d k
    let size := 4 * b.length
    let stop : Option (Nat × Nat × Nat) :=
      if bundleBad sems then some (0, tIllegalBundle, (sems.head?.map (·.word)).getD 0) else d.firstTrap k sems 0
    if !bundleBad sems && scbHit (d.core k) sems then (w.1, d.stallAt k .scoreboard)
    else
      let acts := if bundleBad sems then [] else actsOf sems (stop.map (·.1))
      let effs := acts.flatMap (·.eff)
      if fences effs && !d.quiet k then (w.1, d.stallAt k .fence)
      else if back.isNone && (d.core k).far effs then (w.1, d.stallAt k .load)
      else issueGo k size acts (stop.map (·.2)) (back.getD []) w
  else w

/-- An instruction joins its core's bundle; the one that ends the bundle issues it. A core that holds a stalled or a
whole bundle takes no further instruction. -/
def issueInstr (i : Instr) (w : Whole) : Whole :=
  match headOf i with
  | some h =>
    let c := w.2.core h.k
    let whole := ((c.bundle.getLast?.bind headOf).map (·.last)).getD false
    if w.2.issues w.1 h.k && !whole then
      let w1 := (w.1, w.2.mapCore h.k fun c => { c with bundle := c.bundle ++ [i] })
      if h.last then issue h.k none w1 else w1
    else w
  | none => w

/-- Try a stalled bundle again. -/
def retry (k : Nat) (w : Whole) : Whole := if (w.2.core k).stall = .none then w else issue k none w

/-- Try every bundle stalled in SUBMIT again (R285). -/
def retrySubmits (w : Whole) : Whole :=
  (w.2.cores.map (·.1)).foldl (fun w k => if (w.2.core k).stall = .submit then issue k none w else w) w

/-- Try every bundle again that waits for writes to complete. -/
def retryFences (w : Whole) : Whole :=
  (w.2.cores.map (·.1)).foldl (fun w k =>
    if (w.2.core k).stall = .fence ∨ (w.2.core k).stall = .store then issue k none w else w) w

/-! ## The core's other steps -/

/-- The data of a stalled load returns (R132). -/
def loadReturn (k : Nat) (ext : List Byte) (w : Whole) : Whole :=
  if (w.2.core k).stall = .load then issue k (some ext) w else w

/-- Is a core held off interrupts (R150)? -/
def Dev.heldOff (d : Dev) (k : Nat) : Bool :=
  (d.core k).ds != 0 || d.fb (F.CORE_STATUS_LA k) || d.fb (F.CORE_STATUS_RA k)

/-- A core takes its lowest enabled pending line (R149): at a bundle boundary, in a stall that can be interrupted, or
in an Easel wait. -/
def interrupt (k : Nat) (w : Whole) : Whole :=
  let d := (w.2.loopEnd k).rptEnd k
  let c := d.core k
  let free := (c.mode == .run && (c.bundle.isEmpty || c.stall == .scoreboard || c.stall == .submit)) || c.mode == .easel
  let alive := !w.1.contain.out (coreUid k) && w.1.contain.pkg == 0
  if free && alive && !d.heldOff k && d.fb (F.CORE_STATUS_IE k) && d.linesOn k != 0 then
    (w.1, d.trapEnter k c.pc.toNat true (lowestLine (d.linesOn k)) none false)
  else w

/-- An enabled line ends WFI (R151): the interrupt is taken, unless IE is 0 or a hold-off holds it (R150). -/
def wfiWake (k : Nat) (w : Whole) : Whole :=
  let c := w.2.core k
  let alive := !w.1.contain.out (coreUid k) && w.1.contain.pkg == 0
  if c.mode == .wfi && alive && w.2.linesOn k != 0 then
    let d := (w.2.loopEnd k).rptEnd k
    if d.fb (F.CORE_STATUS_IE k) && !d.heldOff k then
      (w.1, d.trapEnter k c.pc.toNat true (lowestLine (d.linesOn k)) none false)
    else (w.1, d.mapCore k fun c => { c with mode := .run })
  else w

/-- A coprocessor result is written (R206, R208): it waits for earlier writes of its registers; then stalled bundles go
on. -/
def cxResult (k : Nat) (rd : Reg) (w : Whole) : Whole :=
  let c := w.2.core k
  match c.cx.find? fun x => x.res.any fun y => y.1 == rd with
  | none => w
  | some x =>
    let busy := c.inflight.any fun y => match y.wr with
      | .g r _ => x.res.any fun z => z.1 == r
      | _ => false
    if busy || w.1.contain.out (coreUid k) then w
    else
      let d := x.res.foldl (fun d y => d.applyWr k (.g y.1 y.2)) (w.2.mapCore k fun c => { c with cx := c.cx.erase x })
      retry k (w.1, d)

end Sys2Proof.Machine
end

