-- ==== Sys2Proof/Machine/Run.lean ====
section
/-! DEFINITION. How the meaning of a command is put together: its effect on the device alone, or on the device with
time and containment. The queue of waiting commands is never touched. -/

namespace Sys2Proof.Machine

/-- What a command answers. -/
abbrev Out := Host.Outcome State Fault Refusal

/-- The state with time, containment and device replaced; the queue stands. -/
def State.onWhole (s : State) (f : Whole → Whole) : State :=
  { s with spine := (f (s.spine, s.dev)).1, dev := (f (s.spine, s.dev)).2 }

/-- A command whose effect is on the device alone. -/
def devCmd (s : State) (f : Spine → Dev → Dev) : Out := .next (s.onDev (f s.spine))

/-- A command whose effect may reach time or containment. -/
def wholeCmd (s : State) (f : Whole → Whole) : Out := .next (s.onWhole f)

/-- One tick of the timebase: time advances by the increment, less what a backward step still has to withhold (R469,
R485). -/
def tick (w : Whole) : Whole :=
  let delta := w.2.tickDelta
  let held := min w.2.tb.withhold delta
  (w.1.goto (w.1.now + (delta - held)), { w.2 with tb := { w.2.tb with withhold := w.2.tb.withhold - held } })

/-- An instruction of a core joins its bundle (R116). -/
def coreInstr (i : Instr) (s : State) : Out := wholeCmd s (issueInstr i)

end Sys2Proof.Machine
end

