-- ==== Sys2Proof/Machine/RunFabric.lean ====
section
/-! DEFINITION. The meanings of the frames of the Euril fabric and of its timers (chapter 16; R311 to R313, R560 to
R568). -/

namespace Sys2Proof.Machine

/-! ## Arriving frames -/

/-- Does a frame arrive: the port is in service and its link is up? -/
def eurHears (p : Nat) (w : Whole) : Bool := !w.1.contain.out (portUid p) && w.2.portLinked p
/-- A sequenced frame that is to be delivered is handed to `f` with its peer. -/
def eurTake (h : EurIn) (f : Nat → Spine → Dev → Dev) (w : Whole) : Whole :=
  if eurHears h.port w then
    match w.2.eurDeliver w.1 h true with
    | (some k, d) => (w.1, f k w.1 d)
    | (none, d) => (w.1, d)
  else w

/-- ACK: the acknowledgement and the credit. -/
def eurAckFrame (h : EurIn) (w : Whole) : Whole :=
  if eurHears h.port w then (w.1, (w.2.eurDeliver w.1 h false).2) else w
/-- WRITE: applied within a window, and answered. -/
def eurWriteFrame (h : EurIn) (a : Nat) (data : List Byte) : Whole → Whole :=
  eurTake h fun k sp d =>
    let r := d.eurServe h.port h.src a data.length true data
    r.2.2.eurSend sp k 2 h.tag (leBytes 1 r.1)
/-- READ: served within a window; one of no byte, or of more than 1,024, is refused. -/
def eurReadFrame (h : EurIn) (a n : Nat) : Whole → Whole :=
  eurTake h fun k sp d =>
    let r := if within 1 1024 n then d.eurServe h.port h.src a n false [] else (1, [], d.eurRefuse h.port h.src a false)
    r.2.2.eurSend sp k 4 h.tag (leBytes 1 r.1 ++ List.replicate 7 0 ++ r.2.1)
/-- WRITE_RSP. -/
def eurWriteRsp (h : EurIn) (status : Nat) : Whole → Whole := eurTake h fun k _ d => d.fabAnswer k h.tag true status []
/-- READ_RSP. -/
def eurReadRsp (h : EurIn) (status : Nat) (data : List Byte) : Whole → Whole :=
  eurTake h fun k _ d => d.fabAnswer k h.tag false status data
/-- SPILL. -/
def eurSpill (h : EurIn) (desc : List Byte) : Whole → Whole := eurTake h fun k sp d => d.spillIn sp k h.port h.tag desc
/-- SPILL_RSP. -/
def eurSpillRsp (h : EurIn) (status : Nat) : Whole → Whole := eurTake h fun k _ d => d.spillAnswer k h.tag status
/-- SPILL_CPL. -/
def eurSpillCpl (h : EurIn) (r : List Byte) : Whole → Whole := eurTake h fun k _ d => d.spillDone k r
/-- SPILL_CANCEL. -/
def eurSpillCancel (h : EurIn) (id : Nat) : Whole → Whole := eurTake h fun k sp d => d.spillKill sp k id
/-- ADV. -/
def eurAdv (h : EurIn) (free : Nat) : Whole → Whole :=
  eurTake h fun k sp d => d.mapPeer k fun x => { x with adv := some (free, sp.now) }
/-- EVENT: raised where the sender's entry allows it, else dropped and counted; so is an index past 15. -/
def eurEvent (h : EurIn) (i : Nat) : Whole → Whole :=
  eurTake h fun k _ d =>
    if d.fb (F.EUR_PEER_CFG_EVT_EN k) && decide (i < 16) then d.raise (evEurRemote i) (portUid h.port) else d.countF F.EUR_DROP_COUNT 1
/-- HELLO. -/
def eurHello (h : EurIn) (w : Whole) : Whole := if eurHears h.port w then (w.1, w.2.helloIn w.1 h) else w

/-- Bundles that wait in SUBMIT or for their writes try again. -/
def eurRetry (w : Whole) : Whole := retryFences (retrySubmits w)

/-- ACK (R564). -/
def execAck (h : EurHdr) (s : State) : Out := wholeCmd s (eurAckFrame (eurIn h))
/-- WRITE (R565). -/
def execWrite (h : EurHdr) (a : BitVec 64) (data : List Byte) (ecc : Ecc) (s : State) : Out :=
  wholeCmd s fun w => eurWriteFrame (eurIn h) a.toNat data (w.1, w.2.upset ecc)
/-- WRITE_RSP (R565). -/
def execWriteRsp (h : EurHdr) (status : BitVec 8) (s : State) : Out :=
  wholeCmd s fun w => eurRetry (eurWriteRsp (eurIn h) status.toNat w)
/-- READ (R566). -/
def execRead (h : EurHdr) (a : BitVec 64) (n : BitVec 32) (ecc : Ecc) (s : State) : Out :=
  wholeCmd s fun w => eurReadFrame (eurIn h) a.toNat n.toNat (w.1, w.2.upset ecc)
/-- READ_RSP (R565). -/
def execReadRsp (h : EurHdr) (status : BitVec 8) (data : List Byte) (s : State) : Out :=
  wholeCmd s (eurReadRsp (eurIn h) status.toNat data)
/-- SPILL (R313). -/
def execSpill (h : EurHdr) (desc : List Byte) (s : State) : Out := wholeCmd s (eurSpill (eurIn h) desc)
/-- SPILL_RSP (R311). -/
def execSpillRsp (h : EurHdr) (status : BitVec 8) (s : State) : Out :=
  wholeCmd s fun w => eurRetry (eurSpillRsp (eurIn h) status.toNat w)
/-- SPILL_CPL (R312). -/
def execSpillCpl (h : EurHdr) (r : List Byte) (s : State) : Out := wholeCmd s (eurSpillCpl (eurIn h) r)
/-- SPILL_CANCEL (R312). -/
def execSpillCancel (h : EurHdr) (id : BitVec 32) (s : State) : Out :=
  wholeCmd s fun w => eurRetry (eurSpillCancel (eurIn h) id.toNat w)
/-- ADV (R567). -/
def execAdv (h : EurHdr) (free : BitVec 16) (s : State) : Out := wholeCmd s (eurAdv (eurIn h) free.toNat)
/-- EVENT (R568). -/
def execEvent (h : EurHdr) (index : BitVec 8) (s : State) : Out := wholeCmd s (eurEvent (eurIn h) index.toNat)
/-- HELLO (R563); the entry's own node and MAC stand. -/
def execHello (h : EurHdr) (_node : BitVec 14) (_mac : BitVec 48) (s : State) : Out := wholeCmd s (eurHello (eurIn h))

/-- A frame whose bytes a port hands on: its header, then its payload by type; a frame that is not whole or of no type
is dropped and counted. -/
def eurFrame (p : Nat) (b : List Byte) (w : Whole) : Whole :=
  let h : EurIn := { port := p, src := dw b 2 2 % 2 ^ 14, dst := dw b 4 2 % 2 ^ 14, seq := dw b 6 2, ack := dw b 8 2, credit := dw b 10 2, tag := dw b 14 2 }
  let x := (b.drop 16).take (dw b 12 2)
  if dw b 0 1 ≠ 1 ∨ b.length < 16 + dw b 12 2 ∨ 1088 < dw b 12 2 then (w.1, w.2.countF F.EUR_DROP_COUNT 1)
  else
    match dw b 1 1 with
    | 0 => eurAckFrame h w
    | 1 => eurWriteFrame h (dw x 0 8) (x.drop 8) w
    | 2 => eurRetry (eurWriteRsp h (dw x 0 1) w)
    | 3 => eurReadFrame h (dw x 0 8) (dw x 8 4) w
    | 4 => eurReadRsp h (dw x 0 1) (x.drop 8) w
    | 5 => eurSpill h x w
    | 6 => eurRetry (eurSpillRsp h (dw x 0 1) w)
    | 7 => eurSpillCpl h x w
    | 8 => eurRetry (eurSpillCancel h (dw x 0 4) w)
    | 9 => eurAdv h (dw x 0 2) w
    | 10 => eurEvent h (dw x 0 1) w
    | 11 => eurHello h w
    | _ => (w.1, w.2.countF F.EUR_DROP_COUNT 1)

/-! ## Timers -/

/-- What the hub's fabric logic sends: nothing in a package fault. -/
def fabricStep (f : Spine → Dev → Dev) (sp : Spine) (d : Dev) : Dev := if sp.contain.pkg = 0 then f sp d else d

/-- HELLO_TIMER (R563). -/
def execHelloTimer (s : State) : Out := devCmd s (fabricStep fun sp d => d.helloOut sp)
/-- An acknowledgement that is due goes out in a frame of its own. -/
def Dev.ackOut (d : Dev) (k : Nat) : Dev := if d.peerUp k && (d.peer k).ackDue then d.eurPlain k 0 [] else d
/-- ACK_TIMER (R564). -/
def execAckTimer (k : Fin 2048) (s : State) : Out := devCmd s (fabricStep fun _ d => d.ackOut k.val)
/-- RETRANSMIT_TIMEOUT (R564). -/
def execRetransmitTimeout (k : Fin 2048) (s : State) : Out :=
  wholeCmd s fun w => if w.1.contain.pkg = 0 then eurRetry (w.1, w.2.retransmit w.1 k.val) else w
/-- ADVERTISE (R313). -/
def execAdvertise (s : State) : Out := devCmd s (fabricStep fun sp d => d.advertise sp)

end Sys2Proof.Machine
end

