-- ==== Sys2Proof/Machine/RunAir.lean ====
section
/-! DEFINITION. The meanings of the commands of the narrowband engine and of the fronthaul ports (chapters 11 and 12). -/

namespace Sys2Proof.Machine

/-! ## Narrowband engine -/

/-- A step of the NCE while it is in service (R432). -/
def nceActs (f : Spine → Dev → Dev) (sp : Spine) (d : Dev) : Dev := if sp.contain.out nceUid then d else f sp d
/-- The requester that the NCE is. -/
def nceReq : Req := unitReq nceUid 0

/-- A capture FIFO has been empty for STALL_US: reported once per stall, and noted in the frames under reception. -/
def Dev.captureStall (sp : Spine) (d : Dev) (k : Nat) : Dev :=
  if d.capStalled sp k && !(d.strm false k).flag then
    let d1 := (d.mapStrm false k fun s => { s with flag := true }).raise evNceCapStall nceUid
    (d1.nceCh.map (·.1)).foldl (fun d n =>
      if d.fb (F.NCE_CH_CFG_RX_EN n) && d.f (F.NCE_CH_CFG_STREAM n) == k then
        d.mapNce n fun c => { c with frame := c.frame.map fun (f : NceFrame) => { f with stall := true } }
      else d) d1
  else d
/-- CAPTURE_STALL (R392). -/
def execCaptureStall (k : Fin 4) (s : State) : Out := devCmd s (nceActs fun sp d => d.captureStall sp k.val)
/-- NCE_SYMBOL (R399). -/
def execNceSymbol (n : Fin 1536) (s : State) : Out := devCmd s (nceActs fun _ d => d.nceSymbol n.val)
/-- HEADER_RESULT (R412). -/
def execHeaderResult (n : Fin 1536) (s : State) : Out := devCmd s (nceActs fun _ d => d.headerResult n.val)
/-- REPLAY_END (R415). -/
def execReplayEnd (n : Fin 1536) (s : State) : Out := devCmd s (nceActs fun _ d => d.replayEnd n.val)
/-- LULL_REPORT (R402). -/
def execLullReport (n : Fin 1536) (s : State) : Out := devCmd s (nceActs fun _ d => d.lullReport n.val)
/-- WINDOW_OPEN (R430). -/
def execWindowOpen (n : Fin 1536) (s : State) : Out := devCmd s (nceActs fun _ d => d.windowOpen n.val)

/-- Writes of the NCE, each to its response; a refused one is lost. Answers those that remain, from the first that has to
wait. -/
def nceWrites (l : List (Nat × List Byte)) (w : Whole) : List (Nat × List Byte) × Whole :=
  match l with
  | [] => ([], w)
  | (a, x) :: t =>
    let r := busWrite nceReq a x (w.2.lateOf nceReq a x.length) w
    match r.1 with
    | .wait => ((a, x) :: t, r.2)
    | _ => nceWrites t r.2

/-- The writes of a record go on; when all have landed, its pointers advance. -/
def nceJobRun (g : Nat) (j : NceJob) (w : Whole) : Whole :=
  let x := nceWrites j.outs w
  if x.1.isEmpty then (x.2.1, x.2.2.nceLanded g j)
  else (x.2.1, x.2.2.mapGrp g fun y => { y with job := some { j with outs := x.1 } })

/-- The first frame that waits in a group is written: its data, then its record, and only then the pointers. -/
def nceRecordWrite (g : Nat) (w : Whole) : Whole :=
  if w.1.contain.out nceUid then w
  else
    let d := w.2.nceBegin g
    match (d.grp g).job with
    | some j => nceJobRun g j (w.1, d)
    | none => (w.1, d)
/-- RECORD_WRITE (R421). -/
def execRecordWrite (g : Fin 64) (s : State) : Out := wholeCmd s (nceRecordWrite g.val)

/-- The STATUS of a transmit entry is written. -/
def nceStatusWrite (g idx st : Nat) (w : Whole) : Whole := busPost nceReq (w.2.txEntryAt g idx + 3) (leBytes 1 st) w
/-- The bytes of a ring entry the NCE has read: a refused read returns zeros, and of an uncorrectable one the contents are
open. -/
def entryBytes (o : AccOut) (d : Dev) : List Byte × Dev :=
  match o with
  | .ok l => (l, d)
  | .err => d.freeBytes 32 256
  | _ => (List.replicate 32 0, d)
/-- Read the bits of a burst, in order: the bytes up to the first read that fails, whether one did, or none that one has to
wait. -/
def nceBits (l : List (Nat × Nat)) (acc : List Byte) (w : Whole) : Option (List Byte × Bool) × Whole :=
  match l with
  | [] => (some (acc, false), w)
  | (a, n) :: t =>
    let r := busRead nceReq a n [] w
    match r.1 with
    | .ok x => nceBits t (acc ++ x) r.2
    | .wait => (none, r.2)
    | _ => (some (acc, true), r.2)

/-- The NCE reads the bits of the oldest accepted entry of a group that has not got them (log entry 93). -/
def nceFetchBits (g : Nat) (w : Whole) : Whole :=
  match w.2.txUnread g with
  | none => w
  | some e =>
    let r := nceBits (spans e.bits ((e.nsym * w.2.symBits (w.2.chProf e.ch) + 7) / 8)) [] w
    match r.1 with
    | some x => (r.2.1, r.2.2.txBits g e x.1 x.2)
    | none => r.2

/-- The NCE takes the next entry of a transmit ring, judges it, and reads the bits of one that it accepts. -/
def nceTxEntry (g : Nat) (w : Whole) : Whole :=
  if w.1.contain.out nceUid then w
  else
    let w := nceFetchBits g w
    match w.2.txNext g with
    | none => w
    | some idx =>
      let r := busRead nceReq (w.2.txEntryAt g idx) 32 [] w
      if r.1 = .wait then r.2
      else
        let b := entryBytes r.1 r.2.2
        let t := b.2.txTake r.2.1 g idx b.1
        match t.1 with
        | some st => nceStatusWrite g idx st (r.2.1, t.2)
        | none => nceFetchBits g (r.2.1, t.2)
/-- TX_ENTRY (R424). -/
def execTxEntry (g : Fin 64) (ecc : Ecc) (s : State) : Out := wholeCmd s fun w => nceTxEntry g.val (w.1, w.2.upset ecc)

/-- Can the last accepted burst of a channel have been generated: its end lies within 250 µs? -/
def Dev.txGenerated (sp : Spine) (d : Dev) (n : Nat) : Bool :=
  let alone := ((d.grp (n / 24)).ents.filter fun e => e.ch == n && e.status.isNone).length ≤ 1
  match d.burstOf n with
  | some b => !alone || decide (b.stop ≤ (timeNs sp + 250000) * d.chR3 n)
  | none => true
/-- The oldest accepted burst of a channel has been generated, as far as its bits could be read. -/
def nceTxDone (n : Nat) (w : Whole) : Whole :=
  if w.1.contain.out nceUid || !w.2.txGenerated w.1 n then w
  else
    match w.2.txLive n with
    | none => w
    | some e =>
      match e.got with
      | some bad => nceStatusWrite (n / 24) e.idx (if bad then 6 else 1) (w.1, w.2.txDone n e bad)
      | none => nceFetchBits (n / 24) w
/-- TX_BURST_DONE (R425). -/
def execTxBurstDone (n : Fin 1536) (ecc : Ecc) (s : State) : Out := wholeCmd s fun w => nceTxDone n.val (w.1, w.2.upset ecc)

/-- A service pass of every active group: progress, and the end of STOPPING once its work is complete. -/
def Dev.nceService (sp : Spine) (d : Dev) : Dev :=
  (List.range 64).foldl (fun d g =>
    let n := fnNce g
    if within 2 4 (d.fnState n) then
      let d1 := d.progress sp n
      if d1.fnState n == 4 && d1.nceDrained sp g then d1.fnStopped sp n else d1
    else d) d
/-- NCE_SERVICE_PASS (R431). -/
def execNceServicePass (s : State) : Out := devCmd s (nceActs fun sp d => d.nceService sp)
/-- NCE_FAULT (R432). -/
def execNceFault (s : State) : Out := wholeCmd s nceFault

/-! ## Fronthaul ports -/

/-- A step of a port while it is in service. -/
def portActs (p : Nat) (f : Spine → Dev → Dev) (sp : Spine) (d : Dev) : Dev := if sp.contain.out (portUid p) then d else f sp d
/-- A step of a queue position, by the port that has it. -/
def queueActs (q : Nat) (f : Spine → Dev → Dev) (sp : Spine) (d : Dev) : Dev := portActs (d.portOf q) f sp d

/-- A frame is received: what is Euril goes to the fabric, and everything else to its queue. -/
def fhReceive (p : Nat) (fcs ptpIp : Bool) (err : Int) (frame : List Byte) (w : Whole) : Whole :=
  if w.1.contain.out (portUid p) then w
  else
    match w.2.fhFrame w.1 p fcs ptpIp err frame with
    | (.none, d) => (w.1, d)
    | (.euril b, d) => eurFrame p b (w.1, d)
/-- FH_RX_FRAME (R438); `err` what the time-to-digital converter reads beside the true time, in 2^-16 ns. -/
def execFhRxFrame (p : Fin 16) (fcs ptpIp : Bool) (err : BitVec 18) (frame : List Byte) (ecc : Ecc) (s : State) : Out :=
  wholeCmd s fun w => fhReceive p.val fcs ptpIp err.toInt frame (w.1, w.2.upset ecc)
/-- SYMBOL_CLOSE (R446). -/
def execSymbolClose (q : Fin 16) (s : State) : Out := devCmd s (queueActs q.val fun sp d => d.symbolClose sp q.val)
/-- READINESS_CHECK (R453). -/
def execReadinessCheck (q : Fin 16) (c : Fin 48) (tie : Bool) (s : State) : Out :=
  devCmd s (queueActs q.val fun sp d => d.readiness sp q.val c.val tie)
/-- SYMBOL_SEND (R453). -/
def execSymbolSend (q : Fin 16) (s : State) : Out := devCmd s (queueActs q.val fun sp d => d.symbolSend sp q.val)
/-- MGMT_TX (R457). -/
def execMgmtTx (p : Fin 16) (err : BitVec 18) (s : State) : Out :=
  devCmd s (portActs p.val fun sp d => d.mgmtTx sp p.val err.toInt)
/-- LINK_DOWN (R464). -/
def execLinkDown (p : Fin 16) (s : State) : Out := devCmd s (portActs p.val fun _ d => d.fhLinkDown p.val)
/-- LINK_UP (R464). -/
def execLinkUp (p : Fin 16) (s : State) : Out := devCmd s (portActs p.val fun _ d => d.fhLinkUp p.val)
/-- TS_MEASUREMENT (R461). -/
def execTsMeasurement (p : Fin 16) (rx tx : BitVec 21) (s : State) : Out :=
  devCmd s (portActs p.val fun _ d => d.tsMeasured p.val rx.toNat tx.toNat)

/-- A port's service pass: progress, the end of STOPPING, and carriers whose symbols are all done. -/
def Dev.fhService (sp : Spine) (d : Dev) (p : Nat) : Dev :=
  let n := fnPort p
  if within 2 4 (d.fnState n) then
    let d1 := d.progress sp n
    (if d1.fnState n == 4 then d1.fnStopped sp n else d1).carrSettle sp
  else d
/-- FH_SERVICE_PASS (R437). -/
def execFhServicePass (p : Fin 16) (s : State) : Out := devCmd s (portActs p.val fun sp d => d.fhService sp p.val)

end Sys2Proof.Machine
end

