-- ==== Sys2Proof/Machine/RunRegs.lean ====
section
/-! DEFINITION. The meanings of the register accesses: plain writes and reads, the commands that are a write of one named
register, and the writes of the host. -/

namespace Sys2Proof.Machine

/-- The front register write of a core's write buffer gives up the word that is written (R153). -/
def popWord (l : List WbEnt) (a : Nat) (v : Word) : List WbEnt :=
  match l with
  | [] => []
  | e :: t =>
    if inRegSpace e.addr then
      if e.addr = a ∧ e.data.take 4 = leBytes 4 v.toNat then
        if e.data.length ≤ 4 then t else { e with addr := a + 4, data := e.data.drop 4 } :: t
      else e :: t
    else e :: popWord t a v

/-- A write of a register by a requester in service: a core's leaves its write buffer (R153), and bundles that wait for
the core's writes try again. An address that holds no register is accessed as what it is (R42). -/
def regStep (q : Req) (a : Nat) (v : Word) (w : Whole) : Whole :=
  if reqGone w.1 w.2 q then w
  else
    let d := match coreOfUid q.uid.toNat with
      | some k => w.2.mapCore k fun c => { c with wb := popWord c.wb a v }
      | none => w.2
    retryFences (if tgtOf a = .regs then regWriteBytes q a (leBytes 4 v.toNat) (w.1, d)
      else busPost q a (leBytes 4 v.toNat) (w.1, d))

/-- Does the device answer a requester's register access? The host sees only the recovery window until it may see more. -/
def regSeen (q : Req) (a : Nat) (w : Whole) : Bool :=
  !reqIs q hostUid 0 || hostFull w || (match blkOf a with
    | some (.hst, _) => true
    | _ => false)

/-- Is a requester out of service? In a package fault the host still reaches the recovery window (R28). -/
def askerGone (sp : Spine) (d : Dev) (q : Req) : Bool := if reqIs q hostUid 0 then !hostUp sp else reqGone sp d q

/-- What a read of 4 bytes by a requester gives it: the bytes and whether they are an error; none while it waits. -/
def fetchOf (q : Req) (a : Nat) (sp : Spine) (d : Dev) : Option (List Byte × Bool) × Dev :=
  if regSeen q a (sp, d) = false then (some (leBytes 4 0, false), d)
  else if tgtOf a = .regs then
    let r := d.regReadBytes sp q a 4
    (some (r.1, false), r.2)
  else
    match busAcc q a 4 false [] false false [] false (sp, d) with
    | (.ok l, w) => (some (l, false), w.2)
    | (.wait, w) => (none, w.2)
    | (.err, w) => (some ([], true), w.2)
    | (.refused, w) => (some (leBytes 4 0, false), w.2)

/-- A read of a register by a requester in service; the value goes back to it. -/
def regFetch (q : Req) (a : Nat) (sp : Spine) (d : Dev) : Dev :=
  if askerGone sp d q then d
  else
    match fetchOf q a sp d with
    | (some (l, bad), d1) => { d1 with sent := d1.sent ++ [.rsp q.uid.toNat q.ch.toNat l bad] }
    | (none, d1) => d1

/-- REG_WRITE (R11). -/
def execRegWrite (q : Req) (a : BitVec 42) (v : Word) (s : State) : Out := wholeCmd s (regStep q a.toNat v)
/-- RCL_READ (R12). -/
def execRclRead (q : Req) (a : BitVec 42) (s : State) : Out := devCmd s (regFetch q a.toNat)
/-- READ_LOW_WORD (R10). -/
def execReadLowWord (q : Req) (a : BitVec 42) (s : State) : Out := devCmd s (regFetch q a.toNat)
/-- TB_NOW_READ (R470). -/
def execTbNowRead (q : Req) (s : State) : Out := devCmd s (regFetch q F.TB_NOW_NS_NS.addr)
/-- PTP_TXTS_POP (R458). -/
def execPtpTxtsPop (q : Req) (p : Fin 16) (s : State) : Out := devCmd s (regFetch q (F.FH_PTP_TXTS_TAG_TAG p).addr)

/-- HOST_BAR_WRITE (R539). -/
def execHostBarWrite (f : Fin 17) (off : BitVec 26) (data : List Byte) (s : State) : Out :=
  wholeCmd s fun w => retryFences (hostWriteBytes f off.toNat data w)

/-- TARGET_WRITE (R624). -/
def execTargetWrite (q : Req) (v : Word) (s : State) : Out := wholeCmd s (regStep q F.GSO_MODE_TARGET.addr v)
/-- HANDOVER (R249), with the writes that arrive in the same cycle (R253). -/
def execHandover (q : Req) (r : Fin 16) (n : Fin 52) (v : Word) (more : List (Req × Word)) (s : State) : Out :=
  wholeCmd s fun w =>
    (ownerOrder r ((q, v) :: more)).foldl (fun w x => regStep x.1 (F.PAL_OWNER_OWNER r n).addr x.2 w) w
/-- DELEGATION (R254). -/
def execDelegation (q : Req) (r : Fin 16) (n : Fin 52) (v : Word) (s : State) : Out :=
  wholeCmd s (regStep q (F.PAL_DELEG_EN r n).addr v)
/-- POWER_REQUEST (R259). -/
def execPowerRequest (q : Req) (r : Fin 16) (n : Fin 52) (v : Word) (s : State) : Out :=
  wholeCmd s (regStep q (F.PAL_PWR_REQ r n).addr v)
/-- NOLEND_WRITE (R267). -/
def execNolendWrite (q : Req) (r : Fin 16) (n : Fin 52) (w : Fin 16) (v : Word) (s : State) : Out :=
  wholeCmd s (regStep q (F.PAL_NOLEND_PAGES r (n * 16 + w)).addr v)
/-- EXTENT_INVAL (R243). -/
def execExtentInval (q : Req) (v : Word) (s : State) : Out := wholeCmd s (regStep q F.PAL_EXT_INVAL_INDEX.addr v)
/-- ESL_KILL (R627); a store that gains room takes the submissions that wait (R285). -/
def execEslKill (q : Req) (v : Word) (s : State) : Out :=
  wholeCmd s fun w => retrySubmits (regStep q F.ESL_KILL_TASK_ID.addr v w)
/-- GST_START (R318): START written, STOP not. -/
def execGstStart (q : Req) (e : Fin 17) (n : Fin 64) (s : State) : Out :=
  wholeCmd s (regStep q (F.GST_CH_CTRL_START (gstBaseOf e) n).addr 1)
/-- GST_STOP (R344). -/
def execGstStop (q : Req) (e : Fin 17) (n : Fin 64) (s : State) : Out :=
  wholeCmd s (regStep q (F.GST_CH_CTRL_STOP (gstBaseOf e) n).addr 2)
/-- SWREQ_WRITE (R341). -/
def execSwreqWrite (q : Req) (r : Fin 16) (v : Word) (s : State) : Out :=
  wholeCmd s (regStep q (F.GST_SWREQ_LINE (gstBaseOf r)).addr v)
/-- CAPTURE_STREAM_ENABLE (R391): a write of the CFG register of a capture stream, or of a transmit stream. -/
def execCaptureStreamEnable (q : Req) (tx : Bool) (k : Fin 4) (v : Word) (s : State) : Out :=
  wholeCmd s (regStep q (if tx then (F.NCE_TX_CFG_EN k).addr else (F.NCE_CAP_CFG_EN k).addr) v)
/-- ABORT (R416). -/
def execAbort (q : Req) (v : Word) (s : State) : Out := wholeCmd s (regStep q F.NCE_CH_CMD_CHANNEL.addr v)
/-- BT0_HI_WRITE (R430). -/
def execBt0HiWrite (q : Req) (n : Fin 1536) (v : Word) (s : State) : Out :=
  wholeCmd s (regStep q (F.NCE_CH_BT0_HI_BT0 n).addr v)
/-- TXRDY_WRITE (R452). -/
def execTxrdyWrite (q : Req) (p : Fin 16) (v : Word) (s : State) : Out := wholeCmd s (regStep q (F.FH_TXRDY_CARRIER p).addr v)
/-- TSCAP_ARM (R463). -/
def execTscapArm (q : Req) (p : Fin 16) (v : Word) (s : State) : Out := wholeCmd s (regStep q (F.FH_TSCAP_CTRL_ENTRY p).addr v)
/-- OFFSET_COMMIT (R474): the write of TB_OFFSET_IN_HI. -/
def execOffsetCommit (q : Req) (v : Word) (s : State) : Out := wholeCmd s (regStep q F.TB_OFFSET_IN_HI_OFS.addr v)
/-- STEP_GO (R484). -/
def execStepGo (q : Req) (v : Word) (s : State) : Out := wholeCmd s (regStep q F.TB_STEP_CMD_GO.addr v)
/-- TRIG_ARM (R490): a write of a trigger's CTRL with EN 1. -/
def execTrigArm (q : Req) (n : Fin 256) (v : Word) (s : State) : Out :=
  wholeCmd s (regStep q (F.TB_TRIG_CTRL_EN n).addr (v ||| 1))
/-- TRIG_DISARM (R489): a write of a trigger's CTRL with EN 0. -/
def execTrigDisarm (q : Req) (n : Fin 256) (v : Word) (s : State) : Out :=
  wholeCmd s (regStep q (F.TB_TRIG_CTRL_EN n).addr (v &&& ~~~1))
/-- CAPTURE_COMMAND (R503). -/
def execCaptureCommand (q : Req) (v : Word) (s : State) : Out := wholeCmd s (regStep q F.GLZ_CAPT_CMD_GO.addr v)
/-- ESTIMATE_COMMAND (R508). -/
def execEstimateCommand (q : Req) (v : Word) (s : State) : Out := wholeCmd s (regStep q F.GLZ_EST_CMD_GO.addr v)
/-- NEXT_T_WRITE (R511): the write of the high word. -/
def execNextTWrite (q : Req) (c : Fin 48) (v : Word) (s : State) : Out :=
  wholeCmd s (regStep q (F.GLZ_CARR_NEXT_T_HI_T c).addr v)
/-- CODE_REQ (R525). -/
def execCodeReq (q : Req) (c : Fin 4) (v : Word) (s : State) : Out := wholeCmd s (regStep q (F.TRM_CH_CODE_REQ c).addr v)
/-- KICK (R530): a write of TRM_WDOG with KICK 1. -/
def execKick (q : Req) (v : Word) (s : State) : Out := wholeCmd s (regStep q F.TRM_WDOG_KICK.addr (v ||| 0x10000))
/-- TIMEOUT_WRITE (R530): a write of TRM_WDOG with KICK 0. -/
def execTimeoutWrite (q : Req) (v : Word) (s : State) : Out :=
  wholeCmd s (regStep q F.TRM_WDOG_TIMEOUT_MS.addr (v &&& ~~~0x10000))
/-- OUT_WR_ADVANCE (R546). -/
def execOutWrAdvance (q : Req) (k : Fin 256) (v : BitVec 16) (s : State) : Out :=
  wholeCmd s (regStep q (F.HST_RING_DQ_OUT_WR k).addr (v.setWidth 32))
/-- EVT_SEND_WRITE (R568). -/
def execEvtSendWrite (q : Req) (v : Word) (s : State) : Out := wholeCmd s (regStep q F.EUR_EVT_SEND_NODE.addr v)
/-- I2C_GO (R585). -/
def execI2cGo (q : Req) (m : Fin 4) (v : Word) (s : State) : Out := wholeCmd s (regStep q (F.LC_CAGE_I2C_OFFSET m).addr v)
/-- STAT_CLEAR (R592). -/
def execStatClear (q : Req) (w : Fin 32) (v : Word) (s : State) : Out := wholeCmd s (regStep q (F.EVT_STAT_STAT w).addr v)
/-- SW_RAISE (R589). -/
def execSwRaise (q : Req) (v : Word) (s : State) : Out := wholeCmd s (regStep q F.EVT_SW_RAISE_INDEX.addr v)
/-- EVT_CFG_WRITE (R595). -/
def execEvtCfgWrite (q : Req) (e : Fin 1024) (v : Word) (s : State) : Out := wholeCmd s (regStep q (F.EVT_CFG_ROUTE e).addr v)

end Sys2Proof.Machine
end

