-- ==== Sys2Proof/Machine/RunBoard.lean ====
section
/-! DEFINITION. The meanings of the commands of the line card, of events and trace, of test access, and of temperature and
supply (chapters 17, 18 and 19). -/

namespace Sys2Proof.Machine

/-! ## Latch and service key -/

/-- LATCH_OPEN (R576). -/
def execLatchOpen (s : State) : Out := devCmd s fun sp d => d.latchOpen sp
/-- LATCH_CLOSE (R577). -/
def execLatchClose (s : State) : Out := devCmd s fun sp d => d.latchClose sp
/-- KEY_PRESS (R574). -/
def execKeyPress (s : State) : Out := devCmd s fun sp d => d.keyPress sp
/-- KEY_RELEASE (R578). -/
def execKeyRelease (s : State) : Out := devCmd s fun sp d => d.keyRelease sp
/-- KEY_HOLD_RESET (R578). -/
def execKeyHoldReset (s : State) : Out := devCmd s fun sp d => d.keyHold sp

/-! ## Module cages -/

/-- A step of a cage's sequencer while the line card is in service. -/
def cageActs (f : Spine → Dev → Dev) (sp : Spine) (d : Dev) : Dev := if sp.contain.out lcUid then d else f sp d

/-- MODULE_INSERTED (R581). -/
def execModuleInserted (m : Fin 4) (s : State) : Out := devCmd s fun sp d => d.modIn sp m.val
/-- MODULE_RESET_RELEASE (R581). -/
def execModuleResetRelease (m : Fin 4) (s : State) : Out := devCmd s (cageActs fun _ d => d.modRelease m.val)
/-- MODULE_INIT (R581); `cmis` whether the module's identity is one that CMIS serves. -/
def execModuleInit (m : Fin 4) (cmis : Bool) (s : State) : Out := devCmd s (cageActs fun sp d => d.modInit sp m.val cmis)
/-- MODULE_READY (R582); `apps` the applications that the module advertises. -/
def execModuleReady (m : Fin 4) (apps : List ModApp) (s : State) : Out :=
  devCmd s (cageActs fun sp d => d.modReady sp m.val apps)
/-- DATA_PATH_ACTIVATED (R581). -/
def execDataPathActivated (m : Fin 4) (s : State) : Out := devCmd s (cageActs fun sp d => d.modUp sp m.val)
/-- MODULE_WAIT_TIMEOUT (R581): the wait that the module advertised in ms, or none where the module failed otherwise. -/
def execModuleWaitTimeout (m : Fin 4) (wait : Option (BitVec 24)) (s : State) : Out :=
  devCmd s (cageActs fun sp d => d.modFault sp m.val (wait.map BitVec.toNat))
/-- MODULE_REMOVED (R584). -/
def execModuleRemoved (m : Fin 4) (s : State) : Out := devCmd s fun sp d => d.modOut sp m.val
/-- MODULE_INTERRUPT (R583). -/
def execModuleInterrupt (m : Fin 4) (s : State) : Out := devCmd s fun _ d => d.modInt m.val
/-- I2C_DONE (R585). -/
def execI2cDone (m : Fin 4) (data : Byte) (nak : Bool) (s : State) : Out := devCmd s fun _ d => d.i2cDone m.val data nak

/-! ## Events and trace -/

/-- The router applies the oldest `n` occurrences; what they release may wait for the store no longer. -/
def routeStep (n : Nat) (w : Whole) : Whole := if w.1.contain.pkg = 0 then retrySubmits (w.1, w.2.routeCycle w.1 n) else w
/-- EVENT_ROUTE (R590). -/
def execEventRoute (n : Fin 256) (s : State) : Out := wholeCmd s (routeStep n.val)
/-- AON_EVENT (R621). -/
def execAonEvent (s : State) : Out := devCmd s fun sp d => d.aonEvent sp
/-- PC_SAMPLE (R600). -/
def execPcSample (s : State) : Out := devCmd s fun sp d => d.pcSample sp

/-! ## Test access -/

/-- BYPASS (R601). -/
def execBypass (s : State) : Out := devCmd s fun _ d => d.jtagIr .bypass
/-- The identification code is shifted out. -/
def Dev.jtagId (d : Dev) : Dev := { d.jtagIr .idcode with sent := d.sent ++ [.jtag idCode] }
/-- IDCODE (R601). -/
def execIdcode (s : State) : Out := devCmd s fun _ d => d.jtagId
/-- SAMPLE_PRELOAD (R601). -/
def execSamplePreload (s : State) : Out := devCmd s fun _ d => d.jtagIr .sample
/-- EXTEST (R601). -/
def execExtest (s : State) : Out := devCmd s fun _ d => d.jtagIr .extest
/-- CLAMP (R601). -/
def execClamp (s : State) : Out := devCmd s fun _ d => d.jtagIr .clamp
/-- HIGHZ (R601). -/
def execHighz (s : State) : Out := devCmd s fun _ d => d.jtagIr .highz
/-- EXTEST_PULSE (R601). -/
def execExtestPulse (s : State) : Out := devCmd s fun _ d => d.jtagIr .pulse
/-- EXTEST_TRAIN (R601). -/
def execExtestTrain (s : State) : Out := devCmd s fun _ d => d.jtagIr .train
/-- The TAP is reset: the pins return to their functions and the debug port closes. -/
def Dev.tapReset (d : Dev) : Dev := { d.debugClose with jtag := Jtag.reset }
/-- TAP_RESET (R601). -/
def execTapReset (s : State) : Out := devCmd s fun _ d => d.tapReset
/-- The DEBUG instruction. -/
def Dev.debugInstr (d : Dev) (token : List Byte) : Dev :=
  if !Config.dbgLock || Config.debugTokenOk token then (d.jtagIr .debug).debugOpen else d.jtagIr .debug
/-- DEBUG (R602). -/
def execDebug (token : List Byte) (s : State) : Out := devCmd s fun _ d => d.debugInstr token

/-- What the debug port does to a core while it is open. -/
def debugActs (f : Dev → Dev) (d : Dev) : Dev := if d.fb F.EVT_DBG_OPEN then f d else d
/-- DEBUG_HALT (R602). -/
def execDebugHalt (k : CoreIx) (s : State) : Out := devCmd s fun _ => debugActs fun d => d.debugHalt k.val
/-- DEBUG_STEP (R602). -/
def execDebugStep (k : CoreIx) (s : State) : Out := devCmd s fun _ => debugActs fun d => d.debugStep k.val
/-- DEBUG_RESUME (R602). -/
def execDebugResume (k : CoreIx) (s : State) : Out := devCmd s fun _ => debugActs fun d => d.debugResume k.val

/-! ## Temperature and supply -/

/-- THERM_REPORT (R609): the hottest sensor of the four compute dies and of the hub die. -/
def execThermReport (t0 t1 t2 t3 t4 : BitVec 8) (s : State) : Out :=
  devCmd s fun _ d => d.thermReport [t0.toNat, t1.toNat, t2.toNat, t3.toNat, t4.toNat]
/-- THROTTLE_ENTRY (R610). -/
def execThrottleEntry (d : Fin 4) (t : BitVec 8) (s : State) : Out := devCmd s fun _ x => x.throttleEntry d.val t.toNat
/-- THROTTLE_DEEPEN (R610). -/
def execThrottleDeepen (d : Fin 4) (t : BitVec 8) (s : State) : Out := devCmd s fun _ x => x.throttleDeepen d.val t.toNat
/-- THROTTLE_EXIT (R610). -/
def execThrottleExit (d : Fin 4) (t : BitVec 8) (s : State) : Out := devCmd s fun _ x => x.throttleExit d.val t.toNat
/-- THERMAL_TRIP (R611). -/
def execThermalTrip (s : State) : Out := wholeCmd s (packageFault 7 0)
/-- SUPPLY_FAULT (R603). -/
def execSupplyFault (rail : Fin 11) (s : State) : Out := wholeCmd s (packageFault 8 rail.val)
/-- AVS_SETTLE (R605): the core voltage that the monitor sees, and whether the regulator acknowledged. -/
def execAvsSettle (mv : BitVec 11) (nak : Bool) (s : State) : Out := wholeCmd s (avsSettle mv.toNat nak)

end Sys2Proof.Machine
end

