-- ==== Sys2Proof/Machine/RunBoot.lean ====
section
/-! DEFINITION. The meanings of the faults, and of boot, modes, reset and power (chapters 01 and 02). -/

namespace Sys2Proof.Machine

/-! ## Faults -/

/-- UNIT_FAULT (R23), with the faults of the same cycle (R29). -/
def execUnitFault (uid : BitVec 12) (more : List FaultSrc) (s : State) : Out :=
  wholeCmd s fun w => retrySubmits (faultsAt (unitPlace uid.toNat :: more.map FaultSrc.place) w)
/-- CLUSTER_QUARANTINE (R25). -/
def execClusterQuarantine (c : Fin 96) (s : State) : Out := wholeCmd s fun w => retrySubmits (clusterQuarantine c.val w)
/-- DIE_FENCE (R26). -/
def execDieFence (d : Fin 4) (s : State) : Out := wholeCmd s fun w => retrySubmits (dieFence d.val w)
/-- PACKAGE_FAULT (R28); a source code that R598 does not list names no fault. -/
def execPackageFault (src : BitVec 4) (s : State) : Out := wholeCmd s (packageFault src.toNat 0)

/-- One second has passed since a package fault: it starts a full reset where the policy says so. -/
def Dev.pkgReset (sp : Spine) (d : Dev) : Dev :=
  if sp.contain.pkg ≠ 0 ∧ d.fb F.GSO_POLICY_PKG_FAULT_RESET then d.startReset sp 4 else d
/-- PKG_FAULT_RESET_TIMER (R87). -/
def execPkgFaultResetTimer (s : State) : Out := devCmd s fun sp d => d.pkgReset sp

/-! ## Boot -/

/-- POWER_GOOD (R607): the latch is closed, the key is pressed. -/
def execPowerGood (latch key : Bool) (s : State) : Out := devCmd s fun sp d => d.powerGood sp latch key
/-- RESET_N_RELEASE (R607). -/
def execResetNRelease (s : State) : Out := devCmd s fun sp d => d.resetRelease sp
/-- RESET_N_ASSERT (R607). -/
def execResetNAssert (s : State) : Out := devCmd s fun sp d => d.resetAssert sp
/-- CANDIDATE_LOAD (R56); `err` the image offset of an xSPI error. -/
def execCandidateLoad (err : Option (BitVec 32)) (s : State) : Out :=
  devCmd s fun _ d => d.candidate (err.map BitVec.toNat)
/-- LAYER_APPLY (R61). -/
def execLayerApply (s : State) : Out := devCmd s fun _ d => d.layerApply
/-- DORMANT_REACHED (R65). -/
def execDormantReached (s : State) : Out := devCmd s fun sp d => d.dormantReached sp

/-! ## Modes -/

/-- What hub firmware does, unless a package fault holds the device (R28). -/
def firmware (w : Whole) (f : Whole → Whole) : Whole := if w.1.contain.pkg = 0 then f w else w

/-- AUTO_START (R66). -/
def execAutoStart (s : State) : Out := wholeCmd s fun w => firmware w fun w => (w.1, w.2.autoStart w.1)
/-- DRAIN_COMPLETE (R72). -/
def execDrainComplete (s : State) : Out :=
  wholeCmd s fun w => firmware w fun w => if w.2.drained_ then drainComplete w.1 w.2 else w
/-- DRAIN_TIMEOUT (R71). -/
def execDrainTimeout (s : State) : Out :=
  wholeCmd s fun w => firmware w fun w => retrySubmits (drainTimeout w.1 w.2)
/-- WATCHDOG_EXPIRE (R82). -/
def execWatchdogExpire (n : Fin 134) (s : State) : Out :=
  wholeCmd s fun w => firmware w fun w => (w.1, w.2.wdogFn w.1 n.val)

/-! ## Reset and power -/

/-- The delay of FULL_RESET is over. -/
def Dev.resetDelay (sp : Spine) (d : Dev) : Dev :=
  if d.boot.due then Dev.startReset sp { d with boot := { d.boot with due := false } } 2 else d
/-- FULL_RESET_DELAY_EXPIRE (R553). -/
def execFullResetDelayExpire (s : State) : Out := devCmd s fun sp d => d.resetDelay sp
/-- FULL_RESET_EXECUTE (R88). -/
def execFullResetExecute (s : State) : Out := wholeCmd s fullReset
/-- PWRFAIL_FALL (R91). -/
def execPwrfailFall (s : State) : Out := devCmd s fun sp d => d.pwrFall sp
/-- LOG_FLUSH_COMPLETE (R625). -/
def execLogFlushComplete (s : State) : Out := devCmd s fun _ d => d.flushDone
/-- PWRFAIL_RISE (R92). -/
def execPwrfailRise (s : State) : Out := devCmd s fun _ d => d.pwrRise
/-- FLUSH_SLOT_ERASED (R92). -/
def execFlushSlotErased (s : State) : Out := devCmd s fun _ d => d.flushErased
/-- POWER_LOSS (R606): everything but the flash and the fuses is lost. -/
def execPowerLoss (s : State) : Out :=
  wholeCmd s fun w => ({ now := 0, recent := [], contain := Contain.none }, w.2.powerLoss)

end Sys2Proof.Machine
end

