-- ==== Sys2Proof/Machine/RunCop.lean ====
section
/-! DEFINITION. The meanings of the coprocessor instructions (chapter 06): what each does at issue is said in Cx.lean and
Cs.lean. -/

namespace Sys2Proof.Machine

/-- RCP (R204). -/
def execRcp (h : Hd) (rd rs1 : Reg) (s : State) : Out := coreInstr (.rcp h rd rs1) s
/-- RSQRT (R204). -/
def execRsqrt (h : Hd) (rd rs1 : Reg) (s : State) : Out := coreInstr (.rsqrt h rd rs1) s
/-- ATAN2 (R204). -/
def execAtan2 (h : Hd) (rd rs1 rs2 : Reg) (s : State) : Out := coreInstr (.atan2 h rd rs1 rs2) s
/-- CDIV (R204). -/
def execCdiv (h : Hd) (rd rs1 rs2 : Reg) (s : State) : Out := coreInstr (.cdiv h rd rs1 rs2) s
/-- LOG2 (R204). -/
def execLog2 (h : Hd) (rd rs1 : Reg) (s : State) : Out := coreInstr (.log2 h rd rs1) s
/-- EXP2 (R204). -/
def execExp2 (h : Hd) (rd rs1 : Reg) (s : State) : Out := coreInstr (.exp2 h rd rs1) s
/-- CHOL (R221). -/
def execChol (h : Hd) (rc rs rt : Reg) (pd : PReg) (s : State) : Out := coreInstr (.chol h rc rs rt pd) s
/-- INV (R221). -/
def execInv (h : Hd) (rc rs rt : Reg) (pd : PReg) (s : State) : Out := coreInstr (.inv h rc rs rt pd) s
/-- SORT (R225). -/
def execSort (h : Hd) (rc rs rt : Reg) (pd : PReg) (s : State) : Out := coreInstr (.sort h rc rs rt pd) s
/-- TOPK (R225). -/
def execTopk (h : Hd) (rc rs rt : Reg) (pd : PReg) (s : State) : Out := coreInstr (.topk h rc rs rt pd) s
/-- SEARCH (R226). -/
def execSearch (h : Hd) (rc rs rt : Reg) (pd : PReg) (s : State) : Out := coreInstr (.search h rc rs rt pd) s

end Sys2Proof.Machine
end

