-- ==== Sys2Proof/Machine/Spdm.lean ====
section
/-! DEFINITION. The SPDM responder and the measurement blocks (R556 to R559). The byte layouts are those of DMTF SPDM 1.2,
which the spec names without giving them (log entry 48, PRESUMED). -/

namespace Sys2Proof.Machine

/-- The UID of the security engine. -/
def secUid : Uid := hubUid 2

/-! ## Measurement blocks (R559) -/

/-- A block in the DMTF measurement format: index, specification, size, type, value size, value. -/
def measBlock (i : Nat) (raw : Bool) (v : List Byte) : List Byte :=
  let ty := Config.measType i % 128 + 128 * b2n raw
  leBytes 1 i ++ leBytes 1 1 ++ leBytes 2 (v.length + 3) ++ leBytes 1 ty ++ leBytes 2 v.length ++ v

/-- The value of block `i`, if the device reports it now. -/
def Dev.measValue (d : Dev) (i : Nat) : Option (List Byte) :=
  if i = 1 then some (Config.sha384 Config.bootRom)
  else if i = 2 then some (fitBytes 56 (Config.measRaw 2 [ofLeBytes Config.rootHash, d.rollback, d.f F.HST_ID_STEP]))
  else if within 3 8 i ∧ d.boot.at_ = .dormant then some (SMap.get d.meas i [])
  else none
/-- Block `i` as reported. -/
def Dev.measAt (d : Dev) (i : Nat) : Option (List Byte) := (d.measValue i).map (measBlock i (i == 2 || i == 7))
/-- Every block that the device reports, in order. -/
def Dev.measAll (d : Dev) : List (List Byte) := (List.range 9).filterMap d.measAt

/-! ## Responses (R557 to R559) -/

/-- Does the device answer SPDM requests: from the boot ROM step onward, its security engine in service? -/
def Dev.spdmOn (sp : Spine) (d : Dev) : Bool :=
  d.boot.at_ != .off && !d.perst && !sp.contain.units.contains secUid

/-- Send a response: its version, code, parameters and body. -/
def Dev.spdmSend (d : Dev) (ver code p1 p2 : Nat) (body : List Byte) : Dev :=
  { d with sent := d.sent ++ [.spdm code (leBytes 1 ver ++ leBytes 1 code ++ leBytes 1 p1 ++ leBytes 1 p2 ++ body)] }
/-- An ERROR response. -/
def Dev.spdmError (d : Dev) (code : Nat) : Dev := d.spdmSend 0x12 0x7F code 0 []

/-- VERSION: the one entry 1.2. -/
def Dev.spdmVersion (d : Dev) : Dev := d.spdmSend 0x10 0x04 0 0 (leBytes 2 0x0100 ++ leBytes 2 0x1200)
/-- CAPABILITIES: certificates, challenge, measurements with signatures. -/
def Dev.spdmCapabilities (d : Dev) : Dev :=
  d.spdmSend 0x12 0x61 0 0 (leBytes 2 (256 * (Config.spdmCtExponent % 256)) ++ leBytes 2 0 ++ leBytes 4 0x16
    ++ leBytes 4 Config.spdmSizes.1 ++ leBytes 4 Config.spdmSizes.2)
/-- ALGORITHMS: the DMTF measurement specification, SHA-384 and ECDSA on P-384. -/
def Dev.spdmAlgorithms (d : Dev) : Dev :=
  d.spdmSend 0x12 0x63 0 0 (leBytes 2 36 ++ leBytes 1 1 ++ leBytes 1 0 ++ leBytes 4 0x4 ++ leBytes 4 0x80 ++ leBytes 4 0x2
    ++ List.replicate 16 0)
/-- DIGESTS of slot 0. -/
def Dev.spdmDigests (d : Dev) : Dev := d.spdmSend 0x12 0x01 0 1 (fitBytes 48 (Config.sha384 Config.certChain))
/-- A portion of slot 0's chain. -/
def Dev.spdmCertificate (d : Dev) (off len : Nat) : Dev :=
  let total := Config.certChain.length
  if total ≤ off then d.spdmError 1
  else
    let n := min len (total - off)
    d.spdmSend 0x12 0x02 0 0 (leBytes 2 n ++ leBytes 2 (total - off - n) ++ (Config.certChain.drop off).take n)

/-- 32 bytes that the responder draws for its nonce. -/
def Dev.spdmNonce (d : Dev) : List Byte × Dev := let r := d.draw (2 ^ 256); (leBytes 32 r.1, r.2)
/-- Send a response that the identity key signs over the requester's nonce and the response. -/
def Dev.spdmSigned (d : Dev) (code p1 p2 : Nat) (nonce body : List Byte) : Dev :=
  let r := d.draw (2 ^ 64)
  r.2.spdmSend 0x12 code p1 p2 (body ++ fitBytes 96 (Config.ecdsaSign r.1 (nonce ++ body)))

/-- CHALLENGE_AUTH. -/
def Dev.spdmChallenge (d : Dev) (nonce : List Byte) : Dev :=
  let r := d.spdmNonce
  r.2.spdmSigned 0x03 0 1 (fitBytes 32 nonce) (fitBytes 48 (Config.sha384 Config.certChain) ++ r.1 ++ leBytes 2 0)

/-- MEASUREMENTS: index 0 asks for their number, 0xFF for all. -/
def Dev.spdmMeasurements (d : Dev) (i : Nat) (sign : Bool) (nonce : List Byte) : Dev :=
  let all := d.measAll
  let l := if i = 0 then some [] else if i = 255 then some all else (d.measAt i).map fun b => [b]
  match l with
  | none => d.spdmError 1
  | some bs =>
    let rec_ := bs.flatten
    let p1 := if i = 0 then all.length else 0
    let r := d.spdmNonce
    let body := leBytes 1 bs.length ++ leBytes 3 rec_.length ++ rec_ ++ r.1 ++ leBytes 2 0
    if sign then r.2.spdmSigned 0x60 p1 0 (fitBytes 32 nonce) body else r.2.spdmSend 0x12 0x60 p1 0 body

/-! ## ATTEST (R556) -/

/-- ATTEST: status, results and device; `busy` the security engine is occupied, `fail` the host's memory failed. -/
def Dev.attest (d : Dev) (f : Nat) (busy fail : Bool) : Nat × List Nat × Dev :=
  let what := d.mbArg f 3
  let l := if what = 0 then Config.certChain else d.measAll.flatten
  if 2 ≤ what then (3, [], d)
  else if busy then (1, [], d)
  else if d.mbArg f 2 < l.length then (3, [], d)
  else if fail then (5, [], d)
  else (0, [l.length], { d with sent := d.sent ++ [.hostWrite f (d.mbArg f 0 + d.mbArg f 1 * 2 ^ 32) false false l] })

end Sys2Proof.Machine
end

