-- ==== Sys2Proof/Machine/RunHost.lean ====
section
/-! DEFINITION. The meanings of the commands of the host link: windows, link and function resets, ring pairs, mailbox
commands and SPDM requests (chapter 16). -/

namespace Sys2Proof.Machine

/-! ## The windows (R540, R565) -/

/-- Is the access a write, how many bytes does it span, and which does it write? -/
def WinOp.isWrite (op : WinOp) : Bool :=
  match op with
  | .read _ => false
  | .write _ => true
def WinOp.size (op : WinOp) : Nat :=
  match op with
  | .read n => n.toNat
  | .write l => l.length
def WinOp.data (op : WinOp) : List Byte :=
  match op with
  | .read _ => []
  | .write l => l

/-- The access of a window as one that arrives. -/
def winArr (q : Req) (a : Nat) (op : WinOp) : Arr :=
  { q := q, a := a, n := WinOp.size op, write := WinOp.isWrite op, data := WinOp.data op, late := false, from_ := none }

/-- A unit's access to the host window; a read's data goes back to it. -/
def hostWinStep (q : Req) (a : Nat) (op : WinOp) (ext : List Byte) (sp : Spine) (d : Dev) : Dev :=
  if !reqGone sp d q && tgtOf a == .host then
    let r := d.hostWin q a (WinOp.size op) (WinOp.isWrite op) (WinOp.data op) ext
    match r.1 with
    | .wait => r.2
    | o => r.2.answer (winArr q a op) o
  else d
/-- HOST_WINDOW_ACCESS (R540). -/
def execHostWindowAccess (q : Req) (a : BitVec 42) (op : WinOp) (ext : List Byte) (s : State) : Out :=
  wholeCmd s fun w => retryFences (w.1, hostWinStep q a.toNat op ext w.1 w.2)

/-- A unit's access to the fabric window; it is answered when the peer's frames are. -/
def fabWinStep (q : Req) (a : Nat) (op : WinOp) (sp : Spine) (d : Dev) : Dev :=
  if !reqGone sp d q && tgtOf a == .fabric then
    let r := d.fabWin sp q a (WinOp.size op) (WinOp.isWrite op) (WinOp.data op) true
    match r.1 with
    | .wait => r.2
    | o => r.2.answer (winArr q a op) o
  else d
/-- FABRIC_WINDOW_ACCESS (R565). -/
def execFabricWindowAccess (q : Req) (a : BitVec 42) (op : WinOp) (s : State) : Out :=
  wholeCmd s fun w => retryFences (w.1, fabWinStep q a.toNat op w.1 w.2)

/-! ## Link and function resets (R63, R64, R541, R571) -/

/-- PERST_N falls. -/
def Dev.perstFall (d : Dev) : Dev :=
  if d.perst then d else { d.linkReset.raise evHstLink hostUid with perst := true }
/-- PERST_N_ASSERT (R541). -/
def execPerstNAssert (s : State) : Out := devCmd s fun _ d => d.perstFall
/-- PERST_N_RELEASE (R63): the function answers configuration requests and its link may come up. -/
def execPerstNRelease (s : State) : Out := devCmd s fun _ d => { d with perst := false }
/-- The link goes down, or takes a hot reset. -/
def Dev.linkDown (d : Dev) : Dev := if d.fb F.HST_STATUS_LINK_UP then d.linkReset.raise evHstLink hostUid else d
/-- HOST_LINK_DOWN (R541). -/
def execHostLinkDown (s : State) : Out := devCmd s fun _ d => d.linkDown
/-- The link comes up at a generation and width. -/
def Dev.linkUp (d : Dev) (gen lanes : Nat) : Dev :=
  if d.perst || d.fb F.HST_STATUS_LINK_UP then d
  else (((d.setF F.HST_STATUS_LINK_UP 1).setF F.HST_STATUS_SPEED gen).setF F.HST_STATUS_WIDTH lanes).raise evHstLink hostUid
/-- HOST_LINK_UP (R571). -/
def execHostLinkUp (gen : BitVec 3) (lanes : BitVec 5) (s : State) : Out :=
  devCmd s fun _ d => d.linkUp gen.toNat lanes.toNat
/-- A reset of a function that is there. -/
def Dev.fnReset (d : Dev) (f : Nat) : Dev := if d.fnEnabled f then d.flr f else d
/-- FUNCTION_LEVEL_RESET (R541). -/
def execFunctionLevelReset (f : Fin 17) (s : State) : Out := devCmd s fun _ d => d.fnReset f.val

/-! ## Configuration space (R63, R535, R536) -/

/-- A word of configuration space: vendor and device, revision; the rest is open. -/
def Dev.cfgWord (d : Dev) (f off : Nat) : Nat × Dev :=
  if f = 0 ∧ off = 0 then (Config.vendorId % 65536 + 0x9416 * 65536, d)
  else
    let r := d.draw (2 ^ 32)
    if f = 0 ∧ off = 8 then (setBits r.1 0 8 (d.f F.HST_ID_STEP), r.2) else r

/-- Enable VFs 1 to `n`, and no other. -/
def Dev.vfEnable (d : Dev) (n : Nat) : Dev :=
  (List.range 16).foldl (fun d i => d.setFn (i + 1) (if i < n then { d.fnCfg (i + 1) with vf := true } else FnCfg.reset)) d

/-- A configuration request of the host. -/
def Dev.cfgReq (d : Dev) (f : Nat) (op : CfgOp) : Dev :=
  if d.perst || !d.fnEnabled f then d
  else
    match op with
    | .read off =>
      let r := d.cfgWord f off.toNat
      { r.2 with sent := r.2.sent ++ [.cfgRead f off.toNat (BitVec.ofNat 32 r.1)] }
    | .msix en mask => (d.setFn f { d.fnCfg f with msixEn := en, msixMask := mask }).msixFlush
    | .power d3 => (d.setFn f { d.fnCfg f with d3 := d3 }).msixFlush
    | .sriov n => if f = 0 then d.vfEnable n.toNat else d
    | .other _ _ => d
/-- CONFIGURATION_REQUEST (R63). -/
def execConfigurationRequest (f : Fin 17) (op : CfgOp) (s : State) : Out :=
  wholeCmd s fun w => retryFences (w.1, w.2.cfgReq f.val op)

/-! ## BARs, doorbells and vectors (R537 to R548) -/

/-- The host's access to HBM through BAR2; before DORMANT and in a package fault reads return zero and writes are
dropped. -/
def bar2Step (op : WinOp) (a : Nat) (sp : Spine) (d : Dev) : Dev :=
  let tx := fun (d : Dev) (l : List Byte) (poison : Bool) => ({ d with sent := d.sent ++ [.bar2 l poison] } : Dev)
  if hostFull (sp, d) then
    let r := d.unitAcc sp hostReq a (WinOp.size op) (WinOp.isWrite op) (WinOp.data op) false false
    if WinOp.isWrite op then r.2
    else
      match r.1 with
      | .ok l => tx r.2 l false
      | .err => tx r.2 [] true
      | _ => tx r.2 (List.replicate (WinOp.size op) 0) false
  else if WinOp.isWrite op then d
  else tx d (List.replicate (WinOp.size op) 0) false
/-- BAR2_ACCESS (R539). -/
def execBar2Access (op : WinOp) (a : BitVec 34) (ecc : Ecc) (s : State) : Out := devCmd s fun sp d => bar2Step op a.toNat sp (d.upset ecc)

/-- DOORBELL_TAIL (R543). -/
def execDoorbellTail (f : Fin 17) (k : Fin 256) (v : BitVec 16) (s : State) : Out :=
  wholeCmd s (hostWriteBytes f.val (0xD000 + 8 * k.val) (leBytes 4 v.toNat))
/-- DOORBELL_HEAD (R544). -/
def execDoorbellHead (f : Fin 17) (k : Fin 256) (v : BitVec 16) (s : State) : Out :=
  wholeCmd s (hostWriteBytes f.val (0xD004 + 8 * k.val) (leBytes 4 v.toNat))

/-- A step of the ring engine while the PCI Express function is in service. -/
def ringActs (f : Spine → Dev → Dev) (sp : Spine) (d : Dev) : Dev := if sp.contain.out hostUid then d else f sp d
/-- H2D_ENTRY (R543); `e` what the host's memory holds there, `fail` that it could not be read. -/
def execH2dEntry (k : Fin 256) (e : List Byte) (fail : Bool) (s : State) : Out :=
  devCmd s (ringActs fun sp d => d.h2dEntry sp k.val e fail)
/-- D2H_ENTRY (R544). -/
def execD2hEntry (k : Fin 256) (fail : Bool) (s : State) : Out := devCmd s (ringActs fun _ d => d.d2hEntry k.val fail)
/-- MSIX_UNMASK (R548). -/
def execMsixUnmask (vec : BitVec 11) (s : State) : Out :=
  devCmd s fun _ d => d.msixWrite vec.toNat 3 (d.msixWord vec.toNat 3 &&& ~~~1)

/-! ## Mailbox commands (R551 to R556) -/

/-- May the device execute a command now: before DORMANT and in a package fault the boot ROM's set only (R28, R59,
R549)? -/
def mbOpen (sp : Spine) (d : Dev) (cmd : Nat) : Bool :=
  hostFull (sp, d) || cmd == 1 || cmd == 2 || cmd == 3 || cmd == 8
/-- Execute the command at the front of the mailboxes, if its code is `cmd`. -/
def mbCmd (cmd : Nat) (run : Spine → Nat → Dev → Nat × List Nat × Dev) (s : State) : Out :=
  devCmd s fun sp d => d.mbRun cmd fun f d => if mbOpen sp d cmd then run sp f d else (2, [], d)

/-- How many functions are WEDGED. -/
def Dev.wedgedCount (d : Dev) : Nat := ((List.range 134).filter fun n => d.fnState n == 5).length
/-- What GET_STATUS answers: the registers as a read gives them (TB_STATUS.TRAFFIC is worked out, R477). -/
def Dev.statusWords (sp : Spine) (d : Dev) : List Nat :=
  [(d.regValue sp .gso 0 F.GSO_MODE_MODE.addr).toNat, (d.regValue sp .gso 0x20 F.GSO_BOOT_STATUS_PHASE.addr).toNat,
    (d.regValue sp .tb 0 F.TB_STATUS_STATE.addr).toNat, d.wedgedCount, (d.regValue sp .hst 0 F.HST_ID_PART.addr).toNat]
/-- GET_STATUS (R551). -/
def execGetStatus (s : State) : Out := mbCmd 1 (fun sp _ d => (0, d.statusWords sp, d)) s
/-- STAGE_IMAGE (R555); `chunk` what the host's memory returns. -/
def execStageImage (chunk : List Byte) (fail : Bool) (s : State) : Out :=
  mbCmd 2 (fun _ f d => d.stageImage f chunk fail) s
/-- COMMIT_IMAGE (R85); `busy` the security engine is occupied, `err` the image offset of an xSPI error. -/
def execCommitImage (busy : Bool) (err : Option (BitVec 32)) (s : State) : Out :=
  mbCmd 3 (fun _ _ d => d.commitImage busy (err.map BitVec.toNat)) s
/-- MODE_REQUEST (R69). -/
def execModeRequest (s : State) : Out := mbCmd 4 (fun sp f d => let r := d.modeRequest sp (d.mbArg f 0); (r.1, [], r.2)) s
/-- FUNCTION_STOP (R84). -/
def execFunctionStop (s : State) : Out := mbCmd 5 (fun sp f d => let r := d.functionStop sp (d.mbArg f 0); (r.1, [], r.2)) s
/-- FUNCTION_START (R79). -/
def execFunctionStart (s : State) : Out :=
  mbCmd 6 (fun sp f d => let r := d.functionStart sp (d.mbArg f 0); (r.1, [], r.2)) s

/-- The read of a FUNCTION_CONFIG's records is sent once the command may be executed. -/
def Dev.configRead (d : Dev) (f n how cnt : Nat) : Dev :=
  if n < 134 ∧ how < 2 ∧ cnt ≤ 4096 ∧ d.fnState n < 2 ∧ cnt ≠ 0 then
    { d with sent := d.sent ++ [.hostRead f (d.mbArg f 2 + d.mbArg f 3 * 2 ^ 32) (16 * cnt) false false] }
  else d
/-- FUNCTION_CONFIG (R552); `recs` what the host's memory returns. -/
def execFunctionConfig (recs : List Byte) (fail : Bool) (s : State) : Out :=
  mbCmd 7 (fun _ f d =>
    let n := d.mbArg f 0
    let how := d.mbArg f 1
    let cnt := d.mbArg f 4
    let r := (d.configRead f n how cnt).functionConfig n how cnt (fitBytes (16 * cnt) recs) fail
    (r.1, [r.2.1], r.2.2)) s
/-- FULL_RESET (R553). -/
def execFullReset (s : State) : Out := mbCmd 8 (fun _ _ d => (0, [], { d with boot := { d.boot with due := true } })) s

/-- Set the trace control and the trace pair. -/
def Dev.traceControl (d : Dev) (f : Nat) : Nat × List Nat × Dev :=
  let v := d.mbArg f 0
  let k := d.mbArg f 1
  if bitAt v 1 ∧ (256 ≤ k ∨ d.f (F.HST_RING_CFG_TYPE k) ≠ 3 ∨ d.f (F.HST_RING_CFG_FN k) ≠ 0) then (3, [], d)
  else (0, [], { d.plainWrite F.ESL_TRC_CTRL_EN.addr (BitVec.ofNat 32 v) with tracePair := k })
/-- TRACE_CONTROL (R551). -/
def execTraceControl (s : State) : Out := mbCmd 9 (fun _ f d => d.traceControl f) s
/-- TRIGGER_SET (R554). -/
def execTriggerSet (s : State) : Out := mbCmd 10 (fun sp f d => d.triggerSet sp f) s
/-- ATTEST (R556); `busy` the security engine is occupied, `fail` the host's memory failed. -/
def execAttest (busy : Bool) (fail : Bool) (s : State) : Out := mbCmd 11 (fun _ f d => d.attest f busy fail) s

/-! ## SPDM over DOE (R557 to R559) -/

/-- An SPDM request, while the device answers them. -/
def spdmCmd (s : State) (f : Dev → Dev) : Out := devCmd s fun sp d => if d.spdmOn sp then f d else d

/-- GET_VERSION (R557). -/
def execGetVersion (s : State) : Out := spdmCmd s fun d => d.spdmVersion
/-- GET_CAPABILITIES (R557). -/
def execGetCapabilities (s : State) : Out := spdmCmd s fun d => d.spdmCapabilities
/-- NEGOTIATE_ALGORITHMS (R557). -/
def execNegotiateAlgorithms (s : State) : Out := spdmCmd s fun d => d.spdmAlgorithms
/-- GET_DIGESTS (R557). -/
def execGetDigests (s : State) : Out := spdmCmd s fun d => d.spdmDigests
/-- GET_CERTIFICATE (R558). -/
def execGetCertificate (off len : BitVec 16) (s : State) : Out := spdmCmd s fun d => d.spdmCertificate off.toNat len.toNat
/-- CHALLENGE (R558). -/
def execChallenge (nonce : List Byte) (s : State) : Out := spdmCmd s fun d => d.spdmChallenge nonce
/-- GET_MEASUREMENTS (R559). -/
def execGetMeasurements (index : BitVec 8) (sign : Bool) (nonce : List Byte) (s : State) : Out :=
  spdmCmd s fun d => d.spdmMeasurements index.toNat sign nonce
/-- UNSUPPORTED_REQUEST (R557): any other request; code 7. -/
def execUnsupportedRequest (code : BitVec 8) (s : State) : Out :=
  spdmCmd s fun d => if [0x84, 0xE1, 0xE3, 0x81, 0x82, 0x83, 0xE0].contains code.toNat then d else d.spdmError 7

end Sys2Proof.Machine
end

