-- ==== Sys2Proof/Machine/RunMem.lean ====
section
/-! DEFINITION. The meanings of the accesses that arrive at Palette banks and core memories, and of what the banks, Wash,
the HBM controller and the extent cache do by themselves (chapter 07). -/

namespace Sys2Proof.Machine

/-! ## Arrivals at a bank (R248, R257, R258) -/

/-- May the access arrive: a write that left its unit does, and otherwise its requester is in service. -/
def arrives (sp : Spine) (d : Dev) (x : Arr) : Bool := x.from_.isSome || !reqGone sp d x.q

/-- How many bytes an access spans. -/
def Arr.size (x : Arr) : Nat := if x.write then x.data.length else x.n

/-- The bank an access lies in, if it lies wholly in one. -/
def Arr.bank (x : Arr) : Option (Nat × Nat) :=
  match tgtOf x.a, tgtOf (x.a + (x.size - 1)) with
  | .bank r n, .bank r' n' => if x.size ≠ 0 ∧ r = r' ∧ n = n' then some (r, n) else none
  | _, _ => none

/-- After the outcome: a queued write leaves its queue, a read is answered; one that waits does so at the port. -/
def Dev.arrived (d : Dev) (r n : Nat) (x : Arr) (o : AccOut) : Dev :=
  match o with
  | .wait => d
  | o =>
    let d1 := (d.popArr x).answer x o
    match x.from_ with
    | some (k, _, _) => if viaPortA r n x.q then d1.mapBank r n fun b => { b with lastA := k } else d1
    | none => d1

/-- One access at a bank's port. -/
def Dev.bankArrive (sp : Spine) (d : Dev) (r n : Nat) (x : Arr) : AccOut × Dev :=
  let o := d.bankAcc sp r n x.q x.a x.n x.write x.data x.late x.from_.isSome
  (o.1, o.2.arrived r n x o.1)

/-- Has a core a write for a bank in its queues? -/
def Dev.queuesFor (d : Dev) (r n k : Nat) : Bool :=
  ((d.core k).portA ++ (d.core k).wb).any fun e => tgtOf e.addr == .bank r n

/-- Is it the turn of core `k`, whose write arrives through port A of a bank: no core after the one last served and before
it has one waiting (R257)? -/
def Dev.turnOf (d : Dev) (r n k : Nat) : Bool :=
  let base := if n < 48 then r * 24 + n / 8 * 4 else r * 24
  let m := if n < 48 then 4 else 24
  let first := if base ≤ (d.bank r n).lastA then ((d.bank r n).lastA - base + 1) % m else 0
  let at_ := fun (x : Nat) => (x + m - first) % m
  (List.range m).all fun i => decide (at_ (k - base) ≤ at_ i) || !d.queuesFor r n (base + i)

/-- The bytes that two writes both write to word `w`, differing: the words of a bank are 8 bytes. -/
def wordsDiffer (x y : Arr) (w : Nat) : Bool :=
  (List.range 8).any fun i =>
    let a := w * 8 + i
    decide (x.a ≤ a) && decide (y.a ≤ a) && decide (a < x.a + x.size) && decide (a < y.a + y.size)
      && x.data[a - x.a]? != y.data[a - y.a]?
/-- The words in which two writes collide, ascending. -/
def collisions (x y : Arr) : List Nat :=
  ((List.range (x.size / 8 + 2)).map (x.a / 8 + ·)).filter fun w => wordsDiffer x y w

/-- A collision: its event, the count, and the capture of the first until VALID is cleared. -/
def Dev.collide (d : Dev) (r n : Nat) (x y : Arr) (w : Nat) : Dev :=
  let d1 := (d.raise evPalCollide (bankUid r n) 0 0 n).countF (F.PAL_COLL_STATUS_COUNT r) 1
  if d1.fb (F.PAL_COLL_STATUS_VALID r) then d1
  else ((((d1.setF (F.PAL_COLL_STATUS_VALID r) 1).setF (F.PAL_COLL_STATUS_BANK r) n).setF (F.PAL_COLL_UID_UID_A r)
    x.q.uid.toNat).setF (F.PAL_COLL_UID_UID_B r) y.q.uid.toNat).setF (F.PAL_COLL_ADDR_WORD r) (w - bankBase r n / 8)

/-- The data of port B's write with the words it loses showing what memory holds. -/
def Dev.yields (d : Dev) (y : Arr) (l : List Nat) : Arr :=
  { y with data := y.data.mapIdx fun i b => if l.contains ((y.a + i) / 8) then d.byte (y.a + i) else b }

/-- Two accesses of one bank cycle, `x` through port A: a read sees the old data, and of two writes that differ in a word
A's lands (R258). -/
def Dev.bankPair (sp : Spine) (d : Dev) (r n : Nat) (x y : Arr) : Dev :=
  if x.write && y.write then
    let o := d.bankArrive sp r n x
    let l := match o.1 with
      | .ok _ => collisions x y
      | _ => []
    let p := o.2.bankArrive sp r n (o.2.yields y l)
    match p.1 with
    | .ok _ => l.foldl (fun d w => d.collide r n x y w) p.2
    | .wait => (o.2.bankArrive sp r n y).2
    | _ => p.2
  else if x.write then ((d.bankArrive sp r n y).2.bankArrive sp r n x).2
  else ((d.bankArrive sp r n x).2.bankArrive sp r n y).2

/-- May an access that arrives be served in its turn: a core's write through port A in that of its core (R257)? -/
def Dev.inTurn (d : Dev) (r n : Nat) (x : Arr) : Bool :=
  match x.from_ with
  | some (k, _, _) => !viaPortA r n x.q || d.turnOf r n k
  | none => true

/-- A core's write that waited in its write buffer reaches a memory or window that is no bank, core memory or register. -/
def writeLeaves (x : Arr) (w : Whole) : Whole := busPost x.q x.a x.data (w.1, w.2.popArr x)

/-- An access arrives at a bank, perhaps with one at its other port in the same cycle; or a core's write at the HBM, the hub
SRAM, the descriptor store or a window (log entry 53). -/
def paletteArrive (m : MemAcc) (peer : Option MemAcc) (w : Whole) : Whole :=
  let sp := w.1
  let d := w.2
  match d.arrival m with
  | none => w
  | some x =>
    match x.bank with
    | none =>
      (match x.from_, tgtOf x.a with
      | some _, .hbm | some _, .sram | some _, .store | some _, .host | some _, .fabric | some _, .bad => writeLeaves x w
      | _, _ => w)
    | some (r, n) =>
      if !arrives sp d x || !d.inTurn r n x then w
      else
        match peer.bind d.arrival with
        | none => (sp, (d.bankArrive sp r n x).2)
        | some y =>
          if arrives sp d y && d.inTurn r n y && y.bank == some (r, n) && viaPortA r n x.q != viaPortA r n y.q then
            (sp, if viaPortA r n x.q then d.bankPair sp r n x y else d.bankPair sp r n y x)
          else (sp, (d.bankArrive sp r n x).2)

/-- PALETTE_ACCESS (R248). -/
def execPaletteAccess (m : MemAcc) (ecc : Ecc) (peer : Option MemAcc) (s : State) : Out :=
  wholeCmd s fun w => retryFences (paletteArrive m peer (w.1, w.2.upset ecc))

/-- An access arrives at a core memory. -/
def cmemArrive (m : MemAcc) (sp : Spine) (d : Dev) : Dev :=
  match d.arrival m with
  | none => d
  | some x =>
    match tgtOf x.a with
    | .cmem k =>
      if arrives sp d x && x.size != 0 && tgtOf (x.a + (x.size - 1)) == .cmem k then
        let o := d.cmemAcc sp k x.q x.a x.n x.write x.data
        (o.2.popArr x).answer x o.1
      else d
    | _ => d
/-- CORE_MEMORY_ACCESS (R233). -/
def execCoreMemoryAccess (m : MemAcc) (ecc : Ecc) (s : State) : Out :=
  wholeCmd s fun w => retryFences (w.1, cmemArrive m w.1 (w.2.upset ecc))

/-! ## Handover and delegation (R250, R255) -/

/-- The drain request for a bank reaches its owner, or its delegate. -/
def Dev.drainArrival (d : Dev) (r n : Nat) (delegate : Bool) : Dev :=
  match (d.bank r n).drain with
  | none => d
  | some dr =>
    if delegate then
      if dr.delIn || !d.fb (F.PAL_DELEG_EN r n) then d
      else (d.mapBank r n fun b => { b with drain := some { dr with delIn := true } }).drainReaches
        (d.f (F.PAL_DELEG_DEL_UID r n)) (d.f (F.PAL_DELEG_DEL_CH r n)) r n
    else if dr.oldIn || !dr.own then d
    else (d.mapBank r n fun b => { b with drain := some { dr with oldIn := true } }).drainReaches
      (d.f (F.PAL_OWNER_OWNER r n)) (d.f (F.PAL_OWNER_OWNER_CH r n)) r n
/-- DRAIN_REQUEST_ARRIVAL (R250). -/
def execDrainRequestArrival (r : Fin 16) (n : Fin 52) (delegate : Bool) (s : State) : Out :=
  devCmd s fun _ d => d.drainArrival r.val n.val delegate

/-- The handover of a bank is complete. -/
def Dev.handoverDone (sp : Spine) (d : Dev) (r n : Nat) : Dev :=
  match (d.bank r n).drain with
  | some dr => if dr.own && d.drained sp r n dr then (d.finishHandover sp r n dr).captRetry sp else d
  | none => d
/-- HANDOVER_COMPLETE (R250). -/
def execHandoverComplete (r : Fin 16) (n : Fin 52) (s : State) : Out :=
  devCmd s fun sp d => d.handoverDone sp r.val n.val

/-- A delegation has drained: EN clears and the owner is admitted. -/
def Dev.delegationDone (sp : Spine) (d : Dev) (r n : Nat) : Dev :=
  match (d.bank r n).drain with
  | some dr =>
    if !dr.own && d.drained sp r n dr then
      (((d.setF (F.PAL_DELEG_EN r n) 0).mapBank r n fun b => { b with drain := none }).serveWaiting sp r n).captDrained sp r n
    else d
  | none => d
/-- DELEGATION_DRAINED (R255). -/
def execDelegationDrained (r : Fin 16) (n : Fin 52) (s : State) : Out :=
  devCmd s fun sp d => d.delegationDone sp r.val n.val

/-! ## Power (R260 to R262) -/

/-- RETENTION_ENTRY (R260). -/
def execRetentionEntry (r : Fin 16) (n : Fin 52) (s : State) : Out :=
  devCmd s fun sp d => d.retentionEntry sp r.val n.val false
/-- RETENTION_HOLD_EXPIRE (R260). -/
def execRetentionHoldExpire (r : Fin 16) (n : Fin 52) (s : State) : Out :=
  devCmd s fun sp d => d.retentionEntry sp r.val n.val true
/-- WAKE_DONE (R261). -/
def execWakeDone (r : Fin 16) (n : Fin 52) (s : State) : Out := devCmd s fun sp d => d.wakeDone sp r.val n.val
/-- POWER_OFF (R262). -/
def execPowerOff (r : Fin 16) (n : Fin 52) (s : State) : Out := devCmd s fun sp d => d.powerOff sp r.val n.val
/-- POWER_ON_DONE (R262). -/
def execPowerOnDone (r : Fin 16) (n : Fin 52) (s : State) : Out := devCmd s fun sp d => d.powerOnDone sp r.val n.val

/-! ## Wash, the scrub and the extent cache (R237, R243, R265, R270) -/

/-- WASH_BORROW (R265). -/
def execWashBorrow (t : WashTgt) (ecc : Ecc) (s : State) : Out := devCmd s fun sp d => (d.upset ecc).washBorrow sp t

/-- The test of the window or word that a sequencer holds ends; a word that failed a pattern quarantines its unit. -/
def washEnd (t : WashTgt) (fail : Bool) (w : Whole) : Whole :=
  if (w.2.washAt (washKey t)).map (·.tgt) = some t then
    if fail then washFault t (w.1, (w.2.washFail t).washDone w.1 t) else (w.1, w.2.washDone w.1 t)
  else w
/-- WASH_WINDOW_DONE (R265). -/
def execWashWindowDone (t : WashTgt) (fail : Bool) (s : State) : Out := wholeCmd s (washEnd t fail)

/-- HBM_SCRUB (R237). -/
def execHbmScrub (n : BitVec 30) (ecc : Ecc) (s : State) : Out :=
  devCmd s fun sp d => (d.upset ecc).hbmScrub sp n.toNat
/-- EXTENT_INVAL_DONE (R243). -/
def execExtentInvalDone (s : State) : Out := devCmd s fun _ d => d.extInvalDone

end Sys2Proof.Machine
end

