-- ==== Sys2Proof/Machine/RunScalar.lean ====
section
/-! DEFINITION. The meanings of the scalar and control instructions of the AK core (chapter 04): what each does at issue
is said in Scalar.lean and Control.lean, and how a bundle takes effect in Issue.lean. -/

namespace Sys2Proof.Machine

/-- ADD (R120). -/
def execAdd (h : Hd) (rd rs1 rs2 : Reg) (s : State) : Out := coreInstr (.add h rd rs1 rs2) s
/-- SUB (R120). -/
def execSub (h : Hd) (rd rs1 rs2 : Reg) (s : State) : Out := coreInstr (.sub h rd rs1 rs2) s
/-- AND (R120). -/
def execAnd (h : Hd) (rd rs1 rs2 : Reg) (s : State) : Out := coreInstr (.and h rd rs1 rs2) s
/-- OR (R120). -/
def execOr (h : Hd) (rd rs1 rs2 : Reg) (s : State) : Out := coreInstr (.or h rd rs1 rs2) s
/-- XOR (R120). -/
def execXor (h : Hd) (rd rs1 rs2 : Reg) (s : State) : Out := coreInstr (.xor h rd rs1 rs2) s
/-- SHL (R120). -/
def execShl (h : Hd) (rd rs1 rs2 : Reg) (s : State) : Out := coreInstr (.shl h rd rs1 rs2) s
/-- SHR (R120). -/
def execShr (h : Hd) (rd rs1 rs2 : Reg) (s : State) : Out := coreInstr (.shr h rd rs1 rs2) s
/-- SRA (R135). -/
def execSra (h : Hd) (rd rs1 rs2 : Reg) (s : State) : Out := coreInstr (.sra h rd rs1 rs2) s
/-- MIN (R120). -/
def execMin (h : Hd) (rd rs1 rs2 : Reg) (s : State) : Out := coreInstr (.min h rd rs1 rs2) s
/-- MAX (R120). -/
def execMax (h : Hd) (rd rs1 rs2 : Reg) (s : State) : Out := coreInstr (.max h rd rs1 rs2) s
/-- MINU (R120). -/
def execMinu (h : Hd) (rd rs1 rs2 : Reg) (s : State) : Out := coreInstr (.minu h rd rs1 rs2) s
/-- MAXU (R120). -/
def execMaxu (h : Hd) (rd rs1 rs2 : Reg) (s : State) : Out := coreInstr (.maxu h rd rs1 rs2) s
/-- ABS (R120). -/
def execAbs (h : Hd) (rd rs1 : Reg) (s : State) : Out := coreInstr (.abs h rd rs1) s
/-- CLZ (R120). -/
def execClz (h : Hd) (rd rs1 : Reg) (s : State) : Out := coreInstr (.clz h rd rs1) s
/-- CMPEQ (R120). -/
def execCmpeq (h : Hd) (pd : PReg) (rs1 rs2 : Reg) (s : State) : Out := coreInstr (.cmpeq h pd rs1 rs2) s
/-- CMPNE (R120). -/
def execCmpne (h : Hd) (pd : PReg) (rs1 rs2 : Reg) (s : State) : Out := coreInstr (.cmpne h pd rs1 rs2) s
/-- CMPLT (R120). -/
def execCmplt (h : Hd) (pd : PReg) (rs1 rs2 : Reg) (s : State) : Out := coreInstr (.cmplt h pd rs1 rs2) s
/-- CMPLTU (R120). -/
def execCmpltu (h : Hd) (pd : PReg) (rs1 rs2 : Reg) (s : State) : Out := coreInstr (.cmpltu h pd rs1 rs2) s
/-- CMPLE (R120). -/
def execCmple (h : Hd) (pd : PReg) (rs1 rs2 : Reg) (s : State) : Out := coreInstr (.cmple h pd rs1 rs2) s
/-- CMPLEU (R120). -/
def execCmpleu (h : Hd) (pd : PReg) (rs1 rs2 : Reg) (s : State) : Out := coreInstr (.cmpleu h pd rs1 rs2) s
/-- ADDI (R119). -/
def execAddi (h : Hd) (rd rs1 : Reg) (imm : BitVec 13) (s : State) : Out := coreInstr (.addi h rd rs1 imm) s
/-- ANDI (R119). -/
def execAndi (h : Hd) (rd rs1 : Reg) (imm : BitVec 13) (s : State) : Out := coreInstr (.andi h rd rs1 imm) s
/-- ORI (R119). -/
def execOri (h : Hd) (rd rs1 : Reg) (imm : BitVec 13) (s : State) : Out := coreInstr (.ori h rd rs1 imm) s
/-- XORI (R119). -/
def execXori (h : Hd) (rd rs1 : Reg) (imm : BitVec 13) (s : State) : Out := coreInstr (.xori h rd rs1 imm) s
/-- SHLI (R120). -/
def execShli (h : Hd) (rd rs1 : Reg) (sh : BitVec 5) (s : State) : Out := coreInstr (.shli h rd rs1 sh) s
/-- SHRI (R120). -/
def execShri (h : Hd) (rd rs1 : Reg) (sh : BitVec 5) (s : State) : Out := coreInstr (.shri h rd rs1 sh) s
/-- SRAI (R135). -/
def execSrai (h : Hd) (rd rs1 : Reg) (sh : BitVec 5) (s : State) : Out := coreInstr (.srai h rd rs1 sh) s
/-- CMPI (R119). -/
def execCmpi (h : Hd) (cond : BitVec 2) (pd : PReg) (rs1 : Reg) (imm : BitVec 13) (s : State) : Out := coreInstr (.cmpi h cond pd rs1 imm) s
/-- MOVI (R119). -/
def execMovi (h : Hd) (rd : Reg) (hi : Bool) (imm : BitVec 16) (s : State) : Out := coreInstr (.movi h rd hi imm) s
/-- MUL (R120). -/
def execMul (h : Hd) (rd rs1 rs2 : Reg) (s : State) : Out := coreInstr (.mul h rd rs1 rs2) s
/-- MULH (R120). -/
def execMulh (h : Hd) (rd rs1 rs2 : Reg) (s : State) : Out := coreInstr (.mulh h rd rs1 rs2) s
/-- MULHU (R120). -/
def execMulhu (h : Hd) (rd rs1 rs2 : Reg) (s : State) : Out := coreInstr (.mulhu h rd rs1 rs2) s
/-- MACA_HH (R136). -/
def execMacaHh (h : Hd) (ad : AReg) (rs1 rs2 : Reg) (s : State) : Out := coreInstr (.macaHh h ad rs1 rs2) s
/-- MSUA_HH (R136). -/
def execMsuaHh (h : Hd) (ad : AReg) (rs1 rs2 : Reg) (s : State) : Out := coreInstr (.msuaHh h ad rs1 rs2) s
/-- MACA_B4 (R120). -/
def execMacaB4 (h : Hd) (ad : AReg) (rs1 rs2 : Reg) (s : State) : Out := coreInstr (.macaB4 h ad rs1 rs2) s
/-- ACLR (R120). -/
def execAclr (h : Hd) (ad : AReg) (s : State) : Out := coreInstr (.aclr h ad) s
/-- AMOVG (R120). -/
def execAmovg (h : Hd) (ad : AReg) (rs1 : Reg) (s : State) : Out := coreInstr (.amovg h ad rs1) s
/-- ANARROW (R137). -/
def execAnarrow (h : Hd) (rd : Reg) (as : AReg) (sh : BitVec 5) (s : State) : Out := coreInstr (.anarrow h rd as sh) s
/-- AHI (R120). -/
def execAhi (h : Hd) (rd : Reg) (as : AReg) (s : State) : Out := coreInstr (.ahi h rd as) s
/-- MAXI (R138). -/
def execMaxi (h : Hd) (rd rs1 rs2 : Reg) (s : State) : Out := coreInstr (.maxi h rd rs1 rs2) s
/-- MINI (R138). -/
def execMini (h : Hd) (rd rs1 rs2 : Reg) (s : State) : Out := coreInstr (.mini h rd rs1 rs2) s
/-- MAXIU (R138). -/
def execMaxiu (h : Hd) (rd rs1 rs2 : Reg) (s : State) : Out := coreInstr (.maxiu h rd rs1 rs2) s
/-- MINIU (R138). -/
def execMiniu (h : Hd) (rd rs1 rs2 : Reg) (s : State) : Out := coreInstr (.miniu h rd rs1 rs2) s
/-- LD (R131). -/
def execLd (h : Hd) (rd rb : Reg) (m : MForm) (s : State) : Out := coreInstr (.ld h rd rb m) s
/-- ST (R131). -/
def execSt (h : Hd) (rd rb : Reg) (m : MForm) (s : State) : Out := coreInstr (.st h rd rb m) s
/-- BR (R139). -/
def execBr (h : Hd) (off : BitVec 22) (s : State) : Out := coreInstr (.br h off) s
/-- CALL (R139). -/
def execCall (h : Hd) (off : BitVec 26) (s : State) : Out := coreInstr (.call h off) s
/-- JR (R139). -/
def execJr (h : Hd) (rs1 : Reg) (s : State) : Out := coreInstr (.jr h rs1) s
/-- JALR (R139). -/
def execJalr (h : Hd) (rd rs1 : Reg) (s : State) : Out := coreInstr (.jalr h rd rs1) s
/-- LOOP (R141). -/
def execLoop (h : Hd) (len1 : BitVec 8) (r : Bool) (cnt : BitVec 14) (s : State) : Out := coreInstr (.loop h len1 r cnt) s
/-- LOOP_S (R143). -/
def execLoopS (h : Hd) (stg : BitVec 2) (len1 : BitVec 8) (r : Bool) (cnt : BitVec 14) (s : State) : Out := coreInstr (.loopS h stg len1 r cnt) s
/-- RPT (R142). -/
def execRpt (h : Hd) (r : Bool) (cnt : BitVec 14) (s : State) : Out := coreInstr (.rpt h r cnt) s
/-- NOP (R120). -/
def execNop (h : Hd) (s : State) : Out := coreInstr (.nop h) s
/-- FENCE_W (R155). -/
def execFenceW (h : Hd) (s : State) : Out := coreInstr (.fenceW h) s
/-- CLEAN (R154). -/
def execClean (h : Hd) (rs1 rs2 : Reg) (s : State) : Out := coreInstr (.clean h rs1 rs2) s
/-- INVAL (R154). -/
def execInval (h : Hd) (rs1 rs2 : Reg) (s : State) : Out := coreInstr (.inval h rs1 rs2) s
/-- FLUSH (R154). -/
def execFlush (h : Hd) (rs1 rs2 : Reg) (s : State) : Out := coreInstr (.flush h rs1 rs2) s
/-- CLEAN_ALL (R154). -/
def execCleanAll (h : Hd) (s : State) : Out := coreInstr (.cleanAll h) s
/-- FLUSH_ALL (R154). -/
def execFlushAll (h : Hd) (s : State) : Out := coreInstr (.flushAll h) s
/-- MFC (R109). -/
def execMfc (h : Hd) (rd : Reg) (csr : BitVec 12) (s : State) : Out := coreInstr (.mfc h rd csr) s
/-- MTC (R123). -/
def execMtc (h : Hd) (rs : Reg) (csr : BitVec 12) (s : State) : Out := coreInstr (.mtc h rs csr) s
/-- TRAP (R145). -/
def execTrap (h : Hd) (code : BitVec 12) (s : State) : Out := coreInstr (.trap h code) s
/-- ERET (R147). -/
def execEret (h : Hd) (s : State) : Out := coreInstr (.eret h) s
/-- WFI (R151). -/
def execWfi (h : Hd) (s : State) : Out := coreInstr (.wfi h) s
/-- PCLR (R120). -/
def execPclr (h : Hd) (pd : PReg) (s : State) : Out := coreInstr (.pclr h pd) s

end Sys2Proof.Machine
end

