-- ==== Sys2Proof/Machine/RunTime.lean ====
section
/-! DEFINITION. The meanings of the commands of the timebase, the triggers, Glaze and the trim outputs (chapters 13, 14
and 15). -/

namespace Sys2Proof.Machine

/-! ## Reference and servo -/

/-- The monitor declares the reference lost; one already lost is not lost again. -/
def Dev.refMonitor (d : Dev) : Dev := if bitAt (d.f F.TB_STATUS_HCAUSE) 1 then d else d.refLost
/-- REF_LOSS (R473). -/
def execRefLoss (s : State) : Out := devCmd s fun _ d => d.refMonitor
/-- The PLL locks again; to a recovered clock that is squelched it cannot. -/
def Dev.refRelock (sp : Spine) (d : Dev) : Dev := if d.fb F.TB_REF_CFG_SEL && d.squelch then d else d.refLocked sp
/-- REF_RELOCK (R473). -/
def execRefRelock (s : State) : Out := devCmd s fun sp d => d.refRelock sp
/-- PPS_IN_EDGE (R487). -/
def execPpsInEdge (rising : Bool) (s : State) : Out := devCmd s fun sp d => d.ppsIn sp rising

/-- The end of a cycle: progress, and the end of STOPPING. -/
def Dev.servoPass (sp : Spine) (d : Dev) : Dev :=
  let d1 := d.progress sp 128
  if d1.fnState 128 = 4 then d1.fnStopped sp 128 else d1
/-- A servo cycle: the committed sample is judged, and may step the time. -/
def servoCycle (w : Whole) : Whole :=
  if w.2.fnActive 128 then
    match w.2.tb.sample with
    | none => (w.1, w.2.servoPass w.1)
    | some x =>
      let r := w.2.servoSample w.1 x
      let v := match r.2 with
        | some y => stepTime w.1 r.1 (y * ((2 ^ 32 : Nat) : Int))
        | none => (w.1, r.1)
      (v.1, v.2.servoPass v.1)
  else w
/-- SERVO_CYCLE (R475). -/
def execServoCycle (s : State) : Out := wholeCmd s servoCycle
/-- NO_INPUT_TIMEOUT (R480). -/
def execNoInputTimeout (s : State) : Out := devCmd s fun sp d => d.noInput sp

/-- A backward step has withheld its amount. -/
def Dev.stepEnd (sp : Spine) (d : Dev) : Dev := if d.fb F.TB_STATUS_STEPPING && d.tb.withhold == 0 then d.stepDone sp else d
/-- STEP_COMPLETE (R485). -/
def execStepComplete (s : State) : Out := devCmd s fun sp d => d.stepEnd sp
/-- PPS_OUT_RISE (R488). -/
def execPpsOutRise (s : State) : Out := devCmd s fun sp d => d.ppsRise sp
/-- PPS_OUT_FALL (R488). -/
def execPpsOutFall (s : State) : Out := devCmd s fun sp d => d.ppsFall sp
/-- TRIG_FIRE (R493). -/
def execTrigFire (n : Fin 256) (s : State) : Out := devCmd s fun sp d => d.trigFire sp n.val

/-! ## Glaze -/

/-- A step of Glaze while it is in service. -/
def glzActs (f : Spine → Dev → Dev) (sp : Spine) (d : Dev) : Dev := if sp.contain.out glzUid then d else f sp d

/-- ESTIMATE (R508). -/
def execEstimate (s : State) : Out := devCmd s (glzActs fun _ d => d.estimate)
/-- SWAP (R511). -/
def execSwap (s : State) : Out := devCmd s (glzActs fun sp d => d.swapEvent sp)
/-- SWAP_MISS (R511). -/
def execSwapMiss (c : Fin 48) (s : State) : Out := devCmd s (glzActs fun sp d => d.swapLate sp c.val)
/-- HOLD_CLEAR (R511). -/
def execHoldClear (c : Fin 48) (s : State) : Out := devCmd s (glzActs fun sp d => d.holdClear sp c.val)
/-- STALE (R513). -/
def execStale (c : Fin 48) (s : State) : Out := devCmd s (glzActs fun sp d => d.stale sp c.val)

/-- The account of a dispatcher in service starts again. -/
def Dev.floorWindow (sp : Spine) (d : Dev) (r : Nat) : Dev := if sp.contain.out (dispatcherUid r) then d else d.floorEnd sp r
/-- FLOOR_WINDOW_END (R506). -/
def execFloorWindowEnd (r : Fin 16) (s : State) : Out := devCmd s fun sp d => d.floorWindow sp r.val

/-- A service pass: progress, and the end of STOPPING once nothing is left to complete. -/
def Dev.glzService (sp : Spine) (d : Dev) : Dev :=
  if d.glzOn then
    let d1 := d.progress sp 129
    if d1.fnState 129 == 4 && d1.glzDrained then d1.fnStopped sp 129 else d1
  else d
/-- GLZ_SERVICE_PASS (R515). -/
def execGlzServicePass (s : State) : Out := devCmd s (glzActs fun sp d => d.glzService sp)
/-- GLAZE_FAULT (R515). -/
def execGlazeFault (s : State) : Out := wholeCmd s glazeFault
/-- LOOPBACK (R517). -/
def execLoopback (p : Fin 16) (med : BitVec 48) (frames : Fin 1025) (s : State) : Out :=
  devCmd s (glzActs fun sp d => d.loopback sp p.val med.toInt frames.val)
/-- OCXO_DWELL_END (R518). -/
def execOcxoDwellEnd (s : State) : Out := devCmd s (glzActs fun sp d => d.ocxoDwell sp)

/-- The steps of COMMISSION end, and with them COMMISSION. -/
def Dev.glzCommEnd (sp : Spine) (d : Dev) : Dev :=
  if d.f F.GLZ_STATUS_COMM_STEP = 3 ∧ d.glzOn ∧ d.calibDone sp then (d.commDone sp).commOver sp true else d
/-- GLZ_COMM_DONE (R516). -/
def execGlzCommDone (s : State) : Out := devCmd s (glzActs fun sp d => d.glzCommEnd sp)

/-! ## Trim outputs -/

/-- UPDATE_BOUNDARY (R523). -/
def execUpdateBoundary (s : State) : Out := devCmd s fun _ d => d.trimBoundary
/-- The hold of a major transition ends. -/
def Dev.deglitchEnd (d : Dev) (c : Nat) : Dev :=
  match (d.trimCh c).hold with
  | some v => d.mapTrim c fun x => { x with out := v, hold := none }
  | none => d
/-- DEGLITCH_END (R524). -/
def execDeglitchEnd (c : Fin 4) (s : State) : Out := devCmd s fun _ d => d.deglitchEnd c.val
/-- TRIM_WATCHDOG_EXPIRE (R530). -/
def execTrimWatchdogExpire (s : State) : Out := devCmd s fun sp d => d.wdogExpire sp
/-- A channel's service pass. -/
def Dev.trimService (sp : Spine) (d : Dev) (c : Nat) : Dev :=
  let d1 := d.progress sp (130 + c)
  if d1.fnState (130 + c) = 4 then d1.fnStopped sp (130 + c) else d1
/-- TRM_SERVICE_PASS (R527). -/
def execTrmServicePass (c : Fin 4) (s : State) : Out := devCmd s fun sp d => d.trimService sp c.val

end Sys2Proof.Machine
end

