-- ==== Sys2Proof/Machine/RunUnits.lean ====
section
/-! DEFINITION. The meanings of the commands of cores and coprocessors beside their instructions, of Easel, Gust and the
channel engines (chapters 04, 06, 08, 09 and 10). -/

namespace Sys2Proof.Machine

/-! ## Cores and coprocessors -/

/-- Firmware or the loader sets RUN of a core in service. -/
def Dev.coreRun (sp : Spine) (d : Dev) (k : Nat) : Dev := if sp.contain.out (coreUid k) then d else d.coreStart k
/-- CORE_RUN (R108). -/
def execCoreRun (k : CoreIx) (s : State) : Out := devCmd s fun sp d => d.coreRun sp k.val
/-- LOOP_END (R141). -/
def execLoopEnd (k : CoreIx) (s : State) : Out := devCmd s fun _ d => d.loopEnd k.val
/-- RPT_END (R142). -/
def execRptEnd (k : CoreIx) (s : State) : Out := devCmd s fun _ d => d.rptEnd k.val
/-- WFI_WAKE (R151). -/
def execWfiWake (k : CoreIx) (s : State) : Out := wholeCmd s (wfiWake k.val)
/-- INTERRUPT_TAKEN (R149). -/
def execInterruptTaken (k : CoreIx) (s : State) : Out := wholeCmd s (interrupt k.val)
/-- LOAD_RETURN (R132). -/
def execLoadReturn (k : CoreIx) (ecc : Ecc) (ext : List Byte) (s : State) : Out := wholeCmd s fun w => loadReturn k.val ext (w.1, w.2.upset ecc)
/-- CX_RESULT (R206). -/
def execCxResult (k : CoreIx) (rd : Reg) (s : State) : Out := wholeCmd s (cxResult k.val rd)
/-- CS_COMMIT (R219); `unit` names CS_1. -/
def execCsCommit (c : Fin 96) (unit : Bool) (s : State) : Out :=
  devCmd s fun sp d => if sp.contain.out (csUid c.val (b2n unit)) then d else csCommit c.val (b2n unit) d
/-- CS_UNIT_FAULT (R228). -/
def execCsUnitFault (c : Fin 96) (unit : Bool) (s : State) : Out := wholeCmd s (csFault c.val (b2n unit))

/-! ## Easel -/

/-- SUBMIT (R285). -/
def execSubmit (h : Hd) (rd rs1 : Reg) (s : State) : Out := coreInstr (.submit h rd rs1) s
/-- SUBMIT_T (R285). -/
def execSubmitT (h : Hd) (rd rs1 : Reg) (pd : PReg) (s : State) : Out := coreInstr (.submitT h rd rs1 pd) s
/-- CANCEL (R308). -/
def execCancel (h : Hd) (rd rs1 : Reg) (s : State) : Out := coreInstr (.cancel h rd rs1) s
/-- WAIT (R296). -/
def execWait (h : Hd) (s : State) : Out := coreInstr (.wait h) s
/-- DONE (R297). -/
def execDone (h : Hd) (rs1 : Reg) (s : State) : Out := coreInstr (.done h rs1) s

/-- A step of the store: not in a package fault; bundles that stall in SUBMIT then try again. -/
def storeStep (f : Spine → Dev → Dev) (w : Whole) : Whole :=
  if w.1.contain.pkg = 0 then retrySubmits (w.1, f w.1 w.2) else w

/-- TIME_RELEASE (R287). -/
def execTimeRelease (i : BitVec 16) (s : State) : Out := wholeCmd s (storeStep fun sp d => d.timeRelease sp i.toNat)
/-- PENDING_PLACE (R306). -/
def execPendingPlace (i : BitVec 16) (s : State) : Out := wholeCmd s (storeStep fun sp d => d.pendingPlace sp i.toNat)

/-- A region dispatcher makes a decision; a descriptor that it cannot read faults its task (R231). -/
def Dev.dispatch (d : Dev) (sp : Spine) (r lag : Nat) : Dev :=
  if sp.contain.out (dispatcherUid r) then d
  else
    let d0 := d.showCopy sp r lag
    let d1 := d0.decide_ sp r
    match (d0.readyList r).find? fun s => (d1.slot s).st == 4 with
    | some s =>
      (match d0.firstUe (slotAddr s) 64 with
      | some _ => (d0.eccRead (slotAddr s) 64).signalEnd s 4
      | none => d1.eccRead (slotAddr s) 64)
    | none => d1
/-- DISPATCH (R291). -/
def execDispatch (r : Fin 16) (lag : Fin 5) (ecc : Ecc) (s : State) : Out :=
  wholeCmd s (storeStep fun sp d => (d.upset ecc).dispatch sp r.val lag.val)

/-- COMPLETION (R298). -/
def execCompletion (i : BitVec 16) (s : State) : Out :=
  wholeCmd s fun w => if w.1.contain.pkg = 0 then retrySubmits (complete i.toNat w) else w
/-- LATE_START (R301). -/
def execLateStart (i : BitVec 16) (lag : Fin 5) (s : State) : Out :=
  wholeCmd s (storeStep fun sp d => d.lateStart sp i.toNat lag.val)
/-- MISS (R302). -/
def execMiss (i : BitVec 16) (lag : Fin 5) (s : State) : Out := wholeCmd s (storeStep fun sp d => d.miss sp i.toNat lag.val)
/-- SPILL_OFFER (R311). -/
def execSpillOffer (i : BitVec 16) (s : State) : Out := wholeCmd s (storeStep fun sp d => d.spillOffer sp i.toNat)

/-! ## Gust -/

/-- DESCRIPTOR_FETCH (R330). -/
def execDescriptorFetch (e : Fin 17) (n : Fin 64) (ecc : Ecc) (ext : List Byte) (s : State) : Out :=
  wholeCmd s fun w => gstFetchStep e.val n.val ext (w.1, w.2.upset ecc)
/-- COPY (R324). -/
def execCopy (e : Fin 17) (n : Fin 64) (ecc : Ecc) (ext : List Byte) (s : State) : Out :=
  wholeCmd s fun w => gstCopy e.val n.val ext (w.1, w.2.upset ecc)
/-- FILL (R325). -/
def execFill (e : Fin 17) (n : Fin 64) (s : State) : Out := devCmd s fun sp d => d.gstFill sp e.val n.val
/-- COMPARE (R326). -/
def execCompare (e : Fin 17) (n : Fin 64) (ecc : Ecc) (ext ext2 : List Byte) (s : State) : Out :=
  wholeCmd s fun w => gstCompare e.val n.val ext ext2 (w.1, w.2.upset ecc)
/-- FENCE (R327). -/
def execFence (e : Fin 17) (n : Fin 64) (s : State) : Out := devCmd s fun sp d => d.gstFence sp e.val n.val
/-- BURST_GRANT (R331). -/
def execBurstGrant (e : Fin 17) (s : State) : Out := devCmd s fun sp d => d.gstGrants sp e.val
/-- BURST_DONE (R333). -/
def execBurstDone (e : Fin 17) (n : Fin 64) (s : State) : Out := devCmd s fun sp d => d.gstBurstDone sp e.val n.val
/-- WRITE_RESPONSE (R334). -/
def execWriteResponse (e : Fin 17) (i : Nat) (ecc : Ecc) (s : State) : Out := wholeCmd s fun w => gstLand e.val i (w.1, w.2.upset ecc)
/-- GST_CHANNEL_FAULT (R346). -/
def execGstChannelFault (e : Fin 17) (n : Fin 64) (s : State) : Out := wholeCmd s (chanFault e.val n.val)
/-- HUB_ENGINE_FAULT (R346). -/
def execHubEngineFault (s : State) : Out := wholeCmd s hubGustFault

/-! ## Channel engines -/

/-- ENGINE_TASK_START (R350). -/
def execEngineTaskStart (r : Fin 16) (e : Fin 4) (ecc : Ecc) (ext : List Byte) (s : State) : Out :=
  wholeCmd s fun w => engStart r.val e.val ext (w.1, w.2.upset ecc)
/-- FFT (R362); the FFT engines are 0 and 1. -/
def execFft (r : Fin 16) (e : Fin 4) (ecc : Ecc) (ext : List Byte) (s : State) : Out :=
  wholeCmd s fun w => fftTask r.val e.val 0 ext (w.1, w.2.upset ecc)
/-- IFFT (R363). -/
def execIfft (r : Fin 16) (e : Fin 4) (ecc : Ecc) (ext : List Byte) (s : State) : Out :=
  wholeCmd s fun w => fftTask r.val e.val 1 ext (w.1, w.2.upset ecc)
/-- CZT (R365). -/
def execCzt (r : Fin 16) (e : Fin 4) (ecc : Ecc) (ext : List Byte) (s : State) : Out :=
  wholeCmd s fun w => fftTask r.val e.val 2 ext (w.1, w.2.upset ecc)
/-- LDPC_DECODE (R371). -/
def execLdpcDecode (r : Fin 16) (ecc : Ecc) (ext : List Byte) (s : State) : Out := wholeCmd s fun w => harqTask r.val 0 ext (w.1, w.2.upset ecc)
/-- POLAR_DECODE (R371). -/
def execPolarDecode (r : Fin 16) (ecc : Ecc) (ext : List Byte) (s : State) : Out := wholeCmd s fun w => polarTask r.val ext (w.1, w.2.upset ecc)
/-- TURBO_DECODE (R371). -/
def execTurboDecode (r : Fin 16) (ecc : Ecc) (ext : List Byte) (s : State) : Out := wholeCmd s fun w => harqTask r.val 2 ext (w.1, w.2.upset ecc)
/-- SMALL_BLOCK_DECODE (R371). -/
def execSmallBlockDecode (r : Fin 16) (ecc : Ecc) (ext : List Byte) (s : State) : Out := wholeCmd s fun w => smallTask r.val ext (w.1, w.2.upset ecc)
/-- TB_CRC (R373). -/
def execTbCrc (r : Fin 16) (ecc : Ecc) (ext : List Byte) (s : State) : Out := wholeCmd s fun w => tbCrcTask r.val ext (w.1, w.2.upset ecc)
/-- LDPC_ENCODE (R382). -/
def execLdpcEncode (r : Fin 16) (ecc : Ecc) (ext : List Byte) (s : State) : Out := wholeCmd s fun w => encTask r.val 0 ext (w.1, w.2.upset ecc)
/-- POLAR_ENCODE (R382). -/
def execPolarEncode (r : Fin 16) (ecc : Ecc) (ext : List Byte) (s : State) : Out := wholeCmd s fun w => encTask r.val 1 ext (w.1, w.2.upset ecc)
/-- TURBO_ENCODE (R382). -/
def execTurboEncode (r : Fin 16) (ecc : Ecc) (ext : List Byte) (s : State) : Out := wholeCmd s fun w => encTask r.val 2 ext (w.1, w.2.upset ecc)
/-- CONVOLUTIONAL_ENCODE (R382). -/
def execConvolutionalEncode (r : Fin 16) (ecc : Ecc) (ext : List Byte) (s : State) : Out :=
  wholeCmd s fun w => encTask r.val 3 ext (w.1, w.2.upset ecc)
/-- SMALL_CODE_ENCODE (R382). -/
def execSmallCodeEncode (r : Fin 16) (ecc : Ecc) (ext : List Byte) (s : State) : Out := wholeCmd s fun w => encTask r.val 4 ext (w.1, w.2.upset ecc)
/-- ENGINE_COMPLETION (R352). -/
def execEngineCompletion (r : Fin 16) (e : Fin 4) (s : State) : Out := wholeCmd s (engComplete r.val e.val)
/-- ENGINE_FAULT (R355). -/
def execEngineFault (r : Fin 16) (e : Fin 4) (s : State) : Out := wholeCmd s (engineFault r.val e.val)
/-- ENGINE_PARK (R356). -/
def execEnginePark (r : Fin 16) (e : Fin 4) (s : State) : Out := devCmd s fun _ d => d.engPark r.val e.val

end Sys2Proof.Machine
end

