-- ==== Sys2Proof/Machine/RunVector.lean ====
section
/-! DEFINITION. The meanings of the vector and floating-point instructions (chapter 05): what each does at issue is said
in Vector.lean and VecMem.lean. -/

namespace Sys2Proof.Machine

/-- VADD (R166). -/
def execVadd (h : Hd) (vd vs1 vs2 : Reg) (t : BitVec 3) (s : State) : Out := coreInstr (.vadd h vd vs1 vs2 t) s
/-- VSUB (R166). -/
def execVsub (h : Hd) (vd vs1 vs2 : Reg) (t : BitVec 3) (s : State) : Out := coreInstr (.vsub h vd vs1 vs2 t) s
/-- VAND (R166). -/
def execVand (h : Hd) (vd vs1 vs2 : Reg) (t : BitVec 3) (s : State) : Out := coreInstr (.vand h vd vs1 vs2 t) s
/-- VOR (R166). -/
def execVor (h : Hd) (vd vs1 vs2 : Reg) (t : BitVec 3) (s : State) : Out := coreInstr (.vor h vd vs1 vs2 t) s
/-- VXOR (R166). -/
def execVxor (h : Hd) (vd vs1 vs2 : Reg) (t : BitVec 3) (s : State) : Out := coreInstr (.vxor h vd vs1 vs2 t) s
/-- VSHL (R166). -/
def execVshl (h : Hd) (vd vs1 vs2 : Reg) (t : BitVec 3) (s : State) : Out := coreInstr (.vshl h vd vs1 vs2 t) s
/-- VSHR (R166). -/
def execVshr (h : Hd) (vd vs1 vs2 : Reg) (t : BitVec 3) (s : State) : Out := coreInstr (.vshr h vd vs1 vs2 t) s
/-- VSRA (R166). -/
def execVsra (h : Hd) (vd vs1 vs2 : Reg) (t : BitVec 3) (s : State) : Out := coreInstr (.vsra h vd vs1 vs2 t) s
/-- VSHLI (R166). -/
def execVshli (h : Hd) (vd vs1 : Reg) (imm : BitVec 5) (t : BitVec 3) (s : State) : Out := coreInstr (.vshli h vd vs1 imm t) s
/-- VSHRI (R166). -/
def execVshri (h : Hd) (vd vs1 : Reg) (imm : BitVec 5) (t : BitVec 3) (s : State) : Out := coreInstr (.vshri h vd vs1 imm t) s
/-- VSRAI (R166). -/
def execVsrai (h : Hd) (vd vs1 : Reg) (imm : BitVec 5) (t : BitVec 3) (s : State) : Out := coreInstr (.vsrai h vd vs1 imm t) s
/-- VMIN (R166). -/
def execVmin (h : Hd) (vd vs1 vs2 : Reg) (t : BitVec 3) (s : State) : Out := coreInstr (.vmin h vd vs1 vs2 t) s
/-- VMAX (R166). -/
def execVmax (h : Hd) (vd vs1 vs2 : Reg) (t : BitVec 3) (s : State) : Out := coreInstr (.vmax h vd vs1 vs2 t) s
/-- VABS (R166). -/
def execVabs (h : Hd) (vd vs1 : Reg) (t : BitVec 3) (s : State) : Out := coreInstr (.vabs h vd vs1 t) s
/-- VCMPEQ (R166). -/
def execVcmpeq (h : Hd) (pd : PReg) (vs1 vs2 : Reg) (t : BitVec 3) (s : State) : Out := coreInstr (.vcmpeq h pd vs1 vs2 t) s
/-- VCMPNE (R166). -/
def execVcmpne (h : Hd) (pd : PReg) (vs1 vs2 : Reg) (t : BitVec 3) (s : State) : Out := coreInstr (.vcmpne h pd vs1 vs2 t) s
/-- VCMPLT (R166). -/
def execVcmplt (h : Hd) (pd : PReg) (vs1 vs2 : Reg) (t : BitVec 3) (s : State) : Out := coreInstr (.vcmplt h pd vs1 vs2 t) s
/-- VCMPLE (R166). -/
def execVcmple (h : Hd) (pd : PReg) (vs1 vs2 : Reg) (t : BitVec 3) (s : State) : Out := coreInstr (.vcmple h pd vs1 vs2 t) s
/-- VMUL (R166). -/
def execVmul (h : Hd) (vd vs1 vs2 : Reg) (t : BitVec 3) (s : State) : Out := coreInstr (.vmul h vd vs1 vs2 t) s
/-- VMULW (R172). -/
def execVmulw (h : Hd) (hi : Bool) (vd vs1 vs2 : Reg) (t : BitVec 3) (s : State) : Out := coreInstr (.vmulw h hi vd vs1 vs2 t) s
/-- VCMULW (R173). -/
def execVcmulw (h : Hd) (hi cj : Bool) (vd vs1 vs2 : Reg) (t : BitVec 3) (s : State) : Out := coreInstr (.vcmulw h hi cj vd vs1 vs2 t) s
/-- DOT4 (R174). -/
def execDot4 (h : Hd) (vd vs1 vs2 : Reg) (t : BitVec 3) (s : State) : Out := coreInstr (.dot4 h vd vs1 vs2 t) s
/-- DOT4_A (R174). -/
def execDot4A (h : Hd) (vd vs1 vs2 : Reg) (t : BitVec 3) (s : State) : Out := coreInstr (.dot4A h vd vs1 vs2 t) s
/-- DOT2 (R174). -/
def execDot2 (h : Hd) (vd vs1 vs2 : Reg) (t : BitVec 3) (s : State) : Out := coreInstr (.dot2 h vd vs1 vs2 t) s
/-- DOT2_A (R174). -/
def execDot2A (h : Hd) (vd vs1 vs2 : Reg) (t : BitVec 3) (s : State) : Out := coreInstr (.dot2A h vd vs1 vs2 t) s
/-- CDOT (R175). -/
def execCdot (h : Hd) (hi cj acc : Bool) (vd vs1 vs2 : Reg) (t : BitVec 3) (s : State) : Out := coreInstr (.cdot h hi cj acc vd vs1 vs2 t) s
/-- VDAB_X (R170). -/
def execVdabX (h : Hd) (hi : Bool) (vd vs1 gs : Reg) (sh : BitVec 4) (s : State) : Out := coreInstr (.vdabX h hi vd vs1 gs sh) s
/-- VQADD (R180). -/
def execVqadd (h : Hd) (vd vs1 vs2 : Reg) (t : BitVec 3) (s : State) : Out := coreInstr (.vqadd h vd vs1 vs2 t) s
/-- VQSUB (R180). -/
def execVqsub (h : Hd) (vd vs1 vs2 : Reg) (t : BitVec 3) (s : State) : Out := coreInstr (.vqsub h vd vs1 vs2 t) s
/-- VQMUL (R181). -/
def execVqmul (h : Hd) (vd vs1 vs2 : Reg) (t : BitVec 3) (s : State) : Out := coreInstr (.vqmul h vd vs1 vs2 t) s
/-- VQNARROW (R182). -/
def execVqnarrow (h : Hd) (hi : Bool) (vd vs1 : Reg) (sh : BitVec 5) (t : BitVec 3) (s : State) : Out := coreInstr (.vqnarrow h hi vd vs1 sh t) s
/-- VMOV (R166). -/
def execVmov (h : Hd) (vd vs1 : Reg) (t : BitVec 3) (s : State) : Out := coreInstr (.vmov h vd vs1 t) s
/-- VSEL (R166). -/
def execVsel (h : Hd) (vd vs1 vs2 : Reg) (t : BitVec 3) (s : State) : Out := coreInstr (.vsel h vd vs1 vs2 t) s
/-- VPERM (R166). -/
def execVperm (h : Hd) (vd vs1 vs2 : Reg) (t : BitVec 3) (s : State) : Out := coreInstr (.vperm h vd vs1 vs2 t) s
/-- VBCAST (R166). -/
def execVbcast (h : Hd) (vd gs : Reg) (t : BitVec 3) (s : State) : Out := coreInstr (.vbcast h vd gs t) s
/-- VEXT (R166). -/
def execVext (h : Hd) (gd vs1 gs : Reg) (t : BitVec 3) (s : State) : Out := coreInstr (.vext h gd vs1 gs t) s
/-- VSETVL (R165). -/
def execVsetvl (h : Hd) (gd gs : Reg) (t : BitVec 3) (s : State) : Out := coreInstr (.vsetvl h gd gs t) s
/-- PAND (R166). -/
def execPand (h : Hd) (pd ps1 ps2 : PReg) (s : State) : Out := coreInstr (.pand h pd ps1 ps2) s
/-- POR (R166). -/
def execPor (h : Hd) (pd ps1 ps2 : PReg) (s : State) : Out := coreInstr (.por h pd ps1 ps2) s
/-- PXOR (R166). -/
def execPxor (h : Hd) (pd ps1 ps2 : PReg) (s : State) : Out := coreInstr (.pxor h pd ps1 ps2) s
/-- PANDN (R166). -/
def execPandn (h : Hd) (pd ps1 ps2 : PReg) (s : State) : Out := coreInstr (.pandn h pd ps1 ps2) s
/-- VMAXI (R177). -/
def execVmaxi (h : Hd) (gd vs1 : Reg) (t : BitVec 3) (s : State) : Out := coreInstr (.vmaxi h gd vs1 t) s
/-- VMINI (R177). -/
def execVmini (h : Hd) (gd vs1 : Reg) (t : BitVec 3) (s : State) : Out := coreInstr (.vmini h gd vs1 t) s
/-- VMAXI_C (R178). -/
def execVmaxiC (h : Hd) (gd vs1 gs : Reg) (t : BitVec 3) (s : State) : Out := coreInstr (.vmaxiC h gd vs1 gs t) s
/-- VMINI_C (R178). -/
def execVminiC (h : Hd) (gd vs1 gs : Reg) (t : BitVec 3) (s : State) : Out := coreInstr (.vminiC h gd vs1 gs t) s
/-- VDAB_N (R171). -/
def execVdabN (h : Hd) (vd vs1 vs2 gd : Reg) (s : State) : Out := coreInstr (.vdabN h vd vs1 vs2 gd) s
/-- VFADD (R184). -/
def execVfadd (h : Hd) (vd vs1 vs2 : Reg) (t : BitVec 3) (s : State) : Out := coreInstr (.vfadd h vd vs1 vs2 t) s
/-- VFSUB (R184). -/
def execVfsub (h : Hd) (vd vs1 vs2 : Reg) (t : BitVec 3) (s : State) : Out := coreInstr (.vfsub h vd vs1 vs2 t) s
/-- VFMUL (R184). -/
def execVfmul (h : Hd) (vd vs1 vs2 : Reg) (t : BitVec 3) (s : State) : Out := coreInstr (.vfmul h vd vs1 vs2 t) s
/-- VFMA (R184). -/
def execVfma (h : Hd) (vd vs1 vs2 : Reg) (t : BitVec 3) (s : State) : Out := coreInstr (.vfma h vd vs1 vs2 t) s
/-- VFMIN (R185). -/
def execVfmin (h : Hd) (vd vs1 vs2 : Reg) (t : BitVec 3) (s : State) : Out := coreInstr (.vfmin h vd vs1 vs2 t) s
/-- VFMAX (R185). -/
def execVfmax (h : Hd) (vd vs1 vs2 : Reg) (t : BitVec 3) (s : State) : Out := coreInstr (.vfmax h vd vs1 vs2 t) s
/-- VFCMPEQ (R185). -/
def execVfcmpeq (h : Hd) (pd : PReg) (vs1 vs2 : Reg) (t : BitVec 3) (s : State) : Out := coreInstr (.vfcmpeq h pd vs1 vs2 t) s
/-- VFCMPLT (R185). -/
def execVfcmplt (h : Hd) (pd : PReg) (vs1 vs2 : Reg) (t : BitVec 3) (s : State) : Out := coreInstr (.vfcmplt h pd vs1 vs2 t) s
/-- VFCVT_FI (R186). -/
def execVfcvtFi (h : Hd) (vd vs1 : Reg) (t : BitVec 3) (s : State) : Out := coreInstr (.vfcvtFi h vd vs1 t) s
/-- VFCVT_IF (R186). -/
def execVfcvtIf (h : Hd) (vd vs1 : Reg) (t : BitVec 3) (s : State) : Out := coreInstr (.vfcvtIf h vd vs1 t) s
/-- VFCVT_W (R186). -/
def execVfcvtW (h : Hd) (vd vs1 : Reg) (t : BitVec 3) (s : State) : Out := coreInstr (.vfcvtW h vd vs1 t) s
/-- VFCVT_N (R186). -/
def execVfcvtN (h : Hd) (vd vs1 : Reg) (t : BitVec 3) (s : State) : Out := coreInstr (.vfcvtN h vd vs1 t) s
/-- SCALAR_FORMS (R159). -/
def execScalarForms (h : Hd) (op : FOp) (fd fs1 fs2 : Reg) (t : BitVec 3) (s : State) : Out := coreInstr (.scalarForms h op fd fs1 fs2 t) s
/-- FMV_FG (R159). -/
def execFmvFg (h : Hd) (fd gs : Reg) (t : BitVec 3) (s : State) : Out := coreInstr (.fmvFg h fd gs t) s
/-- FMV_GF (R166). -/
def execFmvGf (h : Hd) (gd fs : Reg) (t : BitVec 3) (s : State) : Out := coreInstr (.fmvGf h gd fs t) s
/-- VLD (R196). -/
def execVld (h : Hd) (vd rb : Reg) (m : VForm) (s : State) : Out := coreInstr (.vld h vd rb m) s
/-- VST (R196). -/
def execVst (h : Hd) (vd rb : Reg) (m : VForm) (s : State) : Out := coreInstr (.vst h vd rb m) s
/-- VLDS (R196). -/
def execVlds (h : Hd) (vd rb rx : Reg) (sz : BitVec 2) (pi : Bool) (s : State) : Out := coreInstr (.vlds h vd rb rx sz pi) s
/-- VSTS (R196). -/
def execVsts (h : Hd) (vd rb rx : Reg) (sz : BitVec 2) (pi : Bool) (s : State) : Out := coreInstr (.vsts h vd rb rx sz pi) s
/-- VLDX (R197). -/
def execVldx (h : Hd) (vd rb vx : Reg) (sz : BitVec 2) (x : Bool) (sc : BitVec 2) (s : State) : Out := coreInstr (.vldx h vd rb vx sz x sc) s
/-- VSTX (R197). -/
def execVstx (h : Hd) (vd rb vx : Reg) (sz : BitVec 2) (x : Bool) (sc : BitVec 2) (s : State) : Out := coreInstr (.vstx h vd rb vx sz x sc) s

end Sys2Proof.Machine
end

