-- ==== Sys2Proof/Machine/Dispatch.lean ====
section
/-! DEFINITION. The meaning of every command, arm by arm. -/

namespace Sys2Proof.Machine

/-- The effect of a command on everything but the queue. -/
def exec (i : Instr) (s : State) : Host.Outcome State Fault Refusal :=
  match i with
  | .regWrite q a v => Sys2Proof.Machine.execRegWrite q a v s
  | .rclRead q a => Sys2Proof.Machine.execRclRead q a s
  | .readLowWord q a => Sys2Proof.Machine.execReadLowWord q a s
  | .unitFault uid more => Sys2Proof.Machine.execUnitFault uid more s
  | .clusterQuarantine c => Sys2Proof.Machine.execClusterQuarantine c s
  | .dieFence d => Sys2Proof.Machine.execDieFence d s
  | .packageFault src => Sys2Proof.Machine.execPackageFault src s
  | .pkgFaultResetTimer => Sys2Proof.Machine.execPkgFaultResetTimer s
  | .powerGood latch key => Sys2Proof.Machine.execPowerGood latch key s
  | .resetNRelease => Sys2Proof.Machine.execResetNRelease s
  | .resetNAssert => Sys2Proof.Machine.execResetNAssert s
  | .candidateLoad err => Sys2Proof.Machine.execCandidateLoad err s
  | .layerApply => Sys2Proof.Machine.execLayerApply s
  | .dormantReached => Sys2Proof.Machine.execDormantReached s
  | .autoStart => Sys2Proof.Machine.execAutoStart s
  | .modeRequest => Sys2Proof.Machine.execModeRequest s
  | .targetWrite q v => Sys2Proof.Machine.execTargetWrite q v s
  | .drainComplete => Sys2Proof.Machine.execDrainComplete s
  | .drainTimeout => Sys2Proof.Machine.execDrainTimeout s
  | .functionStart => Sys2Proof.Machine.execFunctionStart s
  | .functionStop => Sys2Proof.Machine.execFunctionStop s
  | .functionConfig recs fail => Sys2Proof.Machine.execFunctionConfig recs fail s
  | .watchdogExpire n => Sys2Proof.Machine.execWatchdogExpire n s
  | .stageImage chunk fail => Sys2Proof.Machine.execStageImage chunk fail s
  | .commitImage busy err => Sys2Proof.Machine.execCommitImage busy err s
  | .fullReset => Sys2Proof.Machine.execFullReset s
  | .fullResetDelayExpire => Sys2Proof.Machine.execFullResetDelayExpire s
  | .fullResetExecute => Sys2Proof.Machine.execFullResetExecute s
  | .pwrfailFall => Sys2Proof.Machine.execPwrfailFall s
  | .logFlushComplete => Sys2Proof.Machine.execLogFlushComplete s
  | .pwrfailRise => Sys2Proof.Machine.execPwrfailRise s
  | .coreRun k => Sys2Proof.Machine.execCoreRun k s
  | .add h rd rs1 rs2 => Sys2Proof.Machine.execAdd h rd rs1 rs2 s
  | .sub h rd rs1 rs2 => Sys2Proof.Machine.execSub h rd rs1 rs2 s
  | .and h rd rs1 rs2 => Sys2Proof.Machine.execAnd h rd rs1 rs2 s
  | .or h rd rs1 rs2 => Sys2Proof.Machine.execOr h rd rs1 rs2 s
  | .xor h rd rs1 rs2 => Sys2Proof.Machine.execXor h rd rs1 rs2 s
  | .shl h rd rs1 rs2 => Sys2Proof.Machine.execShl h rd rs1 rs2 s
  | .shr h rd rs1 rs2 => Sys2Proof.Machine.execShr h rd rs1 rs2 s
  | .sra h rd rs1 rs2 => Sys2Proof.Machine.execSra h rd rs1 rs2 s
  | .min h rd rs1 rs2 => Sys2Proof.Machine.execMin h rd rs1 rs2 s
  | .max h rd rs1 rs2 => Sys2Proof.Machine.execMax h rd rs1 rs2 s
  | .minu h rd rs1 rs2 => Sys2Proof.Machine.execMinu h rd rs1 rs2 s
  | .maxu h rd rs1 rs2 => Sys2Proof.Machine.execMaxu h rd rs1 rs2 s
  | .abs h rd rs1 => Sys2Proof.Machine.execAbs h rd rs1 s
  | .clz h rd rs1 => Sys2Proof.Machine.execClz h rd rs1 s
  | .cmpeq h pd rs1 rs2 => Sys2Proof.Machine.execCmpeq h pd rs1 rs2 s
  | .cmpne h pd rs1 rs2 => Sys2Proof.Machine.execCmpne h pd rs1 rs2 s
  | .cmplt h pd rs1 rs2 => Sys2Proof.Machine.execCmplt h pd rs1 rs2 s
  | .cmpltu h pd rs1 rs2 => Sys2Proof.Machine.execCmpltu h pd rs1 rs2 s
  | .cmple h pd rs1 rs2 => Sys2Proof.Machine.execCmple h pd rs1 rs2 s
  | .cmpleu h pd rs1 rs2 => Sys2Proof.Machine.execCmpleu h pd rs1 rs2 s
  | .addi h rd rs1 imm => Sys2Proof.Machine.execAddi h rd rs1 imm s
  | .andi h rd rs1 imm => Sys2Proof.Machine.execAndi h rd rs1 imm s
  | .ori h rd rs1 imm => Sys2Proof.Machine.execOri h rd rs1 imm s
  | .xori h rd rs1 imm => Sys2Proof.Machine.execXori h rd rs1 imm s
  | .shli h rd rs1 sh => Sys2Proof.Machine.execShli h rd rs1 sh s
  | .shri h rd rs1 sh => Sys2Proof.Machine.execShri h rd rs1 sh s
  | .srai h rd rs1 sh => Sys2Proof.Machine.execSrai h rd rs1 sh s
  | .cmpi h cond pd rs1 imm => Sys2Proof.Machine.execCmpi h cond pd rs1 imm s
  | .movi h rd hi imm => Sys2Proof.Machine.execMovi h rd hi imm s
  | .mul h rd rs1 rs2 => Sys2Proof.Machine.execMul h rd rs1 rs2 s
  | .mulh h rd rs1 rs2 => Sys2Proof.Machine.execMulh h rd rs1 rs2 s
  | .mulhu h rd rs1 rs2 => Sys2Proof.Machine.execMulhu h rd rs1 rs2 s
  | .macaHh h ad rs1 rs2 => Sys2Proof.Machine.execMacaHh h ad rs1 rs2 s
  | .msuaHh h ad rs1 rs2 => Sys2Proof.Machine.execMsuaHh h ad rs1 rs2 s
  | .macaB4 h ad rs1 rs2 => Sys2Proof.Machine.execMacaB4 h ad rs1 rs2 s
  | .aclr h ad => Sys2Proof.Machine.execAclr h ad s
  | .amovg h ad rs1 => Sys2Proof.Machine.execAmovg h ad rs1 s
  | .anarrow h rd as sh => Sys2Proof.Machine.execAnarrow h rd as sh s
  | .ahi h rd as => Sys2Proof.Machine.execAhi h rd as s
  | .maxi h rd rs1 rs2 => Sys2Proof.Machine.execMaxi h rd rs1 rs2 s
  | .mini h rd rs1 rs2 => Sys2Proof.Machine.execMini h rd rs1 rs2 s
  | .maxiu h rd rs1 rs2 => Sys2Proof.Machine.execMaxiu h rd rs1 rs2 s
  | .miniu h rd rs1 rs2 => Sys2Proof.Machine.execMiniu h rd rs1 rs2 s
  | .ld h rd rb m => Sys2Proof.Machine.execLd h rd rb m s
  | .st h rd rb m => Sys2Proof.Machine.execSt h rd rb m s
  | .br h off => Sys2Proof.Machine.execBr h off s
  | .call h off => Sys2Proof.Machine.execCall h off s
  | .jr h rs1 => Sys2Proof.Machine.execJr h rs1 s
  | .jalr h rd rs1 => Sys2Proof.Machine.execJalr h rd rs1 s
  | .loop h len1 r cnt => Sys2Proof.Machine.execLoop h len1 r cnt s
  | .loopS h stg len1 r cnt => Sys2Proof.Machine.execLoopS h stg len1 r cnt s
  | .rpt h r cnt => Sys2Proof.Machine.execRpt h r cnt s
  | .loopEnd k => Sys2Proof.Machine.execLoopEnd k s
  | .rptEnd k => Sys2Proof.Machine.execRptEnd k s
  | .nop h => Sys2Proof.Machine.execNop h s
  | .fenceW h => Sys2Proof.Machine.execFenceW h s
  | .clean h rs1 rs2 => Sys2Proof.Machine.execClean h rs1 rs2 s
  | .inval h rs1 rs2 => Sys2Proof.Machine.execInval h rs1 rs2 s
  | .flush h rs1 rs2 => Sys2Proof.Machine.execFlush h rs1 rs2 s
  | .cleanAll h => Sys2Proof.Machine.execCleanAll h s
  | .flushAll h => Sys2Proof.Machine.execFlushAll h s
  | .mfc h rd csr => Sys2Proof.Machine.execMfc h rd csr s
  | .mtc h rs csr => Sys2Proof.Machine.execMtc h rs csr s
  | .trap h code => Sys2Proof.Machine.execTrap h code s
  | .eret h => Sys2Proof.Machine.execEret h s
  | .wfi h => Sys2Proof.Machine.execWfi h s
  | .wfiWake k => Sys2Proof.Machine.execWfiWake k s
  | .pclr h pd => Sys2Proof.Machine.execPclr h pd s
  | .interruptTaken k => Sys2Proof.Machine.execInterruptTaken k s
  | .loadReturn k ecc ext => Sys2Proof.Machine.execLoadReturn k ecc ext s
  | .rcp h rd rs1 => Sys2Proof.Machine.execRcp h rd rs1 s
  | .rsqrt h rd rs1 => Sys2Proof.Machine.execRsqrt h rd rs1 s
  | .atan2 h rd rs1 rs2 => Sys2Proof.Machine.execAtan2 h rd rs1 rs2 s
  | .cdiv h rd rs1 rs2 => Sys2Proof.Machine.execCdiv h rd rs1 rs2 s
  | .log2 h rd rs1 => Sys2Proof.Machine.execLog2 h rd rs1 s
  | .exp2 h rd rs1 => Sys2Proof.Machine.execExp2 h rd rs1 s
  | .cxResult k rd => Sys2Proof.Machine.execCxResult k rd s
  | .chol h rc rs rt pd => Sys2Proof.Machine.execChol h rc rs rt pd s
  | .inv h rc rs rt pd => Sys2Proof.Machine.execInv h rc rs rt pd s
  | .sort h rc rs rt pd => Sys2Proof.Machine.execSort h rc rs rt pd s
  | .topk h rc rs rt pd => Sys2Proof.Machine.execTopk h rc rs rt pd s
  | .search h rc rs rt pd => Sys2Proof.Machine.execSearch h rc rs rt pd s
  | .csCommit c unit => Sys2Proof.Machine.execCsCommit c unit s
  | .csUnitFault c unit => Sys2Proof.Machine.execCsUnitFault c unit s
  | .vadd h vd vs1 vs2 t => Sys2Proof.Machine.execVadd h vd vs1 vs2 t s
  | .vsub h vd vs1 vs2 t => Sys2Proof.Machine.execVsub h vd vs1 vs2 t s
  | .vand h vd vs1 vs2 t => Sys2Proof.Machine.execVand h vd vs1 vs2 t s
  | .vor h vd vs1 vs2 t => Sys2Proof.Machine.execVor h vd vs1 vs2 t s
  | .vxor h vd vs1 vs2 t => Sys2Proof.Machine.execVxor h vd vs1 vs2 t s
  | .vshl h vd vs1 vs2 t => Sys2Proof.Machine.execVshl h vd vs1 vs2 t s
  | .vshr h vd vs1 vs2 t => Sys2Proof.Machine.execVshr h vd vs1 vs2 t s
  | .vsra h vd vs1 vs2 t => Sys2Proof.Machine.execVsra h vd vs1 vs2 t s
  | .vshli h vd vs1 imm t => Sys2Proof.Machine.execVshli h vd vs1 imm t s
  | .vshri h vd vs1 imm t => Sys2Proof.Machine.execVshri h vd vs1 imm t s
  | .vsrai h vd vs1 imm t => Sys2Proof.Machine.execVsrai h vd vs1 imm t s
  | .vmin h vd vs1 vs2 t => Sys2Proof.Machine.execVmin h vd vs1 vs2 t s
  | .vmax h vd vs1 vs2 t => Sys2Proof.Machine.execVmax h vd vs1 vs2 t s
  | .vabs h vd vs1 t => Sys2Proof.Machine.execVabs h vd vs1 t s
  | .vcmpeq h pd vs1 vs2 t => Sys2Proof.Machine.execVcmpeq h pd vs1 vs2 t s
  | .vcmpne h pd vs1 vs2 t => Sys2Proof.Machine.execVcmpne h pd vs1 vs2 t s
  | .vcmplt h pd vs1 vs2 t => Sys2Proof.Machine.execVcmplt h pd vs1 vs2 t s
  | .vcmple h pd vs1 vs2 t => Sys2Proof.Machine.execVcmple h pd vs1 vs2 t s
  | .vmul h vd vs1 vs2 t => Sys2Proof.Machine.execVmul h vd vs1 vs2 t s
  | .vmulw h hi vd vs1 vs2 t => Sys2Proof.Machine.execVmulw h hi vd vs1 vs2 t s
  | .vcmulw h hi cj vd vs1 vs2 t => Sys2Proof.Machine.execVcmulw h hi cj vd vs1 vs2 t s
  | .dot4 h vd vs1 vs2 t => Sys2Proof.Machine.execDot4 h vd vs1 vs2 t s
  | .dot4A h vd vs1 vs2 t => Sys2Proof.Machine.execDot4A h vd vs1 vs2 t s
  | .dot2 h vd vs1 vs2 t => Sys2Proof.Machine.execDot2 h vd vs1 vs2 t s
  | .dot2A h vd vs1 vs2 t => Sys2Proof.Machine.execDot2A h vd vs1 vs2 t s
  | .cdot h hi cj acc vd vs1 vs2 t => Sys2Proof.Machine.execCdot h hi cj acc vd vs1 vs2 t s
  | .vdabX h hi vd vs1 gs sh => Sys2Proof.Machine.execVdabX h hi vd vs1 gs sh s
  | .vqadd h vd vs1 vs2 t => Sys2Proof.Machine.execVqadd h vd vs1 vs2 t s
  | .vqsub h vd vs1 vs2 t => Sys2Proof.Machine.execVqsub h vd vs1 vs2 t s
  | .vqmul h vd vs1 vs2 t => Sys2Proof.Machine.execVqmul h vd vs1 vs2 t s
  | .vqnarrow h hi vd vs1 sh t => Sys2Proof.Machine.execVqnarrow h hi vd vs1 sh t s
  | .vmov h vd vs1 t => Sys2Proof.Machine.execVmov h vd vs1 t s
  | .vsel h vd vs1 vs2 t => Sys2Proof.Machine.execVsel h vd vs1 vs2 t s
  | .vperm h vd vs1 vs2 t => Sys2Proof.Machine.execVperm h vd vs1 vs2 t s
  | .vbcast h vd gs t => Sys2Proof.Machine.execVbcast h vd gs t s
  | .vext h gd vs1 gs t => Sys2Proof.Machine.execVext h gd vs1 gs t s
  | .vsetvl h gd gs t => Sys2Proof.Machine.execVsetvl h gd gs t s
  | .pand h pd ps1 ps2 => Sys2Proof.Machine.execPand h pd ps1 ps2 s
  | .por h pd ps1 ps2 => Sys2Proof.Machine.execPor h pd ps1 ps2 s
  | .pxor h pd ps1 ps2 => Sys2Proof.Machine.execPxor h pd ps1 ps2 s
  | .pandn h pd ps1 ps2 => Sys2Proof.Machine.execPandn h pd ps1 ps2 s
  | .vmaxi h gd vs1 t => Sys2Proof.Machine.execVmaxi h gd vs1 t s
  | .vmini h gd vs1 t => Sys2Proof.Machine.execVmini h gd vs1 t s
  | .vmaxiC h gd vs1 gs t => Sys2Proof.Machine.execVmaxiC h gd vs1 gs t s
  | .vminiC h gd vs1 gs t => Sys2Proof.Machine.execVminiC h gd vs1 gs t s
  | .vdabN h vd vs1 vs2 gd => Sys2Proof.Machine.execVdabN h vd vs1 vs2 gd s
  | .vfadd h vd vs1 vs2 t => Sys2Proof.Machine.execVfadd h vd vs1 vs2 t s
  | .vfsub h vd vs1 vs2 t => Sys2Proof.Machine.execVfsub h vd vs1 vs2 t s
  | .vfmul h vd vs1 vs2 t => Sys2Proof.Machine.execVfmul h vd vs1 vs2 t s
  | .vfma h vd vs1 vs2 t => Sys2Proof.Machine.execVfma h vd vs1 vs2 t s
  | .vfmin h vd vs1 vs2 t => Sys2Proof.Machine.execVfmin h vd vs1 vs2 t s
  | .vfmax h vd vs1 vs2 t => Sys2Proof.Machine.execVfmax h vd vs1 vs2 t s
  | .vfcmpeq h pd vs1 vs2 t => Sys2Proof.Machine.execVfcmpeq h pd vs1 vs2 t s
  | .vfcmplt h pd vs1 vs2 t => Sys2Proof.Machine.execVfcmplt h pd vs1 vs2 t s
  | .vfcvtFi h vd vs1 t => Sys2Proof.Machine.execVfcvtFi h vd vs1 t s
  | .vfcvtIf h vd vs1 t => Sys2Proof.Machine.execVfcvtIf h vd vs1 t s
  | .vfcvtW h vd vs1 t => Sys2Proof.Machine.execVfcvtW h vd vs1 t s
  | .vfcvtN h vd vs1 t => Sys2Proof.Machine.execVfcvtN h vd vs1 t s
  | .scalarForms h op fd fs1 fs2 t => Sys2Proof.Machine.execScalarForms h op fd fs1 fs2 t s
  | .fmvFg h fd gs t => Sys2Proof.Machine.execFmvFg h fd gs t s
  | .fmvGf h gd fs t => Sys2Proof.Machine.execFmvGf h gd fs t s
  | .vld h vd rb m => Sys2Proof.Machine.execVld h vd rb m s
  | .vst h vd rb m => Sys2Proof.Machine.execVst h vd rb m s
  | .vlds h vd rb rx sz pi => Sys2Proof.Machine.execVlds h vd rb rx sz pi s
  | .vsts h vd rb rx sz pi => Sys2Proof.Machine.execVsts h vd rb rx sz pi s
  | .vldx h vd rb vx sz x sc => Sys2Proof.Machine.execVldx h vd rb vx sz x sc s
  | .vstx h vd rb vx sz x sc => Sys2Proof.Machine.execVstx h vd rb vx sz x sc s
  | .submit h rd rs1 => Sys2Proof.Machine.execSubmit h rd rs1 s
  | .submitT h rd rs1 pd => Sys2Proof.Machine.execSubmitT h rd rs1 pd s
  | .cancel h rd rs1 => Sys2Proof.Machine.execCancel h rd rs1 s
  | .wait h => Sys2Proof.Machine.execWait h s
  | .done h rs1 => Sys2Proof.Machine.execDone h rs1 s
  | .timeRelease ix => Sys2Proof.Machine.execTimeRelease ix s
  | .pendingPlace ix => Sys2Proof.Machine.execPendingPlace ix s
  | .dispatch r lag ecc => Sys2Proof.Machine.execDispatch r lag ecc s
  | .completion ix => Sys2Proof.Machine.execCompletion ix s
  | .lateStart ix lag => Sys2Proof.Machine.execLateStart ix lag s
  | .miss ix lag => Sys2Proof.Machine.execMiss ix lag s
  | .eslKill q v => Sys2Proof.Machine.execEslKill q v s
  | .spillOffer ix => Sys2Proof.Machine.execSpillOffer ix s
  | .advertise => Sys2Proof.Machine.execAdvertise s
  | .paletteAccess m ecc peer => Sys2Proof.Machine.execPaletteAccess m ecc peer s
  | .coreMemoryAccess m ecc => Sys2Proof.Machine.execCoreMemoryAccess m ecc s
  | .handover q r n v more => Sys2Proof.Machine.execHandover q r n v more s
  | .drainRequestArrival r n delegate => Sys2Proof.Machine.execDrainRequestArrival r n delegate s
  | .handoverComplete r n => Sys2Proof.Machine.execHandoverComplete r n s
  | .delegation q r n v => Sys2Proof.Machine.execDelegation q r n v s
  | .delegationDrained r n => Sys2Proof.Machine.execDelegationDrained r n s
  | .powerRequest q r n v => Sys2Proof.Machine.execPowerRequest q r n v s
  | .retentionEntry r n => Sys2Proof.Machine.execRetentionEntry r n s
  | .retentionHoldExpire r n => Sys2Proof.Machine.execRetentionHoldExpire r n s
  | .wakeDone r n => Sys2Proof.Machine.execWakeDone r n s
  | .powerOff r n => Sys2Proof.Machine.execPowerOff r n s
  | .powerOnDone r n => Sys2Proof.Machine.execPowerOnDone r n s
  | .washBorrow t ecc => Sys2Proof.Machine.execWashBorrow t ecc s
  | .washWindowDone t fail => Sys2Proof.Machine.execWashWindowDone t fail s
  | .nolendWrite q r n w v => Sys2Proof.Machine.execNolendWrite q r n w v s
  | .hbmScrub n ecc => Sys2Proof.Machine.execHbmScrub n ecc s
  | .extentInval q v => Sys2Proof.Machine.execExtentInval q v s
  | .extentInvalDone => Sys2Proof.Machine.execExtentInvalDone s
  | .hostWindowAccess q a op ext => Sys2Proof.Machine.execHostWindowAccess q a op ext s
  | .fabricWindowAccess q a op => Sys2Proof.Machine.execFabricWindowAccess q a op s
  | .gstStart q e n => Sys2Proof.Machine.execGstStart q e n s
  | .gstStop q e n => Sys2Proof.Machine.execGstStop q e n s
  | .descriptorFetch e n ecc ext => Sys2Proof.Machine.execDescriptorFetch e n ecc ext s
  | .copy e n ecc ext => Sys2Proof.Machine.execCopy e n ecc ext s
  | .fill e n => Sys2Proof.Machine.execFill e n s
  | .compare e n ecc ext ext2 => Sys2Proof.Machine.execCompare e n ecc ext ext2 s
  | .fence e n => Sys2Proof.Machine.execFence e n s
  | .burstGrant e => Sys2Proof.Machine.execBurstGrant e s
  | .burstDone e n => Sys2Proof.Machine.execBurstDone e n s
  | .writeResponse e ix ecc => Sys2Proof.Machine.execWriteResponse e ix ecc s
  | .swreqWrite q r v => Sys2Proof.Machine.execSwreqWrite q r v s
  | .gstChannelFault e n => Sys2Proof.Machine.execGstChannelFault e n s
  | .hubEngineFault => Sys2Proof.Machine.execHubEngineFault s
  | .engineTaskStart r e ecc ext => Sys2Proof.Machine.execEngineTaskStart r e ecc ext s
  | .fft r e ecc ext => Sys2Proof.Machine.execFft r e ecc ext s
  | .ifft r e ecc ext => Sys2Proof.Machine.execIfft r e ecc ext s
  | .czt r e ecc ext => Sys2Proof.Machine.execCzt r e ecc ext s
  | .ldpcDecode r ecc ext => Sys2Proof.Machine.execLdpcDecode r ecc ext s
  | .polarDecode r ecc ext => Sys2Proof.Machine.execPolarDecode r ecc ext s
  | .turboDecode r ecc ext => Sys2Proof.Machine.execTurboDecode r ecc ext s
  | .smallBlockDecode r ecc ext => Sys2Proof.Machine.execSmallBlockDecode r ecc ext s
  | .tbCrc r ecc ext => Sys2Proof.Machine.execTbCrc r ecc ext s
  | .ldpcEncode r ecc ext => Sys2Proof.Machine.execLdpcEncode r ecc ext s
  | .polarEncode r ecc ext => Sys2Proof.Machine.execPolarEncode r ecc ext s
  | .turboEncode r ecc ext => Sys2Proof.Machine.execTurboEncode r ecc ext s
  | .convolutionalEncode r ecc ext => Sys2Proof.Machine.execConvolutionalEncode r ecc ext s
  | .smallCodeEncode r ecc ext => Sys2Proof.Machine.execSmallCodeEncode r ecc ext s
  | .engineCompletion r e => Sys2Proof.Machine.execEngineCompletion r e s
  | .engineFault r e => Sys2Proof.Machine.execEngineFault r e s
  | .enginePark r e => Sys2Proof.Machine.execEnginePark r e s
  | .captureStreamEnable q tx k v => Sys2Proof.Machine.execCaptureStreamEnable q tx k v s
  | .captureStall k => Sys2Proof.Machine.execCaptureStall k s
  | .nceSymbol n => Sys2Proof.Machine.execNceSymbol n s
  | .headerResult n => Sys2Proof.Machine.execHeaderResult n s
  | .replayEnd n => Sys2Proof.Machine.execReplayEnd n s
  | .abort q v => Sys2Proof.Machine.execAbort q v s
  | .recordWrite g => Sys2Proof.Machine.execRecordWrite g s
  | .lullReport n => Sys2Proof.Machine.execLullReport n s
  | .windowOpen n => Sys2Proof.Machine.execWindowOpen n s
  | .bt0HiWrite q n v => Sys2Proof.Machine.execBt0HiWrite q n v s
  | .txEntry g ecc => Sys2Proof.Machine.execTxEntry g ecc s
  | .txBurstDone n ecc => Sys2Proof.Machine.execTxBurstDone n ecc s
  | .nceServicePass => Sys2Proof.Machine.execNceServicePass s
  | .nceFault => Sys2Proof.Machine.execNceFault s
  | .fhRxFrame p fcs ptpIp err frame ecc => Sys2Proof.Machine.execFhRxFrame p fcs ptpIp err frame ecc s
  | .symbolClose q => Sys2Proof.Machine.execSymbolClose q s
  | .txrdyWrite q p v => Sys2Proof.Machine.execTxrdyWrite q p v s
  | .readinessCheck q c tie => Sys2Proof.Machine.execReadinessCheck q c tie s
  | .symbolSend q => Sys2Proof.Machine.execSymbolSend q s
  | .mgmtTx p err => Sys2Proof.Machine.execMgmtTx p err s
  | .ptpTxtsPop q p => Sys2Proof.Machine.execPtpTxtsPop q p s
  | .linkDown p => Sys2Proof.Machine.execLinkDown p s
  | .linkUp p => Sys2Proof.Machine.execLinkUp p s
  | .tsMeasurement p rx tx => Sys2Proof.Machine.execTsMeasurement p rx tx s
  | .tscapArm q p v => Sys2Proof.Machine.execTscapArm q p v s
  | .fhServicePass p => Sys2Proof.Machine.execFhServicePass p s
  | .refLoss => Sys2Proof.Machine.execRefLoss s
  | .refRelock => Sys2Proof.Machine.execRefRelock s
  | .offsetCommit q v => Sys2Proof.Machine.execOffsetCommit q v s
  | .ppsInEdge rising => Sys2Proof.Machine.execPpsInEdge rising s
  | .servoCycle => Sys2Proof.Machine.execServoCycle s
  | .noInputTimeout => Sys2Proof.Machine.execNoInputTimeout s
  | .stepGo q v => Sys2Proof.Machine.execStepGo q v s
  | .stepComplete => Sys2Proof.Machine.execStepComplete s
  | .ppsOutRise => Sys2Proof.Machine.execPpsOutRise s
  | .ppsOutFall => Sys2Proof.Machine.execPpsOutFall s
  | .trigArm q n v => Sys2Proof.Machine.execTrigArm q n v s
  | .trigDisarm q n v => Sys2Proof.Machine.execTrigDisarm q n v s
  | .trigFire n => Sys2Proof.Machine.execTrigFire n s
  | .tbNowRead q => Sys2Proof.Machine.execTbNowRead q s
  | .captureCommand q v => Sys2Proof.Machine.execCaptureCommand q v s
  | .estimateCommand q v => Sys2Proof.Machine.execEstimateCommand q v s
  | .estimate => Sys2Proof.Machine.execEstimate s
  | .nextTWrite q c v => Sys2Proof.Machine.execNextTWrite q c v s
  | .swap => Sys2Proof.Machine.execSwap s
  | .swapMiss c => Sys2Proof.Machine.execSwapMiss c s
  | .holdClear c => Sys2Proof.Machine.execHoldClear c s
  | .stale c => Sys2Proof.Machine.execStale c s
  | .floorWindowEnd r => Sys2Proof.Machine.execFloorWindowEnd r s
  | .glzServicePass => Sys2Proof.Machine.execGlzServicePass s
  | .glazeFault => Sys2Proof.Machine.execGlazeFault s
  | .loopback p med frames => Sys2Proof.Machine.execLoopback p med frames s
  | .ocxoDwellEnd => Sys2Proof.Machine.execOcxoDwellEnd s
  | .glzCommDone => Sys2Proof.Machine.execGlzCommDone s
  | .codeReq q c v => Sys2Proof.Machine.execCodeReq q c v s
  | .updateBoundary => Sys2Proof.Machine.execUpdateBoundary s
  | .deglitchEnd c => Sys2Proof.Machine.execDeglitchEnd c s
  | .kick q v => Sys2Proof.Machine.execKick q v s
  | .timeoutWrite q v => Sys2Proof.Machine.execTimeoutWrite q v s
  | .trimWatchdogExpire => Sys2Proof.Machine.execTrimWatchdogExpire s
  | .trmServicePass c => Sys2Proof.Machine.execTrmServicePass c s
  | .perstNAssert => Sys2Proof.Machine.execPerstNAssert s
  | .hostLinkDown => Sys2Proof.Machine.execHostLinkDown s
  | .hostLinkUp gen lanes => Sys2Proof.Machine.execHostLinkUp gen lanes s
  | .functionLevelReset f => Sys2Proof.Machine.execFunctionLevelReset f s
  | .hostBarWrite f off data => Sys2Proof.Machine.execHostBarWrite f off data s
  | .bar2Access op a ecc => Sys2Proof.Machine.execBar2Access op a ecc s
  | .doorbellTail f k v => Sys2Proof.Machine.execDoorbellTail f k v s
  | .doorbellHead f k v => Sys2Proof.Machine.execDoorbellHead f k v s
  | .h2dEntry k e fail => Sys2Proof.Machine.execH2dEntry k e fail s
  | .d2hEntry k fail => Sys2Proof.Machine.execD2hEntry k fail s
  | .outWrAdvance q k v => Sys2Proof.Machine.execOutWrAdvance q k v s
  | .msixUnmask vec => Sys2Proof.Machine.execMsixUnmask vec s
  | .getStatus => Sys2Proof.Machine.execGetStatus s
  | .traceControl => Sys2Proof.Machine.execTraceControl s
  | .triggerSet => Sys2Proof.Machine.execTriggerSet s
  | .attest busy fail => Sys2Proof.Machine.execAttest busy fail s
  | .getVersion => Sys2Proof.Machine.execGetVersion s
  | .getCapabilities => Sys2Proof.Machine.execGetCapabilities s
  | .negotiateAlgorithms => Sys2Proof.Machine.execNegotiateAlgorithms s
  | .getDigests => Sys2Proof.Machine.execGetDigests s
  | .getCertificate off len => Sys2Proof.Machine.execGetCertificate off len s
  | .challenge nonce => Sys2Proof.Machine.execChallenge nonce s
  | .getMeasurements index sign nonce => Sys2Proof.Machine.execGetMeasurements index sign nonce s
  | .unsupportedRequest code => Sys2Proof.Machine.execUnsupportedRequest code s
  | .ack h => Sys2Proof.Machine.execAck h s
  | .write h a data ecc => Sys2Proof.Machine.execWrite h a data ecc s
  | .writeRsp h status => Sys2Proof.Machine.execWriteRsp h status s
  | .read h a n ecc => Sys2Proof.Machine.execRead h a n ecc s
  | .readRsp h status data => Sys2Proof.Machine.execReadRsp h status data s
  | .spill h desc => Sys2Proof.Machine.execSpill h desc s
  | .spillRsp h status => Sys2Proof.Machine.execSpillRsp h status s
  | .spillCpl h rec => Sys2Proof.Machine.execSpillCpl h rec s
  | .spillCancel h id => Sys2Proof.Machine.execSpillCancel h id s
  | .adv h free => Sys2Proof.Machine.execAdv h free s
  | .event h index => Sys2Proof.Machine.execEvent h index s
  | .hello h node mac => Sys2Proof.Machine.execHello h node mac s
  | .helloTimer => Sys2Proof.Machine.execHelloTimer s
  | .ackTimer k => Sys2Proof.Machine.execAckTimer k s
  | .retransmitTimeout k => Sys2Proof.Machine.execRetransmitTimeout k s
  | .evtSendWrite q v => Sys2Proof.Machine.execEvtSendWrite q v s
  | .latchOpen => Sys2Proof.Machine.execLatchOpen s
  | .latchClose => Sys2Proof.Machine.execLatchClose s
  | .keyRelease => Sys2Proof.Machine.execKeyRelease s
  | .keyHoldReset => Sys2Proof.Machine.execKeyHoldReset s
  | .moduleInserted m => Sys2Proof.Machine.execModuleInserted m s
  | .moduleResetRelease m => Sys2Proof.Machine.execModuleResetRelease m s
  | .moduleInit m cmis => Sys2Proof.Machine.execModuleInit m cmis s
  | .moduleReady m apps => Sys2Proof.Machine.execModuleReady m apps s
  | .dataPathActivated m => Sys2Proof.Machine.execDataPathActivated m s
  | .moduleWaitTimeout m wait => Sys2Proof.Machine.execModuleWaitTimeout m wait s
  | .moduleRemoved m => Sys2Proof.Machine.execModuleRemoved m s
  | .moduleInterrupt m => Sys2Proof.Machine.execModuleInterrupt m s
  | .i2cGo q m v => Sys2Proof.Machine.execI2cGo q m v s
  | .i2cDone m data nak => Sys2Proof.Machine.execI2cDone m data nak s
  | .eventRoute n => Sys2Proof.Machine.execEventRoute n s
  | .aonEvent => Sys2Proof.Machine.execAonEvent s
  | .statClear q w v => Sys2Proof.Machine.execStatClear q w v s
  | .swRaise q v => Sys2Proof.Machine.execSwRaise q v s
  | .evtCfgWrite q e v => Sys2Proof.Machine.execEvtCfgWrite q e v s
  | .pcSample => Sys2Proof.Machine.execPcSample s
  | .bypass => Sys2Proof.Machine.execBypass s
  | .idcode => Sys2Proof.Machine.execIdcode s
  | .samplePreload => Sys2Proof.Machine.execSamplePreload s
  | .extest => Sys2Proof.Machine.execExtest s
  | .clamp => Sys2Proof.Machine.execClamp s
  | .highz => Sys2Proof.Machine.execHighz s
  | .extestPulse => Sys2Proof.Machine.execExtestPulse s
  | .extestTrain => Sys2Proof.Machine.execExtestTrain s
  | .tapReset => Sys2Proof.Machine.execTapReset s
  | .debug token => Sys2Proof.Machine.execDebug token s
  | .debugHalt k => Sys2Proof.Machine.execDebugHalt k s
  | .debugStep k => Sys2Proof.Machine.execDebugStep k s
  | .debugResume k => Sys2Proof.Machine.execDebugResume k s
  | .thermReport t0 t1 t2 t3 t4 => Sys2Proof.Machine.execThermReport t0 t1 t2 t3 t4 s
  | .throttleEntry d t => Sys2Proof.Machine.execThrottleEntry d t s
  | .throttleDeepen d t => Sys2Proof.Machine.execThrottleDeepen d t s
  | .throttleExit d t => Sys2Proof.Machine.execThrottleExit d t s
  | .thermalTrip => Sys2Proof.Machine.execThermalTrip s
  | .supplyFault rail => Sys2Proof.Machine.execSupplyFault rail s
  | .avsSettle mv nak => Sys2Proof.Machine.execAvsSettle mv nak s
  | .powerLoss => Sys2Proof.Machine.execPowerLoss s
  | .perstNRelease => Sys2Proof.Machine.execPerstNRelease s
  | .keyPress => Sys2Proof.Machine.execKeyPress s
  | .configurationRequest f op => Sys2Proof.Machine.execConfigurationRequest f op s
  | .flushSlotErased => Sys2Proof.Machine.execFlushSlotErased s

end Sys2Proof.Machine
end

