-- ==== Sys2Proof/WellFormed.lean ====
section
/-! DEFINITION. Which commands are well formed: those whose operands the spec's formats admit. The block gives every command
a meaning, well formed or not; the checks name what a sender keeps to. -/

namespace Sys2Proof

/-- A privilege code of CORE_STATUS.PRIV: 0 U, 1 S, 3 M. -/
def reqOk (q : Req) : Bool := q.lvl != 2
/-- A register address (R9). -/
def wordAddr (a : Nat) : Bool := a % 4 == 0
/-- Does a number lie in a range? -/
def numIn (lo hi n : Nat) : Bool := decide (lo ≤ n) && decide (n ≤ hi)
/-- An access that arrives spans at least one byte, and a write at most a line of 64 (R153). -/
def memAccOk (m : MemAcc) : Bool :=
  match m with
  | .queued _ _ _ => true
  | .read q _ n => reqOk q && n != 0
  | .write q _ data => reqOk q && numIn 1 64 data.length
/-- An access of a window spans at most 4,096 bytes (R535). -/
def winOk (op : WinOp) : Bool :=
  match op with
  | .read n => decide (n.toNat ≤ 4096)
  | .write data => decide (data.length ≤ 4096)
/-- A configuration request: a word, and as many virtual functions as there are (R535). -/
def cfgOk (f : Nat) (op : CfgOp) : Bool :=
  match op with
  | .read off => off.toNat % 4 == 0
  | .other off _ => off.toNat % 4 == 0
  | .sriov n => f == 0 && decide (n.toNat ≤ 16)
  | .msix _ _ => true
  | .power _ => true
/-- The SPDM requests that have a command of their own (R557). -/
def spdmKnown (code : Nat) : Bool := [0x84, 0xE1, 0xE3, 0x81, 0x82, 0x83, 0xE0].contains code

/-- Is a command well formed? -/
def wellFormed (i : Instr) : Bool :=
  match i with
  | .regWrite q a _ => reqOk q && wordAddr a.toNat
  | .rclRead q a => reqOk q && wordAddr a.toNat
  | .readLowWord q a => reqOk q && wordAddr a.toNat
  | .unitFault _ _ => true
  | .clusterQuarantine _ => true
  | .dieFence _ => true
  | .packageFault src => decide (1 ≤ src.toNat) && decide (src.toNat ≤ 8)
  | .pkgFaultResetTimer => true
  | .powerGood _ _ => true
  | .resetNRelease => true
  | .resetNAssert => true
  | .candidateLoad _ => true
  | .layerApply => true
  | .dormantReached => true
  | .autoStart => true
  | .modeRequest => true
  | .targetWrite q _ => reqOk q
  | .drainComplete => true
  | .drainTimeout => true
  | .functionStart => true
  | .functionStop => true
  | .functionConfig recs _ => recs.length % 16 == 0 && decide (recs.length ≤ 65536)
  | .watchdogExpire _ => true
  | .stageImage chunk _ => chunk.length % 256 == 0 && decide (chunk.length ≤ 2 ^ 24)
  | .commitImage _ _ => true
  | .fullReset => true
  | .fullResetDelayExpire => true
  | .fullResetExecute => true
  | .pwrfailFall => true
  | .logFlushComplete => true
  | .pwrfailRise => true
  | .coreRun _ => true
  | .add _ _ _ _ => true
  | .sub _ _ _ _ => true
  | .and _ _ _ _ => true
  | .or _ _ _ _ => true
  | .xor _ _ _ _ => true
  | .shl _ _ _ _ => true
  | .shr _ _ _ _ => true
  | .sra _ _ _ _ => true
  | .min _ _ _ _ => true
  | .max _ _ _ _ => true
  | .minu _ _ _ _ => true
  | .maxu _ _ _ _ => true
  | .abs _ _ _ => true
  | .clz _ _ _ => true
  | .cmpeq _ _ _ _ => true
  | .cmpne _ _ _ _ => true
  | .cmplt _ _ _ _ => true
  | .cmpltu _ _ _ _ => true
  | .cmple _ _ _ _ => true
  | .cmpleu _ _ _ _ => true
  | .addi _ _ _ _ => true
  | .andi _ _ _ _ => true
  | .ori _ _ _ _ => true
  | .xori _ _ _ _ => true
  | .shli _ _ _ _ => true
  | .shri _ _ _ _ => true
  | .srai _ _ _ _ => true
  | .cmpi _ _ _ _ _ => true
  | .movi _ _ _ _ => true
  | .mul _ _ _ _ => true
  | .mulh _ _ _ _ => true
  | .mulhu _ _ _ _ => true
  | .macaHh _ _ _ _ => true
  | .msuaHh _ _ _ _ => true
  | .macaB4 _ _ _ _ => true
  | .aclr _ _ => true
  | .amovg _ _ _ => true
  | .anarrow _ _ _ _ => true
  | .ahi _ _ _ => true
  | .maxi _ _ _ _ => true
  | .mini _ _ _ _ => true
  | .maxiu _ _ _ _ => true
  | .miniu _ _ _ _ => true
  | .ld _ _ _ _ => true
  | .st _ _ _ _ => true
  | .br _ _ => true
  | .call _ _ => true
  | .jr _ _ => true
  | .jalr _ _ _ => true
  | .loop _ _ _ _ => true
  | .loopS _ stg _ _ _ => stg != 0
  | .rpt _ _ _ => true
  | .loopEnd _ => true
  | .rptEnd _ => true
  | .nop _ => true
  | .fenceW _ => true
  | .clean _ _ _ => true
  | .inval _ _ _ => true
  | .flush _ _ _ => true
  | .cleanAll _ => true
  | .flushAll _ => true
  | .mfc _ _ _ => true
  | .mtc _ _ _ => true
  | .trap _ _ => true
  | .eret _ => true
  | .wfi _ => true
  | .wfiWake _ => true
  | .pclr _ _ => true
  | .interruptTaken _ => true
  | .loadReturn _ _ _ => true
  | .rcp _ _ _ => true
  | .rsqrt _ _ _ => true
  | .atan2 _ _ _ _ => true
  | .cdiv _ _ _ _ => true
  | .log2 _ _ _ => true
  | .exp2 _ _ _ => true
  | .cxResult _ _ => true
  | .chol _ _ _ _ _ => true
  | .inv _ _ _ _ _ => true
  | .sort _ _ _ _ _ => true
  | .topk _ _ _ _ _ => true
  | .search _ _ _ _ _ => true
  | .csCommit _ _ => true
  | .csUnitFault _ _ => true
  | .vadd _ _ _ _ _ => true
  | .vsub _ _ _ _ _ => true
  | .vand _ _ _ _ _ => true
  | .vor _ _ _ _ _ => true
  | .vxor _ _ _ _ _ => true
  | .vshl _ _ _ _ _ => true
  | .vshr _ _ _ _ _ => true
  | .vsra _ _ _ _ _ => true
  | .vshli _ _ _ _ _ => true
  | .vshri _ _ _ _ _ => true
  | .vsrai _ _ _ _ _ => true
  | .vmin _ _ _ _ _ => true
  | .vmax _ _ _ _ _ => true
  | .vabs _ _ _ _ => true
  | .vcmpeq _ _ _ _ _ => true
  | .vcmpne _ _ _ _ _ => true
  | .vcmplt _ _ _ _ _ => true
  | .vcmple _ _ _ _ _ => true
  | .vmul _ _ _ _ _ => true
  | .vmulw _ _ _ _ _ _ => true
  | .vcmulw _ _ _ _ _ _ _ => true
  | .dot4 _ _ _ _ _ => true
  | .dot4A _ _ _ _ _ => true
  | .dot2 _ _ _ _ _ => true
  | .dot2A _ _ _ _ _ => true
  | .cdot _ _ _ _ _ _ _ _ => true
  | .vdabX _ _ _ _ _ _ => true
  | .vqadd _ _ _ _ _ => true
  | .vqsub _ _ _ _ _ => true
  | .vqmul _ _ _ _ _ => true
  | .vqnarrow _ _ _ _ _ _ => true
  | .vmov _ _ _ _ => true
  | .vsel _ _ _ _ _ => true
  | .vperm _ _ _ _ _ => true
  | .vbcast _ _ _ _ => true
  | .vext _ _ _ _ _ => true
  | .vsetvl _ _ _ _ => true
  | .pand _ _ _ _ => true
  | .por _ _ _ _ => true
  | .pxor _ _ _ _ => true
  | .pandn _ _ _ _ => true
  | .vmaxi _ _ _ _ => true
  | .vmini _ _ _ _ => true
  | .vmaxiC _ _ _ _ _ => true
  | .vminiC _ _ _ _ _ => true
  | .vdabN _ _ _ _ _ => true
  | .vfadd _ _ _ _ _ => true
  | .vfsub _ _ _ _ _ => true
  | .vfmul _ _ _ _ _ => true
  | .vfma _ _ _ _ _ => true
  | .vfmin _ _ _ _ _ => true
  | .vfmax _ _ _ _ _ => true
  | .vfcmpeq _ _ _ _ _ => true
  | .vfcmplt _ _ _ _ _ => true
  | .vfcvtFi _ _ _ _ => true
  | .vfcvtIf _ _ _ _ => true
  | .vfcvtW _ _ _ _ => true
  | .vfcvtN _ _ _ _ => true
  | .scalarForms _ _ _ _ _ _ => true
  | .fmvFg _ _ _ _ => true
  | .fmvGf _ _ _ _ => true
  | .vld _ _ _ _ => true
  | .vst _ _ _ _ => true
  | .vlds _ _ _ _ _ _ => true
  | .vsts _ _ _ _ _ _ => true
  | .vldx _ _ _ _ _ _ _ => true
  | .vstx _ _ _ _ _ _ _ => true
  | .submit _ _ _ => true
  | .submitT _ _ _ _ => true
  | .cancel _ _ _ => true
  | .wait _ => true
  | .done _ _ => true
  | .timeRelease _ => true
  | .pendingPlace _ => true
  | .dispatch _ _ _ => true
  | .completion _ => true
  | .lateStart _ _ => true
  | .miss _ _ => true
  | .eslKill q _ => reqOk q
  | .spillOffer _ => true
  | .advertise => true
  | .paletteAccess m _ peer => memAccOk m && (peer.map memAccOk).getD true
  | .coreMemoryAccess m _ => memAccOk m
  | .handover q _ _ _ more => reqOk q && more.all fun x => reqOk x.1
  | .drainRequestArrival _ _ _ => true
  | .handoverComplete _ _ => true
  | .delegation q _ _ _ => reqOk q
  | .delegationDrained _ _ => true
  | .powerRequest q _ _ _ => reqOk q
  | .retentionEntry _ _ => true
  | .retentionHoldExpire _ _ => true
  | .wakeDone _ _ => true
  | .powerOff _ _ => true
  | .powerOnDone _ _ => true
  | .washBorrow _ _ => true
  | .washWindowDone _ _ => true
  | .nolendWrite q _ _ _ _ => reqOk q
  | .hbmScrub _ _ => true
  | .extentInval q _ => reqOk q
  | .extentInvalDone => true
  | .hostWindowAccess q _ op _ => reqOk q && winOk op
  | .fabricWindowAccess q _ op => reqOk q && winOk op
  | .gstStart q _ _ => reqOk q
  | .gstStop q _ _ => reqOk q
  | .descriptorFetch _ _ _ _ => true
  | .copy _ _ _ _ => true
  | .fill _ _ => true
  | .compare _ _ _ _ _ => true
  | .fence _ _ => true
  | .burstGrant _ => true
  | .burstDone _ _ => true
  | .writeResponse _ _ _ => true
  | .swreqWrite q _ _ => reqOk q
  | .gstChannelFault _ _ => true
  | .hubEngineFault => true
  | .engineTaskStart _ _ _ _ => true
  | .fft _ _ _ _ => true
  | .ifft _ _ _ _ => true
  | .czt _ _ _ _ => true
  | .ldpcDecode _ _ _ => true
  | .polarDecode _ _ _ => true
  | .turboDecode _ _ _ => true
  | .smallBlockDecode _ _ _ => true
  | .tbCrc _ _ _ => true
  | .ldpcEncode _ _ _ => true
  | .polarEncode _ _ _ => true
  | .turboEncode _ _ _ => true
  | .convolutionalEncode _ _ _ => true
  | .smallCodeEncode _ _ _ => true
  | .engineCompletion _ _ => true
  | .engineFault _ _ => true
  | .enginePark _ _ => true
  | .captureStreamEnable q _ _ _ => reqOk q
  | .captureStall _ => true
  | .nceSymbol _ => true
  | .headerResult _ => true
  | .replayEnd _ => true
  | .abort q _ => reqOk q
  | .recordWrite _ => true
  | .lullReport _ => true
  | .windowOpen _ => true
  | .bt0HiWrite q _ _ => reqOk q
  | .txEntry _ _ => true
  | .txBurstDone _ _ => true
  | .nceServicePass => true
  | .nceFault => true
  | .fhRxFrame _ _ _ _ frame _ => decide (14 ≤ frame.length)
  | .symbolClose _ => true
  | .txrdyWrite q _ _ => reqOk q
  | .readinessCheck _ _ _ => true
  | .symbolSend _ => true
  | .mgmtTx _ _ => true
  | .ptpTxtsPop q _ => reqOk q
  | .linkDown _ => true
  | .linkUp _ => true
  | .tsMeasurement _ _ _ => true
  | .tscapArm q _ _ => reqOk q
  | .fhServicePass _ => true
  | .refLoss => true
  | .refRelock => true
  | .offsetCommit q _ => reqOk q
  | .ppsInEdge _ => true
  | .servoCycle => true
  | .noInputTimeout => true
  | .stepGo q _ => reqOk q
  | .stepComplete => true
  | .ppsOutRise => true
  | .ppsOutFall => true
  | .trigArm q _ _ => reqOk q
  | .trigDisarm q _ _ => reqOk q
  | .trigFire _ => true
  | .tbNowRead q => reqOk q
  | .captureCommand q _ => reqOk q
  | .estimateCommand q _ => reqOk q
  | .estimate => true
  | .nextTWrite q _ _ => reqOk q
  | .swap => true
  | .swapMiss _ => true
  | .holdClear _ => true
  | .stale _ => true
  | .floorWindowEnd _ => true
  | .glzServicePass => true
  | .glazeFault => true
  | .loopback _ _ _ => true
  | .ocxoDwellEnd => true
  | .glzCommDone => true
  | .codeReq q _ _ => reqOk q
  | .updateBoundary => true
  | .deglitchEnd _ => true
  | .kick q _ => reqOk q
  | .timeoutWrite q _ => reqOk q
  | .trimWatchdogExpire => true
  | .trmServicePass _ => true
  | .perstNAssert => true
  | .hostLinkDown => true
  | .hostLinkUp gen lanes => numIn 1 5 gen.toNat && [1, 4, 8, 16].contains lanes.toNat
  | .functionLevelReset _ => true
  | .hostBarWrite _ _ data => !data.isEmpty
  | .bar2Access op _ _ => winOk op
  | .doorbellTail _ _ _ => true
  | .doorbellHead _ _ _ => true
  | .h2dEntry _ e fail => e.length == 64 || fail
  | .d2hEntry _ _ => true
  | .outWrAdvance q _ _ => reqOk q
  | .msixUnmask _ => true
  | .getStatus => true
  | .traceControl => true
  | .triggerSet => true
  | .attest _ _ => true
  | .getVersion => true
  | .getCapabilities => true
  | .negotiateAlgorithms => true
  | .getDigests => true
  | .getCertificate _ _ => true
  | .challenge nonce => nonce.length == 32
  | .getMeasurements _ sign nonce => nonce.length == 32 || !sign
  | .unsupportedRequest code => !spdmKnown code.toNat
  | .ack _ => true
  | .write _ _ data _ => decide (data.length ≤ 1024)
  | .writeRsp _ _ => true
  | .read _ _ _ _ => true
  | .readRsp _ _ data => decide (data.length ≤ 1024)
  | .spill _ desc => desc.length == 64
  | .spillRsp _ _ => true
  | .spillCpl _ rec => rec.length == 16
  | .spillCancel _ _ => true
  | .adv _ _ => true
  | .event _ _ => true
  | .hello _ _ _ => true
  | .helloTimer => true
  | .ackTimer _ => true
  | .retransmitTimeout _ => true
  | .evtSendWrite q _ => reqOk q
  | .latchOpen => true
  | .latchClose => true
  | .keyRelease => true
  | .keyHoldReset => true
  | .moduleInserted _ => true
  | .moduleResetRelease _ => true
  | .moduleInit _ _ => true
  | .moduleReady _ _ => true
  | .dataPathActivated _ => true
  | .moduleWaitTimeout _ _ => true
  | .moduleRemoved _ => true
  | .moduleInterrupt _ => true
  | .i2cGo q _ _ => reqOk q
  | .i2cDone _ _ _ => true
  | .eventRoute n => decide (1 ≤ n.val)
  | .aonEvent => true
  | .statClear q _ _ => reqOk q
  | .swRaise q _ => reqOk q
  | .evtCfgWrite q _ _ => reqOk q
  | .pcSample => true
  | .bypass => true
  | .idcode => true
  | .samplePreload => true
  | .extest => true
  | .clamp => true
  | .highz => true
  | .extestPulse => true
  | .extestTrain => true
  | .tapReset => true
  | .debug _ => true
  | .debugHalt _ => true
  | .debugStep _ => true
  | .debugResume _ => true
  | .thermReport _ _ _ _ _ => true
  | .throttleEntry _ _ => true
  | .throttleDeepen _ _ => true
  | .throttleExit _ _ => true
  | .thermalTrip => true
  | .supplyFault _ => true
  | .avsSettle _ _ => true
  | .powerLoss => true
  | .perstNRelease => true
  | .keyPress => true
  | .configurationRequest f op => cfgOk f.val op
  | .flushSlotErased => true

end Sys2Proof
end

