-- ==== Sys2Proof/Safety.lean ====
section
/-! DEFINITION. The terms in which claims are stated: a core that stands ready, what a lone bundle leaves, a calm block,
and safe runs. -/

namespace Sys2Proof.Machine

/-! ## Cores -/

/-- A core stands ready: it issues, at a bundle boundary, with nothing under way; its instruction memory holds a listed word
at the pc, and no try of its own at a shared coprocessor still competes (R119, R215). -/
structure Alone (sp : Spine) (d : Dev) (k : Nat) : Prop where
  issues : d.issues sp k = true
  bundle : (d.core k).bundle = []
  stall : (d.core k).stall = .none
  got : (d.core k).got = []
  fills : (d.core k).fills = []
  emitted : (d.core k).emitted = 0
  eslDone : (d.core k).eslDone = none
  inflight : (d.core k).inflight = []
  cx : (d.core k).cx = []
  ds : (d.core k).ds = 0
  step : (d.core k).step = false
  wb : (d.core k).wb = []
  portA : (d.core k).portA = []
  la : d.fb (F.CORE_STATUS_LA k) = false
  ra : d.fb (F.CORE_STATUS_RA k) = false
  listed : d.listedAt k 0 = true
  tries : d.csSeen k = d

/-- What a lone bundle leaves behind that only puts results in flight: those of one bundle are written, the others have
one bundle less to go, and the pc moves past the instruction (R125). Each result is a register write, its latency, and
whether an accumulating instruction made it. -/
def Dev.lone (d : Dev) (k : Nat) (l : List (RegWr × Nat × Bool)) : Dev :=
  ((l.filter fun x => x.2.1 == 1).foldl (fun d x => d.applyWr k x.1) d).mapCore k fun c =>
    { c with pc := BitVec.ofNat 16 (c.pc.toNat + 4)
             inflight := (l.filter fun x => x.2.1 != 1).map fun x =>
               { wr := x.1, rem := x.2.1 - 1, acc := x.2.2, fresh := true } }

/-- A state whose device has changed. -/
def State.withDev (s : State) (d : Dev) : State := { s with dev := d }

/-- The command completes, and leaves this device; time, containment and the queue stand. -/
def State.to (s : State) (d : Dev) : Out := .next (s.withDev d)

/-- The core that an instruction names stands ready, and the instruction is a bundle of its own. -/
structure Ready (s : State) (h : Hd) : Prop where
  last : h.last = true
  alone : Alone s.spine s.dev h.k

/-- A core that stands ready and has vector and coprocessor units: no hub core (R111). -/
structure ReadyV (s : State) (h : Hd) : Prop extends Ready s h where
  hub : isHubCore h.k = false

/-- A lone bundle that only has results. -/
def State.results (s : State) (h : Hd) (l : List (RegWr × Nat × Bool)) : Out := s.to (s.dev.lone h.k l)

/-- A lone guarded instruction that only has results: without effect where its guard is against it (R118). -/
def State.guarded (s : State) (h : Hd) (l : List (RegWr × Nat × Bool)) : Out :=
  s.results h (if s.dev.guard h then l else [])

/-- A lone bundle with results that also sets a sticky flag, if `on`. -/
def State.flagged (s : State) (h : Hd) (l : List (RegWr × Nat × Bool)) (on : Bool) (flag : Dev → Nat → Dev) : Out :=
  s.to (if on then flag (s.dev.lone h.k l) h.k else s.dev.lone h.k l)

/-- The result of a vector instruction: `f i` in each active element of `sz` bytes from byte `o`; none where no element is
active (R163, R164). -/
def Dev.laneRes (d : Dev) (h : Hd) (vd : Reg) (sz o lat : Nat) (acc : Bool) (act : List Nat) (f : Nat → Nat) :
    List (RegWr × Nat × Bool) :=
  if act = [] then [] else [(.v (d.pv h.k vd) (lanesAt sz o act) (buildV sz o act f), lat, acc)]

/-- The lines of an L1 after those that `p` names by address are marked clean, or dropped. -/
def cacheKeep (p : Nat → Bool) (inval : Bool) (l : SMap (Option Line)) : SMap (Option Line) :=
  l.foldl (fun m x =>
    match x.2 with
    | none => m
    | some ln => if p ln.addr then SMap.set m x.1 (if inval then none else some { ln with dirty := false }) none else m) l

/-! ## The block -/

/-- Memory is sound, and no shared coprocessor holds an operation: a read gives the bytes that memory holds, and a write does
no more than write (R218, R231, R232). -/
structure Clean (d : Dev) : Prop where
  bad : d.bad = []
  cs : ∀ c u, (d.csUnit c u).op = none

/-- No core's bundle waits: what a command does sets none going again. -/
def Calm (d : Dev) : Prop := ∀ k, (d.core k).stall = .none

/-- A firmware requester that may act now: M level, in service, and no core whose writes wait. -/
structure Fw (s : State) (q : Req) : Prop where
  fw : reqFw q = true
  here : reqGone s.spine s.dev q = false

/-! ## Register accesses -/

/-- The device once a requester's register write has left its core's write buffer (R153). -/
def Dev.given (d : Dev) (q : Req) (a : Nat) (v : Word) : Dev :=
  match coreOfUid q.uid.toNat with
  | some k => d.mapCore k fun c => { c with wb := popWord c.wb a v }
  | none => d

/-- The command completes and leaves this time, containment and device, in which the bundles that wait for writes to
complete have tried again (R153). -/
def State.written (s : State) (sp : Spine) (d : Dev) : Out :=
  .next { s with spine := (retryFences (sp, d)).1, dev := (retryFences (sp, d)).2 }

/-- The command completes and leaves this time, containment and device. -/
def State.whole (s : State) (sp : Spine) (d : Dev) : Out := .next { s with spine := sp, dev := d }

/-- The command completes and leaves this time, containment and device, in which the bundles that stall in SUBMIT have tried
again (R285). -/
def State.retried (s : State) (sp : Spine) (d : Dev) : Out :=
  .next { s with spine := (retrySubmits (sp, d)).1, dev := (retrySubmits (sp, d)).2 }

/-! ## Runs -/

/-- The state after commands have run one after another, if each answers a next state. -/
def runAll (l : List Instr) (s : State) : Option State :=
  match l with
  | [] => some s
  | i :: t =>
    match exec i s with
    | .next u => runAll t u
    | _ => none

/-- A safe step: it ends in a next state that keeps memory's canonical form and lets no time pass backward. -/
def SafeStep (s : State) : Prop :=
  ∃ t, step s = .next t ∧ (Memory.wf s.dev.mem = true → Memory.wf t.dev.mem = true) ∧ s.spine.now ≤ t.spine.now

end Sys2Proof.Machine
end

