-- ==== Sys2Proof/Certificates/Slice0/Obligations.lean ====
section
/-! DEFINITION. The statements about this block: what each command does from the states in which it acts, the rules of
the whole machine, and its invariants. -/

open Sys2Proof Sys2Proof.Machine

/-! ## The AK core: scalar arithmetic (chapter 04) -/

/-- R120, R135: the register-to-register ALU. Each instruction, as a bundle of its own on a core that stands ready, writes
one general register in time for the next bundle, if its guard allows it, and changes nothing else but the pc. -/
def Obligations.ScalarAluResults : Prop :=
  ∀ (s : State) (h : Hd) (rd rs1 rs2 : Reg), Ready s h →
    let a := s.dev.g h.k rs1
    let b := s.dev.g h.k rs2
    let put := fun (v : Word) => s.guarded h [(.g rd v, 1, false)]
    exec (.add h rd rs1 rs2) s = put (a + b) ∧ exec (.sub h rd rs1 rs2) s = put (a - b)
    ∧ exec (.and h rd rs1 rs2) s = put (a &&& b) ∧ exec (.or h rd rs1 rs2) s = put (a ||| b)
    ∧ exec (.xor h rd rs1 rs2) s = put (a ^^^ b)
    ∧ exec (.shl h rd rs1 rs2) s = put (a <<< (b.toNat % 32)) ∧ exec (.shr h rd rs1 rs2) s = put (a >>> (b.toNat % 32))
    ∧ exec (.sra h rd rs1 rs2) s = put (a.sshiftRight (b.toNat % 32))
    ∧ exec (.min h rd rs1 rs2) s = put (if a.toInt ≤ b.toInt then a else b)
    ∧ exec (.max h rd rs1 rs2) s = put (if a.toInt ≤ b.toInt then b else a)
    ∧ exec (.minu h rd rs1 rs2) s = put (if a.toNat ≤ b.toNat then a else b)
    ∧ exec (.maxu h rd rs1 rs2) s = put (if a.toNat ≤ b.toNat then b else a)
    ∧ exec (.abs h rd rs1) s = put (if a.msb then -a else a)
    ∧ exec (.clz h rd rs1) s = put (BitVec.ofNat 32 (if a = 0 then 32 else 31 - Nat.log2 a.toNat))

/-- R118 to R120, R135: the immediate forms, which have no GN bit, the shifts, which have, and MOVI, which carries no guard. -/
def Obligations.ScalarImmediateResults : Prop :=
  ∀ (s : State) (h : Hd) (rd rs1 : Reg) (imm : BitVec 13) (sh : BitVec 5) (i16 : BitVec 16), Ready s h →
    let a := s.dev.g h.k rs1
    let put := fun (v : Word) => s.guarded { h with gn := false } [(.g rd v, 1, false)]
    let shift := fun (v : Word) => s.guarded h [(.g rd v, 1, false)]
    exec (.addi h rd rs1 imm) s = put (a + imm.signExtend 32) ∧ exec (.andi h rd rs1 imm) s = put (a &&& imm.setWidth 32)
    ∧ exec (.ori h rd rs1 imm) s = put (a ||| imm.setWidth 32) ∧ exec (.xori h rd rs1 imm) s = put (a ^^^ imm.setWidth 32)
    ∧ exec (.shli h rd rs1 sh) s = shift (a <<< sh.toNat) ∧ exec (.shri h rd rs1 sh) s = shift (a >>> sh.toNat)
    ∧ exec (.srai h rd rs1 sh) s = shift (a.sshiftRight sh.toNat)
    ∧ exec (.movi h rd false i16) s = s.guarded { h with pg := 0, gn := false } [(.g rd (i16.signExtend 32), 1, false)]
    ∧ exec (.movi h rd true i16) s = s.guarded { h with pg := 0, gn := false }
        [(.g rd (BitVec.ofNat 32 (i16.toNat * 2 ^ 16 + (s.dev.g h.k rd).toNat % 2 ^ 16)), 1, false)]

/-- R118 to R120: compares write all ones or all zeros to the whole predicate; CMPI has no GN bit. -/
def Obligations.ScalarCompareResults : Prop :=
  ∀ (s : State) (h : Hd) (pd : PReg) (rs1 rs2 : Reg) (imm : BitVec 13), Ready s h →
    let a := s.dev.g h.k rs1
    let b := s.dev.g h.k rs2
    let c := imm.signExtend 32
    let sets := fun (g : Hd) (v : Bool) => s.guarded g [(.p (s.dev.pp h.k pd) (if v then BitVec.allOnes 64 else 0), 1, false)]
    let put := sets h
    let puti := sets { h with gn := false }
    exec (.cmpeq h pd rs1 rs2) s = put (a == b) ∧ exec (.cmpne h pd rs1 rs2) s = put (a != b)
    ∧ exec (.cmplt h pd rs1 rs2) s = put (decide (a.toInt < b.toInt)) ∧ exec (.cmpltu h pd rs1 rs2) s = put (decide (a.toNat < b.toNat))
    ∧ exec (.cmple h pd rs1 rs2) s = put (decide (a.toInt ≤ b.toInt)) ∧ exec (.cmpleu h pd rs1 rs2) s = put (decide (a.toNat ≤ b.toNat))
    ∧ exec (.cmpi h 0 pd rs1 imm) s = puti (a == c) ∧ exec (.cmpi h 1 pd rs1 imm) s = puti (decide (a.toInt < c.toInt))
    ∧ exec (.cmpi h 2 pd rs1 imm) s = puti (decide (a.toNat < c.toNat)) ∧ exec (.cmpi h 3 pd rs1 imm) s = puti (a != c)

/-- R120, R137: multiplies and the reads of an accumulator, usable two bundles later; ANARROW completes for shifts to 16. -/
def Obligations.MultiplyAndNarrowResults : Prop :=
  ∀ (s : State) (h : Hd) (rd rs1 rs2 : Reg) (as : AReg) (sh : BitVec 5), Ready s h →
    let a := s.dev.g h.k rs1
    let b := s.dev.g h.k rs2
    let x := (s.dev.core h.k).ra as
    let put := fun (v : Word) => s.guarded h [(.g rd v, 2, false)]
    exec (.mul h rd rs1 rs2) s = put (a * b)
    ∧ exec (.mulh h rd rs1 rs2) s = put (BitVec.ofInt 32 (a.toInt * b.toInt / 2 ^ 32))
    ∧ exec (.mulhu h rd rs1 rs2) s = put (BitVec.ofNat 32 (a.toNat * b.toNat / 2 ^ 32))
    ∧ (sh.toNat ≤ 16 → exec (.anarrow h rd as sh) s = put ((x.sshiftRight sh.toNat).setWidth 32))
    ∧ exec (.ahi h rd as) s = put ((x.extractLsb' 32 16).signExtend 32)

/-- R120, R136: the accumulating instructions write the low 48 bits of the exact value two bundles later, and set AOV where
that value does not fit; with AOV_EN clear execution goes on. -/
def Obligations.AccumulatorResults : Prop :=
  ∀ (s : State) (h : Hd) (ad : AReg) (rs1 rs2 : Reg), Ready s h → s.dev.fb (F.CORE_STATUS_AOV_EN h.k) = false →
    let a := s.dev.g h.k rs1
    let b := s.dev.g h.k rs2
    let old := ((s.dev.core h.k).ra ad).toInt
    let put := fun (x : Int) =>
      if s.dev.guard h then
        s.flagged h [(.a ad (BitVec.ofInt 48 x), 2, true)] (decide (x < -(2 ^ 47)) || decide (2 ^ 47 - 1 < x)) Dev.setAov
      else s.results h []
    exec (.macaHh h ad rs1 rs2) s = put (old + (a.setWidth 16).toInt * (b.setWidth 16).toInt)
    ∧ exec (.msuaHh h ad rs1 rs2) s = put (old - (a.setWidth 16).toInt * (b.setWidth 16).toInt)
    ∧ exec (.macaB4 h ad rs1 rs2) s = put (old + (a.setWidth 8).toInt * (b.setWidth 8).toInt
        + (a.extractLsb' 8 8).toInt * (b.extractLsb' 8 8).toInt + (a.extractLsb' 16 8).toInt * (b.extractLsb' 16 8).toInt
        + (a.extractLsb' 24 8).toInt * (b.extractLsb' 24 8).toInt)
    ∧ exec (.aclr h ad) s = put 0 ∧ exec (.amovg h ad rs1) s = put a.toInt

/-- R138: the value-and-index searches over an even register pair: a better value, or an equal one of a lower index,
replaces the pair. -/
def Obligations.IndexSearchResults : Prop :=
  ∀ (s : State) (h : Hd) (rd rs1 rs2 : Reg), Ready s h → rd.toNat % 2 = 0 →
    let v := s.dev.g h.k rd
    let i := s.dev.g h.k (rd + 1)
    let nv := s.dev.g h.k rs1
    let ni := s.dev.g h.k rs2
    let put := fun (better : Bool) =>
      let take := better || (nv == v && decide (ni.toNat < i.toNat))
      s.guarded h [(.g rd (if take then nv else v), 2, true), (.g (rd + 1) (if take then ni else i), 2, true)]
    exec (.maxi h rd rs1 rs2) s = put (decide (v.toInt < nv.toInt)) ∧ exec (.mini h rd rs1 rs2) s = put (decide (nv.toInt < v.toInt))
    ∧ exec (.maxiu h rd rs1 rs2) s = put (decide (v.toNat < nv.toNat)) ∧ exec (.miniu h rd rs1 rs2) s = put (decide (nv.toNat < v.toNat))

/-! ## The AK core: memory, control and system instructions (chapter 04) -/

/-- R131 to R134: a load from or a store to the core's own data scratch, in every size and addressing form. The load's value
is due four bundles later, a store's bytes are in memory at once; a post-increment updates the base; no other byte of memory
changes. Memory is sound, and no shared coprocessor has yet to read its source. -/
def Obligations.ScratchLoadStoreResults : Prop :=
  ∀ (s : State) (h : Hd) (rd rb : Reg) (m : MForm) (da : Nat), Ready s h → Clean s.dev → ¬ (m.sz = 3 ∧ rd.toNat % 2 = 1) →
    let n : Nat := 2 ^ m.sz.toNat
    let o := s.dev.address h.k (s.dev.g h.k rb).toNat (m.imm.toInt * (n : Int)) m.pi m.cwe m.cw.toNat
    let upd : List (RegWr × Nat × Bool) := if m.pi then [(.g rb (BitVec.ofNat 32 o.base), 1, false)] else []
    let x := ofLeBytes (s.dev.bytes da n)
    let got : List (RegWr × Nat × Bool) :=
      if m.sz = 3 then [(.g rd (BitVec.ofNat 32 x), 4, false), (.g (rd + 1) (BitVec.ofNat 32 (x / 2 ^ 32)), 4, false)]
      else [(.g rd (if m.u then BitVec.ofNat 32 x else BitVec.ofInt 32 (sx (8 * n) x)), 4, false)]
    let v := (s.dev.g h.k rd).toNat + (if m.sz = 3 then (s.dev.g h.k (rd + 1)).toNat * 2 ^ 32 else 0)
    o.bad = false → o.addr % n = 0 →
    (s.dev.mapAddr h.k o.addr false = some (da, .scratch) →
      exec (.ld h rd rb m) s = s.guarded { h with gn := false } (got ++ upd)) ∧
    (s.dev.mapAddr h.k o.addr true = some (da, .scratch) →
      exec (.st h rd rb m) s =
        if s.dev.guard { h with gn := false } then s.to ((s.dev.setBytes da (leBytes n v)).lone h.k upd)
        else s.results h [])

/-- R139, R140: a taken branch writes its link, the address of the bundle after the third delay slot, three delay slots
follow, and then the target; one that is not taken does nothing. Offsets count words from the branch's own bundle (log
entry 15). -/
def Obligations.BranchResults : Prop :=
  ∀ (s : State) (h : Hd) (off : BitVec 22) (far : BitVec 26) (rd rs1 : Reg), Ready s h →
    let pc : Int := (s.dev.core h.k).pc.toNat
    let link : Word := BitVec.ofNat 32 (s.dev.bundleAt h.k ((s.dev.core h.k).pc.toNat + 4) 3)
    let go := fun (t : Int) (l : List (RegWr × Nat × Bool)) =>
      s.to ((s.dev.lone h.k l).mapCore h.k fun c => { c with ds := 3, target := some (BitVec.ofNat 16 (t.toNat / 4 * 4)) })
    let ok := fun (t : Int) => 0 ≤ t ∧ t < 65536
    (s.dev.guard h = false → exec (.br h off) s = s.results h [] ∧ exec (.jr h rs1) s = s.results h []
      ∧ exec (.jalr h rd rs1) s = s.results h []) ∧
    (s.dev.guard h = true →
      (ok (pc + off.toInt * 4) → exec (.br h off) s = go (pc + off.toInt * 4) []) ∧
      (ok (s.dev.g h.k rs1).toNat → exec (.jr h rs1) s = go (s.dev.g h.k rs1).toNat [] ∧
        exec (.jalr h rd rs1) s = go (s.dev.g h.k rs1).toNat [(.g rd link, 1, false)])) ∧
    (ok (pc + far.toInt * 4) → exec (.call h far) s = go (pc + far.toInt * 4) [(.g 31 link, 1, false)])

/-- R141 to R143: LOOP, LOOP.S and RPT start their loops, or skip them when the count is 0. The body is the `len1 + 1` bundles
that follow in instruction memory; LOOP.S runs its stages less one more times. -/
def Obligations.LoopStarts : Prop :=
  ∀ (s : State) (h : Hd) (stg : BitVec 2) (len1 : BitVec 8) (r : Bool) (cnt : BitVec 14), Ready s h →
    let k : Nat := h.k
    let n := if r then (s.dev.g k (cnt.setWidth 5)).toNat else cnt.toNat
    let next := (s.dev.core k).pc.toNat + 4
    let bundle := fun (n : Nat) => s.dev.bundleAt k next n
    let free := fun (total : Nat) => s.dev.fb (F.CORE_STATUS_IE k) = false ∨ s.dev.f (F.CORE_LOOP_CEIL_CEIL k) = 0 ∨
      total ≤ s.dev.f (F.CORE_LOOP_CEIL_CEIL k)
    let d := s.dev.lone k []
    let start := fun (n stg : Nat) =>
      ((((d.setF (F.CORE_LC_LC k) n).setF (F.CORE_LS_LS k) (next / 4)).setF (F.CORE_LE_LE k) (bundle len1.toNat % 2 ^ 16 / 4)).setF
        (F.CORE_STATUS_LA k) 1).mapCore k fun c =>
          { c with loops := SMap.set c.loops (next / 4) (some { tail := bundle (len1.toNat + 1 - 3), stg := stg }) none }
    (r = true → n ≤ 65536) →
    (free (n * (len1.toNat + 1)) → exec (.loop h len1 r cnt) s = s.to (if n = 0 then d.setPc k (bundle (len1.toNat + 1)) else start n 0)) ∧
    (free ((n + stg.toNat) * (len1.toNat + 1)) → exec (.loopS h stg len1 r cnt) s =
      s.to (if n = 0 then d.setPc k (bundle (len1.toNat + 1))
        else if stg = 0 then start n 0 else (start (n + stg.toNat) stg.toNat).rotate k stg.toNat)) ∧
    (free n → exec (.rpt h r cnt) s =
      s.to (if n = 0 then d.setPc k (bundle 1) else (d.setF (F.CORE_RC_RC k) n).setF (F.CORE_STATUS_RA k) 1))

/-- R123, R151, R154, R155: the SYS instructions that touch no control register, at a level that may run them: NOP and
FENCE.W with nothing to wait for only move on; the cache instructions clean, invalidate or flush the lines they name (here
none of those cleaned is dirty); PCLR clears a predicate; WFI stops the core. -/
def Obligations.SystemResults : Prop :=
  ∀ (s : State) (h : Hd) (rs1 rs2 : Reg) (pd : PReg), Ready s h →
    let k : Nat := h.k
    let rs := cacheRanges s.dev k (s.dev.g k rs1).toNat (s.dev.g k rs2).toNat
    let hit := fun (a : Nat) => rs.any fun x => decide (a < x.1 + x.2) && decide (x.1 < a + 64)
    let clean := fun (p : Nat → Bool) => ∀ x ∈ (s.dev.core k).l1, ∀ ln, x.2 = some ln → p ln.addr = true → ln.dirty = false
    let lines := fun (p : Nat → Bool) (inval : Bool) =>
      s.to ((s.dev.lone k []).mapCore k fun c => { c with l1 := cacheKeep p inval c.l1 })
    exec (.nop h) s = s.results h [] ∧
    (s.dev.fabWrites (coreUid k) 0 = false → exec (.fenceW h) s = s.results h []) ∧
    (clean hit → exec (.clean h rs1 rs2) s = lines hit false) ∧
    exec (.pclr h pd) s = s.results h [(.p (s.dev.pp k pd) 0, 1, false)] ∧
    (s.dev.level k ≠ .u → exec (.inval h rs1 rs2) s = lines hit true ∧
      (clean hit → exec (.flush h rs1 rs2) s = lines hit true) ∧
      (clean (fun _ => true) → exec (.cleanAll h) s = lines (fun _ => true) false ∧
        exec (.flushAll h) s = lines (fun _ => true) true) ∧
      exec (.wfi h) s = s.to ((s.dev.lone k []).mapCore k fun c => { c with mode := .wfi }))

/-- R10, R12, R108, R109, R123: MFC reads every control register that its number names, with the latch of a 64-bit pair and
the clearing of RCL fields, and gives zero where it names none (log entry 17); MTC writes it, if the level may, and drops the
write where there is none. An MTC to CORE_CTRL starts a halted core. Execution goes on at the next bundle, or where the loop
flags that were just written send it. Below the level that a register asks for MTC takes PRIV. -/
def Obligations.ControlRegisterResults : Prop :=
  ∀ (s : State) (h : Hd) (r : Reg) (csr : BitVec 12), Ready s h →
    let k : Nat := h.k
    let pc := (s.dev.core k).pc.toNat
    let v := s.dev.g k r
    let priv := s.to (s.dev.trapEnter k pc false 4 (some (encCsr h r csr 9)) false)
    (csrOf k csr.toNat = none → exec (.mfc h r csr) s = s.results h [(.g r 0, 1, false)] ∧
      exec (.mtc h r csr) s = if s.dev.level k = .u then priv else s.results h []) ∧
    (∀ k' o, csrOf k csr.toNat = some (k', o) →
      exec (.mfc h r csr) s = s.to ((csrAfterRead s.spine s.dev k' o).lone k [(.g r (csrRead s.spine s.dev k' o), 1, false)]) ∧
      (mtcAllowed (s.dev.level k) k' o = false → exec (.mtc h r csr) s = priv) ∧
      (mtcAllowed (s.dev.level k) k' o = true →
        (o ≠ 4 → exec (.mtc h r csr) s = s.to ((csrWrite s.dev (s.dev.level k) k' o v).goOn k (pc + 4))) ∧
        (o = 4 → exec (.mtc h r csr) s = s.to ((if v.toNat % 2 = 1 then s.dev.coreStart k' else s.dev).goOn k (pc + 4)))))

/-- R145 to R148: TRAP takes its exception at the end of its bundle, with its code in TVAL and EPC at the next bundle. The
level, the interrupt enable and the loop flags are saved, and the core goes on at M level with interrupts off at its trap
base. Nothing of any core but the pc and what waits in this one changes, and no memory. -/
def Obligations.TrapTakesException : Prop :=
  ∀ (s : State) (h : Hd) (code : BitVec 12), Ready s h →
    let k : Nat := h.k
    ∃ t, exec (.trap h code) s = .next t ∧
      t.dev.f (F.CORE_STATUS_PPRIV k) = s.dev.f (F.CORE_STATUS_PRIV k) ∧ t.dev.f (F.CORE_STATUS_PIE k) = s.dev.f (F.CORE_STATUS_IE k) ∧
      t.dev.f (F.CORE_STATUS_PRIV k) = 3 ∧ t.dev.f (F.CORE_STATUS_IE k) = 0 ∧
      t.dev.f (F.CORE_ESTATE_DS k) = 0 ∧ t.dev.f (F.CORE_ESTATE_LA k) = 0 ∧ t.dev.f (F.CORE_ESTATE_RA k) = 0 ∧
      t.dev.f (F.CORE_ESTATE_EOB k) = 1 ∧
      t.dev.f (F.CORE_EPC_EPC k) = ((s.dev.core k).pc.toNat + 4) % 2 ^ 16 / 4 ∧ t.dev.f (F.CORE_CAUSE_CODE k) = 13 ∧
      t.dev.f (F.CORE_CAUSE_INT k) = 0 ∧ t.dev.f (F.CORE_TVAL_TVAL k) = code.toNat ∧
      (t.dev.core k).pc = BitVec.ofNat 16 (s.dev.f (F.CORE_TVEC_BASE k) * 64) ∧
      (∀ r, t.dev.g k r = s.dev.g k r) ∧ t.dev.mem = s.dev.mem ∧ (∀ j, j ≠ k → t.dev.core j = s.dev.core j) ∧ t.spine = s.spine

/-- R147: ERET restores the level, the interrupt enable and the loop flags that were saved, and goes on at EPC, with the
delay slots that were left when the exception came. -/
def Obligations.EretRestores : Prop :=
  ∀ (s : State) (h : Hd), Ready s h → s.dev.level h.k ≠ .u →
    let k : Nat := h.k
    let ds := s.dev.f (F.CORE_ESTATE_DS k)
    ∃ t, exec (.eret h) s = .next t ∧
      t.dev.f (F.CORE_STATUS_PRIV k) = s.dev.f (F.CORE_STATUS_PPRIV k) ∧ t.dev.f (F.CORE_STATUS_IE k) = s.dev.f (F.CORE_STATUS_PIE k) ∧
      t.dev.f (F.CORE_STATUS_LA k) = s.dev.f (F.CORE_ESTATE_LA k) ∧ t.dev.f (F.CORE_STATUS_RA k) = s.dev.f (F.CORE_ESTATE_RA k) ∧
      (t.dev.core k).pc = BitVec.ofNat 16 (s.dev.f (F.CORE_EPC_EPC k) * 4) ∧ (t.dev.core k).ds = ds ∧
      (t.dev.core k).target = (if ds = 0 then none else some (BitVec.ofNat 16 (s.dev.f (F.CORE_EBT_EBT k) * 4))) ∧
      (∀ r, t.dev.g k r = s.dev.g k r) ∧ t.dev.mem = s.dev.mem ∧ t.spine = s.spine

/-! ## Vector instructions (chapter 05) -/

/-- R158 to R169: the vector ALU on the active elements, due two bundles later. Only the bytes of active elements are written;
with no active element nothing is. Shift amounts are taken modulo the element width. -/
def Obligations.VectorAluResults : Prop :=
  ∀ (s : State) (h : Hd) (vd vs1 vs2 : Reg) (imm : BitVec 5) (t : BitVec 3), ReadyV s h →
    let z := tSize t
    let w := 8 * z
    let put := fun (f : Nat → Nat → Nat) => s.results h (s.dev.laneRes h vd z 0 2 false (s.dev.active h.k h.pg z (64 / z))
      fun i => f (lane (s.dev.v h.k vs1) z i) (lane (s.dev.v h.k vs2) z i))
    (t.toNat ≤ 4 →
      exec (.vadd h vd vs1 vs2 t) s = put (byComponent t fun w a b => (a + b) % 2 ^ w) ∧
      exec (.vsub h vd vs1 vs2 t) s = put (byComponent t fun w a b => (a + 2 ^ w - b) % 2 ^ w) ∧
      exec (.vand h vd vs1 vs2 t) s = put Nat.land ∧ exec (.vor h vd vs1 vs2 t) s = put Nat.lor ∧
      exec (.vxor h vd vs1 vs2 t) s = put Nat.xor) ∧
    (t.toNat ≤ 2 →
      exec (.vshl h vd vs1 vs2 t) s = put (fun a b => a * 2 ^ (b % w) % 2 ^ w) ∧
      exec (.vshr h vd vs1 vs2 t) s = put (fun a b => a / 2 ^ (b % w)) ∧
      exec (.vsra h vd vs1 vs2 t) s = put (fun a b => wrapInt w (sx w a / ((2 ^ (b % w) : Nat) : Int))) ∧
      exec (.vshli h vd vs1 imm t) s = put (fun a _ => a * 2 ^ (imm.toNat % w) % 2 ^ w) ∧
      exec (.vshri h vd vs1 imm t) s = put (fun a _ => a / 2 ^ (imm.toNat % w)) ∧
      exec (.vsrai h vd vs1 imm t) s = put (fun a _ => wrapInt w (sx w a / ((2 ^ (imm.toNat % w) : Nat) : Int))) ∧
      exec (.vmin h vd vs1 vs2 t) s = put (fun a b => if sx w a ≤ sx w b then a else b) ∧
      exec (.vmax h vd vs1 vs2 t) s = put (fun a b => if sx w a ≤ sx w b then b else a) ∧
      exec (.vabs h vd vs1 t) s = put (fun a _ => wrapInt w ((sx w a).natAbs : Int)))

/-- R169, R185: vector compares set the bits of the active elements whose compare holds, and clear every other bit of the
predicate. -/
def Obligations.VectorCompareResults : Prop :=
  ∀ (s : State) (h : Hd) (pd : PReg) (vs1 vs2 : Reg) (t : BitVec 3), ReadyV s h →
    let z := tSize t
    let act := s.dev.active h.k h.pg z (64 / z)
    let a := fun i => lane (s.dev.v h.k vs1) z i
    let b := fun i => lane (s.dev.v h.k vs2) z i
    let put := fun (lat : Nat) (f : Nat → Bool) =>
      s.results h (if act = [] then [] else [(.p (s.dev.pp h.k pd) (lanesAt z 0 (act.filter f)), lat, false)])
    let int := fun (op : Int → Int → Bool) => put 2 fun i => op (sx (8 * z) (a i)) (sx (8 * z) (b i))
    let fp := fun (op : FVal → FVal → Bool) => put 4 fun i => op ((tFmt t).decode (a i)) ((tFmt t).decode (b i))
    (t.toNat ≤ 2 →
      exec (.vcmpeq h pd vs1 vs2 t) s = int (fun x y => decide (x = y)) ∧ exec (.vcmpne h pd vs1 vs2 t) s = int (fun x y => decide (x ≠ y)) ∧
      exec (.vcmplt h pd vs1 vs2 t) s = int (fun x y => decide (x < y)) ∧ exec (.vcmple h pd vs1 vs2 t) s = int (fun x y => decide (x ≤ y))) ∧
    (t = 5 ∨ t = 6 → exec (.vfcmpeq h pd vs1 vs2 t) s = fp feq ∧ exec (.vfcmplt h pd vs1 vs2 t) s = fp flt)

/-- R170, R172 to R176: the products, due three bundles later: exact sums of signed products, wrapped to their lanes. VOV is set
where a lane of an active element does not hold its exact value; with VOV_EN clear execution goes on. -/
def Obligations.VectorProductResults : Prop :=
  ∀ (s : State) (h : Hd) (hi cj acc : Bool) (vd vs1 vs2 gs : Reg) (sh : BitVec 4) (t : BitVec 3),
    ReadyV s h → s.dev.fb (F.CORE_STATUS_VOV_EN h.k) = false →
    let x := s.dev.v h.k vs1
    let y := s.dev.v h.k vs2
    let old := s.dev.v h.k vd
    let act := fun (z n : Nat) => s.dev.active h.k h.pg z n
    let half := if hi then 1 else 0
    let put := fun (z : Nat) (l : List Nat) (acc : Bool) (f : Nat → Nat) (bad : Nat → Bool) =>
      s.flagged h (s.dev.laneRes h vd z 0 3 acc l f) (l.any bad) Dev.setVov
    let dot := fun (z n : Nat) (acc : Bool) =>
      let e := fun i => (if acc then laneS old 4 i else 0) + dotLane z n x y i
      put 4 (act 4 16) acc (fun i => wrapInt 32 (e i)) (fun i => laneOverflow 32 (e i))
    (t.toNat ≤ 2 → exec (.vmul h vd vs1 vs2 t) s =
      put (tSize t) (act (tSize t) (64 / tSize t)) false
        (fun i => lane x (tSize t) i * lane y (tSize t) i % 2 ^ (8 * tSize t)) (fun _ => false)) ∧
    exec (.vmulw h hi vd vs1 vs2 0) s =
      put 2 (act 2 32) false (fun i => wrapInt 16 (laneS x 1 (half * 32 + i) * laneS y 1 (half * 32 + i))) (fun _ => false) ∧
    exec (.vcmulw h hi cj vd vs1 vs2 3) s =
      (let p := fun i => c8Mul cj x y (half * 16 + i)
       put 4 (act 4 16) false (fun i => wrapInt 16 (p i).1 + wrapInt 16 (p i).2 * 2 ^ 16)
         (fun i => laneOverflow 16 (p i).1 || laneOverflow 16 (p i).2)) ∧
    exec (.dot4 h vd vs1 vs2 0) s = dot 1 4 false ∧ exec (.dot4A h vd vs1 vs2 0) s = dot 1 4 true ∧
    exec (.dot2 h vd vs1 vs2 1) s = dot 2 2 false ∧ exec (.dot2A h vd vs1 vs2 1) s = dot 2 2 true ∧
    exec (.cdot h hi cj acc vd vs1 vs2 3) s =
      (let p := fun i =>
        let a := c8Mul cj x y (half * 16 + 2 * i)
        let b := c8Mul cj x y (half * 16 + 2 * i + 1)
        ((if acc then laneS old 4 (2 * i) else 0) + a.1 + b.1, (if acc then laneS old 4 (2 * i + 1) else 0) + a.2 + b.2)
       put 8 (act 8 8) acc (fun i => wrapInt 32 (p i).1 + wrapInt 32 (p i).2 * 2 ^ 32)
         (fun i => laneOverflow 32 (p i).1 || laneOverflow 32 (p i).2)) ∧
    exec (.vdabX h hi vd vs1 gs sh) s =
      (let e := bitsOf (s.dev.g h.k gs).toNat (if hi then 8 else 0) 4
       let q := fun i => laneS x 1 (half * 32 + i) * ((2 ^ e : Nat) : Int) / ((2 ^ sh.toNat : Nat) : Int)
       put 2 (s.dev.active h.k 0 2 32) false (fun i => wrapInt 16 (q i)) (fun i => laneOverflow 16 (q i)))

/-- R180 to R183: the saturating instructions write the nearest value of their type, and set the sticky flag QSAT where an active
element saturates. -/
def Obligations.SaturatingResults : Prop :=
  ∀ (s : State) (h : Hd) (hi : Bool) (vd vs1 vs2 : Reg) (sh : BitVec 5) (t : BitVec 3), ReadyV s h →
    let z := tSize t
    let sat := fun (o r n lat : Nat) (x : Nat → Int) =>
      let act := s.dev.active h.k h.pg r n
      s.flagged h (s.dev.laneRes h vd r o lat false act fun i => wrapInt (8 * r) (satLane (8 * r) (x i)))
        (act.any fun i => laneOverflow (8 * r) (x i)) Dev.setQsat
    let a := fun i => laneS (s.dev.v h.k vs1) z i
    let b := fun i => laneS (s.dev.v h.k vs2) z i
    (t.toNat ≤ 2 →
      exec (.vqadd h vd vs1 vs2 t) s = sat 0 z (64 / z) 2 (fun i => a i + b i) ∧
      exec (.vqsub h vd vs1 vs2 t) s = sat 0 z (64 / z) 2 (fun i => a i - b i) ∧
      exec (.vqmul h vd vs1 vs2 t) s = sat 0 z (64 / z) 3
        (fun i => (a i * b i + ((2 ^ (8 * z - 2) : Nat) : Int)) / ((2 ^ (8 * z - 1) : Nat) : Int))) ∧
    (t = 1 ∧ sh.toNat ≤ 15 ∨ t = 2 → exec (.vqnarrow h hi vd vs1 sh t) s =
      sat (if hi then 32 else 0) (z / 2) (32 / (z / 2)) 2 (fun i =>
        if sh.toNat = 0 then a i else (a i + ((2 ^ (sh.toNat - 1) : Nat) : Int)) / ((2 ^ sh.toNat : Nat) : Int)))

/-- R161, R169: vector moves, the exchange with a general register, the vector length, and logic on whole predicates. -/
def Obligations.VectorMoveResults : Prop :=
  ∀ (s : State) (h : Hd) (vd vs1 vs2 gd gs : Reg) (pd ps1 ps2 : PReg) (t : BitVec 3), ReadyV s h →
    let z := tSize t
    let n := 64 / z
    let put := fun (act : List Nat) (f : Nat → Nat) => s.results h (s.dev.laneRes h vd z 0 2 false act f)
    let all := s.dev.active h.k 0 z n
    let act := s.dev.active h.k h.pg z n
    let a := fun i => lane (s.dev.v h.k vs1) z i
    let b := fun i => lane (s.dev.v h.k vs2) z i
    let g := (s.dev.g h.k gs).toNat
    let setp := fun (v : BitVec 64) => s.results h [(.p (s.dev.pp h.k pd) v, 2, false)]
    let p := s.dev.p h.k ps1
    let q := s.dev.p h.k ps2
    (t ≠ 7 → exec (.vmov h vd vs1 t) s = put act a ∧
      (h.pg ≠ 0 → exec (.vsel h vd vs1 vs2 t) s =
        put all (fun i => if bitAt (s.dev.p h.k h.pg).toNat (z * i) then a i else b i)) ∧
      (h.pg = 0 → exec (.vsetvl h gd gs t) s =
        s.results h [(.g gd (BitVec.ofNat 32 (min g n)), 2, false), (.vl (min g n), 2, false)])) ∧
    (t.toNat ≤ 2 → exec (.vperm h vd vs1 vs2 t) s = put act (fun i => a (b i % n)) ∧
      exec (.vext h gd vs1 gs t) s = s.results h [(.g gd (BitVec.ofNat 32 (wrapInt 32 (laneS (s.dev.v h.k vs1) z (g % n)))), 2, false)]) ∧
    (t = 5 ∨ t = 6 → exec (.vext h gd vs1 gs t) s = s.results h [(.g gd (BitVec.ofNat 32 (a (g % n))), 2, false)]) ∧
    (t.toNat ≤ 2 ∨ t = 5 ∨ t = 6 → exec (.vbcast h vd gs t) s = put act (fun _ => g)) ∧
    exec (.pand h pd ps1 ps2) s = setp (p &&& q) ∧ exec (.por h pd ps1 ps2) s = setp (p ||| q) ∧
    exec (.pxor h pd ps1 ps2) s = setp (p ^^^ q) ∧ exec (.pandn h pd ps1 ps2) s = setp (p &&& ~~~q)

/-- R171, R177 to R179: the searches over active elements write a value and its index to an even register pair four bundles
later, the lowest index among equals, and nothing with no active element; VDAB.N normalises two half registers. -/
def Obligations.VectorSearchResults : Prop :=
  ∀ (s : State) (h : Hd) (gd gs vd vs1 vs2 : Reg) (t : BitVec 3), ReadyV s h →
    let z := tSize t
    let act := s.dev.active h.k h.pg z (64 / z)
    let x := s.dev.v h.k vs1
    let pair := fun (r : Nat × Nat) => s.results h
      [(.g gd (BitVec.ofNat 32 r.1), 4, false), (.g (gd + 1) (BitVec.ofNat 32 r.2), 4, false)]
    let one := fun (mx : Bool) =>
      match bestOf t mx x act with
      | some i => pair (laneToG t (lane x z i), i)
      | none => if act = [] then s.results h [] else pair ((tFmt t).nanBits, act.headD 0)
    let cont := fun (mx : Bool) => if act = [] then s.results h [] else
      pair (act.foldl (fun r i => contStep t mx r (lane x z i) (((s.dev.g h.k gs).toNat + i) % 2 ^ 32))
        ((s.dev.g h.k gd).toNat, (s.dev.g h.k (gd + 1)).toNat))
    (gd.toNat % 2 = 0 → t.toNat ≤ 2 ∨ t = 5 ∨ t = 6 →
      exec (.vmaxi h gd vs1 t) s = one true ∧ exec (.vmini h gd vs1 t) s = one false ∧
      exec (.vmaxiC h gd vs1 gs t) s = cont true ∧ exec (.vminiC h gd vs1 gs t) s = cont false) ∧
    exec (.vdabN h vd vs1 vs2 gd) s =
      (let half := fun (v : BitVec 512) => (List.range 32).map (laneS v 2)
       let scale := fun (v : BitVec 512) => (half v).map fun n => BitVec.ofInt 8 (n / ((2 ^ dabExp (half v) : Nat) : Int))
       let e := fun (v : BitVec 512) => dabExp (half v) + s.dev.f (F.VEC_DABCFG_NBIAS h.k)
       s.results h [(.v (s.dev.pv h.k vd) (BitVec.allOnes 64)
           (BitVec.ofNat 512 (ofLeBytes (scale x ++ scale (s.dev.v h.k vs2)))), 4, false),
         (.g gd (BitVec.ofNat 32 (e x + e (s.dev.v h.k vs2) * 2 ^ 8)), 4, false)])

/-- R159, R184 to R186: floating point, each element rounded to nearest even from the exact value, due four bundles later; the
scalar forms on element 0, where a compare names one of the eight predicates, the conversions, and the moves to and from the
general registers. -/
def Obligations.FloatingPointResults : Prop :=
  ∀ (s : State) (h : Hd) (vd vs1 vs2 gs gd : Reg) (t : BitVec 3), ReadyV s h →
    let z := tSize t
    let f := tFmt t
    let a := fun i => lane (s.dev.v h.k vs1) z i
    let b := fun i => lane (s.dev.v h.k vs2) z i
    let c := fun i => lane (s.dev.v h.k vd) z i
    let act := s.dev.active h.k h.pg z (64 / z)
    let act4 := s.dev.active h.k h.pg 4 16
    let put := fun (op : FVal → FVal → FVal) =>
      s.results h (s.dev.laneRes h vd z 0 4 false act fun i => f.encode (op (f.decode (a i)) (f.decode (b i))))
    let hg := { h with gn := false }
    let fset := fun (v : Nat) (lat : Nat) => s.guarded hg [(.v (s.dev.pv h.k vd) (BitVec.allOnes 64) (BitVec.ofNat 512 v), lat, false)]
    let fput := fun (op : FVal → FVal → FVal) => fset (f.encode (op (f.decode (a 0)) (f.decode (b 0)))) 4
    let fcmp := fun (op : FVal → FVal → Bool) => s.guarded hg
      [(.p (s.dev.pp h.k (vd.setWidth 3)) (if op (f.decode (a 0)) (f.decode (b 0)) then BitVec.ofNat 64 (2 ^ z - 1) else 0), 4, false)]
    (t = 5 ∨ t = 6 →
      exec (.vfadd h vd vs1 vs2 t) s = put fadd ∧ exec (.vfsub h vd vs1 vs2 t) s = put fsub ∧
      exec (.vfmul h vd vs1 vs2 t) s = put fmul ∧ exec (.vfmin h vd vs1 vs2 t) s = put fmin ∧
      exec (.vfmax h vd vs1 vs2 t) s = put fmax ∧
      exec (.vfma h vd vs1 vs2 t) s = s.results h (s.dev.laneRes h vd z 0 4 false act fun i =>
        f.encode (ffma (f.decode (c i)) (f.decode (a i)) (f.decode (b i)))) ∧
      exec (.scalarForms h .add vd vs1 vs2 t) s = fput fadd ∧ exec (.scalarForms h .sub vd vs1 vs2 t) s = fput fsub ∧
      exec (.scalarForms h .mul vd vs1 vs2 t) s = fput fmul ∧ exec (.scalarForms h .min vd vs1 vs2 t) s = fput fmin ∧
      exec (.scalarForms h .max vd vs1 vs2 t) s = fput fmax ∧
      exec (.scalarForms h .fma vd vs1 vs2 t) s = fset (f.encode (ffma (f.decode (c 0)) (f.decode (a 0)) (f.decode (b 0)))) 4 ∧
      (vd.toNat < 8 → exec (.scalarForms h .cmpeq vd vs1 vs2 t) s = fcmp feq ∧
        exec (.scalarForms h .cmplt vd vs1 vs2 t) s = fcmp flt)) ∧
    exec (.vfcvtFi h vd vs1 6) s = s.results h (s.dev.laneRes h vd 4 0 4 false act4 fun i =>
      wrapInt 32 (ftoi32 (fp32.decode (lane (s.dev.v h.k vs1) 4 i)))) ∧
    exec (.vfcvtIf h vd vs1 2) s = s.results h (s.dev.laneRes h vd 4 0 4 false act4 fun i =>
      fp32.encode (fofInt (laneS (s.dev.v h.k vs1) 4 i))) ∧
    exec (.vfcvtW h vd vs1 5) s = s.results h (s.dev.laneRes h vd 4 0 4 false act4 fun i =>
      fp32.encode (fp16.decode (lane (s.dev.v h.k vs1) 2 i))) ∧
    exec (.vfcvtN h vd vs1 6) s = s.results h (s.dev.laneRes h vd 2 0 4 false (s.dev.active h.k h.pg 2 16) fun i =>
      fp16.encode (fp32.decode (lane (s.dev.v h.k vs1) 4 i))) ∧
    exec (.fmvFg h vd gs 6) s = fset (s.dev.g h.k gs).toNat 2 ∧
    exec (.fmvGf h gd vs1 6) s = s.guarded hg [(.g gd (BitVec.ofNat 32 (lane (s.dev.v h.k vs1) 4 0)), 2, false)]

/-! ## Vector memory, coprocessors and Easel instructions (chapters 05, 06, 08) -/

/-- R134, R187 to R191, R196 to R198: vector loads and stores of the core's own data scratch. Every active element is read, or
stored, at its own address: unit stride, byte by byte as the window of VFORM wraps them, with its post-increment; at a stride
from a register; or gathered and scattered by an index register, from VSTART up, which ends at zero. Elements that are not active
are neither read nor written, and with no active element nothing happens, but that a VSTART at or above the in-range count
becomes zero. Memory is sound, and no shared coprocessor has yet to read its source. -/
def Obligations.VectorMemoryResults : Prop :=
  ∀ (s : State) (h : Hd) (vd rb rx : Reg) (m : VForm) (sz sc : BitVec 2) (pi x : Bool) (da : Nat → Nat), ReadyV s h →
    Clean s.dev →
    let k : Nat := h.k
    let upd := fun (on : Bool) (a : Nat) => if on then [(RegWr.g rb (BitVec.ofNat 32 a), 1, false)] else []
    let put := fun (z : Nat) (act : List Nat) => act.foldl (fun d i => d.setBytes (da i) (leBytes z (lane (s.dev.v k vd) z i))) s.dev
    let got := fun (z : Nat) (act : List Nat) => s.dev.laneRes h vd z 0 5 false act fun i => ofLeBytes (s.dev.bytes (da i) z)
    let at_ := fun (write : Bool) (z : Nat) (act : List Nat) (ca : Nat → Nat) =>
      ∀ i ∈ act, ca i % z = 0 ∧ s.dev.mapAddr k (ca i) write = some (da i, .scratch)
    (let z := 2 ^ m.sz.toNat
     let act := s.dev.active k h.pg z (64 / z)
     let o := s.dev.address k (s.dev.g k rb).toNat (if m.pi then ((min (s.dev.vl k) (64 / z) * z : Nat) : Int) else 0) m.pi m.cwe m.cw.toNat
     let byteAt := fun (write : Bool) => ∀ i ∈ act, o.at (i * z) % z = 0 ∧
       ∀ j < z, s.dev.mapAddr k (o.at (i * z + j)) write = some (da (i * z + j), .scratch)
     let read := s.dev.laneRes h vd z 0 5 false act fun i =>
       ofLeBytes ((List.range z).flatMap fun j => s.dev.bytes (da (i * z + j)) 1)
     let stored := act.foldl (fun d i => (List.range z).foldl (fun d j =>
       d.setBytes (da (i * z + j)) (((leBytes z (lane (s.dev.v k vd) z i)).drop j).take 1)) d) s.dev
     (act ≠ [] → o.bad = false) →
     (byteAt false → exec (.vld h vd rb m) s = s.results h (if act = [] then [] else read ++ upd m.pi o.base)) ∧
     (byteAt true → exec (.vst h vd rb m) s = s.to (stored.lone k (if act = [] then [] else upd m.pi o.base)))) ∧
    (let z := 2 ^ sz.toNat
     let act := s.dev.active k h.pg z (64 / z)
     let tgt := fun (i : Nat) => wrapInt 32 (((s.dev.g k rb).toNat : Int) + (i : Int) * (s.dev.g k rx).toInt)
     let u := upd pi (tgt (min (s.dev.vl k) (64 / z)))
     (at_ false z act tgt → exec (.vlds h vd rb rx sz pi) s = s.results h (if act = [] then [] else got z act ++ u)) ∧
     (at_ true z act tgt → exec (.vsts h vd rb rx sz pi) s = s.to ((put z act).lone k (if act = [] then [] else u)))) ∧
    (let z := 2 ^ sz.toNat
     let is := if x then 4 else 2
     let n := min (64 / z) (64 / is)
     let start := s.dev.f (F.VEC_VSTART_VSTART k)
     let all := s.dev.active k h.pg z n
     let act := all.filter fun i => decide (start ≤ i)
     let ca := fun (i : Nat) => wrapInt 32 (((s.dev.g k rb).toNat : Int) + laneS (s.dev.v k rx) is i * ((2 ^ sc.toNat : Nat) : Int))
     let done := fun (d : Dev) => if all = [] ∧ start < min (s.dev.vl k) n then d else d.setF (F.VEC_VSTART_VSTART k) 0
     (vd ≠ rx ∨ all = [] → at_ false z act ca → exec (.vldx h vd rb rx sz x sc) s = s.to (done (s.dev.lone k (got z act)))) ∧
     (at_ true z act ca → exec (.vstx h vd rb rx sz x sc) s = s.to (done ((put z act).lone k []))))

/-- R201 to R207: an instruction of the private coprocessor marks its destination as pending with the value of its function,
whose last places are open (log entry 2): nothing else of the core but the pc changes until the result comes. -/
def Obligations.PrivateCoprocessorStarts : Prop :=
  ∀ (s : State) (h : Hd) (rd rs1 rs2 : Reg), ReadyV s h → s.dev.copOn h.k 0 = true →
    let k : Nat := h.k
    let x := (s.dev.g k rs1).toNat
    let y := (s.dev.g k rs2).toNat
    let fr := Config.free s.dev.free
    let start := fun (res : List (Reg × Word)) (n : Nat) =>
      if s.dev.guard h then
        s.to { (s.dev.lone k []).mapCore k (fun c => { c with cx := [{ res := res }] }) with free := s.dev.free + n }
      else s.results h []
    let one := fun (v : Nat) => start [(rd, BitVec.ofNat 32 v)] 1
    exec (.rcp h rd rs1) s = one (cxRcp x fr) ∧ exec (.rsqrt h rd rs1) s = one (cxRsqrt x fr) ∧
    exec (.atan2 h rd rs1 rs2) s = one (cxAtan2 x y fr) ∧ exec (.log2 h rd rs1) s = one (cxLog2 x fr) ∧
    exec (.exp2 h rd rs1) s = one (cxExp2 x fr) ∧
    (rd.toNat % 2 = 0 → rs1.toNat % 2 = 0 → rs2.toNat % 2 = 0 →
      let r := cxCdiv x (s.dev.g k (rs1 + 1)).toNat y (s.dev.g k (rs2 + 1)).toNat fr (Config.free (s.dev.free + 1))
      exec (.cdiv h rd rs1 rs2) s = start [(rd, BitVec.ofNat 32 r.1), (rd + 1, BitVec.ofNat 32 r.2)] 2)

/-- R206, R208: a result of the private coprocessor is written when it comes, unless a write of its register is still in
flight; nothing waits for it here. -/
def Obligations.CoprocessorResultWritten : Prop :=
  ∀ (s : State) (k : CoreIx) (rd : Reg) (x : CxPend), (s.dev.core k).stall = .none → s.spine.contain.out (coreUid k) = false →
    (s.dev.core k).inflight = [] → (s.dev.core k).cx.find? (fun x => x.res.any fun y => y.1 == rd) = some x →
    exec (.cxResult k rd) s =
      s.to (x.res.foldl (fun d y => d.applyWr k (.g y.1 y.2)) (s.dev.mapCore k fun c => { c with cx := c.cx.erase x }))

/-- R212 to R220: a shared coprocessor takes an operation when it is free, and its predicate and CSB are cleared; when it is busy
it takes nothing, both are set, and the try is counted. Of the tries of one cycle it takes that of the core next after the one
it took last: a try that comes before the one taken in this cycle takes its place, and that one then found the unit busy. -/
def Obligations.SharedCoprocessorTry : Prop :=
  ∀ (s : State) (h : Hd) (rc rs rt : Reg) (pd : PReg) (src dst : Nat), ReadyV s h → rc.toNat % 2 = 0 →
    let k : Nat := h.k
    let ctl := s.dev.g k rc
    let arg := s.dev.g k (rc + 1)
    let cl := coreCluster k
    let run := fun (i : Instr) (unit op : Nat) =>
      s.dev.copOn k (1 + unit) = true →
      s.spine.contain.units.contains (mkUid (k / 96) (k / 24 % 4) (k % 24 / 4) (4 + unit)) = false →
      csLegal unit op ctl arg = true →
      csBlock s.dev k (s.dev.g k rs).toNat (csSizes unit op ctl arg).1 = some src → (s.dev.g k rs).toNat % 8 = 0 →
      csBlock s.dev k (s.dev.g k rt).toNat (csSizes unit op ctl arg).2 = some dst → (s.dev.g k rt).toNat % 8 = 0 →
      let x := s.dev.csUnit cl unit
      let take := fun (d : Dev) (prev : Nat) =>
        s.to (((d.setCs cl unit
          { op := some { core := h.k, op := op, ctl := ctl, arg := arg, src := src, dst := dst, len := (csSizes unit op ctl arg).1, got := [] }
            last := k % 4, tie := some { now := s.spine.now, prev := prev, pd := s.dev.pp k pd } }).setCsb k
            false).lone k [(.p (s.dev.pp k pd) 0, 1, false)])
      let before := fun (o : CsOp) (t : CsTie) =>
        t.now = s.spine.now ∧ csPlace t.prev (k % 4) < csPlace t.prev (o.core.val % 4)
      (x.op = none → exec i s = take s.dev x.last) ∧
      (∀ o t, x.op = some o → x.tie = some t → before o t →
        exec i s = take ((s.dev.applyWr o.core.val (.p t.pd (BitVec.allOnes 64))).csBusy o.core.val unit) t.prev) ∧
      (∀ o, x.op = some o → (∀ t, x.tie = some t → ¬ before o t) →
        exec i s = s.to ((s.dev.csBusy k unit).lone k [(.p (s.dev.pp k pd) (BitVec.allOnes 64), 1, false)]))
    run (.chol h rc rs rt pd) 0 0 ∧ run (.inv h rc rs rt pd) 0 1 ∧
    run (.sort h rc rs rt pd) 1 0 ∧ run (.topk h rc rs rt pd) 1 1 ∧ run (.search h rc rs rt pd) 1 2

/-- R216 to R219, R228: a shared coprocessor has read all of its source at its commit; it writes its records and then its header,
sets DONE for the core that asked, and is free; a fault takes it out of service, and the core sees DONE and ERR. -/
def Obligations.SharedCoprocessorEnds : Prop :=
  ∀ (s : State) (c : Fin 96) (unit : Bool) (o : CsOp),
    let u := if unit then 1 else 0
    let csx := fun (bit : Nat) => (⟨coreBase o.core + 0x808, 4 * u + bit, 1⟩ : Fld)
    let free := fun (e : Dev) => e.setCs c u { e.csUnit c u with op := none, tie := none }
    let rest := s.dev.bytes (o.src + o.got.length) (o.len - o.got.length)
    let d := s.dev.csTake c u (o.len - o.got.length)
    let put := fun (e : Dev) (recs head : List Byte) => ((e.memPut (o.dst + 8) recs).2.memPut o.dst head).2
    (s.dev.csUnit c u).op = some o → s.spine.contain.out (csUid c u) = false →
    (unit = true → ∀ r, cs1Result { o with got := o.got ++ rest } = r → exec (.csCommit c unit) s =
      s.to (free ((put d r.1 ([1, 0, 0, 0] ++ leBytes 4 r.2)).setF (csx 1) 1))) ∧
    (unit = false → ∀ rec_ status eout ix n, cs0Result d { o with got := o.got ++ rest } = (rec_, status, eout, ix, n) →
      exec (.csCommit c unit) s = s.to (free ((put { d with free := d.free + n } rec_
        (leBytes 2 status ++ leBytes 1 eout ++ [0] ++ leBytes 2 ix ++ [0, 0])).setF (csx 1) 1))) ∧
    (let sp := s.spine.addUnit (csUid c u)
     exec (.csUnitFault c unit) s = .next { s with
       spine := sp, dev := ((free ((s.dev.setF (csx 1) 1).setF (csx 2) 1)).raise (evCoreQuar c) (csUid c u)).redirect sp })

/-- R283 to R286, R296, R297: the Easel instructions. SUBMIT and SUBMIT.T accept a FREE slot whose descriptor passes every check
and answer 0: a task that is not yet to be released is HELD; one released at once, in time, is READY in its region. CANCEL ends a
task that does not run yet. WAIT makes the core idle until a task comes; DONE ends its task. -/
def Obligations.EaselInstructionResults : Prop :=
  ∀ (s : State) (h : Hd) (rd rs1 : Reg) (pd : PReg), Ready s h →
    let k : Nat := h.k
    let sp := s.spine
    let v := s.dev.g k rs1
    let n := v.toNat % 2 ^ 16
    let held := s.dev.setSlot n { Slot.free with st := 1, dep := s.dev.df n 4 12 8 }
    let both := fun (d : Dev) =>
      exec (.submit h rd rs1) s = s.to (d.lone k [(.g rd 0, 1, false)]) ∧
      exec (.submitT h rd rs1 pd) s = s.to (d.lone k [(.g rd 0, 1, false), (.p (s.dev.pp k pd) 0, 1, false)])
    (s.dev.level k ≠ .u → (s.dev.slot n).st = 0 → v.toNat < 2 ^ 16 → s.dev.submitCause n (s.dev.coreSlot n) = 0 →
      (s.dev.releasesNow sp n = false → both held) ∧
      (s.dev.releasesNow sp n = true → (timeNs sp : Int) ≤ s.dev.dRelease n →
        SMap.wf (fun _ => Slot.free) s.dev.slots = true →
        (∀ r, s.dev.chooseRegion sp n = some r → s.dev.f F.ESL_CTRL_RESERVE < s.dev.freeEntries r) →
        ∀ r, held.chooseRegion sp n = some r → 0 < held.freeEntries r →
          both (held.mapSlot n fun x => { x with st := 3, region := some r }))) ∧
    (s.dev.level k ≠ .u → (s.dev.slot n).st = 1 ∨ (s.dev.slot n).st = 2 ∨ (s.dev.slot n).st = 3 → s.dev.dTag n = v.toNat / 2 ^ 16 →
      (s.dev.slot n).fin = none → s.dev.fb F.ESL_TRC_CTRL_EN = false →
      exec (.cancel h rd rs1) s =
        s.to ((s.dev.setSlot n { s.dev.slot n with fin := some ((s.dev.slot n).kill.getD 2) }).lone k [(.g rd 0, 1, false)])) ∧
    (isHubCore h.k = false →
      exec (.wait h) s = s.to (s.dev.mapCore k fun c =>
        { c with mode := .easel, kill := false, resume := BitVec.ofNat 16 (c.pc.toNat + 4) }) ∧
      (s.dev.fabWrites (coreUid k) 0 = false →
        let end_ := fun (d : Dev) => s.to ((d.mapCore k fun c => { c with task := none, kill := false }).lone k [])
        ((s.dev.core k).task = none → exec (.done h rs1) s = end_ s.dev) ∧
        (∀ t, (s.dev.core k).task = some t →
          exec (.done h rs1) s = end_ (s.dev.signalEnd t (if v.toNat % 16 = 0 then 0 else 1)))))

/-- R132: a load that needs the HBM, uncached and sound, stalls its core with its bundle held; when the data returns the load
completes as one of the data scratch does, and the write of its register is due four bundles later. -/
def Obligations.UncachedLoadReturns : Prop :=
  ∀ (s : State) (h : Hd) (rd rb : Reg) (m : MForm) (da : Nat) (ext : List Byte), Ready s h → s.dev.bad = [] → m.sz ≠ 3 →
    s.dev.guard { h with gn := false } = true →
    let k : Nat := h.k
    let n : Nat := 2 ^ m.sz.toNat
    let o := s.dev.address k (s.dev.g k rb).toNat (m.imm.toInt * (n : Int)) m.pi m.cwe m.cw.toNat
    let x := ofLeBytes (s.dev.bytes da n)
    let upd : List (RegWr × Nat × Bool) := if m.pi then [(.g rb (BitVec.ofNat 32 o.base), 1, false)] else []
    let i := Instr.ld h rd rb m
    let waits := s.dev.mapCore k fun c => { c with bundle := [i], stall := .load }
    o.bad = false → o.addr % n = 0 → s.dev.mapAddr k o.addr false = some (da, .uncached) → tgtOf da = .hbm →
    exec i s = s.to waits ∧
    exec (.loadReturn h.k [] ext) (s.withDev waits) =
      s.results h ((.g rd (if m.u then BitVec.ofNat 32 x else BitVec.ofInt 32 (sx (8 * n) x)), 4, false) :: upd)

/-- R141, R142, R149 to R151: what a core does between bundles. A core whose loop or repeat count has run out leaves the loop. One
with interrupts enabled, outside every hold-off, takes its lowest enabled pending line, and so does one that WFI holds; without
IE, or in a hold-off, the WFI only ends. -/
def Obligations.CoreEvents : Prop :=
  ∀ (s : State) (k : CoreIx),
    let f := s.dev.f
    let left := (s.dev.loopEnd k).rptEnd k
    let taken := fun (t : State) =>
      t.dev.f (F.CORE_STATUS_PPRIV k) = f (F.CORE_STATUS_PRIV k) ∧ t.dev.f (F.CORE_STATUS_PIE k) = 1 ∧
      t.dev.f (F.CORE_STATUS_PRIV k) = 3 ∧ t.dev.f (F.CORE_STATUS_IE k) = 0 ∧ t.dev.f (F.CORE_CAUSE_INT k) = 1 ∧
      t.dev.f (F.CORE_CAUSE_CODE k) = lowestLine (s.dev.linesOn k) ∧
      t.dev.f (F.CORE_EPC_EPC k) = (s.dev.core k).pc.toNat / 4 ∧ (t.dev.core k).mode = .run ∧
      (t.dev.core k).pc = BitVec.ofNat 16 (f (F.CORE_TVEC_BASE k) * 64 + 0x40) ∧ (t.dev.core k).stall = .none ∧
      (∀ r, t.dev.g k r = s.dev.g k r) ∧ t.dev.mem = s.dev.mem ∧ t.spine = s.spine
    (s.spine.contain.out (coreUid k) = false → (s.dev.core k).mode = .halted →
      exec (.coreRun k) s = s.to (((s.dev.setF (F.CORE_STATUS_PRIV k) 3).setF (F.CORE_STATUS_IE k) 0).mapCore k fun c =>
        { c with mode := .run, pc := BitVec.ofNat 16 (f (F.CORE_BOOT_PC_PC k) * 4) })) ∧
    exec (.loopEnd k) s = s.to (if f (F.CORE_STATUS_LA k) = 1 ∧ f (F.CORE_LC_LC k) = 0 then s.dev.setF (F.CORE_STATUS_LA k) 0 else s.dev) ∧
    exec (.rptEnd k) s = s.to (if f (F.CORE_STATUS_RA k) = 1 ∧ f (F.CORE_RC_RC k) = 0 then s.dev.setF (F.CORE_STATUS_RA k) 0 else s.dev) ∧
    ((s.dev.core k).inflight = [] → f (F.CORE_STATUS_IE k) = 1 → s.dev.linesOn k ≠ 0 →
      (Alone s.spine s.dev k → ∃ t, exec (.interruptTaken k) s = .next t ∧ taken t) ∧
      ((s.dev.core k).mode = .wfi → s.spine.contain.out (coreUid k) = false → s.spine.contain.pkg = 0 → left.heldOff k = false →
        ∃ t, exec (.wfiWake k) s = .next t ∧ taken t)) ∧
    ((s.dev.core k).mode = .wfi → s.spine.contain.out (coreUid k) = false → s.spine.contain.pkg = 0 →
      f (F.CORE_STATUS_IE k) = 0 ∨ left.heldOff k = true →
      s.dev.linesOn k ≠ 0 → exec (.wfiWake k) s = s.to (left.mapCore k fun c => { c with mode := .run }))

/-- R11, R568, R589, R592, R595: writes of event registers by M-level hub firmware. A software raise queues its event with the
writer's UID; a 1 clears its bit of EVT_STAT; EVT_CFG, as any register of RW fields, takes what is written by its access codes;
EVT_SEND sends one EVENT frame to the peer of the node. The write leaves its core's write buffer first. -/
def Obligations.EventRegisterWrites : Prop :=
  ∀ (s : State) (q : Req) (v : Word), Fw s q →
    let sp := s.spine
    let at_ := fun (x : Fld) (f : Dev → Dev) => s.written sp (f (s.dev.given q x.addr v))
    exec (.swRaise q v) s = at_ F.EVT_SW_RAISE_INDEX (fun d => d.raise (48 + v.toNat % 16) q.uid.toNat q.ch.toNat) ∧
    (∀ w : Fin 32, let x := F.EVT_STAT_STAT w
      exec (.statClear q w v) s = at_ x fun d =>
        d.setReg x.addr (BitVec.ofNat 32 (d.f x - Nat.land (d.f x) v.toNat))) ∧
    (∀ e : Fin 1024, let x := F.EVT_CFG_ROUTE e
      exec (.evtCfgWrite q e v) s = at_ x fun d =>
        d.setReg x.addr (BitVec.ofNat 32 (v.toNat % 2 ^ 30 - v.toNat / 32 % 2 * 32))) ∧
    (∀ r : Fin 16, s.spine.contain.dies.contains (r.val / 4) = false →
      let x : Fld := ⟨blkBase (.enc r) + 8, 0, 6⟩
      exec (.regWrite q (BitVec.ofNat 42 x.addr) v) s = at_ x fun d => d.setReg x.addr (BitVec.ofNat 32 (v.toNat % 64))) ∧
    (∀ k, (s.dev.given q F.EUR_EVT_SEND_NODE.addr v).peerOf (v.toNat % 2 ^ 14) = some k →
      (s.dev.given q F.EUR_EVT_SEND_NODE.addr v).peerUp k = true →
      exec (.evtSendWrite q v) s = at_ F.EUR_EVT_SEND_NODE (fun d => d.eurNote sp k 10 (leBytes 1 (v.toNat / 2 ^ 14 % 16))))

/-- R474, R484, R489, R490, R525, R530: writes of the time and trim registers by M-level hub firmware. A sample waits for the servo; a
backward step withholds increments, a forward one moves time at once; EN 1 arms a trigger, EN 0 disarms it, keeping EN's
old value for the write; a code goes to its channel; a kick runs the watchdog, and a timeout of 0 stops it. -/
def Obligations.TimeRegisterWrites : Prop :=
  ∀ (s : State) (q : Req) (v : Word), Fw s q →
    let sp := s.spine
    let f := s.dev.f
    let with_ := fun (a : Nat) (u : Word) (g : Dev → Dev) => s.written sp (g (s.dev.given q a u))
    (f F.TB_SERVO_CFG_SRC = 0 → f F.TB_STATUS_STEPPING = 0 → s.dev.tb.sample = none →
      exec (.offsetCommit q v) s = with_ F.TB_OFFSET_IN_HI_OFS.addr v fun d =>
        ({ d with tb := { d.tb with sample := some (sx 48 (d.tb.ofsLo + v.toNat % 2 ^ 16 * 2 ^ 32)), heard := sp.now } } : Dev).clearCause sp 0) ∧
    (v.toNat % 2 = 1 → bitAt v.toNat 1 = false → s.dev.traffic = false → f F.TB_STATUS_STEPPING = 0 →
      let a := F.TB_STEP_CMD_GO.addr
      let by_ : Int := nsToUnits (sx 64 (f F.TB_STEP_SEC_LO_SEC + f F.TB_STEP_SEC_HI_SEC * 2 ^ 32) * 10 ^ 9 + s.dev.fs F.TB_STEP_NS_NS)
      let d := (s.dev.given q a v).setF F.TB_STEP_CMD_ABS 0
      (by_ < 0 → exec (.stepGo q v) s =
        s.written sp (({ d with tb := { d.tb with withhold := (-by_).toNat } } : Dev).setF F.TB_STATUS_STEPPING 1)) ∧
      (0 ≤ by_ → exec (.stepGo q v) s =
        s.written (sp.goto (sp.now + by_.toNat))
          ((d.trigStep (sp.goto (sp.now + by_.toNat)) sp.now).stepDone (sp.goto (sp.now + by_.toNat))))) ∧
    (∀ n : Fin 256, let x := F.TB_TRIG_CTRL_EN n
      (f x = 0 → exec (.trigArm q n v) s = with_ x.addr (v ||| 1) fun d =>
        (d.plainWrite x.addr (v ||| 1)).trigRun sp n (prevTick sp) ((d.plainWrite x.addr (v ||| 1)).trigFuel sp n)) ∧
      (f x = 1 → f (F.TB_TRIG_STAT_STATE n) = 1 → exec (.trigDisarm q n v) s = with_ x.addr (v &&& ~~~1) fun d =>
        ((d.plainWrite x.addr (v &&& ~~~1 ||| (d.reg x.addr &&& 1))).setF x 0).setF (F.TB_TRIG_STAT_STATE n) 0)) ∧
    (∀ c : Fin 4, s.dev.fnUp (130 + c) = true → s.dev.mode ≠ 5 → bitAt (f F.TRM_STATUS_SAFE) c = false → sp.contain.pkg = 0 →
      (c.val = 0 → f F.TB_SERVO_CFG_OUT ≠ 1 ∧ f F.TB_SERVO_CFG_OUT ≠ 2) →
      exec (.codeReq q c v) s = with_ (F.TRM_CH_CODE_REQ c).addr v fun d =>
        d.mapTrim c fun x => { x with next := some (v.toNat % 2 ^ 16) }) ∧
    (let a := F.TRM_WDOG_KICK.addr
     (v.toNat % 2 ^ 16 ≠ 0 → s.dev.fb F.HST_STATUS_DORMANT = true →
       exec (.kick q v) s = with_ a (v ||| 0x10000) fun d =>
         (({ d with wdogAt := sp.now } : Dev).setF F.TRM_WDOG_TIMEOUT_MS (v.toNat % 2 ^ 16)).setF F.TRM_WDOG_RUN 1) ∧
     exec (.timeoutWrite q v) s = with_ a (v &&& ~~~0x10000) fun d =>
       if v.toNat % 2 ^ 16 = 0 then (d.setF F.TRM_WDOG_TIMEOUT_MS 0).setF F.TRM_WDOG_RUN 0
       else ({ d with wdogAt := sp.now } : Dev).setF F.TRM_WDOG_TIMEOUT_MS (v.toNat % 2 ^ 16))

/-- R243, R249, R253, R254, R259, R267: writes of the memory registers. An accepted handover starts the bank's drain with the new
owner in it, and of two handovers in one cycle hub firmware's comes first; a delegation of a bank that does not drain takes
effect at once, and its end starts a drain; a power request is followed upward at once; a no-lend write keeps the pages, and ends
the borrow of a window in one of them, which is tested again; an invalidation of the extent map is queued. -/
def Obligations.MemoryRegisterWrites : Prop :=
  ∀ (s : State) (q : Req) (v : Word), Fw s q →
    let sp := s.spine
    let at_ := fun (x : Fld) (f : Dev → Dev) => s.written sp (f (s.dev.given q x.addr v))
    let uid := bitsOf v.toNat 0 12
    let ch := bitsOf v.toNat 12 6
    exec (.extentInval q v) s = at_ F.PAL_EXT_INVAL_INDEX (fun d =>
      { d.setF F.PAL_EXT_INVAL_BUSY 1 with
        extInval := d.extInval ++ [if bitAt v.toNat 30 then 2 ^ 20 else v.toNat % 2 ^ 20] }) ∧
    (∀ (r : Fin 16) (n : Fin 52), sp.contain.dies.contains (r.val / 4) = false → sp.contain.units.contains (bankUid r n) = false →
      let owner := s.dev.f (F.PAL_OWNER_OWNER r n)
      let och := s.dev.f (F.PAL_OWNER_OWNER_CH r n)
      ((s.dev.bank r n).drain.map (·.own) ≠ some true → mayOwn r uid ch = true → sp.contain.gone uid ch = false →
        ¬ (uid = owner ∧ ch = och) →
        exec (.handover q r n v []) s = at_ (F.PAL_OWNER_OWNER r n) fun d => d.mapBank r n fun b =>
          { b with drain := some { own := true, uid := uid, ch := ch, oldIn := sp.contain.gone owner och
                                   delIn := (match b.drain with | some x => x.delIn | none => false) ||
                                     !d.fb (F.PAL_DELEG_EN r n) } }) ∧
      (∀ q' v', reqFw q' = false → exec (.handover q' r n v' [(q, v)]) s = exec (.handover q r n v [(q', v')]) s) ∧
      (s.dev.isOwner r n q = true → (s.dev.bank r n).drain = none →
        let x := F.PAL_DELEG_EN r n
        (bitAt v.toNat 18 = true → mayDelegate r uid ch = true →
          exec (.delegation q r n v) s = at_ x fun d =>
            ((d.setF (F.PAL_DELEG_DEL_UID r n) uid).setF (F.PAL_DELEG_DEL_CH r n) ch).setF x 1) ∧
        (bitAt v.toNat 18 = false → s.dev.fb x = true →
          exec (.delegation q r n v) s = at_ x fun d => d.mapBank r n fun b =>
            { b with drain := some { own := false, uid := 0, ch := 0, oldIn := true, delIn := false } })) ∧
      exec (.powerRequest q r n v) s = at_ (F.PAL_PWR_REQ r n) (fun d =>
        let d1 := (if d.pwrReq r n = 1 then d else d.mapBank r n fun b => { b with woken := false }).setF (F.PAL_PWR_REQ r n) (v.toNat % 4)
        d1.mapBank r n fun b =>
          if b.phase = .retention ∧ d1.pwrReq r n = 0 then { b with phase := .waking }
          else if b.phase = .off ∧ d1.pwrReq r n ≠ 2 then { b with phase := .powering } else b) ∧
      (∀ w : Fin 16, (48 ≤ n.val ∨ w = 0) →
        let x := F.PAL_NOLEND_PAGES r (n * 16 + w)
        (s.dev.washAt r = none → exec (.nolendWrite q r n w v) s = at_ x fun d => d.setF x v.toNat) ∧
        (∀ save p, s.dev.washAt r = some { tgt := .bank r n p, save := save } →
          exec (.nolendWrite q r n w v) s = at_ x fun d =>
            if p.toNat / 512 = w.val ∧ bitAt v.toNat (p.toNat / 16 % 32) = true then
              (let e := (d.setF x v.toNat).washRelease r
               { e with washAgain := d.washAgain ++ [(.bank r n p, sp.now)] })
            else d.setF x v.toNat)))

/-- R318, R341, R344, R539, R546, R585, R627: writes of the registers of Gust, Easel, the host rings and the cages by M-level hub
firmware, and a host write through BAR0. START of an idle channel starts the program at PTR; STOP lets a burst in flight
complete; a kill ends a task that does not run; an I2C transfer of a present module is BUSY; a host write of a register
that it may not write is counted and raises its event. -/
def Obligations.MoverRegisterWrites : Prop :=
  ∀ (s : State) (q : Req) (v : Word),
    let sp := s.spine
    let f := s.dev.f
    let with_ := fun (a : Nat) (u : Word) (g : Dev → Dev) => s.written sp (g (s.dev.given q a u))
    (Fw s q →
      (∀ (e : Fin 17) (n : Fin 64), n.val < gstChans e → (e.val < 16 → sp.contain.dies.contains (e.val / 4) = false) →
        s.dev.chMode1 e n = true →
        let b := gstBaseOf e
        (s.dev.chState e n = 0 → sp.contain.gone (gustUid e) n = false →
          exec (.gstStart q e n) s = with_ (F.GST_CH_CTRL_START b n).addr 1 fun d =>
            (((((d.setF (F.GST_CH_STATUS_STATE b n) 1).setF (F.GST_CH_STATUS_DESC_CNT b n) 0).setF (F.GST_CH_BYTES_BYTES b n) 0).setF
              (F.GST_CH_CUR_LO_ADDR b n) (f (F.GST_CH_PTR_LO_ADDR b n))).setF
              (F.GST_CH_CUR_HI_ADDR b n) (f (F.GST_CH_PTR_HI_ADDR b n))).setChan e n
              { GChan.idle with seq := (d.chan e n).seq + 1 }) ∧
        (s.dev.chRuns e n = true → (s.dev.chan e n).stop = 0 →
          exec (.gstStop q e n) s = with_ (F.GST_CH_CTRL_STOP b n).addr 2 fun d =>
            if (s.dev.chan e n).burst.isSome then (d.setF (F.GST_CH_STATUS_STATE b n) 4).mapChan e n fun c => { c with stop := 9 }
            else d.gstEnd e n 9 0)) ∧
      (∀ r : Fin 16, sp.contain.dies.contains (r.val / 4) = false →
        let x := F.GST_SWREQ_LINE (gstBaseOf r)
        exec (.swreqWrite q r v) s = with_ x.addr v fun d => d.setF x (v.toNat % 2 ^ 16)) ∧
      (let t := v.toNat % 2 ^ 16
       let x := s.dev.slot t
       x.st = 1 ∨ x.st = 2 ∨ x.st = 3 → x.fin = none → s.dev.dTag t = v.toNat / 2 ^ 16 → s.dev.fb F.ESL_TRC_CTRL_EN = false →
       exec (.eslKill q v) s = .next (s.onWhole fun w => retrySubmits (retryFences (w.1,
         (s.dev.given q F.ESL_KILL_TASK_ID.addr v).mapSlot t fun x => { x with fin := some (x.kill.getD 2) })))) ∧
      (∀ (k : Fin 256) (u : BitVec 16), let a := (F.HST_RING_DQ_OUT_WR k).addr
        exec (.outWrAdvance q k u) s = with_ a (u.setWidth 32) fun d => d.plainWrite a (u.setWidth 32)) ∧
      (∀ m : Fin 4, let x := F.LC_CAGE_I2C_GO m
        bitAt v.toNat 17 = true → s.dev.fb (F.LC_CAGE_I2C_BUSY m) = false →
        exec (.i2cGo q m v) s = with_ x.addr v fun d =>
          if (s.dev.cageAt m).prs then ((d.plainWrite x.addr v).setF x 0).setF (F.LC_CAGE_I2C_BUSY m) 1
          else ((d.plainWrite x.addr v).setF x 0).setF (F.LC_CAGE_I2C_NAK m) 1)) ∧
    (hostFull (sp, s.dev) = true →
      exec (.hostBarWrite 0 0x50004 (leBytes 4 v.toNat)) s = s.written sp (s.dev.plainWrite F.LC_CTRL_IDENT.addr v) ∧
      exec (.hostBarWrite 0 0x10000 (leBytes 4 v.toNat)) s =
        s.written sp (((s.dev.setF F.HST_DENY_ADDR 0x10000).countF F.HST_DENY_COUNT 1).raise evHstWriteDenied hostUid))

/-- R69, R391, R416, R430, R452, R463, R503, R508, R511, R624: writes of the mode, air and fronthaul registers by M-level hub firmware. -/
def Obligations.AirRegisterWrites : Prop :=
  ∀ (s : State) (q : Req) (v : Word), Fw s q →
    let sp := s.spine
    let f := s.dev.f
    let at_ := fun (x : Fld) (g : Dev → Dev) => s.written sp (g (s.dev.given q x.addr v))
    (∀ n : Fin 1536, n.val = v.toNat % 2 ^ 11 → bitAt v.toNat 16 = true → ∀ x, (s.dev.nce n).frame = some x →
      s.dev.chSt n = 2 ∨ s.dev.chSt n = 3 →
      exec (.abort q v) s = at_ F.NCE_CH_CMD_CHANNEL fun d =>
        (d.queueRec n 3 x x.soft none none (d.symTime n (d.nce n).m x.phase / 65536)).chIdle n) ∧
    (∀ n : Fin 1536, let x := F.NCE_CH_BT0_HI_BT0 n
      exec (.bt0HiWrite q n v) s = at_ x fun d => (d.plainWrite x.addr v).schedule n) ∧
    (∀ k : Fin 4, bitAt v.toNat 0 = true →
      let begun := fun (tx : Bool) (d : Dev) (a : Nat) => (d.plainWrite a v).mapStrm tx k fun _ =>
        { NceStrm.idle with mant := (d.strm tx k).mant, exps := (d.strm tx k).exps, mantAt := sp.now, expsAt := sp.now
                            satAt := (d.strm tx k).satAt }
      (s.dev.sharedFree (.tx k) = true → let x := F.NCE_TX_CFG_EN k
        exec (.captureStreamEnable q true k v) s = at_ x fun d =>
          ((begun true d x.addr).setF (F.NCE_TX_CNT_LO_CNT k) 0).setF (F.NCE_TX_CNT_HI_CNT k) 0) ∧
      (s.dev.sharedFree (.cap k) = true → let x := F.NCE_CAP_CFG_EN k
        exec (.captureStreamEnable q false k v) s = at_ x fun d =>
          (((begun false d x.addr).setF (F.NCE_CAP_CNT_LO_CNT k) 0).setF (F.NCE_CAP_CNT_HI_CNT k) 0).capFlow sp k)) ∧
    (∀ (p : Fin 16) (k : Nat), s.dev.bellSym sp p v = some k →
      let t := s.dev.txSym (p + bitsOf v.toNat 6 2) (bitsOf v.toNat 0 6) k
      t.bell = none →
      exec (.txrdyWrite q p v) s = at_ (F.FH_TXRDY_CARRIER p) fun d => d.setTx (p + bitsOf v.toNat 6 2) { t with bell := some sp.now }) ∧
    (∀ (p : Fin 16) (i j : Nat), bitAt v.toNat 9 = true → s.dev.entryOf p (v.toNat % 512) = some (i, j) →
      f (F.FH_STRM_CFG_DIR i j) = 0 →
      exec (.tscapArm q p v) s = at_ (F.FH_TSCAP_CTRL_ENTRY p) fun d =>
        ((d.setF (F.FH_TSCAP_CTRL_ENTRY p) (v.toNat % 512)).setF (F.FH_TSCAP_CTRL_VALID p) 0).mapFh p fun x =>
          { x with cap := some (v.toNat % 512) }) ∧
    (s.dev.glzOn = true →
      (let k := bitsOf v.toNat 19 2
       let r := bitsOf v.toNat 15 4
       bitAt v.toNat 21 = true → s.dev.fnUp 129 = true → bitAt (f F.GLZ_CAPT_CMD_BUSY) k = false → 0 < bitsOf v.toNat 10 4 →
       s.dev.fb (F.GLZ_ROUND_EN r) = true → bitsOf v.toNat 26 4 = 0 →
       exec (.captureCommand q v) s = at_ F.GLZ_CAPT_CMD_GO fun d =>
         let d0 := d.setF F.GLZ_CAPT_CMD_OVF (f F.GLZ_CAPT_CMD_OVF)
         ((d0.mapCapt k fun _ => { GlzCapt.idle with
             wait := true, region := r, map := bitsOf v.toNat 0 10, blocks := bitsOf v.toNat 10 4
             same := bitAt v.toNat 14, out := (d0.capt k).out }).setF
           F.GLZ_CAPT_CMD_BUSY (setBits (f F.GLZ_CAPT_CMD_BUSY) k 1 1)).captStart sp k) ∧
      (bitAt v.toNat 8 = true → s.dev.glz.est = none → bitsOf v.toNat 0 6 < 48 →
       exec (.estimateCommand q v) s = at_ F.GLZ_EST_CMD_GO fun d =>
         ({ d with glz := { d.glz with est := some (bitsOf v.toNat 0 6, bitsOf v.toNat 6 1, bitAt v.toNat 7) } } : Dev).setF
           F.GLZ_EST_CMD_BUSY 1) ∧
      (∀ c : Fin 48, s.dev.fnUp 129 = true →
       let x := F.GLZ_CARR_NEXT_T_HI_T c
       let d1 := (s.dev.given q x.addr v).setF x v.toNat
       ((d1.slotAtNs c (d1.nextT c)).isSome = true → exec (.nextTWrite q c v) s = s.written sp (d1.setF (F.GLZ_CARR_STAT_PEND c) 1)) ∧
       (d1.slotAtNs c (d1.nextT c) = none → exec (.nextTWrite q c v) s =
         s.written sp ((d1.setF (F.GLZ_CARR_STAT_PEND c) 0).raise evGlzSwapMiss glzUid)))) ∧
    (let t := bitsOf v.toNat 4 3
     t < 6 → s.dev.fb F.HST_STATUS_DORMANT = true → (t = 0 ∨ t = 5 ∨ s.dev.servoGood = true) →
     (f F.GSO_MODE_HOLD_DRAIN = 0 ∨ t = 5) → (t = 1 → ∀ n < 134, f (F.GSO_FUNC_RESUME n) = 0) →
     s.dev.mode = 5 → f F.GSO_MODE_DRAINING = 1 →
     exec (.targetWrite q v) s = at_ F.GSO_MODE_TARGET fun d => d.setF F.GSO_MODE_TARGET t)

/-- R10, R12, R458, R470: register reads by M-level hub firmware. A clear-on-read count is returned and then clear; the low word of a
pair latches the high word; a read of TB_NOW_NS latches seconds and fraction of the same instant; a read of the two-step queue
takes its oldest entry. -/
def Obligations.RegisterReads : Prop :=
  ∀ (s : State) (q : Req), Fw s q →
    let d := s.dev
    let sp := s.spine
    let back := fun (v : Nat) (e : Dev) =>
      s.to { e with sent := e.sent ++ [.rsp q.uid.toNat q.ch.toNat (leBytes 4 v) false] }
    let clear := fun (a : Nat) => d.latch.find? (fun e => e.1 == a) = none
    (let x := F.EVT_TRC_LOST_COUNT
     clear x.addr → exec (.rclRead q (BitVec.ofNat 42 x.addr)) s = back (d.f x) (d.setReg x.addr 0)) ∧
    (let x := F.PAL_EXT_REF_ADDR_LO_ADDR
     clear x.addr → exec (.readLowWord q (BitVec.ofNat 42 x.addr)) s =
       back (d.f x) { d with latch := SMap.put d.latch (x.addr + 4) (BitVec.ofNat 32 (d.f F.PAL_EXT_REF_ADDR_HI_ADDR)) }) ∧
    (clear F.TB_NOW_NS_NS.addr → exec (.tbNowRead q) s = back (timeNs sp % 10 ^ 9)
       ((((d.setF F.TB_NOW_NS_NS (timeNs sp % 10 ^ 9)).setF F.TB_NOW_SEC_LO_SEC (timeNs sp / 10 ^ 9)).setF F.TB_NOW_SEC_HI_SEC
         (timeNs sp / 10 ^ 9 / 2 ^ 32)).setF F.TB_NOW_FRAC_FRAC (sp.now * 2 ^ 16 / nsUnit))) ∧
    (∀ (p : Fin 16) (tag t : Nat) (l : List (Nat × Nat)), clear (F.FH_PTP_TXTS_TAG_TAG p).addr → (d.fhPort p).txts = (tag, t) :: l →
       let lost := d.f (F.FH_PTP_TXTS_TAG_LOST p)
       exec (.ptpTxtsPop q p) s = back ((tag + 256 + lost * 512) % 2 ^ 32)
         (((((((d.setF (F.FH_PTP_TXTS_TAG_VALID p) 1).setF (F.FH_PTP_TXTS_TAG_TAG p) tag).setF (F.FH_PTP_TXTS_TAG_LOST p) 0).setF
           (F.FH_PTP_TXTS_NS_LO_NS p) (t / 2 ^ 16 % 2 ^ 32)).setF (F.FH_PTP_TXTS_NS_HI_NS p) (t / 2 ^ 48)).setF
           (F.FH_PTP_TXTS_FRAC_FRAC p) (t % 2 ^ 16)).mapFh p fun x => { x with txts := l }))

/-- R23 to R29, R346, R355, R432, R515: a fault takes its unit, cluster, die or package out of service and raises its event; what
the unit held is handed back, its tasks fail, and ready tasks are placed again. Of a core's fault in the cycle of its cluster's
only the event is recorded. A package fault stops every function. -/
def Obligations.FaultsContain : Prop :=
  ∀ s : State, s.spine.contain.pkg = 0 →
    let sp := s.spine
    let d := s.dev
    let c := sp.contain
    let quar := fun (uid : Nat) (e : Dev) => e.redirect (sp.addUnit uid)
    (∀ k : Fin 384, c.out (coreUid k) = false → (∃ i < 4, i ≠ k.val % 4 ∧ c.units.contains (coreUid (coreCluster k * 4 + i)) = false) →
      exec (.unitFault (BitVec.ofNat 12 (coreUid k)) []) s = s.retried (sp.addUnit (coreUid k)) (quar (coreUid k)
        (((d.coreLost k).handBackAll (coreUid k) 0).raise (evCoreQuar (coreCluster k)) (coreUid k)))) ∧
    (∀ k : Fin 384, let cl := coreCluster k
      exec (.unitFault (BitVec.ofNat 12 (coreUid k)) [.unit (BitVec.ofNat 12 (cicUid cl))]) s =
        (let w := clusterQuarantine cl (sp, d.raise (evCoreQuar cl) (coreUid k))
         s.retried w.1 w.2)) ∧
    (∀ k : Fin 96, c.clusters.contains k.val = false → c.dies.contains (k.val / 24) = false →
      exec (.clusterQuarantine k) s = s.retried (sp.addCluster k) ((((List.range 4).foldl (fun d i =>
        (d.coreLost (k * 4 + i)).handBackAll (coreUid (k * 4 + i)) 0) d).raise (evCoreCluster k) (cicUid k)).redirect (sp.addCluster k))) ∧
    (∀ k : Fin 4, c.dies.contains k.val = false →
      exec (.dieFence k) s =
        (let d1 := ((List.range 96).foldl (fun d i => d.coreLost (k * 96 + i)) d).failRunning fun r => r / 4 == k.val
         s.retried (sp.addDie k) (((d1.setF F.EVT_FAULT_FENCED (Nat.lor (((List.range 96).foldl (fun d i => d.coreLost (k * 96 + i)) d).f
           F.EVT_FAULT_FENCED) (2 ^ k.val))).raise (evFence k) (mkUid 4 3 0 k)).redirect (sp.addDie k)))) ∧
    (∀ src : BitVec 4, within 1 8 src.toNat = true → ∃ t, exec (.packageFault src) s = .next t ∧ t.spine = sp.setPkg src.toNat) ∧
    (∀ (r : Fin 16) (e : Fin 4), c.out (regionUid r e) = false →
      exec (.engineFault r e) s = s.whole (sp.addUnit (regionUid r e)) (quar (regionUid r e)
        (((d.engFault r e).delegateDone (regionUid r e) 0).handBackAll (regionUid r e) 0))) ∧
    (∀ (e : Fin 17) (n : Fin 64), n.val < gstChans e → c.gone (gustUid e) n = false →
      exec (.gstChannelFault e n) s = s.whole (sp.addChan (gustUid e) n) ((d.gstFault e n).redirect (sp.addChan (gustUid e) n))) ∧
    (c.out (hubUid 4) = false → exec .hubEngineFault s =
      s.whole (sp.addUnit (hubUid 4)) (quar (hubUid 4) ((List.range 64).foldl (fun d n => d.gstFault 16 n) d))) ∧
    (c.out nceUid = false → exec .nceFault s = s.whole (sp.addUnit nceUid) (quar nceUid
      (((d.setF F.NCE_STATUS_QUAR 1).raise evNceFault nceUid).handBackAll nceUid 0))) ∧
    (c.out glzUid = false →
      let d1 := ((d.setF F.GLZ_STATUS_QUAR 1).raise evGlzFault glzUid).handBackAll glzUid 0
      exec .glazeFault s = s.whole (sp.addUnit glzUid) (quar glzUid
        (if d1.fnActive 129 then d1.wedge (sp.addUnit glzUid) 129 else d1)))

/-- R56, R61, R65, R66, R87, R88, R553, R606, R607: boot and reset. Power good and the release of RESET_N start the boot; the loader tries its
candidates; the layers are applied once the image is verified, and then DORMANT is reached; the auto-start enters a running
mode once. A reset that has started is executed with everything in service again; power loss keeps only flash and fuses. -/
def Obligations.BootSteps : Prop :=
  ∀ s : State,
    let sp := s.spine
    let d := s.dev
    (∀ latch key, d.boot.at_ = .off → d.boot.again = false → d.boot.rstLow = false →
      exec (.powerGood latch key) s =
        s.to (((d.setF F.LC_STATUS_LATCH (b2n latch)).setF F.LC_STATUS_KEY (b2n key)).bootStart sp.now)) ∧
    (d.boot.at_ = .off → d.boot.rstLow = true → exec .resetNRelease s =
      s.to (({ d with boot := { d.boot with rstLow := false } } : Dev).bootStart (if d.boot.again then d.boot.since else sp.now))) ∧
    (d.boot.at_ ≠ .off → d.boot.rst = none → ∃ t, exec .resetNAssert s = .next t ∧ t.dev.boot.rst = some 1 ∧ t.dev.boot.since = sp.now) ∧
    (∀ (c : Nat) (err : Option (BitVec 32)), d.boot.at_ = .load c →
      (d.verify (d.candSlot c) (err.map BitVec.toNat) = none → exec (.candidateLoad err) s = s.to (d.candAccept c (d.candSlot c))) ∧
      (∀ code off, d.verify (d.candSlot c) (err.map BitVec.toNat) = some (code, off) →
        let d1 := (d.clearSegms (imgBase (d.candSlot c)) off).imgReject code
        exec (.candidateLoad err) s = s.to (if 2 ≤ c then d1.noImage else { d1 with boot := { d1.boot with at_ := .load (c + 1) } }))) ∧
    (d.boot.at_ = .verified → ∃ t, exec .layerApply s = .next t ∧ t.dev.boot.at_ = .layers ∧ t.dev.f F.GSO_BOOT_STATUS_PHASE = 5) ∧
    (d.boot.at_ = .layers → ∃ t, exec .dormantReached s = .next t ∧ t.dev.boot.at_ = .dormant) ∧
    (sp.contain.pkg = 0 → d.boot.autoDue = true → d.servoGood = true → d.mode = 0 → d.fb F.HST_STATUS_DORMANT = true →
      exec .autoStart s = s.to (d.enterRunning sp
        (if d.fb F.GSO_POLICY_COMMISSION_AT_START then 1 else d.runMode) true)) ∧
    (sp.contain.pkg ≠ 0 → d.fb F.GSO_POLICY_PKG_FAULT_RESET = true → d.boot.at_ ≠ .off → d.boot.rst = none →
      ∃ t, exec .pkgFaultResetTimer s = .next t ∧ t.dev.boot.rst = some 4) ∧
    (d.boot.due = true → d.boot.at_ ≠ .off → d.boot.rst = none →
      ∃ t, exec .fullResetDelayExpire s = .next t ∧ t.dev.boot.rst = some 2 ∧ t.dev.boot.due = false) ∧
    (∀ x, d.boot.rst = some x → exec .fullResetExecute s =
      s.whole { sp with contain := Contain.none } (if d.aonKept.boot.rstLow then d.aonKept else d.aonKept.bootStart d.boot.since)) ∧
    (∃ t, exec .powerLoss s = .next t ∧ t.spine = { now := 0, recent := [], contain := Contain.none } ∧
      t.dev.flash = d.flash ∧ t.dev.boot.fuse = d.boot.fuse ∧ t.dev.regs = Dev.reset.regs ∧ t.dev.mem = [] ∧ t.pending = s.pending)

/-- R69, R79, R84, R85, R551 to R556: the mailbox commands, once the device has reached DORMANT and is not stopped by a package fault: the
command at the front of the mailboxes, with no stray argument, has its effect, and ends with its status and results. -/
def Obligations.MailboxCommands : Prop :=
  ∀ (s : State) (f : Nat), hostFull (s.spine, s.dev) = true →
    let sp := s.spine
    let d := s.dev
    let front := fun (cmd : Nat) => d.mbFront cmd = some f ∧ d.mbArgsOk f cmd = true
    let ends := fun (status : Nat) (res : List Nat) (e : Dev) => s.to ((e.mbDone f status res).mbSettle 18)
    let n := d.mbArg f 0
    (front 1 → exec .getStatus s = ends 0 [(d.regValue sp .gso 0 F.GSO_MODE_MODE.addr).toNat,
      (d.regValue sp .gso 0x20 F.GSO_BOOT_STATUS_PHASE.addr).toNat, (d.regValue sp .tb 0 F.TB_STATUS_STATE.addr).toNat,
      d.wedgedCount, (d.regValue sp .hst 0 F.HST_ID_PART.addr).toNat] d) ∧
    (∀ chunk, front 2 → d.boot.committed = false →
      let off := d.mbArg f 2
      let len := d.mbArg f 3
      let b := imgBase d.stageSlot
      let d2 : Dev := { d with boot := { d.boot with staged := d.stageSlot }, sent := d.sent ++ [.hostRead f (n + d.mbArg f 1 * 2 ^ 32) len false false] }
      let d3 := (d2.flashProg (b + off) (fitBytes len chunk)).setF F.HST_STAGE_BYTES (off + len)
      0 < len → len ≤ 2 ^ 24 → len % 256 = 0 → bitAt (d.mbArg f 4) 0 = false → off = d.f F.HST_STAGE_BYTES → off + len ≤ slotSize →
      exec (.stageImage chunk false) s =
        ends 0 [off + len] (if d3.hdr b 0xC 4 ≤ off + len then d3.setF F.HST_STAGE_COMPLETE 1 else d3)) ∧
    (∀ err : Option (BitVec 32), front 3 → d.fb F.HST_STAGE_COMPLETE = true → d.boot.committed = false → d.markFull = false →
      d.verify d.boot.staged (err.map BitVec.toNat) = none →
      let d1 := (d.writeMark d.boot.staged).setF F.HST_STAGE_COMPLETE 0
      exec (.commitImage false err) s = ends 0 [d.newestSeq + 1] { d1 with boot := { d1.boot with committed := true } }) ∧
    (front 4 → n < 6 → n ≠ d.mode → d.mode ≠ 0 → d.mode ≠ 5 → (n = 0 ∨ n = 5 ∨ d.servoGood = true) →
      d.f F.GSO_MODE_HOLD_DRAIN = 0 → n ≠ 1 →
      exec .modeRequest s = ends 0 [] (d.enterDrain sp n (if n = 5 then 1 else 0))) ∧
    (front 5 → n < 134 → d.fnState n = 3 →
      exec .functionStop s = ends 0 [] (((d.setF (F.GSO_FUNC_RESUME n) 0).fnStopping sp n).carrSettle sp)) ∧
    (∀ e, front 6 → n < 134 → d.fnState n = 1 → fnMayRun n d.mode = true → d.mode ≠ 5 → d.startCheck n = (true, e) →
      exec .functionStart s = ends 0 [] (e.startFn sp n)) ∧
    (∀ recs, front 7 → n < 134 → d.mbArg f 1 < 2 → d.mbArg f 4 ≤ 4096 → d.fnState n < 2 →
      let cnt := d.mbArg f 4
      let e : Dev := if cnt = 0 then d
        else { d with sent := d.sent ++ [.hostRead f (d.mbArg f 2 + d.mbArg f 3 * 2 ^ 32) (16 * cnt) false false] }
      let l := recsOf cnt (fitBytes (16 * cnt) recs)
      let done := l.foldl (fun e r => e.cfgWrite r.addr (r.onto (e.reg r.addr))) (if d.fnState n = 0 then e.setFnState n 1 else e)
      exec (.functionConfig recs true) s = ends 5 [0] e ∧
      ((∃ r ∈ l, e.recOfFn n r = false) → exec (.functionConfig recs false) s = ends 3 [0] e) ∧
      ((∀ r ∈ l, e.recOfFn n r = true) →
        exec (.functionConfig recs false) s = ends 0 [cnt] (if d.mbArg f 1 = 1 then done.setFnState n 0 else done))) ∧
    (front 8 → exec .fullReset s = ends 0 [] { d with boot := { d.boot with due := true } }) ∧
    (front 9 → bitAt n 1 = false → exec .traceControl s =
      ends 0 [] { d.plainWrite F.ESL_TRC_CTRL_EN.addr (BitVec.ofNat 32 n) with tracePair := d.mbArg f 1 }) ∧
    (front 10 → d.f F.HST_TRIG_RANGE_FIRST ≤ n → n < d.f F.HST_TRIG_RANGE_FIRST + d.f F.HST_TRIG_RANGE_COUNT → n < 256 →
      let w := fun (d : Dev) (x : Fld) (v : Nat) => d.plainWrite x.addr (BitVec.ofNat 32 v)
      let d1 := w (w (w (d.trigDisarm n) (F.TB_TRIG_SEC_LO_SEC n) (d.mbArg f 1)) (F.TB_TRIG_SEC_HI_SEC n) (d.mbArg f 2))
        (F.TB_TRIG_NS_NS n) (d.mbArg f 3)
      let d2 := w (w (w (w d1 (F.TB_TRIG_ARG_CODE n) (d.mbArg f 5)) (F.TB_TRIG_LATE_NS n) (d.mbArg f 6))
        (F.TB_TRIG_PERIOD_PERIOD_NS n) (d.mbArg f 7)) (F.TB_TRIG_CTRL_EN n) (d.mbArg f 4)
      let d3 := if bitAt (d.mbArg f 4) 0 then d2.trigArm sp n else d2
      exec .triggerSet s = ends 0 [(d3.reg (F.TB_TRIG_STAT_STATE n).addr).toNat] d3) ∧
    (front 11 → d.mbArg f 3 = 0 → Config.certChain.length ≤ d.mbArg f 2 →
      exec (.attest false false) s = ends 0 [Config.certChain.length]
        { d with sent := d.sent ++ [.hostWrite f (n + d.mbArg f 1 * 2 ^ 32) false false Config.certChain] })

/-- R71, R72, R82, R91, R92, R603, R605, R609, R610, R611, R625: the steps of modes, temperature and supply. Drain completes and the target is
entered; at its timeout the functions that still stop are stopped; a watchdog that runs out wedges its function; a power
fail freezes and flushes the log; the dies throttle and recover; a trip or a supply fault is a package fault. -/
def Obligations.ModeAndPowerSteps : Prop :=
  ∀ s : State,
    let sp := s.spine
    let d := s.dev
    (sp.contain.pkg = 0 →
      (d.drained_ = true →
        let d1 := ((d.setF F.GSO_MODE_DRAINING 0).raise evGsoDrainDone gsoUid).clearCause sp 2
        d1.fb F.TB_STATUS_JUMP_PEND = false → exec .drainComplete s = s.to (d1.enterTarget sp)) ∧
      (d.mode = 5 → d.fb F.GSO_MODE_DRAINING = true → d.traffic = true →
        let ms := d.f F.GSO_DRAIN_TIMEOUT_TIMEOUT_MS
        (ms ≠ 0 → d.modes.drainAt + ms * 1000000 * nsUnit ≤ sp.now →
          let w := drainComplete sp ((trafficFns.foldl (fun d n =>
            if d.fnState n == 4 then ((d.killTasksOf sp n).cutShort n).fnStopped sp n else d) d).raise evGsoDrainTimeout gsoUid)
          exec .drainTimeout s = s.retried w.1 w.2) ∧
        (ms = 0 ∨ sp.now < d.modes.drainAt + ms * 1000000 * nsUnit → exec .drainTimeout s = s.retried sp d)) ∧
      (∀ n : Fin 134, d.fnActive n = true → SMap.get d.prog n 0 + 3 * d.wdInterval n ≤ sp.now →
        exec (.watchdogExpire n) s = s.to (d.wedge sp n))) ∧
    (d.pf.low = false → d.pf.flush = none → d.pf.erase = none →
      exec .pwrfailFall s = s.to
        ((({ d with pf := { d.pf with low := true } } : Dev).raise evPwrfail aonUid).flushStart d.logOrder (timeNs sp))) ∧
    (∀ i l, d.pf.flush = some (i, l) →
      let d1 := (d.flashProg (flushAt i + 32) l.flatten).flashProg (flushAt i + 28) [0]
      exec .logFlushComplete s = s.to
        { d1 with pf := { d1.pf with flush := none, erase := if d.pf.back then some d1.nextFlush else none } }) ∧
    (d.pf.low = true → d.pf.flush.isSome = true → ∃ t, exec .pwrfailRise s = .next t ∧ t.dev.pf = { d.pf with low := false, back := true }) ∧
    (∀ i, d.pf.erase = some i → d.pf.wait = none →
      exec .flushSlotErased s = s.to { d.flashErase (flushAt i) 4096 with pf := { (d.flashErase (flushAt i) 4096).pf with erase := none } }) ∧
    (∀ t0 t1 t2 t3 t4 : BitVec 8, exec (.thermReport t0 t1 t2 t3 t4) s =
      s.to (((((d.thermOf 0 t0.toNat).thermOf 1 t1.toNat).thermOf 2 t2.toNat).thermOf 3 t3.toNat).thermOf 4 t4.toNat)) ∧
    (∀ (k : Fin 4) (t : BitVec 8),
      let x := d.f (F.GSO_THERM_THROT k)
      let to_ := fun (v : Nat) => d.setF (F.GSO_THERM_THROT k) v
      (x = 0 → d.throttleC ≤ sx 8 t.toNat →
        exec (.throttleEntry k t) s = s.to ((to_ 1).raise (evThrottle k) (regionUid (4 * k) 14))) ∧
      (x = 1 → d.throttleC ≤ sx 8 t.toNat → exec (.throttleDeepen k t) s = s.to (to_ 2)) ∧
      (x ≠ 0 → sx 8 t.toNat < d.throttleC - d.hystC →
        exec (.throttleExit k t) s = s.to ((to_ 0).raise (evThrottle k) (regionUid (4 * k) 14)))) ∧
    (sp.contain.pkg = 0 →
      (∃ t, exec .thermalTrip s = .next t ∧ t.spine = sp.setPkg 7) ∧
      (∀ rail, ∃ t, exec (.supplyFault rail) s = .next t ∧ t.spine = sp.setPkg 8)) ∧
    (∀ clk, d.pwr.rise = some clk → d.pwr.since + max 1 (d.f F.GSO_AVS_SETTLE_US) * (1000 * nsUnit) ≤ sp.now → exec (.avsSettle (BitVec.ofNat 11 (d.f F.GSO_AVS_STAT_TARGET_MV)) false) s =
      s.to { d with pwr := { d.pwr with clk := clk, rise := none } })

/-- R574, R576 to R578, R581 to R586: the line card. Latch and key changes are recorded with their events; a short press toggles
IDENT; the sequencer of a cage goes from INSERTED through its steps to READY, or to UNSUPPORTED, FAULT or EMPTY. -/
def Obligations.LineCardSteps : Prop :=
  ∀ s : State,
    let sp := s.spine
    let d := s.dev
    (d.fb F.LC_STATUS_LATCH = true → d.f F.GSO_POLICY_LATCH_DRAIN_EN = 0 →
      exec .latchOpen s = s.to ((d.setF F.LC_STATUS_LATCH 0).raise evLcLatchOpen lcUid)) ∧
    (d.fb F.LC_STATUS_LATCH = false → d.fb F.LC_CFG_CLOSE_RESUME = false →
      exec .latchClose s = s.to (((d.setF F.LC_STATUS_LATCH 1).raise evLcLatchClose lcUid).setF F.GSO_MODE_HOLD_DRAIN 0)) ∧
    (d.fb F.LC_STATUS_KEY = false →
      exec .keyPress s = s.to { d.setF F.LC_STATUS_KEY 1 with lc := { timed := true, acted := false, pressed := sp.now } }) ∧
    (let ms := (sp.now - d.lc.pressed) / (10 ^ 6 * nsUnit)
     (d.fb F.LC_STATUS_KEY = true → d.lc.timed = true → ms < 1000 →
      let d1 : Dev := { d.setF F.LC_STATUS_KEY 0 with lc := { d.lc with timed := false, acted := false } }
      exec .keyRelease s = s.to ((((d1.setF F.LC_KEY_LAST_MS (min ms 65535)).setF F.LC_KEY_LAST_ACT 1).setF
        F.LC_CTRL_IDENT (1 - d.f F.LC_CTRL_IDENT)).raise evLcKey lcUid)) ∧
     (d.fb F.LC_STATUS_KEY = true → d.lc.timed = true → d.lc.acted = false → 12001 ≤ ms → d.fb F.GSO_POLICY_SVC_RESET_EN = true →
      d.boot.at_ ≠ .off → d.boot.rst = none →
      ∃ t, exec .keyHoldReset s = .next t ∧ t.dev.boot.rst = some 3 ∧ t.dev.lc.acted = true)) ∧
    (∀ m : Fin 4,
      let c := d.cageAt m
      let st := F.LC_CAGE_STAT_STATE m
      let low := fun (v : Nat) (e : Dev) => ((e.setF st v).raise (evLcMod m) lcUid).mapCage m fun c => { c with since := sp.now, rst := true }
      let go := fun (v : Nat) (e : Dev) => ((e.setF st v).raise (evLcMod m) lcUid).mapCage m fun c => { c with since := sp.now }
      (c.prs = false → exec (.moduleInserted m) s = s.to (low 1
        (((d.mapCage m fun c => { c with prs := true, apps := [] }).setF (F.LC_CAGE_STAT_PRS m) 1).countF (F.LC_CAGE_STAT_INS m) 1))) ∧
      (sp.contain.out lcUid = false →
        (d.f st = 1 → c.rst = true → exec (.moduleResetRelease m) s = s.to (d.mapCage m fun c => { c with rst := false })) ∧
        (d.fb (F.LC_CAGE_CFG_AUTO m) = true →
          (d.f st = 1 → c.rst = false →
            exec (.moduleInit m true) s = s.to (go 2 d) ∧ exec (.moduleInit m false) s = s.to (low 6 (go 2 d))) ∧
          (∀ apps, d.f st = 2 →
            let d1 := go 3 (d.mapCage m fun c => { c with apps := apps })
            (∀ a, d1.modApp m = some a → exec (.moduleReady m apps) s = s.to (d1.setF (F.LC_CAGE_STAT_APP m) a.code.toNat)) ∧
            (d1.modApp m = none → exec (.moduleReady m apps) s = s.to (low 6 d1))) ∧
          (d.f st = 3 → exec (.dataPathActivated m) s = s.to (go 4 d)) ∧
          (1 ≤ d.f st → d.f st ≤ 4 →
            exec (.moduleWaitTimeout m none) s = s.to (low 5 d) ∧
            ∀ ms : BitVec 24, d.f st ≤ 3 →
              c.since + min ms.toNat (1000 * max 1 (d.f (F.LC_CAGE_CFG_TMO_S m))) * (10 ^ 6 * nsUnit) ≤ sp.now →
              exec (.moduleWaitTimeout m (some ms)) s = s.to (low 5 d)))) ∧
      (c.prs = true → d.fb (F.LC_CAGE_I2C_BUSY m) = false → exec (.moduleRemoved m) s =
        s.to (low 0 ((d.mapCage m fun c => { c with prs := false, apps := [] }).setF (F.LC_CAGE_STAT_PRS m) 0))) ∧
      exec (.moduleInterrupt m) s = s.to ((d.setF (F.LC_CAGE_STAT_INT m) 1).raise (evLcModInt m) lcUid) ∧
      (∀ x : Byte, d.fb (F.LC_CAGE_I2C_BUSY m) = true → d.modStep m = false →
        exec (.i2cDone m x true) s = s.to ((d.setF (F.LC_CAGE_I2C_BUSY m) 0).setF (F.LC_CAGE_I2C_NAK m) 1) ∧
        (d.fb (F.LC_CAGE_I2C_WRITE m) = false →
          exec (.i2cDone m x false) s = s.to ((d.setF (F.LC_CAGE_I2C_BUSY m) 0).setF (F.LC_CAGE_I2C_RDATA m) x.toNat))))

/-- R590, R600 to R602, R621: events and test access. The router applies the oldest occurrences; each JTAG instruction is taken, with its
pins where it is one that takes them, until the TAP is reset; the open debug port halts, steps and resumes a core. -/
def Obligations.EventAndTestSteps : Prop :=
  ∀ s : State,
    let sp := s.spine
    let d := s.dev
    let ir := fun (x : JtagIr) (pins : Bool) => s.to { d with jtag := { ir := x, pins := pins } }
    let p := d.jtag.pins
    (sp.contain.pkg = 0 → ∀ n : Fin 256, exec (.eventRoute n) s =
      s.retried sp ((occSort (d.evq.take n)).foldl (fun d o => d.applyOcc sp o) { d with evq := d.evq.drop n })) ∧
    (∀ o l, sp.contain.pkg ≠ 0 → d.evq = o :: l →
      (aonEvents.contains o.num = false → exec .aonEvent s = s.to { d with evq := l }) ∧
      (aonEvents.contains o.num = true → d.f (F.EVT_CFG_ROUTE o.num) ≠ 1 →
        exec .aonEvent s = s.to (({ d with evq := l } : Dev).logAppend sp o))) ∧
    (let k := d.f F.EVT_TRC_CTRL_PC_CORE
     let c := d.core k
     d.fb F.EVT_TRC_CTRL_PC_EN = true → k < 384 → d.pcDue sp (coreCluster k) = true → d.parked.contains (coreCluster k) = false →
     sp.contain.dies.contains (k / 96) = false → sp.contain.clusters.contains (coreCluster k) = false → sp.contain.pkg = 0 →
     exec .pcSample s = s.to (({ d with pcAt := sp.now } : Dev).traceOwn sp (coreUid k) 9 (leBytes 2 c.pc.toNat ++
       leBytes 2 (b2n (c.mode == .wfi || c.mode == .easel) + 2 * d.f (F.CORE_STATUS_LA k) + 4 * d.f (F.CORE_STATUS_RA k)
         + 8 * d.f (F.CORE_STATUS_PRIV k)) ++ leBytes 4 (Config.coreCycle k sp.now)))) ∧
    exec .bypass s = ir .bypass p ∧ exec .samplePreload s = ir .sample p ∧ exec .extest s = ir .extest true ∧
    exec .clamp s = ir .clamp true ∧ exec .highz s = ir .highz true ∧ exec .extestPulse s = ir .pulse p ∧
    exec .extestTrain s = ir .train p ∧
    exec .idcode s = s.to { d with
      jtag := { ir := .idcode, pins := d.jtag.pins }
      sent := d.sent ++ [.jtag (2 ^ 28 + 0x9416 * 2 ^ 12 + Config.jtagMaker % 2 ^ 11 * 2 + 1)] } ∧
    (d.fb F.EVT_DBG_OPEN = true →
      exec .tapReset s = s.to { (d.setF F.EVT_DBG_OPEN 0).raise evDebug (hubUid 2) with jtag := Jtag.reset } ∧
      ∀ k : CoreIx, ((d.core k).mode ≠ .debug →
          exec (.debugHalt k) s = s.to (d.mapCore k fun c => { c with was := c.mode, mode := .debug, step := false })) ∧
        ((d.core k).mode = .debug →
          exec (.debugStep k) s = s.to (d.mapCore k fun c => { c with mode := c.was, step := true }) ∧
          exec (.debugResume k) s = s.to (d.mapCore k fun c => { c with mode := c.was, step := false }))) ∧
    (∀ token, d.fb F.EVT_DBG_OPEN = false → Config.dbgLock = false ∨ Config.debugTokenOk token = true →
      exec (.debug token) s = s.to ((({ d with jtag := { ir := .debug, pins := d.jtag.pins } } : Dev).setF F.EVT_DBG_OPEN 1).countF
        F.EVT_DBG_OPENS 1 |>.raise evDebug (hubUid 2)))

/-- R237, R243, R250, R255, R260, R261, R262, R265: what the memories do by themselves. A bank goes to retention when it is idle and not
just woken, wakes, powers off and on with its contents cleared; a drain request reaches the owner, a drain that is done
ends the handover or the delegation; Wash takes the next window of its pass and gives it back, and a word that fails its test
quarantines its bank; the scrub goes on through its pass, and begins one when one is due; the invalidations report. -/
def Obligations.BankSteps : Prop :=
  ∀ (s : State) (r : Fin 16) (n : Fin 52),
    let sp := s.spine
    let d := s.dev
    let b := d.bank r n
    (bankLive sp r n = true → b.phase = .on → d.pwrReq r n = 1 → d.bankIdle r n = true →
      (b.woken = false → exec (.retentionEntry r n) s = s.to (d.setBank r n { b with phase := .retention, woken := false })) ∧
      (b.woken = true → b.used + d.f (F.PAL_RET_HOLD_US r) * 1000 * nsUnit ≤ sp.now → exec (.retentionHoldExpire r n) s = s.to (d.setBank r n { b with phase := .retention, woken := false }))) ∧
    (bankLive sp r n = true → b.phase = .waking →
      exec (.wakeDone r n) s = s.to ((d.mapBank r n fun b => { b with phase := .on, woken := true }).serveWaiting sp r n)) ∧
    (bankLive sp r n = true → (b.phase = .on ∨ b.phase = .retention) → d.pwrReq r n = 2 → d.bankIdle r n = true → d.washAt r = none →
      exec (.powerOff r n) s =
        s.to ((d.clearMem (bankBase r n) (bankSize n)).setBank r n { b with phase := .off, woken := false })) ∧
    (bankLive sp r n = true → b.phase = .powering →
      exec (.powerOnDone r n) s = s.to ((d.clearMem (bankBase r n) (bankSize n)).mapBank r n fun b => { b with phase := .on })) ∧
    (∀ dr, b.drain = some dr →
      (dr.own = true → dr.oldIn = false → exec (.drainRequestArrival r n false) s =
        s.to ((d.mapBank r n fun b => { b with drain := some { dr with oldIn := true } }).drainReaches
          (d.f (F.PAL_OWNER_OWNER r n)) (d.f (F.PAL_OWNER_OWNER_CH r n)) r n)) ∧
      (d.fb (F.PAL_DELEG_EN r n) = true → dr.delIn = false → exec (.drainRequestArrival r n true) s =
        s.to ((d.mapBank r n fun b => { b with drain := some { dr with delIn := true } }).drainReaches
          (d.f (F.PAL_DELEG_DEL_UID r n)) (d.f (F.PAL_DELEG_DEL_CH r n)) r n)) ∧
      (dr.own = true → d.drained sp r n dr = true →
        exec (.handoverComplete r n) s = s.to ((d.finishHandover sp r n dr).captRetry sp)) ∧
      (dr.own = false → d.drained sp r n dr = true → exec (.delegationDrained r n) s =
        s.to ((((d.setF (F.PAL_DELEG_EN r n) 0).mapBank r n fun b => { b with drain := none }).serveWaiting sp r n).captDrained
          sp r n))) ∧
    (∀ (t : WashTgt) (ecc : Ecc),
      let e := d.upset ecc
      let e1 := if e.washRuns sp then e.washBegin sp else e
      let a := (washSpan t).1
      let len := (washSpan t).2
      let d1 : Dev := { e1 with washPos := SMap.put e1.washPos (washKey t) (max (e1.washPlace (washKey t)) (washIndex t + 1))
                                washAgain := e1.washAgain.filter fun x => x.1 != t }
      let d2 := d1.eccRead a len
      e1.washMay sp t = true →
      (d1.firstUe a len = none → exec (.washBorrow t ecc) s =
        s.to { d2 with wash := SMap.put d2.wash (washKey t) { tgt := t, save := d2.bytes a len } }) ∧
      ((d1.firstUe a len).isSome = true → exec (.washBorrow t ecc) s = s.to (d2.washEnded sp))) ∧
    (∀ t, (d.washAt (washKey t)).map (·.tgt) = some t →
      let d1 := d.washRelease (washKey t)
      exec (.washWindowDone t false) s = s.to (d1.washEnded sp) ∧
      (∀ r' n' w, t = .bank r' n' w → sp.contain.out (bankUid r' n') = false →
        ∃ u, exec (.washWindowDone t true) s = .next u ∧ u.spine = sp.addUnit (bankUid r' n'))) ∧
    (∀ (m : BitVec 30) (ecc : Ecc), sp.contain.pkg = 0 → d.f F.PAL_HBM_SCRUB_HOURS ≠ 0 →
      let read := fun (from_ : Nat) (since : Option Nat) =>
        let k := min m.toNat (2 ^ 29 - from_)
        let e := (d.upset ecc).eccRead (from_ * 32) (k * 32)
        s.to (({ e with scrub := from_ + k, scrubSince := since } : Dev).setF F.PAL_HBM_STATUS_SCRUB_ACT
          (b2n (decide (from_ + k < 2 ^ 29))))
      (d.scrubSince = none → exec (.hbmScrub m ecc) s = read 0 (some sp.now)) ∧
      (∀ t, d.scrubSince = some t →
        let due := 2 ^ 29 ≤ d.scrub ∧ t + d.f F.PAL_HBM_SCRUB_HOURS * 3600 * 10 ^ 9 * nsUnit ≤ sp.now
        (due → exec (.hbmScrub m ecc) s = read 0 (some sp.now)) ∧
        (¬ due → exec (.hbmScrub m ecc) s = read d.scrub (some t)))) ∧
    (d.fb F.PAL_EXT_INVAL_BUSY = true → exec .extentInvalDone s =
      s.to { d.setF F.PAL_EXT_INVAL_BUSY 0 with
             extInval := []
             extCache := if d.extInval.contains (2 ^ 20) then [] else d.extCache.filter fun e => !d.extInval.contains e.1 })

/-- R42, R233, R248, R254, R257, R539, R540, R565: an access that arrives at a memory. An admitted one is done there, a read answered with
the bytes; one that is not admitted is refused. Through a window an access is translated: a write and a read go to the host
at the entry's address; to a peer that is up a request opens. Memory is sound here, and no shared coprocessor has yet to read
its source. -/
def Obligations.MemoryArrivals : Prop :=
  ∀ (s : State) (q : Req), reqGone s.spine s.dev q = false → Clean s.dev →
    let sp := s.spine
    let d := s.dev
    let answer := fun (e : Dev) (l : List Byte) => ({ e with sent := e.sent ++ [.rsp q.uid.toNat q.ch.toNat l false] } : Dev)
    (∀ (a : BitVec 42) (len : BitVec 7) (data : List Byte) (r n : Nat), fencedDie sp a.toNat = none →
      sp.contain.units.contains (bankUid r n) = false → (d.bank r n).phase = .on → (d.bank r n).waiting = [] →
      tgtOf a.toNat = .bank r n →
      let served := fun (m : Nat) => (d.mapBank r n fun b => { b with used := sp.now }).washAbort sp r a.toNat m
      (tgtOf (a.toNat + (len.toNat - 1)) = .bank r n → len.toNat ≠ 0 → d.judge r n q false false = .ok →
        exec (.paletteAccess (.read q a len) [] none) s =
          s.written sp (answer (served len.toNat) ((served len.toNat).bytes a.toNat len.toNat))) ∧
      (tgtOf (a.toNat + (data.length - 1)) = .bank r n → data.length ≠ 0 →
        (d.judge r n q true false = .ok → exec (.paletteAccess (.write q a data) [] none) s =
          s.written sp ((served data.length).setBytes a.toNat data)) ∧
        (∀ kind, d.judge r n q true false = .refuse kind →
          exec (.paletteAccess (.write q a data) [] none) s = s.written sp (d.refuse kind q a.toNat true)))) ∧
    (∀ (a : BitVec 42) (len : BitVec 7) (data : List Byte) (k : Nat), fencedDie sp a.toNat = none → tgtOf a.toNat = .cmem k →
      (tgtOf (a.toNat + (len.toNat - 1)) = .cmem k → len.toNat ≠ 0 → cmemAdmits k q = true →
        exec (.coreMemoryAccess (.read q a len) []) s = s.written sp (answer d (d.bytes a.toNat len.toNat))) ∧
      (tgtOf (a.toNat + (data.length - 1)) = .cmem k → data.length ≠ 0 →
        exec (.coreMemoryAccess (.write q a data) []) s =
          s.written sp (if cmemAdmits k q then d.setBytes a.toNat data else d.refuse 1 q a.toNat true))) ∧
    (∀ (a : BitVec 34) (len : BitVec 13) (data : List Byte), hostFull (sp, d) = true → tgtOf a.toNat = .hbm →
      exec (.bar2Access (.write data) a []) s = s.to (d.setBytes a.toNat data) ∧
      exec (.bar2Access (.read len) a []) s = s.to { d with sent := d.sent ++ [.bar2 (d.bytes a.toNat len.toNat) false] }) ∧
    (∀ (a : BitVec 42) (len : BitVec 13) (data ext : List Byte) (e : Nat) (d1 : Dev), tgtOf a.toNat = .host →
      let f := bitsOf e 6 5
      let ha := bitsOf e 21 43 * 2 ^ 21 + a.toNat % 2 ^ 21
      (d1.fnCfg f).d3 = false → d1.fb F.HST_STATUS_LINK_UP = true →
      (d.extCheck 0 q a.toNat false = (some e, d1) →
        exec (.hostWindowAccess q a (.read len) ext) s = s.written sp (answer
          { d1 with sent := d1.sent ++ [.hostRead f ha len.toNat (bitAt e 4) (bitAt e 5)] } (fitBytes len.toNat ext))) ∧
      (data ≠ [] → d.extCheck 0 q a.toNat true = (some e, d1) →
        exec (.hostWindowAccess q a (.write data) ext) s = s.written sp
          { d1 with sent := d1.sent ++ [.hostWrite f ha (bitAt e 4) (bitAt e 5) data] })) ∧
    (∀ (a : BitVec 42) (len : BitVec 13) (e k : Nat) (d1 : Dev), tgtOf a.toNat = .fabric →
      d.extCheck 1 q a.toNat false = (some e, d1) → d1.peerOf (bitsOf e 4 14) = some k →
      let target := bitsOf e 21 21 * 2 ^ 21 + a.toNat % 2 ^ 21
      (d1.peerUp k = false → exec (.fabricWindowAccess q a (.read len)) s = s.written sp
        { d1 with sent := d1.sent ++ [.rsp q.uid.toNat q.ch.toNat [] true] }) ∧
      (d1.peerUp k = true →
        let parts := (fabSplit target len.toNat (len.toNat / 1024 + 2)).zipIdx.map fun x =>
          ({ tag := (d1.tag + x.2) % 65536, len := x.1, ans := none } : FabPart)
        let x : FabReq := { uid := q.uid.toNat, ch := q.ch.toNat, a := a.toNat, n := len.toNat, write := false, peer := k
                            parts := parts, tell := true }
        exec (.fabricWindowAccess q a (.read len)) s = s.written sp (({ d1 with tag := (d1.tag + parts.length) % 65536, fab := d1.fab ++ [x] } : Dev).fabFrames
          sp k target 0 false [] parts)))

/-- R287, R291, R298, R301, R302, R306, R311, R313, R506: the steps of the descriptor store and the dispatchers. -/
def Obligations.EaselSteps : Prop :=
  ∀ s : State, s.spine.contain.pkg = 0 →
    let sp := s.spine
    let d := s.dev
    (∀ i : BitVec 16, let n := i.toNat
      let x := d.slot n
      (x.st = 1 → x.fin = none → d.dRel n = 1 → d.dRelease n ≤ (timeNs sp : Int) →
        exec (.timeRelease i) s = s.retried sp (d.release sp n)) ∧
      (d.canMove sp n = true → (∀ t ∈ d.slots, pendBefore d n t.1 = true → d.canMove sp t.1 = false) →
        exec (.pendingPlace i) s = s.retried sp (d.place sp n false)) ∧
      (∀ (r : Nat) (lag : Fin 5), x.region = some r → readyIn r x = true → x.late = false → d.dWcet n ≠ 0 →
        let d1 := d.showCopy sp r lag
        ((d.dDeadline n : Int) - d.dWcet n) * nsUnit < (d1.disp_ r).copy →
        exec (.lateStart i lag) s = s.retried sp ((((d1.traceSlot sp (d1.disp_ r).copy (dispatcherUid r) 5 n).countF
          (F.ESL_RCNT_LATE_COUNT r) 1).raise (evEsl r 0) (dispatcherUid r)).mapSlot n fun x => { x with late := true })) ∧
      (∀ (lag : Fin 5) (t uid : Nat) (d1 : Dev), d.missJudge sp n lag = some (t, true, uid, d1) → x.missed = false → x.fin = none →
        let d2 := (d1.missNote sp n t uid).missSlot n
        exec (.miss i lag) s = s.retried sp (if d2.dKillOnMiss n then d2.missKill sp n else d2)) ∧
      (∀ r k : Nat, x.region = some r → d.spillPeer sp = some k → readyIn r x = true → x.offered = false → d.dSpillable n = true →
        d.fb F.ESL_SPILL_CFG_OUT_EN = true → d.pickUnit sp r n = none → d.f F.ESL_SPILL_SLACK_NS ≠ 0 →
        (d.dDeadline n : Int) - d.dWcet n - timeNs sp < d.f F.ESL_SPILL_SLACK_NS →
        let d1 := ({ d with tag := (d.tag + 1) % 65536 } : Dev).eurSend sp k 5 d.tag (d.bytes (slotAddr n) 64)
        exec (.spillOffer i) s = s.retried sp (((d1.mapSlot n fun x =>
          { x with st := 5, spillTo := some (k, d.tag), offered := true }).traceSlot sp sp.now storeUid 2 n).raise (evEsl r 4) storeUid)) ∧
      (∀ status r : Nat, x.fin = some status → d.completionHeld sp n status = some r → x.held = false →
        exec (.completion i) s = s.retried sp ((d.backpressure sp n r (taskUnit (d.dType n) (x.region.getD 0) x.unit).1).mapSlot n fun x =>
          { x with held := true })) ∧
      (∀ status k tag : Nat, x.fin = some status → d.completionHeld sp n status = none → x.st = 4 → x.spillFrom = some (k, tag) →
        let d1 := d.returnGrants sp n
        let d2 := ((d1.eurSend sp k 7 tag (d.cplRecord sp n status)).floorCharge sp n).setSlot n Slot.free
        exec (.completion i) s = s.retried sp ((d2.slotProgress sp n (d.bytes (slotAddr n) 64)).carrSettle sp)) ∧
      (∀ status : Nat, x.fin = some status → d.completionHeld sp n status = none → x.st = 4 → x.spillFrom = none →
        let d1 := d.returnGrants sp n
        d1.dCqEn n = false → d1.dEvtEn n = false → d1.dSuccs n = [] →
        exec (.completion i) s = s.retried sp (((((d1.floorCharge sp n).setSlot n Slot.free).slotProgress sp n
          (d.bytes (slotAddr n) 64)).carrSettle sp)))) ∧
    (∀ (r : Fin 16) (lag : Fin 5) (ecc : Ecc) (k unit : Nat) (rest : List Nat), sp.contain.out (dispatcherUid r) = false →
      let d0 := (d.upset ecc).showCopy sp r lag
      ((d0.readyList r).find? fun t => ((d0.decide_ sp r).slot t).st == 4) = some k →
      d0.floorPick sp r = none → d0.readyOrder r = k :: rest → (∀ e, d0.pickUnit sp r k = some (unit, e) →
        (d0.firstUe (slotAddr k) 64 = none → exec (.dispatch r lag ecc) s = s.retried sp ((e.dispatchTo sp r k unit).eccRead (slotAddr k) 64)) ∧
        (d0.firstUe (slotAddr k) 64 ≠ none → exec (.dispatch r lag ecc) s = s.retried sp ((d0.eccRead (slotAddr k) 64).signalEnd k 4)))) ∧
    (d.fb F.ESL_SPILL_CFG_IN_EN = true → d.advAt + d.f F.ESL_SPILL_CFG_ADV_US * usUnit ≤ sp.now →
      exec .advertise s = s.to (d.enabledPeers.foldl (fun e k =>
        if e.peerUp k then e.eurNote sp k 9 (leBytes 2 e.spillFree.length) else e) { d with advAt := sp.now })) ∧
    (d.fb F.ESL_SPILL_CFG_IN_EN = false → exec .advertise s = s.to d)

/-- R324 to R327, R330, R331, R332, R333, R334, R338, R344: the steps of a Gust engine. A descriptor is read; grants go out; a COPY burst reads its
source, a FILL burst takes the pattern, a COMPARE burst finds the first byte that differs; a burst that leaves flight issues its
write, and an end requested meanwhile then takes effect (R344); the write lands once no earlier one meets a destination of it; a
FENCE goes out once every response is back. -/
def Obligations.GustSteps : Prop :=
  ∀ (s : State) (e : Fin 17) (n : Fin 64),
    let sp := s.spine
    let w := fun ecc : Ecc => (sp, s.dev.upset ecc)
    let d := s.dev
    let c := d.chan e n
    (∀ (a len kind : Nat) (ecc : Ecc) (ext : List Byte), (d.upset ecc).gstActs sp e n = true →
        ((d.upset ecc).chan e n).stop = 0 → (d.upset ecc).gstFetch e n = some (a, len, kind) →
      (∀ l w', busRead (gstReq e n) a len ext (w ecc) = (.ok l, w') →
        exec (.descriptorFetch e n ecc ext) s = s.whole w'.1 (w'.2.gstFetched e n a kind l)) ∧
      (∀ w', busRead (gstReq e n) a len ext (w ecc) = (.refused, w') ∨ busRead (gstReq e n) a len ext (w ecc) = (.err, w') →
        exec (.descriptorFetch e n ecc ext) s = s.whole w'.1 (w'.2.gstEnd e n 7 0))) ∧
    (∀ b x ecc ext l w', (d.upset ecc).gstDue sp e n 0 = some (b, x) → busRead (gstReq e n) b.sa b.n ext (w ecc) = (.ok l, w') →
      exec (.copy e n ecc ext) s = s.whole w'.1 (w'.2.gstData e n b l none)) ∧
    (∀ b x, d.gstDue sp e n 1 = some (b, x) → exec (.fill e n) s = s.to (d.gstData e n b (patBytes x.pat c.pos b.n) none)) ∧
    (∀ b x ecc ext ext2 l w1 m w2, (d.upset ecc).gstDue sp e n 2 = some (b, x) → x.cmpPat = false →
      busRead (gstReq e n) b.sa b.n ext (w ecc) = (.ok l, w1) → busRead (gstReq e n) b.da b.n ext2 w1 = (.ok m, w2) →
      exec (.compare e n ecc ext ext2) s = s.whole w2.1 (w2.2.gstData e n b m (firstIdx (fun p => p.1 != p.2) (l.zip m)))) ∧
    (∀ b x ecc ext ext2 m w2, (d.upset ecc).gstDue sp e n 2 = some (b, x) → x.cmpPat = true →
      busRead (gstReq e n) b.da b.n ext2 (w ecc) = (.ok m, w2) →
      exec (.compare e n ecc ext ext2) s =
        s.whole w2.1 (w2.2.gstData e n b m (firstIdx (fun p => p.1 != p.2) ((patBytes x.pat ((d.upset ecc).chan e n).pos b.n).zip m)))) ∧
    (∀ x, c.desc = some x → d.gstActs sp e n = true → x.op = 3 → x.bad = false → c.fenceOut = false → c.stop = 0 →
      let d1 := d.setF (F.GST_CH_STATUS_STATE (gstBaseOf e) n) 3
      (d.gstPending e n = true → exec (.fence e n) s = s.to d1) ∧
      (d.gstPending e n = false → (c.lost = true ∨ c.refused = true) → exec (.fence e n) s = s.to (d1.gstEnd e n 5 0)) ∧
      (d.gstPending e n = false → c.lost = false → c.refused = false →
        exec (.fence e n) s = s.to ((d1.gstIssue e n x.fence [] true).mapChan e n fun c => { c with fenceOut := true }))) ∧
    (sp.contain.pkg = 0 → exec (.burstGrant e) s = s.to (d.gstGrant sp (fun i => d.reqLine sp e i) e)) ∧
    (∀ b x l, c.burst = some b → c.desc = some x → b.data = some l → d.gstActs sp e n = true →
      (x.op ≠ 2 → exec (.burstDone e n) s = s.to (((d.gstIssue e n b.da l x.delivered).gstBytes e n b.n).gstAfter e n b.n)) ∧
      (x.op = 2 → b.diff = none →
        let d1 := d.gstBytes e n b.n
        exec (.burstDone e n) s = s.to ((if d.gstLast e n b.n then d1.gstResult e n (2 ^ 32 - 1) else d1).gstAfter e n b.n)) ∧
      (∀ i, x.op = 2 → b.diff = some i →
        exec (.burstDone e n) s = s.to ((((d.gstResult e n (c.pos + i)).gstEvent e n 2).gstBytes e n (i + 1)).gstDiffers e n b.n x))) ∧
    (c.stop = 0 → ∀ k, d.gstAfter e n k = d.gstMove e n k) ∧
    (∀ x k, c.desc = some x → c.stop ≠ 0 → d.gstLast e n k = false → d.gstAfter e n k = d.gstEnd e n c.stop 0) ∧
    (∀ x k, c.stop = 0 → x.cmpHalt = true → d.gstDiffers e n k x = d.gstEnd e n 8 0) ∧
    (∀ (i : Nat) x (ecc : Ecc), ((d.upset ecc).gustWrites e)[i]? = some x → sp.contain.pkg = 0 →
      ((((d.upset ecc).gustWrites e).take i).any fun y => destsMeet y.a y.data.length x.a x.data.length) = false →
      (∀ w', busAcc (gstReq e x.ch) x.a x.data.length true x.data x.late true [] false (w ecc) = (.wait, w') →
        exec (.writeResponse e i ecc) s = s.whole w'.1 w'.2) ∧
      (∀ o w', o ≠ .wait → busAcc (gstReq e x.ch) x.a x.data.length true x.data x.late true [] false (w ecc) = (o, w') →
        let d1 : Dev := { w'.2 with gustW := SMap.put w'.2.gustW e ((w'.2.gustWrites e).eraseIdx i) }
        exec (.writeResponse e i ecc) s = s.whole w'.1 (d1.gstHear e x (decide (o = .refused)))))

/-- R350, R352, R356, R362, R363, R365, R371, R373, R382: the tasks of the channel engines. An engine takes the task at the front of its
queue and reads its descriptor; the operation that the task names reads its input, computes, and makes its writes; once
they are made the completion is signalled. A descriptor that is no descriptor of the operation ends the task with PARAM. -/
def Obligations.EngineTasks : Prop :=
  ∀ (s : State) (r : Fin 16) (e : Fin 4), engActs s.spine r e = true →
    let d := s.dev
    let w := fun ecc : Ecc => ((s.spine, d.upset ecc) : Whole)
    let x := d.engine r e
    let out := fun (v : Whole) => s.whole v.1 v.2
    (∀ t q ecc ext l w', x.run = none → d.unitHeld r 1 e = false → x.queue = t :: q → bitsOf (d.df t 0x20 0 32) 4 4 = engClass e →
      d.df t 0x20 0 32 / 256 = 0 → d.df t 0x20 0 32 % 16 < engOps e → 
        busRead (engReq r e) ((d.upset ecc).dBuf0 t) 64 ext (w ecc) = (.ok l, w') →
      let t0 : EngRun := { slot := t, op := d.df t 0x20 0 32 % 16, desc := l, code := none, undo := [], outs := [], fin := none }
      exec (.engineTaskStart r e ecc ext) s = s.whole w'.1 (w'.2.setEngine r e { x with queue := q, run := some t0 })) ∧
    (x.queue = [] → x.run = none → d.regionParked r = true → exec (.enginePark r e) s = s.to (d.setEngine r e { x with parked := true })) ∧
    (∀ t, x.run = some t → t.code = none → t.fin = none →
      let l := t.desc
      (∀ ecc ext, e.val < 2 → t.op = 0 → fftOk 0 l = true →
        exec (.fft r e ecc ext) s = out (fftInput r e (bitsOf (dw l 0 4) 4 2) (fftLen (fftParOf l).rs + (fftParOf l).cpLen) l ext (w ecc)
          fun inp v => fftResult r e l (fftForward (fftParOf l) inp) v)) ∧
      (∀ ecc ext, e.val < 2 → t.op = 1 → fftOk 1 l = true →
        exec (.ifft r e ecc ext) s = out (fftInput r e (bitsOf (dw l 0 4) 4 2) (fftParOf l).count l ext (w ecc)
          fun inp v => fftResult r e l (fftInverse (fftParOf l) inp) v)) ∧
      (∀ ecc ext n rs, e.val < 2 → t.op = 2 → fftOk 2 l = true → cztLen (bitsOf (dw l 0 4) 0 4) = some (n, rs) →
        exec (.czt r e ecc ext) s = out (fftInput r e (bitsOf (dw l 0 4) 4 2) n l ext (w ecc) fun inp v => fftResult r e l
          (cztRun (bitAt (dw l 0 4) 10) n rs (bitsOf (dw l 4 4) 0 12) (bitsOf (dw l 4 4) 12 12) inp) v)) ∧
      (∀ ecc ext, e.val < 2 → t.op = 0 → fftOk 0 l = false → exec (.fft r e ecc ext) s = out (engFail r e 2 3 (w ecc))) ∧
      (∀ op ecc ext b w', e.val = 3 → t.op = op → encOk op l = true →
        let c := codeDesc true op l
        let tb := op = 0 ∨ op = 2
        engRead r 3 c.inp ((encBits c + 7) / 8) ext (w ecc) = (.ok b, w') →
        let blocks := if tb then (List.range c.num).map fun i => c.first + i else [0]
        let outs := blocks.flatMap fun i => outsAt (if tb then c.out + i * c.stride else c.out)
          (packBits (encoded c.par i c.rnti c.ant (unpackBits (encBits c) b)))
        let res := out (engFinish r 3 outs 0 (w'.1, w'.2.countF (F.ENC_CB_COUNT r) blocks.length))
        (op = 0 → exec (.ldpcEncode r ecc ext) s = res) ∧ (op = 1 → exec (.polarEncode r ecc ext) s = res) ∧
        (op = 2 → exec (.turboEncode r ecc ext) s = res) ∧ (op = 3 → exec (.convolutionalEncode r ecc ext) s = res) ∧
        (op = 4 → exec (.smallCodeEncode r ecc ext) s = res)) ∧
      (∀ op ecc ext ent w', e.val = 2 → t.op = op → (op = 0 ∨ op = 2) → decOk op l = true → (d.upset ecc).fb (F.DEC_HARQ_CTRL_EN r) = true →
        let c := codeDesc false op l
        let buf := bitsOf (dw ent 0 8) 8 26 * 256
        let size := bitsOf (dw ent 0 8) 34 20 * 256
        engRead r 2 ((d.upset ecc).harqBase r + ((d.upset ecc).dContext t.slot * 16 + c.proc) * 8) 8 [] (w ecc) = (.ok ent, w') →
        bitAt (dw ent 0 8) 0 = true → buf + size ≤ 0x400000000 → codeBlocks c.par * (64 + 2 * softP c.par) ≤ size →
        let res := out (readBlocks r c buf ((List.range c.num).map fun i => c.first + i) c.inp ext [] w' fun l v => decodeBlocks r t c buf l v)
        (op = 0 → exec (.ldpcDecode r ecc ext) s = res) ∧ (op = 2 → exec (.turboDecode r ecc ext) s = res)) ∧
      (∀ ecc ext b w', e.val = 2 →
        (t.op = 1 → decOk 1 l = true →
          let c := codeDesc false 1 l
          engRead r 2 c.inp c.par.g ext (w ecc) = (.ok b, w') →
          let y := uciDecode c.par (b.map llrIn)
          exec (.polarDecode r ecc ext) s = out (decodeOne r t c y.1 y.2 w')) ∧
        (t.op = 3 → decOk 3 l = true →
          let c := codeDesc false 3 l
          engRead r 2 c.inp c.par.g ext (w ecc) = (.ok b, w') →
          exec (.smallBlockDecode r ecc ext) s = out (decodeOne r t c (indexBits c.par.a (smallDecode c.par b)) [true] w')) ∧
        (t.op = 4 → decOk 4 l = true →
          let c := codeDesc false 4 l
          busReads (engReq r 2) (tbSpans c) ext (w ecc) = (.ok b, w') →
          let pass := tbCrcOk c.par (tbBits c (List.range c.num) b)
          exec (.tbCrc r ecc ext) s = out (engFinish r 2 (outsAt c.result (decRecord (w'.2.dTaskId t.slot) (b2n (!pass))
            (if pass then 1 else 2) c.first c.num (b2n pass) 0 0 0 c.num)) 0 w')))) ∧
    (∀ t c, x.run = some t → t.code = some c → (c = 6 → e.val ≠ 2 ∧ t.outs = []) →
      exec (.engineCompletion r e) s =
        s.whole s.spine (((d.mapEngine r e fun y => { y with run := none }).engEndTask r e t.slot c).delegateDone (regionUid r e) 0))

/-- R392, R399, R402, R412, R415, R421, R424, R425, R430, R431: the steps of the narrowband engine while it is in service. -/
def Obligations.NceSteps : Prop :=
  ∀ s : State, s.spine.contain.out nceUid = false →
    let sp := s.spine
    let d := s.dev
    (∀ k : Fin 4, d.capStalled sp k = true → (d.strm false k).flag = false →
      let d1 := (d.mapStrm false k fun x => { x with flag := true }).raise evNceCapStall nceUid
      exec (.captureStall k) s = s.to ((d1.nceCh.map (·.1)).foldl (fun e n =>
        if e.fb (F.NCE_CH_CFG_RX_EN n) && e.f (F.NCE_CH_CFG_STREAM n) == k then e.mapNce n fun c =>
          { c with frame := c.frame.map fun (f : NceFrame) => { f with stall := true } } else e) d1)) ∧
    (∀ n : Fin 1536, d.chSt n ≠ 0 → d.symArrived n (d.nce n).m = true →
      exec (.nceSymbol n) s = s.to (d.nceStep n (d.symSamples n (d.nce n).m))) ∧
    (∀ (n : Fin 1536) (f : NceFrame), d.chSt n = 2 → (d.nce n).frame = some f →
      (d.headerOf n f = some none → exec (.headerResult n) s = s.to (d.falseSync n f none)) ∧
      (∀ h, d.headerOf n f = some (some h) → exec (.headerResult n) s = s.to (((d.setChSt n 3).mapNce n fun c =>
        { c with cand := none, frame := some { f with hdr := some h, pay := d.payLen (d.chProf n) h.1 } }).payCheck n))) ∧
    (∀ (n : Fin 1536) (sync ph : Nat) (ferr : Int) (l : List NceSymb), d.chSt n = 4 → (d.nce n).replay = some (sync, ph, ferr, l) →
      let k := d.chProf n
      let head := l.take (d.f (F.NCE_PROF_SYNC_ATTACK k) + d.f (F.NCE_PROF_SYNC_SYNC_LEN k))
      let d1 := (head.foldl (fun d x => d.gainLoop n x) d).mapNce n fun c =>
        { c with replay := none, hist := head, m := sync + d.f (F.NCE_PROF_SYNC_SYNC_LEN k) }
      exec (.replayEnd n) s = s.to ((l.drop (d.f (F.NCE_PROF_SYNC_ATTACK k) + d.f (F.NCE_PROF_SYNC_SYNC_LEN k))).foldl
        (fun d x => d.nceStep n x.samp) (d1.frameStart n sync ph head ferr true))) ∧
    (∀ n : Fin 1536, d.lullLen ≤ d.f (F.NCE_CH_STATE_LULL n) →
      exec (.lullReport n) s = s.to (((d.setF (F.NCE_NOISE_FLOOR_FLOOR n) (wrapInt 12
        (level4 (d.nce n).lullPow (d.f (F.NCE_CH_STATE_LULL n) * d.chSps n)))).setF (F.NCE_CH_STATE_LULL n) 0).mapNce n fun c =>
          { c with lullPow := 0 })) ∧
    (∀ (n : Fin 1536) (x : Nat), let c := d.nce n
      d.chSt n = 1 → d.profBurst (d.chProf n) = true → bitAt c.mask (c.win % 8) = true →
      d.winSample n c.win = some x → x ≤ d.capCnt (d.f (F.NCE_CH_CFG_STREAM n)) →
      let next := ((List.range 8).map fun j => c.win + 1 + j).find? fun i => bitAt c.mask (i % 8)
      exec (.windowOpen n) s = s.to (((((d.gainStep n c.e).setChSt n 5).mapNce n fun c =>
        { c with base := x, m := 0, hist := [], frame := none }).mapNce n fun y =>
          { y with win := next.getD (c.win + 1) }))) ∧
    (∀ (g : Fin 64) (j : NceJob), ((d.nceBegin g).grp g).job = some j →
      let x := nceWrites j.outs (sp, d.nceBegin g)
      (x.1 = [] → exec (.recordWrite g) s = s.whole x.2.1 (x.2.2.nceLanded g j)) ∧
      (x.1 ≠ [] → exec (.recordWrite g) s = s.whole x.2.1 (x.2.2.mapGrp g fun y => { y with job := some { j with outs := x.1 } }))) ∧
    (∀ (g : Fin 64) (idx : Nat) (ecc : Ecc) (l : List Byte) (w' : Whole), let d1 := d.upset ecc
      d1.txUnread g = none → d1.txNext g = some idx → busRead nceReq (d1.txEntryAt g idx) 32 [] (sp, d1) = (.ok l, w') →
      let t := w'.2.txTake w'.1 g idx l
      (t.1 = none → let v := nceFetchBits g (w'.1, t.2); exec (.txEntry g ecc) s = s.whole v.1 v.2) ∧
      (∀ st, t.1 = some st → let v := nceStatusWrite g idx st (w'.1, t.2); exec (.txEntry g ecc) s = s.whole v.1 v.2)) ∧
    (∀ (n : Fin 1536) (e : NceEnt) (ecc : Ecc) (bad : Bool), let d1 := d.upset ecc
      d1.txGenerated sp n = true → d1.txLive n = some e → e.got = some bad →
      let v := nceStatusWrite (n / 24) e.idx (if bad then 6 else 1) (sp, d1.txDone n e bad)
      exec (.txBurstDone n ecc) s = s.whole v.1 v.2) ∧
    exec .nceServicePass s = s.to ((List.range 64).foldl (fun d g =>
      if 2 ≤ d.fnState (fnNce g) ∧ d.fnState (fnNce g) ≤ 4 then
        if (d.progress sp (fnNce g)).fnState (fnNce g) = 4 ∧ (d.progress sp (fnNce g)).nceDrained sp g = true then
          (d.progress sp (fnNce g)).fnStopped sp (fnNce g) else d.progress sp (fnNce g)
      else d) d)

/-- R82, R437, R438, R446, R453, R454, R455, R458, R461, R464, R466: the steps of a fronthaul port in service. -/
def Obligations.FronthaulSteps : Prop :=
  ∀ s : State,
    let sp := s.spine
    let d := s.dev
    (∀ p : Fin 16, sp.contain.out (portUid p) = false →
      (∀ (fcs ptpIp : Bool) (err : BitVec 18) (f : List Byte) (ecc : Ecc),
        let d0 := d.upset ecc
        (d0.portLinked p = false → exec (.fhRxFrame p fcs ptpIp err f ecc) s = s.whole sp d0) ∧
        (d0.portLinked p = true → d0.loopRuns p = false → exec (.fhRxFrame p false ptpIp err f ecc) s = s.whole sp (d0.unmatched p)) ∧
        (∀ d1, d0.fhFrame sp p fcs ptpIp err.toInt f = (.none, d1) → exec (.fhRxFrame p fcs ptpIp err f ecc) s = s.whole sp d1) ∧
        (∀ b d1, d0.fhFrame sp p fcs ptpIp err.toInt f = (.euril b, d1) →
          exec (.fhRxFrame p fcs ptpIp err f ecc) s = s.whole (eurFrame p b (sp, d1)).1 (eurFrame p b (sp, d1)).2)) ∧
      (∀ err : BitVec 18,
        let rd := (d.fhPort p).txRd
        let b := fun i => (d.byte (fhTxWin p + (rd + i) % 8192)).toNat
        let n := b 0 + 256 * b 1
        let t := (d.tsTx sp p err.toInt).toNat
        let f := d.winGet (fhTxWin p) (rd + 16) n
        let d1 : Dev := d.mapFh p fun x => { x with txRd := (rd + roundUp (16 + n) 8) % 8192 }
        let d2 : Dev := { d1 with sent := d1.sent ++ [.frame p (if bitAt (b 2) 1 then oneStep f t else f)] }
        d.portLinked p = true → rd ≠ d.f (F.FH_MGMT_PTR_TX p) % 8192 → bitAt (b 2) 4 = false →
        (bitAt (b 2) 2 = false → exec (.mgmtTx p err) s = s.to d2) ∧
        (bitAt (b 2) 2 = true → (d.fhPort p).txts.length < 64 →
          exec (.mgmtTx p err) s = s.to (d2.mapFh p fun x => { x with txts := x.txts ++ [(b 3, t)] })) ∧
        (bitAt (b 2) 2 = true → ¬(d.fhPort p).txts.length < 64 →
          exec (.mgmtTx p err) s = s.to (d2.countF (F.FH_PTP_TXTS_TAG_LOST p) 1))) ∧
      (d.fb (F.FH_PORT_STATUS_LINK p) = true → exec (.linkDown p) s =
        (let d1 := ((d.setF (F.FH_PORT_STATUS_LINK p) 0).setF (F.FH_PORT_STATUS_TS_VALID p) 0).raise (evFh p 0) (portUid p)
         s.to (((d1.positions p).foldl (fun e q => e.mapQ q fun x =>
           { x with tx := x.tx.map fun (t : TxSym) => if 0 < t.sent then { t with fin := true, data := [] } else t }) d1).synce
             (d.f (F.FH_SYNCE_PORT 0) == p)))) ∧
      (d.portLive p = true → d.fb (F.FH_PORT_STATUS_LINK p) = false →
        exec (.linkUp p) s = s.to (((d.setF (F.FH_PORT_STATUS_LINK p) 1).raise (evFh p 0) (portUid p)).synce false)) ∧
      (∀ rx tx : BitVec 21, d.fb (F.FH_PORT_STATUS_LINK p) = true → d.fb (F.FH_PORT_STATUS_TS_VALID p) = false →
        exec (.tsMeasurement p rx tx) s = s.to (((d.setF (F.FH_TS_VAR_RX_V p) (min rx.toNat (2 ^ 20))).setF (F.FH_TS_VAR_TX_V p)
          (min tx.toNat (2 ^ 20))).setF (F.FH_PORT_STATUS_TS_VALID p) 1)) ∧
      (2 ≤ d.fnState (fnPort p) → d.fnState (fnPort p) ≤ 4 →
        let d1 := d.progress sp (fnPort p)
        exec (.fhServicePass p) s = s.to ((if d1.fnState (fnPort p) = 4 then d1.fnStopped sp (fnPort p) else d1).carrSettle sp))) ∧
    (∀ q : Fin 16, sp.contain.out (portUid (d.portOf q)) = false →
      (∀ t c k, d.rxHead q = some (t, c, k) → t ≤ now3 sp → exec (.symbolClose q) s = s.to (d.emit q (some (c, k)) emitFuel)) ∧
      (∀ (c : Fin 48) (tie : Bool) (x : FhFlow) (t : Int), d.flowOf q c = some x → d.txSendAt q c x.dl = some t → x.dnOk x.dl = true →
        t - (2000 * ns3 : Nat) ≤ now3 sp → d.probeOnly c = false →
        let y := d.txSym q c x.dl
        let flow := fun (e : Dev) => e.setFlow q c (some { x with dl := x.dl + 1 })
        (y.bell = none → exec (.readinessCheck q c tie) s =
          s.to (((flow (d.setTx q { y with chk := some false, data := [] })).fhCount F.FH_TX_LATE_COUNT (d.portOf q) 1).raise
            (evFh (d.portOf q) 2) (portUid (d.portOf q)))) ∧
        (∀ b, y.bell = some b → (tie = false ∨ b ≠ sp.now) → d.fnState c ≠ 5 →
          exec (.readinessCheck q c tie) s = s.to (flow (d.setTx q { y with chk := some true })))) ∧
      (∀ t : TxSym, d.sendHead sp q = some t →
        (d.portLinked (d.portOf q) = false → exec (.symbolSend q) s = s.to (d.setTx q { t with fin := true, data := [] })) ∧
        (∀ i, d.portLinked (d.portOf q) = true → (d.entries q t.c 1)[t.sent]? = some i → (t.chk = some false ∨ d.fnState t.c = 5) →
          let whole := t.sent + 1 == (d.entries q t.c 1).length
          let z := d.inject q i t.k (List.replicate (d.dabCount q i t.k) zeroDab) 0
          exec (.symbolSend q) s = s.to (((d.countF F.GLZ_CNT_SAT_COUNT z.2).sendStream q i t.c t.k z.1).setTx q
            { t with sent := t.sent + 1, fin := whole, data := if whole then [] else t.data }))))

/-- R473, R475, R480, R485, R487, R488, R493, R523, R524, R527, R530: the steps of the timebase, the triggers and the trim outputs. -/
def Obligations.TimeSteps : Prop :=
  ∀ s : State,
    let sp := s.spine
    let d := s.dev
    (bitAt (d.f F.TB_STATUS_HCAUSE) 1 = false → exec .refLoss s =
      s.to ((((d.setF F.TB_REF_STAT_LOCK 0).setF F.TB_REF_STAT_LOSS 1).raise evTbRefLoss tbUid).setCause 1)) ∧
    ((d.fb F.TB_REF_CFG_SEL = false ∨ d.squelch = false) → d.refValid = true →
      exec .refRelock s = s.to ((d.setF F.TB_REF_STAT_LOCK 1).clearCause sp 1)) ∧
    (∀ rising : Bool, d.fb F.TB_PPS_IN_CFG_EN = true → rising ≠ d.fb F.TB_PPS_IN_CFG_EDGE →
      let x := d.draw (2 * 65536 + 1)
      let t : Int := (frac16 sp.now : Int) + (x.1 : Int) - 65536 - d.fs F.TB_PPS_IN_CFG_DELAY_NS * 65536
      let m := t % (10 ^ 9 * 65536)
      let d1 := ((x.2.setF F.TB_PPS_IN_NS_NS (m / 65536).toNat).setF F.TB_PPS_IN_FRAC_FRAC (m % 65536).toNat).raise evTbPpsIn tbUid
      (d.fb F.TB_SERVO_CFG_SRC = false → exec (.ppsInEdge rising) s = s.to d1) ∧
      (d.fb F.TB_SERVO_CFG_SRC = true →
        exec (.ppsInEdge rising) s = s.to (d1.commitSample sp (if m * 2 ≤ 10 ^ 9 * 65536 then m else m - 10 ^ 9 * 65536)))) ∧
    (∀ x d1, d.fnActive 128 = true → d.tb.sample = some x →
      (d.servoSample sp x = (d1, none) → exec .servoCycle s = s.whole sp (d1.servoPass sp)) ∧
      (∀ y, d.servoSample sp x = (d1, some y) → let v := stepTime sp d1 (y * ((2 ^ 32 : Nat) : Int))
        exec .servoCycle s = s.whole v.1 (v.2.servoPass v.1))) ∧
    ((d.f F.TB_STATUS_STATE = 1 ∨ d.f F.TB_STATUS_STATE = 2) →
      d.tb.heard + max 1 (d.f F.TB_HOLD_CFG_TIMEOUT_MS) * 1000000 * nsUnit ≤ sp.now → exec .noInputTimeout s = s.to (d.setCause 0)) ∧
    (d.fb F.TB_STATUS_STEPPING = true → d.tb.withhold = 0 → exec .stepComplete s = s.to (d.stepDone sp)) ∧
    (d.fb F.TB_PPS_OUT_CFG_EN = true →
      (d.tb.ppsSec < d.ppsSecond sp.now →
        exec .ppsOutRise s = s.to { d with tb := { d.tb with pps := true, ppsSec := d.ppsSecond sp.now, ppsAt := sp.now } }) ∧
      (d.tb.ppsAt + max 1 (d.f F.TB_PPS_OUT_CFG_WIDTH_MS) * 1000000 * nsUnit ≤ sp.now → exec .ppsOutFall s = s.to { d with tb := { d.tb with pps := false } })) ∧
    (∀ n : Fin 256, d.fb (F.TB_TRIG_CTRL_EN n) = true → d.f (F.TB_TRIG_STAT_STATE n) = 1 → d.trigTime n ≤ sp.now →
      let d1 := d.trigOutcome sp n 2
      let p := d.f (F.TB_TRIG_PERIOD_PERIOD_NS n)
      (p = 0 → exec (.trigFire n) s = s.to (d1.setF (F.TB_TRIG_CTRL_EN n) 0)) ∧
      (p ≠ 0 → exec (.trigFire n) s =
        s.to ((d1.setTrigNs n (d.trigTime n / nsUnit + p)).trigRun sp n (prevTick sp) (d.trigFuel sp n)))) ∧
    (exec .updateBoundary s = s.to ((List.range 4).foldl (fun e c =>
      if (e.trimCh c).safe = true then e.trimLatch c (e.f (F.TRM_CH_CFG_SAFE c))
      else match (e.trimCh c).next with
        | some v => if e.fnActive (130 + c) = true then e.trimLatch c v else e.mapTrim c fun x => { x with next := none }
        | none => e) d)) ∧
    (∀ (c : Fin 4) (v : Nat), (d.trimCh c).hold = some v →
      exec (.deglitchEnd c) s = s.to (d.mapTrim c fun x => { x with out := v, hold := none })) ∧
    (d.fb F.TRM_WDOG_RUN = true → d.wdogAt + d.f F.TRM_WDOG_TIMEOUT_MS * 1000000 * nsUnit ≤ sp.now →
      exec .trimWatchdogExpire s = s.to (((d.setF F.TRM_WDOG_RUN 0).raise evTrmWdog trimUid).trimFault 3)) ∧
    (∀ c : Fin 4, let d1 := d.progress sp (130 + c)
      exec (.trmServicePass c) s = s.to (if d1.fnState (130 + c) = 4 then d1.fnStopped sp (130 + c) else d1))

/-- R506, R508, R511, R513, R515, R516, R517, R518: the steps of Glaze while it is in service. -/
def Obligations.GlazeSteps : Prop :=
  ∀ s : State, s.spine.contain.out glzUid = false →
    let sp := s.spine
    let d := s.dev
    (∀ c dir clear, d.estReady = some (c, dir, clear) →
      let d1 := (d.estimateSet c dir).setF (if dir = 0 then F.GLZ_CARR_STAT_RDY_TX c else F.GLZ_CARR_STAT_RDY_RX c) 1
      let d2 := if clear then (d.antennas c).foldl (fun d i => d.clearMem (accAddr dir i) 0x140) d1 else d1
      exec .estimate s =
        s.to ((({ d2 with glz := { d2.glz with est := none } } : Dev).setF F.GLZ_EST_CMD_BUSY 0).raise evGlzSetReady glzUid)) ∧
    (d.glzOn = true → d.glz.swap ≠ 0 →
      exec .swap s = s.to ((List.range 48).foldl (fun e c =>
        if e.fb (F.GLZ_CARR_STAT_PEND c) = true ∧ e.nextT c ≤ timeNs sp + e.f F.GLZ_SWAP_CFG_LEAD_US * 1000 then
          (if e.fb (F.GLZ_CARR_STAT_RDY_TX c) = true ∨ e.fb (F.GLZ_CARR_STAT_RDY_RX c) = true then e.flip c else e.swapMiss c)
        else e) { d with glz := { d.glz with swap := d.glz.swap - 1 } })) ∧
    (∀ c : Fin 48, d.glzOn = true →
      (d.fb (F.GLZ_CARR_STAT_PEND c) = true → d.nextT c ≤ timeNs sp → exec (.swapMiss c) s = s.to (d.swapMiss c)) ∧
      (d.fb (F.GLZ_CARR_STAT_HOLD c) = true →
        d.symStart c (d.slotFrom c ((d.swapT c * ns3 : Nat) : Int) + max 2 (d.f F.GLZ_SWAP_CFG_HOLD_SLOTS) * (d.air c).syms) ≤ now3 sp →
        exec (.holdClear c) s = s.to (d.setF (F.GLZ_CARR_STAT_HOLD c) 0)) ∧
      (d.fb (F.GLZ_CARR_STAT_STALE c) = false → d.f F.GLZ_MAX_AGE_SEC * 1000 < d.glzAge sp c →
        exec (.stale c) s = s.to ((d.setF (F.GLZ_CARR_STAT_STALE c) 1).raise evGlzStale glzUid))) ∧
    (∀ r : Fin 16, sp.contain.out (dispatcherUid r) = false → (d.disp_ r).floorAt + d.floorWin ≤ sp.now →
      exec (.floorWindowEnd r) s = s.to (d.mapDisp r fun x => { x with floorAt := sp.now, floorAcc := 0 })) ∧
    (d.glzOn = true → let d1 := d.progress sp 129
      exec .glzServicePass s = s.to (if d1.fnState 129 = 4 ∧ d1.glzDrained = true then d1.fnStopped sp 129 else d1)) ∧
    (∀ (p : Fin 16) (med : BitVec 48) (n : Fin 1025), d.loopRuns p = true → d.glzOn = true →
      let d0 := ({ d with sent := d.sent ++ [.loop p 1024] } : Dev).setF (F.GLZ_LOOP_STAT_FRAMES p) n
      let e := med.toInt - ((d.f (F.GLZ_LOOP_DELAY_D_LOOP p) * 256 : Nat) : Int)
      let d1 := d0.setF (F.GLZ_LOOP_RES_E p) (wrapInt 32 (clampInt (-(2 ^ 31)) (2 ^ 31 - 1) e))
      let a := e * ((min 16 (d.f (F.GLZ_LOOP_CFG_SHARE p)) : Nat) : Int) / 16
      let add := fun (d : Dev) (x : Fld) (v : Int) => d.setF x (wrapInt 24 (d.fs x + v))
      (n.val < 512 → exec (.loopback p med n) s = s.to ((d0.setF (F.GLZ_LOOP_STAT_STAT p) 2).loopNext sp)) ∧
      (512 ≤ n.val → 50 * 65536 < e.natAbs → exec (.loopback p med n) s = s.to ((d1.setF (F.GLZ_LOOP_STAT_STAT p) 3).loopNext sp)) ∧
      (512 ≤ n.val → e.natAbs ≤ 50 * 65536 → exec (.loopback p med n) s = s.to
        (((add (add d1 (F.FH_TS_CAL_RX_C p) a) (F.FH_TS_CAL_TX_C p) (e - a)).setF (F.GLZ_LOOP_STAT_STAT p) 1).loopNext sp))) ∧
    (∀ c0 i t l, d.glz.ocxo = some (c0, i, t, l) → d.f F.GLZ_STATUS_COMM_STEP = 2 → t + d.dwell ≤ sp.now → d.glzOn = true →
      let l' := l ++ [flogMean (d.tb.flog.getD []) (t + d.dwell * 3 / 4) (t + d.dwell)]
      (∀ k, d.ocxoBar = some k → exec .ocxoDwellEnd s = s.to (d.ocxoEnd sp k)) ∧
      (d.ocxoBar = none → i = 2 → exec .ocxoDwellEnd s = s.to (d.ocxoResult sp c0 l')) ∧
      (d.ocxoBar = none → i ≠ 2 →
        let d1 := d.trimHand sp 0 (d.ocxoCode c0 (i + 1)) false
        exec .ocxoDwellEnd s = s.to { d1 with glz := { d1.glz with ocxo := some (c0, i + 1, sp.now, l') }
                                              tb := { d1.tb with flog := some [(sp.now, d.fs F.TB_FREQ_F)] } })) ∧
    (d.f F.GLZ_STATUS_COMM_STEP = 3 → d.glzOn = true → d.calibDone sp = true → exec .glzCommDone s =
      s.to ((((d.setF F.GLZ_STATUS_COMM_STEP 0).setF F.GLZ_STATUS_COMM_DONE 1).raise evGlzCommDone glzUid).commOver sp true))

/-- R63, R64, R535, R536, R541, R542, R543, R544, R548, R571: the host link. A reset or a loss of the link disables the pairs and clears what the
host had set; a function-level reset does so for one function; configuration requests read and set the functions; a
doorbell moves a pair's tail or head; the device takes H2D entries, writes D2H entries with PHASE last, and sends a vector
once it is unmasked. -/
def Obligations.HostSteps : Prop :=
  ∀ s : State,
    let sp := s.spine
    let d := s.dev
    (d.perst = false → exec .perstNAssert s = s.to { d.linkReset.raise evHstLink hostUid with perst := true }) ∧
    exec .perstNRelease s = s.to { d with perst := false } ∧
    (d.fb F.HST_STATUS_LINK_UP = true → exec .hostLinkDown s = s.to (d.linkReset.raise evHstLink hostUid)) ∧
    (∀ (gen : BitVec 3) (lanes : BitVec 5), d.perst = false → d.fb F.HST_STATUS_LINK_UP = false →
      exec (.hostLinkUp gen lanes) s = s.to ((((d.setF F.HST_STATUS_LINK_UP 1).setF F.HST_STATUS_SPEED gen.toNat).setF
        F.HST_STATUS_WIDTH lanes.toNat).raise evHstLink hostUid)) ∧
    (∀ f : Fin 17, d.fnEnabled f = true →
      (f = 0 → exec (.functionLevelReset f) s =
        s.to { (List.range 17).foldl (fun e i => e.clearMb i) (d.disablePairs fun _ => true) with fn := [] }) ∧
      (f ≠ 0 → exec (.functionLevelReset f) s = s.to (((d.disablePairs fun x => x == f.val).clearMb f).resetFn f)) ∧
      (d.perst = false →
        (∀ en mask, exec (.configurationRequest f (.msix en mask)) s =
          s.written sp ((d.setFn f { d.fnCfg f with msixEn := en, msixMask := mask }).msixFlush)) ∧
        (∀ d3, exec (.configurationRequest f (.power d3)) s = s.written sp ((d.setFn f { d.fnCfg f with d3 := d3 }).msixFlush)) ∧
        (f = 0 → ∀ n, exec (.configurationRequest f (.sriov n)) s = s.written sp ((List.range 16).foldl (fun e i =>
          e.setFn (i + 1) (if i < n.toNat then { e.fnCfg (i + 1) with vf := true } else FnCfg.reset)) d)) ∧
        (f = 0 → exec (.configurationRequest f (.read 0)) s = s.written sp
          { d with sent := d.sent ++ [.cfgRead 0 0 (BitVec.ofNat 32 (Config.vendorId % 65536 + 0x9416 * 65536))] }))) ∧
    (∀ (f : Fin 17) (k : Fin 256) (v : BitVec 16), d.f (F.HST_RING_CFG_FN k) = f.val → hostUp sp = true →
      (f = 0 ∨ hostFull (sp, d) = true ∧ d.fnEnabled f = true) →
      exec (.doorbellTail f k v) s = s.whole sp (d.doorTail k v.toNat) ∧
      exec (.doorbellHead f k v) s = s.whole sp (d.doorHead k v.toNat)) ∧
    (sp.contain.out hostUid = false → ∀ k : Fin 256,
      (∀ (e : List Byte) (fail : Bool), (d.ringWorks k 1 = true ∨ d.ringWorks k 2 = true) → d.ringFill k ≠ 0 →
        let d1 : Dev := { d with sent := d.sent ++ [.hostRead (d.f (F.HST_RING_CFG_FN k)) (d.h2dAddr k (d.ringAt k).head) 64 false false] }
        (fail = true → exec (.h2dEntry k e fail) s = s.to (d1.ringFail k 2)) ∧
        (fail = false → d.f (F.HST_RING_CFG_TYPE k) = 1 → exec (.h2dEntry k e fail) s = s.to (d1.taskEntry sp k (fitBytes 64 e))) ∧
        (fail = false → d.f (F.HST_RING_CFG_TYPE k) ≠ 1 → exec (.h2dEntry k e fail) s = s.to (d1.msgEntry k (fitBytes 64 e)))) ∧
      (∀ e d1, let tail := d.f (F.HST_DB_HEAD_DTAIL k)
        (tail + 65536 - d.f (F.HST_DB_HEAD_HEAD k)) % 65536 < d.ringLen k → d.nextOut k = some (e, d1) →
        let f := d.f (F.HST_RING_CFG_FN k)
        let a := d.d2hAddr k tail
        let d2 : Dev := d1.setF (F.HST_DB_HEAD_DTAIL k) (tail + 1)
        let d3 : Dev := { d2 with sent := d1.sent ++ [.hostWrite f a false false e,
                                    .hostWrite f (a + 63) false false [if tail / d.ringLen k % 2 = 0 then 1 else 0]] }
        exec (.d2hEntry k true) s = s.to (d.ringFail k 3) ∧
        exec (.d2hEntry k false) s = s.to (if d.fb (F.HST_RING_CFG_IRQ_EN k) then d3.msixSend (d.f (F.HST_RING_CFG_VEC k)) else d3))) ∧
    (∀ vec : BitVec 11, exec (.msixUnmask vec) s =
      s.to ({ d with msix := SMap.put d.msix (vec.toNat * 4 + 3) (d.msixWord vec.toNat 3 &&& ~~~1) } : Dev).msixFlush)

/-- R557, R558, R559: the device answers SPDM requests over DOE (the layouts of the answers are the model's choice, log entry 48). -/
def Obligations.SpdmAnswers : Prop :=
  ∀ s : State, s.dev.spdmOn s.spine = true →
    let d := s.dev
    let chain := Config.certChain
    let send := fun (e : Dev) (code p1 p2 : Nat) (body : List Byte) => s.to (e.spdmSend 0x12 code p1 p2 body)
    exec .getVersion s = s.to (d.spdmSend 0x10 0x04 0 0 (leBytes 2 0x0100 ++ leBytes 2 0x1200)) ∧
    exec .getCapabilities s = send d 0x61 0 0 (leBytes 2 (256 * (Config.spdmCtExponent % 256)) ++ leBytes 2 0 ++ leBytes 4 0x16
      ++ leBytes 4 Config.spdmSizes.1 ++ leBytes 4 Config.spdmSizes.2) ∧
    exec .negotiateAlgorithms s = send d 0x63 0 0 (leBytes 2 36 ++ leBytes 1 1 ++ leBytes 1 0 ++ leBytes 4 0x4 ++ leBytes 4 0x80
      ++ leBytes 4 0x2 ++ List.replicate 16 0) ∧
    exec .getDigests s = send d 0x01 0 1 (fitBytes 48 (Config.sha384 chain)) ∧
    (∀ off len : BitVec 16,
      (chain.length ≤ off.toNat → exec (.getCertificate off len) s = send d 0x7F 1 0 []) ∧
      (off.toNat < chain.length → let n := min len.toNat (chain.length - off.toNat)
        exec (.getCertificate off len) s =
          send d 0x02 0 0 (leBytes 2 n ++ leBytes 2 (chain.length - off.toNat - n) ++ (chain.drop off.toNat).take n))) ∧
    (∀ nonce : List Byte, exec (.challenge nonce) s =
      s.to (d.spdmNonce.2.spdmSigned 0x03 0 1 (fitBytes 32 nonce) (fitBytes 48 (Config.sha384 chain) ++ d.spdmNonce.1 ++ leBytes 2 0))) ∧
    (∀ (i : BitVec 8) (nonce : List Byte),
      (i.toNat = 0 → exec (.getMeasurements i false nonce) s =
        send d.spdmNonce.2 0x60 d.measAll.length 0 (leBytes 1 0 ++ leBytes 3 0 ++ [] ++ d.spdmNonce.1 ++ leBytes 2 0)) ∧
      (i.toNat = 255 → exec (.getMeasurements i false nonce) s = send d.spdmNonce.2 0x60 0 0
        (leBytes 1 d.measAll.length ++ leBytes 3 d.measAll.flatten.length ++ d.measAll.flatten ++ d.spdmNonce.1 ++ leBytes 2 0)) ∧
      (d.measAt i.toNat = none → i.toNat ≠ 0 → i.toNat ≠ 255 → ∀ sign, exec (.getMeasurements i sign nonce) s = send d 0x7F 1 0 []) ∧
      (∀ b, d.measAt i.toNat = some b → i.toNat ≠ 0 → i.toNat ≠ 255 →
        let body := leBytes 1 1 ++ leBytes 3 b.length ++ b ++ d.spdmNonce.1 ++ leBytes 2 0
        exec (.getMeasurements i false nonce) s = send d.spdmNonce.2 0x60 0 0 body ∧
        exec (.getMeasurements i true nonce) s = s.to (d.spdmNonce.2.spdmSigned 0x60 0 0 (fitBytes 32 nonce) body))) ∧
    (∀ code : BitVec 8, [0x84, 0xE1, 0xE3, 0x81, 0x82, 0x83, 0xE0].contains code.toNat = false →
      exec (.unsupportedRequest code) s = send d 0x7F 7 0 [])

/-- R311 to R313, R560 to R568: a frame of a peer that arrives at a port in service is acknowledged and, in its place in the order, has its
effect; the timers send HELLO and ACK frames and retransmit. -/
def Obligations.FabricFrames : Prop :=
  ∀ (s : State) (h : EurHdr), s.spine.contain.out (portUid h.port) = false → s.dev.portLinked h.port = true →
    let sp := s.spine
    let d := s.dev
    let x := eurIn h
    let w := fun (e : Dev) => eurRetry (sp, e)
    (∀ r, d.eurDeliver sp x false = r → exec (.ack h) s = s.whole sp r.2) ∧
    (∀ node mac, exec (.hello h node mac) s = s.whole sp (d.helloIn sp x)) ∧
    (∀ d1, d.eurDeliver sp x true = (none, d1) → ∀ i, exec (.event h i) s = s.whole sp d1) ∧
    (∀ (ecc : Ecc) k d1, (d.upset ecc).eurDeliver sp x true = (some k, d1) →
      (∀ (a : BitVec 64) (data : List Byte),
        let r := d1.eurServe h.port h.src.toNat a.toNat data.length true data
        exec (.write h a data ecc) s = s.whole sp (r.2.2.eurSend sp k 2 h.tag.toNat (leBytes 1 r.1))) ∧
      (∀ (a : BitVec 64) (n : BitVec 32),
        (1 ≤ n.toNat → n.toNat ≤ 1024 → let r := d1.eurServe h.port h.src.toNat a.toNat n.toNat false []
          exec (.read h a n ecc) s = s.whole sp (r.2.2.eurSend sp k 4 h.tag.toNat (leBytes 1 r.1 ++ List.replicate 7 0 ++ r.2.1))) ∧
        ((n.toNat = 0 ∨ 1024 < n.toNat) → exec (.read h a n ecc) s =
          s.whole sp ((d1.eurRefuse h.port h.src.toNat a.toNat false).eurSend sp k 4 h.tag.toNat (leBytes 1 1 ++ List.replicate 7 0 ++ []))))) ∧
    (∀ k d1, d.eurDeliver sp x true = (some k, d1) →
      (∀ st : BitVec 8, exec (.writeRsp h st) s = s.whole (w (d1.fabAnswer k h.tag.toNat true st.toNat [])).1
        (w (d1.fabAnswer k h.tag.toNat true st.toNat [])).2) ∧
      (∀ (st : BitVec 8) (data : List Byte), exec (.readRsp h st data) s = s.whole sp (d1.fabAnswer k h.tag.toNat false st.toNat data)) ∧
      (∀ desc, exec (.spill h desc) s = s.whole sp (d1.spillIn sp k h.port h.tag.toNat desc)) ∧
      (∀ st : BitVec 8, exec (.spillRsp h st) s = s.whole (w (d1.spillAnswer k h.tag.toNat st.toNat)).1
        (w (d1.spillAnswer k h.tag.toNat st.toNat)).2) ∧
      (∀ r, exec (.spillCpl h r) s = s.whole sp (d1.spillDone k r)) ∧
      (∀ id : BitVec 32, exec (.spillCancel h id) s = s.whole (w (d1.spillKill sp k id.toNat)).1 (w (d1.spillKill sp k id.toNat)).2) ∧
      (∀ free : BitVec 16, exec (.adv h free) s = s.whole sp (d1.mapPeer k fun p => { p with adv := some (free.toNat, sp.now) })) ∧
      (∀ i : BitVec 8, exec (.event h i) s = s.whole sp (if d1.fb (F.EUR_PEER_CFG_EVT_EN k) = true ∧ i.toNat < 16 then
        d1.raise (evEurRemote i.toNat) (portUid h.port) else d1.countF F.EUR_DROP_COUNT 1))) ∧
    (sp.contain.pkg = 0 →
      (d.helloAt + max 1 (d.f F.EUR_TIMING_HELLO_US) * usUnit ≤ sp.now → exec .helloTimer s = s.to (d.helloOut sp)) ∧
      (∀ k : Fin 2048, d.peerUp k = true →
        ((d.peer k).ackDue = true → exec (.ackTimer k) s = s.to (d.eurPlain k 0 [])) ∧
        (d.eurOverdue sp k = true → d.f F.EUR_CFG_RETRY ≤ (d.peer k).rounds →
          exec (.retransmitTimeout k) s = s.whole (w (d.peerDown k)).1 (w (d.peerDown k)).2) ∧
        (d.eurOverdue sp k = true → (d.peer k).rounds < d.f F.EUR_CFG_RETRY →
          let p := d.peer k
          let d1 := p.unacked.zipIdx.foldl (fun d x =>
            d.eurWire k x.1.type ((p.tx + 65536 - p.unacked.length + x.2) % 65536) x.1.tag x.1.payload) d
          let d2 := (d1.mapPeer k fun x => { x with rounds := x.rounds + 1, unacked := x.unacked.map fun (f : EurFrame) => { f with at_ := sp.now } }).countF (F.EUR_PEER_STAT_RETX k) 1
          exec (.retransmitTimeout k) s = s.whole (w d2).1 (w d2).2)))

/-! ## Bundles and exceptions of a core (chapter 04) -/

/-- R116, R117, R124 to R128: bundles. An instruction that is not the last of its bundle only joins it. The instructions of a bundle read
their sources before any of its results is written. A result of latency 2 is not seen by the next bundle and is there for
the one after; an accumulation in the next bundle does see the accumulator of the one before it. -/
def Obligations.BundleRules : Prop :=
  (∀ (s : State) (i : Instr) (h : Hd), headOf i = some h → h.last = false → s.dev.issues s.spine h.k = true →
    (s.dev.core h.k).bundle = [] → exec i s = s.to (s.dev.mapCore h.k fun c => { c with bundle := [i] })) ∧
  (∀ (s : State) (g h : Hd) (ra rb x y z w : Reg), Ready s h → g.k = h.k → g.last = false → ra ≠ rb →
    s.dev.guard g = true → s.dev.guard h = true → s.dev.listedAt h.k 1 = true →
    let k : Nat := h.k
    exec (.sub h rb z w) (s.withDev (s.dev.mapCore k fun c => { c with bundle := [.add g ra x y] })) =
      s.to ((((s.dev.applyWr k (.g ra (s.dev.g k x + s.dev.g k y))).applyWr k (.g rb (s.dev.g k z - s.dev.g k w))).mapCore k
        fun c => { c with pc := BitVec.ofNat 16 (c.pc.toNat + 8) }))) ∧
  (∀ (s : State) (h : Hd) (r rd : Reg) (v : Word), Ready s h → s.dev.guard h = true →
    let k : Nat := h.k
    exec (.add h rd r r) (s.withDev (s.dev.mapCore k fun c => { c with inflight := [inFlight (.g r v) 1 false] })) =
      s.to (((s.dev.applyWr k (.g r v)).applyWr k (.g rd (s.dev.g k r + s.dev.g k r))).mapCore k fun c =>
        { c with pc := BitVec.ofNat 16 (c.pc.toNat + 4) })) ∧
  (∀ (s : State) (h : Hd) (ad : AReg) (v : BitVec 48) (x : Reg), Ready s h → s.dev.guard h = true → s.dev.fb (F.CORE_STATUS_AOV_EN h.k) = false →
    let k : Nat := h.k
    let flying := s.withDev (s.dev.mapCore k fun c => { c with inflight := [inFlight (.a ad v) 1 true] })
    let p := ((s.dev.g k x).setWidth 16).toInt * ((s.dev.g k x).setWidth 16).toInt
    ∃ t, exec (.macaHh h ad x x) flying = .next t ∧
      (t.dev.core k).inflight = [inFlight (.a ad (BitVec.ofInt 48 (v.toInt + p))) 1 true])

/-- R111, R113, R123, R131, R144, R146, R148: precise exceptions. A privileged instruction at U level, a load or store of a
misaligned or an unmapped address, and a vector instruction on a hub core have no effect of their own: the core takes the
exception at the bundle itself. -/
def Obligations.PreciseExceptions : Prop :=
  ∀ (s : State) (h : Hd), Ready s h →
    let k : Nat := h.k
    let takes := fun (i : Instr) (code tval : Nat) => ∃ t, exec i s = .next t ∧
      t.dev.f (F.CORE_STATUS_PPRIV k) = s.dev.f (F.CORE_STATUS_PRIV k) ∧ t.dev.f (F.CORE_STATUS_PIE k) = s.dev.f (F.CORE_STATUS_IE k) ∧
      t.dev.f (F.CORE_STATUS_PRIV k) = 3 ∧ t.dev.f (F.CORE_STATUS_IE k) = 0 ∧
      t.dev.f (F.CORE_EPC_EPC k) = (s.dev.core k).pc.toNat / 4 ∧ t.dev.f (F.CORE_ESTATE_EOB k) = 0 ∧
      t.dev.f (F.CORE_CAUSE_CODE k) = code ∧ t.dev.f (F.CORE_CAUSE_INT k) = 0 ∧ t.dev.f (F.CORE_TVAL_TVAL k) = tval % 2 ^ 32 ∧
      (t.dev.core k).pc = BitVec.ofNat 16 (s.dev.f (F.CORE_TVEC_BASE k) * 64) ∧
      (∀ r, t.dev.g k r = s.dev.g k r) ∧ t.dev.mem = s.dev.mem ∧ (∀ j, j ≠ k → t.dev.core j = s.dev.core j) ∧ t.spine = s.spine
    (s.dev.level k = .u →
      takes (.eret h) 4 (encSys h 0 0 0 11) ∧ takes (.wfi h) 4 (encSys h 0 0 0 12) ∧ takes (.cleanAll h) 4 (encSys h 0 0 0 6) ∧
      takes (.flushAll h) 4 (encSys h 0 0 0 7) ∧ (∀ r : Reg, takes (.cancel h r r) 4 (encEsl h r r 0 2))) ∧
    (∀ (rd rb : Reg) (m : MForm), s.dev.guard { h with gn := false } = true → m.sz ≠ 3 →
      let o := s.dev.address k (s.dev.g k rb).toNat (m.imm.toInt * ((2 ^ m.sz.toNat : Nat) : Int)) m.pi m.cwe m.cw.toNat
      o.bad = false →
      (o.addr % 2 ^ m.sz.toNat ≠ 0 → takes (.ld h rd rb m) 6 o.addr ∧ takes (.st h rd rb m) 6 o.addr) ∧
      (o.addr % 2 ^ m.sz.toNat = 0 →
        (s.dev.mapAddr k o.addr false = none → takes (.ld h rd rb m) 7 o.addr) ∧
        (s.dev.mapAddr k o.addr true = none → takes (.st h rd rb m) 7 o.addr))) ∧
    (isHubCore h.k = true → ∀ (vd vs : Reg) (t : BitVec 3), ∃ w, takes (.vadd h vd vs vs t) 1 w)

/-! ## The whole machine -/

/-- The step of the block runs the command at the front of its queue, with the queue's rest; with nothing waiting it is one
tick of the timebase (log entries 1 and 3). -/
def Obligations.StepRunsFrontCommand : Prop :=
  (∀ (c : Instr) (l : List Instr) (s : State), step { s with pending := c :: l } = exec c { s with pending := l }) ∧
  (∀ s : State, s.pending = [] →
    step s = s.whole (s.spine.goto (s.spine.now + (s.dev.tickDelta - min s.dev.tb.withhold s.dev.tickDelta)))
      { s.dev with tb := { s.dev.tb with withhold := s.dev.tb.withhold - min s.dev.tb.withhold s.dev.tickDelta } })

/-- Every command of the table completes in every state, and none of them touches the queue. -/
def Obligations.EveryCommandCompletes : Prop :=
  ∀ (c : Instr) (s : State), ∃ t, exec c s = .next t ∧ t.pending = s.pending

/-- R56, R65, R79, R277 and the reset columns of chapters 02, 04, 05, 07 and 08: what reset leaves. The values of the registers named here are
the spec's; an empty queue, an empty memory that reads zero and the time 0 are the model's choice (log entries 1, 3, 4). -/
def Obligations.ResetState : Prop :=
  let d := State.reset.dev
  State.reset.pending = [] ∧ State.reset.spine.now = 0 ∧ State.reset.spine.contain = Contain.none ∧ d.mem = [] ∧ Memory.wf d.mem = true ∧
  d.mode = 0 ∧ d.f F.GSO_DRAIN_TIMEOUT_TIMEOUT_MS = 200 ∧ d.f F.ESL_CTRL_RESERVE = 256 ∧ d.f F.ESL_STATUS_FREE = 65536 ∧
  (∀ k : Fin 384, d.f (F.VEC_VL_VL k) = 64 ∧ d.fb (F.CORE_CTRL_HALTED k) = true ∧ d.f (F.CORE_STATUS_PRIV k) = 3) ∧
  (∀ n : Fin 134, d.fnState n = 0) ∧ (∀ i : BitVec 16, (d.slot i.toNat).st = 0) ∧
  (∀ (r : Fin 16) (n : Fin 52), d.f (F.PAL_OWNER_OWNER r n) = dispatcherUid r ∧ d.f (F.PAL_OWNER_PEND r n) = 0)

/-- R28, R32 (derived): what stands of time and containment in every state that a step leaves: the source of a package fault is none or one
of the eight, and the times that the region copies may still show are at most the present one. -/
def Obligations.SpineInvariantStays : Prop :=
  ∀ s t : State, step s = .next t →
    let ok := fun (x : State) => x.spine.contain.pkg ≤ 8 ∧ x.spine.recent.length ≤ recentMax ∧ (∀ u ∈ x.spine.recent, u ≤ x.spine.now)
    ok s → ok t

/-- R469, R485: time never decreases. A backward step of the servo withholds increments; only the loss of power starts time again. -/
def Obligations.TimeNeverDecreases : Prop :=
  ∀ s t : State, step s = .next t → s.pending.head? ≠ some .powerLoss → s.spine.now ≤ t.spine.now

/-- R30: quarantine and fencing persist until full reset: no step but the full reset itself and the loss of power returns a unit, a channel, a
cluster or a die to service, or ends a package fault. -/
def Obligations.OutOfServiceStays : Prop :=
  ∀ s t : State, step s = .next t → s.pending.head? ≠ some .powerLoss → s.pending.head? ≠ some .fullResetExecute →
    let c := s.spine.contain
    let e := t.spine.contain
    (c.pkg ≠ 0 → e.pkg ≠ 0) ∧ (∀ u, c.out u = true → e.out u = true) ∧ (∀ u ch, c.gone u ch = true → e.gone u ch = true) ∧
    (∀ x ∈ c.clusters, x ∈ e.clusters) ∧ (∀ x ∈ c.dies, x ∈ e.dies)
end

