-- ==== Sys2Proof/Laws/Map.lean ====
section
/-! SUPPORT. The laws of sparse maps: read after write, and the canonical form is kept. -/

namespace Sys2Proof.Laws
open Sys2Proof.Machine

theorem smap_above_get {α : Type} (m : SMap α) (lo k : Nat) (d : α)
    (h : SMap.above lo m = true) (hk : k ≤ lo) : SMap.get m k d = d := by
  induction m with
  | nil => rfl
  | cons e t ih =>
    obtain ⟨k', v⟩ := e
    simp only [SMap.above, List.all_cons, Bool.and_eq_true, decide_eq_true_eq] at h
    have hne : ¬ k' = k := by omega
    simp only [SMap.get, if_neg hne]
    exact ih (by simpa [SMap.above] using h.2)

theorem smap_above_mono {α : Type} (m : SMap α) (lo lo' : Nat)
    (h : SMap.above lo m = true) (hl : lo' ≤ lo) : SMap.above lo' m = true := by
  simp only [SMap.above, List.all_eq_true, decide_eq_true_eq] at h ⊢
  intro e he
  have := h e he
  omega

theorem smap_above_set {α : Type} [DecidableEq α] (m : SMap α) (lo k : Nat) (v d : α)
    (h : SMap.above lo m = true) (hk : lo < k) : SMap.above lo (SMap.set m k v d) = true := by
  induction m with
  | nil => unfold SMap.set; split <;> simp [SMap.above, hk]
  | cons e t ih =>
    obtain ⟨k', v'⟩ := e
    have h' := h
    simp only [SMap.above, List.all_cons, Bool.and_eq_true, decide_eq_true_eq] at h
    have ht : SMap.above lo t = true := by simpa [SMap.above] using h.2
    unfold SMap.set
    split
    · split
      · exact h'
      · simpa [SMap.above, hk] using h
    · split
      · split
        · exact ht
        · simpa [SMap.above, hk] using h.2
      · have := ih ht
        simp only [SMap.above, List.all_cons, Bool.and_eq_true, decide_eq_true_eq] at this ⊢
        exact ⟨h.1, this⟩

/-- A write keeps the canonical form. -/
theorem smap_wf_set {α : Type} [DecidableEq α] (f : Nat → α) (m : SMap α) (k : Nat) (v : α)
    (h : SMap.wf f m = true) : SMap.wf f (SMap.set m k v (f k)) = true := by
  induction m with
  | nil => unfold SMap.set; split <;> simp_all [SMap.wf, SMap.above]
  | cons e t ih =>
    obtain ⟨k', v'⟩ := e
    have h' := h
    simp only [SMap.wf, Bool.and_eq_true, decide_eq_true_eq] at h
    unfold SMap.set
    split
    · rename_i hlt
      split
      · exact h'
      · rename_i hv
        simp only [SMap.wf, Bool.and_eq_true, decide_eq_true_eq]
        refine ⟨⟨hv, ?_⟩, h⟩
        have := smap_above_mono t k' k h.1.2 (by omega)
        simp only [SMap.above, List.all_cons, Bool.and_eq_true, decide_eq_true_eq] at this ⊢
        exact ⟨hlt, this⟩
    · split
      · rename_i heq
        subst heq
        split
        · exact h.2
        · rename_i hv
          simp only [SMap.wf, Bool.and_eq_true, decide_eq_true_eq]
          exact ⟨⟨hv, h.1.2⟩, h.2⟩
      · simp only [SMap.wf, Bool.and_eq_true, decide_eq_true_eq]
        exact ⟨⟨h.1.1, smap_above_set t k' k v (f k) h.1.2 (by omega)⟩, ih h.2⟩

/-- A read at the written key gives the value written. -/
theorem smap_get_set_same {α : Type} [DecidableEq α] (f : Nat → α) (m : SMap α) (k : Nat) (v : α)
    (h : SMap.wf f m = true) : SMap.get (SMap.set m k v (f k)) k (f k) = v := by
  induction m with
  | nil => unfold SMap.set; split <;> simp_all [SMap.get]
  | cons e t ih =>
    obtain ⟨k', v'⟩ := e
    simp only [SMap.wf, Bool.and_eq_true, decide_eq_true_eq] at h
    unfold SMap.set
    split
    · rename_i hlt
      split
      · rename_i hv
        have hne : ¬ k' = k := by omega
        simp only [SMap.get, if_neg hne, hv]
        exact smap_above_get t k' k _ h.1.2 (by omega)
      · simp [SMap.get]
    · split
      · rename_i heq
        subst heq
        split
        · rename_i hv
          rw [smap_above_get t k k _ h.1.2 (by omega), hv]
        · simp [SMap.get]
      · rename_i hne
        have hne' : ¬ k' = k := fun hh => hne hh.symm
        simp only [SMap.get, if_neg hne']
        exact ih h.2

/-- A write leaves every other key alone. -/
theorem smap_get_set_ne {α : Type} [DecidableEq α] (m : SMap α) (k j : Nat) (v d dj : α)
    (hj : j ≠ k) : SMap.get (SMap.set m k v d) j dj = SMap.get m j dj := by
  have hkj : ¬ k = j := fun h => hj h.symm
  induction m with
  | nil => unfold SMap.set; split <;> simp [SMap.get, hkj]
  | cons e t ih =>
    obtain ⟨k', v'⟩ := e
    unfold SMap.set
    split
    · split
      · rfl
      · simp [SMap.get, hkj]
    · split
      · rename_i heq
        subst heq
        split <;> simp [SMap.get, hkj]
      · simp only [SMap.get]
        split
        · rfl
        · exact ih

/-- A read at the key just put gives the value put. -/
@[simp] theorem smap_get_put_same {α : Type} (m : SMap α) (k : Nat) (v d : α) :
    SMap.get (SMap.put m k v) k d = v := by
  induction m with
  | nil => simp [SMap.put, SMap.get]
  | cons e t ih =>
    obtain ⟨k', v'⟩ := e
    unfold SMap.put
    split
    · simp [SMap.get]
    · split
      · simp [SMap.get]
      · rename_i hne
        have hne' : ¬ k' = k := fun h => hne h.symm
        simp only [SMap.get, if_neg hne']
        exact ih

/-- A put leaves every other key alone. -/
theorem smap_get_put_ne {α : Type} (m : SMap α) (k j : Nat) (v d : α) (hj : j ≠ k) :
    SMap.get (SMap.put m k v) j d = SMap.get m j d := by
  have hkj : ¬ k = j := fun h => hj h.symm
  induction m with
  | nil => simp [SMap.put, SMap.get, hkj]
  | cons e t ih =>
    obtain ⟨k', v'⟩ := e
    unfold SMap.put
    split
    · simp [SMap.get, hkj]
    · split
      · rename_i heq
        subst heq
        simp [SMap.get, hkj]
      · simp only [SMap.get]
        split
        · rfl
        · exact ih

/-- The later of two puts at one key stands. -/
@[simp] theorem smap_put_put {α : Type} (m : SMap α) (k : Nat) (v w : α) :
    SMap.put (SMap.put m k v) k w = SMap.put m k w := by
  induction m with
  | nil => simp [SMap.put]
  | cons e t ih =>
    obtain ⟨k', v'⟩ := e
    by_cases h1 : k < k'
    · simp [SMap.put, h1]
    · by_cases h2 : k = k'
      · simp [SMap.put, h2]
      · simp [SMap.put, h1, h2, ih]

end Sys2Proof.Laws
end

