-- ==== Sys2Proof/Laws/State.lean ====
section
/-! SUPPORT. What each basic update of the state leaves alone: one lemma for each field and each update. -/

namespace Sys2Proof.Laws
open Sys2Proof.Machine

section
variable (s : State) (d : Dev)

@[simp] theorem onDev_pending (f : Dev → Dev) : (s.onDev f).pending = s.pending := rfl
@[simp] theorem onDev_spine (f : Dev → Dev) : (s.onDev f).spine = s.spine := rfl
@[simp] theorem onDev_dev (f : Dev → Dev) : (s.onDev f).dev = f s.dev := rfl
@[simp] theorem onWhole_pending (f : Whole → Whole) : (s.onWhole f).pending = s.pending := rfl
@[simp] theorem onWhole_spine (f : Whole → Whole) : (s.onWhole f).spine = (f (s.spine, s.dev)).1 := rfl
@[simp] theorem onWhole_dev (f : Whole → Whole) : (s.onWhole f).dev = (f (s.spine, s.dev)).2 := rfl

/-! setReg changes only regs. -/
@[simp] theorem setReg_mem (a : Nat) (v : Word) : (d.setReg a v).mem = d.mem := rfl
@[simp] theorem setReg_bad (a : Nat) (v : Word) : (d.setReg a v).bad = d.bad := rfl
@[simp] theorem setReg_cores (a : Nat) (v : Word) : (d.setReg a v).cores = d.cores := rfl
@[simp] theorem setReg_cs (a : Nat) (v : Word) : (d.setReg a v).cs = d.cs := rfl
@[simp] theorem setReg_banks (a : Nat) (v : Word) : (d.setReg a v).banks = d.banks := rfl
@[simp] theorem setReg_wash (a : Nat) (v : Word) : (d.setReg a v).wash = d.wash := rfl
@[simp] theorem setReg_washPos (a : Nat) (v : Word) : (d.setReg a v).washPos = d.washPos := rfl
@[simp] theorem setReg_washAgain (a : Nat) (v : Word) : (d.setReg a v).washAgain = d.washAgain := rfl
@[simp] theorem setReg_washSince (a : Nat) (v : Word) : (d.setReg a v).washSince = d.washSince := rfl
@[simp] theorem setReg_scrub (a : Nat) (v : Word) : (d.setReg a v).scrub = d.scrub := rfl
@[simp] theorem setReg_scrubSince (a : Nat) (v : Word) : (d.setReg a v).scrubSince = d.scrubSince := rfl
@[simp] theorem setReg_extCache (a : Nat) (v : Word) : (d.setReg a v).extCache = d.extCache := rfl
@[simp] theorem setReg_extInval (a : Nat) (v : Word) : (d.setReg a v).extInval = d.extInval := rfl
@[simp] theorem setReg_latch (a : Nat) (v : Word) : (d.setReg a v).latch = d.latch := rfl
@[simp] theorem setReg_parked (a : Nat) (v : Word) : (d.setReg a v).parked = d.parked := rfl
@[simp] theorem setReg_slots (a : Nat) (v : Word) : (d.setReg a v).slots = d.slots := rfl
@[simp] theorem setReg_disp (a : Nat) (v : Word) : (d.setReg a v).disp = d.disp := rfl
@[simp] theorem setReg_gust (a : Nat) (v : Word) : (d.setReg a v).gust = d.gust := rfl
@[simp] theorem setReg_gustW (a : Nat) (v : Word) : (d.setReg a v).gustW = d.gustW := rfl
@[simp] theorem setReg_gustLast (a : Nat) (v : Word) : (d.setReg a v).gustLast = d.gustLast := rfl
@[simp] theorem setReg_eng (a : Nat) (v : Word) : (d.setReg a v).eng = d.eng := rfl
@[simp] theorem setReg_trc (a : Nat) (v : Word) : (d.setReg a v).trc = d.trc := rfl
@[simp] theorem setReg_tb (a : Nat) (v : Word) : (d.setReg a v).tb = d.tb := rfl
@[simp] theorem setReg_trim (a : Nat) (v : Word) : (d.setReg a v).trim = d.trim := rfl
@[simp] theorem setReg_trimDrop (a : Nat) (v : Word) : (d.setReg a v).trimDrop = d.trimDrop := rfl
@[simp] theorem setReg_wdogAt (a : Nat) (v : Word) : (d.setReg a v).wdogAt = d.wdogAt := rfl
@[simp] theorem setReg_glz (a : Nat) (v : Word) : (d.setReg a v).glz = d.glz := rfl
@[simp] theorem setReg_glzCapt (a : Nat) (v : Word) : (d.setReg a v).glzCapt = d.glzCapt := rfl
@[simp] theorem setReg_nceCh (a : Nat) (v : Word) : (d.setReg a v).nceCh = d.nceCh := rfl
@[simp] theorem setReg_nceGrp (a : Nat) (v : Word) : (d.setReg a v).nceGrp = d.nceGrp := rfl
@[simp] theorem setReg_nceBurst (a : Nat) (v : Word) : (d.setReg a v).nceBurst = d.nceBurst := rfl
@[simp] theorem setReg_nceStrm (a : Nat) (v : Word) : (d.setReg a v).nceStrm = d.nceStrm := rfl
@[simp] theorem setReg_fh (a : Nat) (v : Word) : (d.setReg a v).fh = d.fh := rfl
@[simp] theorem setReg_fhq (a : Nat) (v : Word) : (d.setReg a v).fhq = d.fhq := rfl
@[simp] theorem setReg_flow (a : Nat) (v : Word) : (d.setReg a v).flow = d.flow := rfl
@[simp] theorem setReg_perst (a : Nat) (v : Word) : (d.setReg a v).perst = d.perst := rfl
@[simp] theorem setReg_fn (a : Nat) (v : Word) : (d.setReg a v).fn = d.fn := rfl
@[simp] theorem setReg_vfMbox (a : Nat) (v : Word) : (d.setReg a v).vfMbox = d.vfMbox := rfl
@[simp] theorem setReg_mbox (a : Nat) (v : Word) : (d.setReg a v).mbox = d.mbox := rfl
@[simp] theorem setReg_msix (a : Nat) (v : Word) : (d.setReg a v).msix = d.msix := rfl
@[simp] theorem setReg_msixPend (a : Nat) (v : Word) : (d.setReg a v).msixPend = d.msixPend := rfl
@[simp] theorem setReg_ring (a : Nat) (v : Word) : (d.setReg a v).ring = d.ring := rfl
@[simp] theorem setReg_tracePair (a : Nat) (v : Word) : (d.setReg a v).tracePair = d.tracePair := rfl
@[simp] theorem setReg_peers (a : Nat) (v : Word) : (d.setReg a v).peers = d.peers := rfl
@[simp] theorem setReg_fab (a : Nat) (v : Word) : (d.setReg a v).fab = d.fab := rfl
@[simp] theorem setReg_tag (a : Nat) (v : Word) : (d.setReg a v).tag = d.tag := rfl
@[simp] theorem setReg_helloAt (a : Nat) (v : Word) : (d.setReg a v).helloAt = d.helloAt := rfl
@[simp] theorem setReg_advAt (a : Nat) (v : Word) : (d.setReg a v).advAt = d.advAt := rfl
@[simp] theorem setReg_flash (a : Nat) (v : Word) : (d.setReg a v).flash = d.flash := rfl
@[simp] theorem setReg_erased (a : Nat) (v : Word) : (d.setReg a v).erased = d.erased := rfl
@[simp] theorem setReg_boot (a : Nat) (v : Word) : (d.setReg a v).boot = d.boot := rfl
@[simp] theorem setReg_pf (a : Nat) (v : Word) : (d.setReg a v).pf = d.pf := rfl
@[simp] theorem setReg_modes (a : Nat) (v : Word) : (d.setReg a v).modes = d.modes := rfl
@[simp] theorem setReg_prog (a : Nat) (v : Word) : (d.setReg a v).prog = d.prog := rfl
@[simp] theorem setReg_lc (a : Nat) (v : Word) : (d.setReg a v).lc = d.lc := rfl
@[simp] theorem setReg_cage (a : Nat) (v : Word) : (d.setReg a v).cage = d.cage := rfl
@[simp] theorem setReg_pwr (a : Nat) (v : Word) : (d.setReg a v).pwr = d.pwr := rfl
@[simp] theorem setReg_jtag (a : Nat) (v : Word) : (d.setReg a v).jtag = d.jtag := rfl
@[simp] theorem setReg_aonSent (a : Nat) (v : Word) : (d.setReg a v).aonSent = d.aonSent := rfl
@[simp] theorem setReg_meas (a : Nat) (v : Word) : (d.setReg a v).meas = d.meas := rfl
@[simp] theorem setReg_log (a : Nat) (v : Word) : (d.setReg a v).log = d.log := rfl
@[simp] theorem setReg_logSeq (a : Nat) (v : Word) : (d.setReg a v).logSeq = d.logSeq := rfl
@[simp] theorem setReg_logFirst (a : Nat) (v : Word) : (d.setReg a v).logFirst = d.logFirst := rfl
@[simp] theorem setReg_pcAt (a : Nat) (v : Word) : (d.setReg a v).pcAt = d.pcAt := rfl
@[simp] theorem setReg_evq (a : Nat) (v : Word) : (d.setReg a v).evq = d.evq := rfl
@[simp] theorem setReg_sent (a : Nat) (v : Word) : (d.setReg a v).sent = d.sent := rfl
@[simp] theorem setReg_free (a : Nat) (v : Word) : (d.setReg a v).free = d.free := rfl

/-! setF changes only regs. -/
@[simp] theorem setF_mem (x : Fld) (v : Nat) : (d.setF x v).mem = d.mem := rfl
@[simp] theorem setF_bad (x : Fld) (v : Nat) : (d.setF x v).bad = d.bad := rfl
@[simp] theorem setF_cores (x : Fld) (v : Nat) : (d.setF x v).cores = d.cores := rfl
@[simp] theorem setF_cs (x : Fld) (v : Nat) : (d.setF x v).cs = d.cs := rfl
@[simp] theorem setF_banks (x : Fld) (v : Nat) : (d.setF x v).banks = d.banks := rfl
@[simp] theorem setF_wash (x : Fld) (v : Nat) : (d.setF x v).wash = d.wash := rfl
@[simp] theorem setF_washPos (x : Fld) (v : Nat) : (d.setF x v).washPos = d.washPos := rfl
@[simp] theorem setF_washAgain (x : Fld) (v : Nat) : (d.setF x v).washAgain = d.washAgain := rfl
@[simp] theorem setF_washSince (x : Fld) (v : Nat) : (d.setF x v).washSince = d.washSince := rfl
@[simp] theorem setF_scrub (x : Fld) (v : Nat) : (d.setF x v).scrub = d.scrub := rfl
@[simp] theorem setF_scrubSince (x : Fld) (v : Nat) : (d.setF x v).scrubSince = d.scrubSince := rfl
@[simp] theorem setF_extCache (x : Fld) (v : Nat) : (d.setF x v).extCache = d.extCache := rfl
@[simp] theorem setF_extInval (x : Fld) (v : Nat) : (d.setF x v).extInval = d.extInval := rfl
@[simp] theorem setF_latch (x : Fld) (v : Nat) : (d.setF x v).latch = d.latch := rfl
@[simp] theorem setF_parked (x : Fld) (v : Nat) : (d.setF x v).parked = d.parked := rfl
@[simp] theorem setF_slots (x : Fld) (v : Nat) : (d.setF x v).slots = d.slots := rfl
@[simp] theorem setF_disp (x : Fld) (v : Nat) : (d.setF x v).disp = d.disp := rfl
@[simp] theorem setF_gust (x : Fld) (v : Nat) : (d.setF x v).gust = d.gust := rfl
@[simp] theorem setF_gustW (x : Fld) (v : Nat) : (d.setF x v).gustW = d.gustW := rfl
@[simp] theorem setF_gustLast (x : Fld) (v : Nat) : (d.setF x v).gustLast = d.gustLast := rfl
@[simp] theorem setF_eng (x : Fld) (v : Nat) : (d.setF x v).eng = d.eng := rfl
@[simp] theorem setF_trc (x : Fld) (v : Nat) : (d.setF x v).trc = d.trc := rfl
@[simp] theorem setF_tb (x : Fld) (v : Nat) : (d.setF x v).tb = d.tb := rfl
@[simp] theorem setF_trim (x : Fld) (v : Nat) : (d.setF x v).trim = d.trim := rfl
@[simp] theorem setF_trimDrop (x : Fld) (v : Nat) : (d.setF x v).trimDrop = d.trimDrop := rfl
@[simp] theorem setF_wdogAt (x : Fld) (v : Nat) : (d.setF x v).wdogAt = d.wdogAt := rfl
@[simp] theorem setF_glz (x : Fld) (v : Nat) : (d.setF x v).glz = d.glz := rfl
@[simp] theorem setF_glzCapt (x : Fld) (v : Nat) : (d.setF x v).glzCapt = d.glzCapt := rfl
@[simp] theorem setF_nceCh (x : Fld) (v : Nat) : (d.setF x v).nceCh = d.nceCh := rfl
@[simp] theorem setF_nceGrp (x : Fld) (v : Nat) : (d.setF x v).nceGrp = d.nceGrp := rfl
@[simp] theorem setF_nceBurst (x : Fld) (v : Nat) : (d.setF x v).nceBurst = d.nceBurst := rfl
@[simp] theorem setF_nceStrm (x : Fld) (v : Nat) : (d.setF x v).nceStrm = d.nceStrm := rfl
@[simp] theorem setF_fh (x : Fld) (v : Nat) : (d.setF x v).fh = d.fh := rfl
@[simp] theorem setF_fhq (x : Fld) (v : Nat) : (d.setF x v).fhq = d.fhq := rfl
@[simp] theorem setF_flow (x : Fld) (v : Nat) : (d.setF x v).flow = d.flow := rfl
@[simp] theorem setF_perst (x : Fld) (v : Nat) : (d.setF x v).perst = d.perst := rfl
@[simp] theorem setF_fn (x : Fld) (v : Nat) : (d.setF x v).fn = d.fn := rfl
@[simp] theorem setF_vfMbox (x : Fld) (v : Nat) : (d.setF x v).vfMbox = d.vfMbox := rfl
@[simp] theorem setF_mbox (x : Fld) (v : Nat) : (d.setF x v).mbox = d.mbox := rfl
@[simp] theorem setF_msix (x : Fld) (v : Nat) : (d.setF x v).msix = d.msix := rfl
@[simp] theorem setF_msixPend (x : Fld) (v : Nat) : (d.setF x v).msixPend = d.msixPend := rfl
@[simp] theorem setF_ring (x : Fld) (v : Nat) : (d.setF x v).ring = d.ring := rfl
@[simp] theorem setF_tracePair (x : Fld) (v : Nat) : (d.setF x v).tracePair = d.tracePair := rfl
@[simp] theorem setF_peers (x : Fld) (v : Nat) : (d.setF x v).peers = d.peers := rfl
@[simp] theorem setF_fab (x : Fld) (v : Nat) : (d.setF x v).fab = d.fab := rfl
@[simp] theorem setF_tag (x : Fld) (v : Nat) : (d.setF x v).tag = d.tag := rfl
@[simp] theorem setF_helloAt (x : Fld) (v : Nat) : (d.setF x v).helloAt = d.helloAt := rfl
@[simp] theorem setF_advAt (x : Fld) (v : Nat) : (d.setF x v).advAt = d.advAt := rfl
@[simp] theorem setF_flash (x : Fld) (v : Nat) : (d.setF x v).flash = d.flash := rfl
@[simp] theorem setF_erased (x : Fld) (v : Nat) : (d.setF x v).erased = d.erased := rfl
@[simp] theorem setF_boot (x : Fld) (v : Nat) : (d.setF x v).boot = d.boot := rfl
@[simp] theorem setF_pf (x : Fld) (v : Nat) : (d.setF x v).pf = d.pf := rfl
@[simp] theorem setF_modes (x : Fld) (v : Nat) : (d.setF x v).modes = d.modes := rfl
@[simp] theorem setF_prog (x : Fld) (v : Nat) : (d.setF x v).prog = d.prog := rfl
@[simp] theorem setF_lc (x : Fld) (v : Nat) : (d.setF x v).lc = d.lc := rfl
@[simp] theorem setF_cage (x : Fld) (v : Nat) : (d.setF x v).cage = d.cage := rfl
@[simp] theorem setF_pwr (x : Fld) (v : Nat) : (d.setF x v).pwr = d.pwr := rfl
@[simp] theorem setF_jtag (x : Fld) (v : Nat) : (d.setF x v).jtag = d.jtag := rfl
@[simp] theorem setF_aonSent (x : Fld) (v : Nat) : (d.setF x v).aonSent = d.aonSent := rfl
@[simp] theorem setF_meas (x : Fld) (v : Nat) : (d.setF x v).meas = d.meas := rfl
@[simp] theorem setF_log (x : Fld) (v : Nat) : (d.setF x v).log = d.log := rfl
@[simp] theorem setF_logSeq (x : Fld) (v : Nat) : (d.setF x v).logSeq = d.logSeq := rfl
@[simp] theorem setF_logFirst (x : Fld) (v : Nat) : (d.setF x v).logFirst = d.logFirst := rfl
@[simp] theorem setF_pcAt (x : Fld) (v : Nat) : (d.setF x v).pcAt = d.pcAt := rfl
@[simp] theorem setF_evq (x : Fld) (v : Nat) : (d.setF x v).evq = d.evq := rfl
@[simp] theorem setF_sent (x : Fld) (v : Nat) : (d.setF x v).sent = d.sent := rfl
@[simp] theorem setF_free (x : Fld) (v : Nat) : (d.setF x v).free = d.free := rfl

/-! countF changes only regs. -/
@[simp] theorem countF_mem (x : Fld) (n : Nat) : (d.countF x n).mem = d.mem := rfl
@[simp] theorem countF_bad (x : Fld) (n : Nat) : (d.countF x n).bad = d.bad := rfl
@[simp] theorem countF_cores (x : Fld) (n : Nat) : (d.countF x n).cores = d.cores := rfl
@[simp] theorem countF_cs (x : Fld) (n : Nat) : (d.countF x n).cs = d.cs := rfl
@[simp] theorem countF_banks (x : Fld) (n : Nat) : (d.countF x n).banks = d.banks := rfl
@[simp] theorem countF_wash (x : Fld) (n : Nat) : (d.countF x n).wash = d.wash := rfl
@[simp] theorem countF_washPos (x : Fld) (n : Nat) : (d.countF x n).washPos = d.washPos := rfl
@[simp] theorem countF_washAgain (x : Fld) (n : Nat) : (d.countF x n).washAgain = d.washAgain := rfl
@[simp] theorem countF_washSince (x : Fld) (n : Nat) : (d.countF x n).washSince = d.washSince := rfl
@[simp] theorem countF_scrub (x : Fld) (n : Nat) : (d.countF x n).scrub = d.scrub := rfl
@[simp] theorem countF_scrubSince (x : Fld) (n : Nat) : (d.countF x n).scrubSince = d.scrubSince := rfl
@[simp] theorem countF_extCache (x : Fld) (n : Nat) : (d.countF x n).extCache = d.extCache := rfl
@[simp] theorem countF_extInval (x : Fld) (n : Nat) : (d.countF x n).extInval = d.extInval := rfl
@[simp] theorem countF_latch (x : Fld) (n : Nat) : (d.countF x n).latch = d.latch := rfl
@[simp] theorem countF_parked (x : Fld) (n : Nat) : (d.countF x n).parked = d.parked := rfl
@[simp] theorem countF_slots (x : Fld) (n : Nat) : (d.countF x n).slots = d.slots := rfl
@[simp] theorem countF_disp (x : Fld) (n : Nat) : (d.countF x n).disp = d.disp := rfl
@[simp] theorem countF_gust (x : Fld) (n : Nat) : (d.countF x n).gust = d.gust := rfl
@[simp] theorem countF_gustW (x : Fld) (n : Nat) : (d.countF x n).gustW = d.gustW := rfl
@[simp] theorem countF_gustLast (x : Fld) (n : Nat) : (d.countF x n).gustLast = d.gustLast := rfl
@[simp] theorem countF_eng (x : Fld) (n : Nat) : (d.countF x n).eng = d.eng := rfl
@[simp] theorem countF_trc (x : Fld) (n : Nat) : (d.countF x n).trc = d.trc := rfl
@[simp] theorem countF_tb (x : Fld) (n : Nat) : (d.countF x n).tb = d.tb := rfl
@[simp] theorem countF_trim (x : Fld) (n : Nat) : (d.countF x n).trim = d.trim := rfl
@[simp] theorem countF_trimDrop (x : Fld) (n : Nat) : (d.countF x n).trimDrop = d.trimDrop := rfl
@[simp] theorem countF_wdogAt (x : Fld) (n : Nat) : (d.countF x n).wdogAt = d.wdogAt := rfl
@[simp] theorem countF_glz (x : Fld) (n : Nat) : (d.countF x n).glz = d.glz := rfl
@[simp] theorem countF_glzCapt (x : Fld) (n : Nat) : (d.countF x n).glzCapt = d.glzCapt := rfl
@[simp] theorem countF_nceCh (x : Fld) (n : Nat) : (d.countF x n).nceCh = d.nceCh := rfl
@[simp] theorem countF_nceGrp (x : Fld) (n : Nat) : (d.countF x n).nceGrp = d.nceGrp := rfl
@[simp] theorem countF_nceBurst (x : Fld) (n : Nat) : (d.countF x n).nceBurst = d.nceBurst := rfl
@[simp] theorem countF_nceStrm (x : Fld) (n : Nat) : (d.countF x n).nceStrm = d.nceStrm := rfl
@[simp] theorem countF_fh (x : Fld) (n : Nat) : (d.countF x n).fh = d.fh := rfl
@[simp] theorem countF_fhq (x : Fld) (n : Nat) : (d.countF x n).fhq = d.fhq := rfl
@[simp] theorem countF_flow (x : Fld) (n : Nat) : (d.countF x n).flow = d.flow := rfl
@[simp] theorem countF_perst (x : Fld) (n : Nat) : (d.countF x n).perst = d.perst := rfl
@[simp] theorem countF_fn (x : Fld) (n : Nat) : (d.countF x n).fn = d.fn := rfl
@[simp] theorem countF_vfMbox (x : Fld) (n : Nat) : (d.countF x n).vfMbox = d.vfMbox := rfl
@[simp] theorem countF_mbox (x : Fld) (n : Nat) : (d.countF x n).mbox = d.mbox := rfl
@[simp] theorem countF_msix (x : Fld) (n : Nat) : (d.countF x n).msix = d.msix := rfl
@[simp] theorem countF_msixPend (x : Fld) (n : Nat) : (d.countF x n).msixPend = d.msixPend := rfl
@[simp] theorem countF_ring (x : Fld) (n : Nat) : (d.countF x n).ring = d.ring := rfl
@[simp] theorem countF_tracePair (x : Fld) (n : Nat) : (d.countF x n).tracePair = d.tracePair := rfl
@[simp] theorem countF_peers (x : Fld) (n : Nat) : (d.countF x n).peers = d.peers := rfl
@[simp] theorem countF_fab (x : Fld) (n : Nat) : (d.countF x n).fab = d.fab := rfl
@[simp] theorem countF_tag (x : Fld) (n : Nat) : (d.countF x n).tag = d.tag := rfl
@[simp] theorem countF_helloAt (x : Fld) (n : Nat) : (d.countF x n).helloAt = d.helloAt := rfl
@[simp] theorem countF_advAt (x : Fld) (n : Nat) : (d.countF x n).advAt = d.advAt := rfl
@[simp] theorem countF_flash (x : Fld) (n : Nat) : (d.countF x n).flash = d.flash := rfl
@[simp] theorem countF_erased (x : Fld) (n : Nat) : (d.countF x n).erased = d.erased := rfl
@[simp] theorem countF_boot (x : Fld) (n : Nat) : (d.countF x n).boot = d.boot := rfl
@[simp] theorem countF_pf (x : Fld) (n : Nat) : (d.countF x n).pf = d.pf := rfl
@[simp] theorem countF_modes (x : Fld) (n : Nat) : (d.countF x n).modes = d.modes := rfl
@[simp] theorem countF_prog (x : Fld) (n : Nat) : (d.countF x n).prog = d.prog := rfl
@[simp] theorem countF_lc (x : Fld) (n : Nat) : (d.countF x n).lc = d.lc := rfl
@[simp] theorem countF_cage (x : Fld) (n : Nat) : (d.countF x n).cage = d.cage := rfl
@[simp] theorem countF_pwr (x : Fld) (n : Nat) : (d.countF x n).pwr = d.pwr := rfl
@[simp] theorem countF_jtag (x : Fld) (n : Nat) : (d.countF x n).jtag = d.jtag := rfl
@[simp] theorem countF_aonSent (x : Fld) (n : Nat) : (d.countF x n).aonSent = d.aonSent := rfl
@[simp] theorem countF_meas (x : Fld) (n : Nat) : (d.countF x n).meas = d.meas := rfl
@[simp] theorem countF_log (x : Fld) (n : Nat) : (d.countF x n).log = d.log := rfl
@[simp] theorem countF_logSeq (x : Fld) (n : Nat) : (d.countF x n).logSeq = d.logSeq := rfl
@[simp] theorem countF_logFirst (x : Fld) (n : Nat) : (d.countF x n).logFirst = d.logFirst := rfl
@[simp] theorem countF_pcAt (x : Fld) (n : Nat) : (d.countF x n).pcAt = d.pcAt := rfl
@[simp] theorem countF_evq (x : Fld) (n : Nat) : (d.countF x n).evq = d.evq := rfl
@[simp] theorem countF_sent (x : Fld) (n : Nat) : (d.countF x n).sent = d.sent := rfl
@[simp] theorem countF_free (x : Fld) (n : Nat) : (d.countF x n).free = d.free := rfl

/-! raise changes only evq. -/
@[simp] theorem raise_regs (e u c a i : Nat) : (d.raise e u c a i).regs = d.regs := rfl
@[simp] theorem raise_mem (e u c a i : Nat) : (d.raise e u c a i).mem = d.mem := rfl
@[simp] theorem raise_bad (e u c a i : Nat) : (d.raise e u c a i).bad = d.bad := rfl
@[simp] theorem raise_cores (e u c a i : Nat) : (d.raise e u c a i).cores = d.cores := rfl
@[simp] theorem raise_cs (e u c a i : Nat) : (d.raise e u c a i).cs = d.cs := rfl
@[simp] theorem raise_banks (e u c a i : Nat) : (d.raise e u c a i).banks = d.banks := rfl
@[simp] theorem raise_wash (e u c a i : Nat) : (d.raise e u c a i).wash = d.wash := rfl
@[simp] theorem raise_washPos (e u c a i : Nat) : (d.raise e u c a i).washPos = d.washPos := rfl
@[simp] theorem raise_washAgain (e u c a i : Nat) : (d.raise e u c a i).washAgain = d.washAgain := rfl
@[simp] theorem raise_washSince (e u c a i : Nat) : (d.raise e u c a i).washSince = d.washSince := rfl
@[simp] theorem raise_scrub (e u c a i : Nat) : (d.raise e u c a i).scrub = d.scrub := rfl
@[simp] theorem raise_scrubSince (e u c a i : Nat) : (d.raise e u c a i).scrubSince = d.scrubSince := rfl
@[simp] theorem raise_extCache (e u c a i : Nat) : (d.raise e u c a i).extCache = d.extCache := rfl
@[simp] theorem raise_extInval (e u c a i : Nat) : (d.raise e u c a i).extInval = d.extInval := rfl
@[simp] theorem raise_latch (e u c a i : Nat) : (d.raise e u c a i).latch = d.latch := rfl
@[simp] theorem raise_parked (e u c a i : Nat) : (d.raise e u c a i).parked = d.parked := rfl
@[simp] theorem raise_slots (e u c a i : Nat) : (d.raise e u c a i).slots = d.slots := rfl
@[simp] theorem raise_disp (e u c a i : Nat) : (d.raise e u c a i).disp = d.disp := rfl
@[simp] theorem raise_gust (e u c a i : Nat) : (d.raise e u c a i).gust = d.gust := rfl
@[simp] theorem raise_gustW (e u c a i : Nat) : (d.raise e u c a i).gustW = d.gustW := rfl
@[simp] theorem raise_gustLast (e u c a i : Nat) : (d.raise e u c a i).gustLast = d.gustLast := rfl
@[simp] theorem raise_eng (e u c a i : Nat) : (d.raise e u c a i).eng = d.eng := rfl
@[simp] theorem raise_trc (e u c a i : Nat) : (d.raise e u c a i).trc = d.trc := rfl
@[simp] theorem raise_tb (e u c a i : Nat) : (d.raise e u c a i).tb = d.tb := rfl
@[simp] theorem raise_trim (e u c a i : Nat) : (d.raise e u c a i).trim = d.trim := rfl
@[simp] theorem raise_trimDrop (e u c a i : Nat) : (d.raise e u c a i).trimDrop = d.trimDrop := rfl
@[simp] theorem raise_wdogAt (e u c a i : Nat) : (d.raise e u c a i).wdogAt = d.wdogAt := rfl
@[simp] theorem raise_glz (e u c a i : Nat) : (d.raise e u c a i).glz = d.glz := rfl
@[simp] theorem raise_glzCapt (e u c a i : Nat) : (d.raise e u c a i).glzCapt = d.glzCapt := rfl
@[simp] theorem raise_nceCh (e u c a i : Nat) : (d.raise e u c a i).nceCh = d.nceCh := rfl
@[simp] theorem raise_nceGrp (e u c a i : Nat) : (d.raise e u c a i).nceGrp = d.nceGrp := rfl
@[simp] theorem raise_nceBurst (e u c a i : Nat) : (d.raise e u c a i).nceBurst = d.nceBurst := rfl
@[simp] theorem raise_nceStrm (e u c a i : Nat) : (d.raise e u c a i).nceStrm = d.nceStrm := rfl
@[simp] theorem raise_fh (e u c a i : Nat) : (d.raise e u c a i).fh = d.fh := rfl
@[simp] theorem raise_fhq (e u c a i : Nat) : (d.raise e u c a i).fhq = d.fhq := rfl
@[simp] theorem raise_flow (e u c a i : Nat) : (d.raise e u c a i).flow = d.flow := rfl
@[simp] theorem raise_perst (e u c a i : Nat) : (d.raise e u c a i).perst = d.perst := rfl
@[simp] theorem raise_fn (e u c a i : Nat) : (d.raise e u c a i).fn = d.fn := rfl
@[simp] theorem raise_vfMbox (e u c a i : Nat) : (d.raise e u c a i).vfMbox = d.vfMbox := rfl
@[simp] theorem raise_mbox (e u c a i : Nat) : (d.raise e u c a i).mbox = d.mbox := rfl
@[simp] theorem raise_msix (e u c a i : Nat) : (d.raise e u c a i).msix = d.msix := rfl
@[simp] theorem raise_msixPend (e u c a i : Nat) : (d.raise e u c a i).msixPend = d.msixPend := rfl
@[simp] theorem raise_ring (e u c a i : Nat) : (d.raise e u c a i).ring = d.ring := rfl
@[simp] theorem raise_tracePair (e u c a i : Nat) : (d.raise e u c a i).tracePair = d.tracePair := rfl
@[simp] theorem raise_peers (e u c a i : Nat) : (d.raise e u c a i).peers = d.peers := rfl
@[simp] theorem raise_fab (e u c a i : Nat) : (d.raise e u c a i).fab = d.fab := rfl
@[simp] theorem raise_tag (e u c a i : Nat) : (d.raise e u c a i).tag = d.tag := rfl
@[simp] theorem raise_helloAt (e u c a i : Nat) : (d.raise e u c a i).helloAt = d.helloAt := rfl
@[simp] theorem raise_advAt (e u c a i : Nat) : (d.raise e u c a i).advAt = d.advAt := rfl
@[simp] theorem raise_flash (e u c a i : Nat) : (d.raise e u c a i).flash = d.flash := rfl
@[simp] theorem raise_erased (e u c a i : Nat) : (d.raise e u c a i).erased = d.erased := rfl
@[simp] theorem raise_boot (e u c a i : Nat) : (d.raise e u c a i).boot = d.boot := rfl
@[simp] theorem raise_pf (e u c a i : Nat) : (d.raise e u c a i).pf = d.pf := rfl
@[simp] theorem raise_modes (e u c a i : Nat) : (d.raise e u c a i).modes = d.modes := rfl
@[simp] theorem raise_prog (e u c a i : Nat) : (d.raise e u c a i).prog = d.prog := rfl
@[simp] theorem raise_lc (e u c a i : Nat) : (d.raise e u c a i).lc = d.lc := rfl
@[simp] theorem raise_cage (e u c a i : Nat) : (d.raise e u c a i).cage = d.cage := rfl
@[simp] theorem raise_pwr (e u c a i : Nat) : (d.raise e u c a i).pwr = d.pwr := rfl
@[simp] theorem raise_jtag (e u c a i : Nat) : (d.raise e u c a i).jtag = d.jtag := rfl
@[simp] theorem raise_aonSent (e u c a i : Nat) : (d.raise e u c a i).aonSent = d.aonSent := rfl
@[simp] theorem raise_meas (e u c a i : Nat) : (d.raise e u c a i).meas = d.meas := rfl
@[simp] theorem raise_log (e u c a i : Nat) : (d.raise e u c a i).log = d.log := rfl
@[simp] theorem raise_logSeq (e u c a i : Nat) : (d.raise e u c a i).logSeq = d.logSeq := rfl
@[simp] theorem raise_logFirst (e u c a i : Nat) : (d.raise e u c a i).logFirst = d.logFirst := rfl
@[simp] theorem raise_pcAt (e u c a i : Nat) : (d.raise e u c a i).pcAt = d.pcAt := rfl
@[simp] theorem raise_sent (e u c a i : Nat) : (d.raise e u c a i).sent = d.sent := rfl
@[simp] theorem raise_free (e u c a i : Nat) : (d.raise e u c a i).free = d.free := rfl

/-! setCore changes only cores. -/
@[simp] theorem setCore_regs (k : Nat) (c : Core) : (d.setCore k c).regs = d.regs := rfl
@[simp] theorem setCore_mem (k : Nat) (c : Core) : (d.setCore k c).mem = d.mem := rfl
@[simp] theorem setCore_bad (k : Nat) (c : Core) : (d.setCore k c).bad = d.bad := rfl
@[simp] theorem setCore_cs (k : Nat) (c : Core) : (d.setCore k c).cs = d.cs := rfl
@[simp] theorem setCore_banks (k : Nat) (c : Core) : (d.setCore k c).banks = d.banks := rfl
@[simp] theorem setCore_wash (k : Nat) (c : Core) : (d.setCore k c).wash = d.wash := rfl
@[simp] theorem setCore_washPos (k : Nat) (c : Core) : (d.setCore k c).washPos = d.washPos := rfl
@[simp] theorem setCore_washAgain (k : Nat) (c : Core) : (d.setCore k c).washAgain = d.washAgain := rfl
@[simp] theorem setCore_washSince (k : Nat) (c : Core) : (d.setCore k c).washSince = d.washSince := rfl
@[simp] theorem setCore_scrub (k : Nat) (c : Core) : (d.setCore k c).scrub = d.scrub := rfl
@[simp] theorem setCore_scrubSince (k : Nat) (c : Core) : (d.setCore k c).scrubSince = d.scrubSince := rfl
@[simp] theorem setCore_extCache (k : Nat) (c : Core) : (d.setCore k c).extCache = d.extCache := rfl
@[simp] theorem setCore_extInval (k : Nat) (c : Core) : (d.setCore k c).extInval = d.extInval := rfl
@[simp] theorem setCore_latch (k : Nat) (c : Core) : (d.setCore k c).latch = d.latch := rfl
@[simp] theorem setCore_parked (k : Nat) (c : Core) : (d.setCore k c).parked = d.parked := rfl
@[simp] theorem setCore_slots (k : Nat) (c : Core) : (d.setCore k c).slots = d.slots := rfl
@[simp] theorem setCore_disp (k : Nat) (c : Core) : (d.setCore k c).disp = d.disp := rfl
@[simp] theorem setCore_gust (k : Nat) (c : Core) : (d.setCore k c).gust = d.gust := rfl
@[simp] theorem setCore_gustW (k : Nat) (c : Core) : (d.setCore k c).gustW = d.gustW := rfl
@[simp] theorem setCore_gustLast (k : Nat) (c : Core) : (d.setCore k c).gustLast = d.gustLast := rfl
@[simp] theorem setCore_eng (k : Nat) (c : Core) : (d.setCore k c).eng = d.eng := rfl
@[simp] theorem setCore_trc (k : Nat) (c : Core) : (d.setCore k c).trc = d.trc := rfl
@[simp] theorem setCore_tb (k : Nat) (c : Core) : (d.setCore k c).tb = d.tb := rfl
@[simp] theorem setCore_trim (k : Nat) (c : Core) : (d.setCore k c).trim = d.trim := rfl
@[simp] theorem setCore_trimDrop (k : Nat) (c : Core) : (d.setCore k c).trimDrop = d.trimDrop := rfl
@[simp] theorem setCore_wdogAt (k : Nat) (c : Core) : (d.setCore k c).wdogAt = d.wdogAt := rfl
@[simp] theorem setCore_glz (k : Nat) (c : Core) : (d.setCore k c).glz = d.glz := rfl
@[simp] theorem setCore_glzCapt (k : Nat) (c : Core) : (d.setCore k c).glzCapt = d.glzCapt := rfl
@[simp] theorem setCore_nceCh (k : Nat) (c : Core) : (d.setCore k c).nceCh = d.nceCh := rfl
@[simp] theorem setCore_nceGrp (k : Nat) (c : Core) : (d.setCore k c).nceGrp = d.nceGrp := rfl
@[simp] theorem setCore_nceBurst (k : Nat) (c : Core) : (d.setCore k c).nceBurst = d.nceBurst := rfl
@[simp] theorem setCore_nceStrm (k : Nat) (c : Core) : (d.setCore k c).nceStrm = d.nceStrm := rfl
@[simp] theorem setCore_fh (k : Nat) (c : Core) : (d.setCore k c).fh = d.fh := rfl
@[simp] theorem setCore_fhq (k : Nat) (c : Core) : (d.setCore k c).fhq = d.fhq := rfl
@[simp] theorem setCore_flow (k : Nat) (c : Core) : (d.setCore k c).flow = d.flow := rfl
@[simp] theorem setCore_perst (k : Nat) (c : Core) : (d.setCore k c).perst = d.perst := rfl
@[simp] theorem setCore_fn (k : Nat) (c : Core) : (d.setCore k c).fn = d.fn := rfl
@[simp] theorem setCore_vfMbox (k : Nat) (c : Core) : (d.setCore k c).vfMbox = d.vfMbox := rfl
@[simp] theorem setCore_mbox (k : Nat) (c : Core) : (d.setCore k c).mbox = d.mbox := rfl
@[simp] theorem setCore_msix (k : Nat) (c : Core) : (d.setCore k c).msix = d.msix := rfl
@[simp] theorem setCore_msixPend (k : Nat) (c : Core) : (d.setCore k c).msixPend = d.msixPend := rfl
@[simp] theorem setCore_ring (k : Nat) (c : Core) : (d.setCore k c).ring = d.ring := rfl
@[simp] theorem setCore_tracePair (k : Nat) (c : Core) : (d.setCore k c).tracePair = d.tracePair := rfl
@[simp] theorem setCore_peers (k : Nat) (c : Core) : (d.setCore k c).peers = d.peers := rfl
@[simp] theorem setCore_fab (k : Nat) (c : Core) : (d.setCore k c).fab = d.fab := rfl
@[simp] theorem setCore_tag (k : Nat) (c : Core) : (d.setCore k c).tag = d.tag := rfl
@[simp] theorem setCore_helloAt (k : Nat) (c : Core) : (d.setCore k c).helloAt = d.helloAt := rfl
@[simp] theorem setCore_advAt (k : Nat) (c : Core) : (d.setCore k c).advAt = d.advAt := rfl
@[simp] theorem setCore_flash (k : Nat) (c : Core) : (d.setCore k c).flash = d.flash := rfl
@[simp] theorem setCore_erased (k : Nat) (c : Core) : (d.setCore k c).erased = d.erased := rfl
@[simp] theorem setCore_boot (k : Nat) (c : Core) : (d.setCore k c).boot = d.boot := rfl
@[simp] theorem setCore_pf (k : Nat) (c : Core) : (d.setCore k c).pf = d.pf := rfl
@[simp] theorem setCore_modes (k : Nat) (c : Core) : (d.setCore k c).modes = d.modes := rfl
@[simp] theorem setCore_prog (k : Nat) (c : Core) : (d.setCore k c).prog = d.prog := rfl
@[simp] theorem setCore_lc (k : Nat) (c : Core) : (d.setCore k c).lc = d.lc := rfl
@[simp] theorem setCore_cage (k : Nat) (c : Core) : (d.setCore k c).cage = d.cage := rfl
@[simp] theorem setCore_pwr (k : Nat) (c : Core) : (d.setCore k c).pwr = d.pwr := rfl
@[simp] theorem setCore_jtag (k : Nat) (c : Core) : (d.setCore k c).jtag = d.jtag := rfl
@[simp] theorem setCore_aonSent (k : Nat) (c : Core) : (d.setCore k c).aonSent = d.aonSent := rfl
@[simp] theorem setCore_meas (k : Nat) (c : Core) : (d.setCore k c).meas = d.meas := rfl
@[simp] theorem setCore_log (k : Nat) (c : Core) : (d.setCore k c).log = d.log := rfl
@[simp] theorem setCore_logSeq (k : Nat) (c : Core) : (d.setCore k c).logSeq = d.logSeq := rfl
@[simp] theorem setCore_logFirst (k : Nat) (c : Core) : (d.setCore k c).logFirst = d.logFirst := rfl
@[simp] theorem setCore_pcAt (k : Nat) (c : Core) : (d.setCore k c).pcAt = d.pcAt := rfl
@[simp] theorem setCore_evq (k : Nat) (c : Core) : (d.setCore k c).evq = d.evq := rfl
@[simp] theorem setCore_sent (k : Nat) (c : Core) : (d.setCore k c).sent = d.sent := rfl
@[simp] theorem setCore_free (k : Nat) (c : Core) : (d.setCore k c).free = d.free := rfl

/-! mapCore changes only cores. -/
@[simp] theorem mapCore_regs (k : Nat) (f : Core → Core) : (d.mapCore k f).regs = d.regs := rfl
@[simp] theorem mapCore_mem (k : Nat) (f : Core → Core) : (d.mapCore k f).mem = d.mem := rfl
@[simp] theorem mapCore_bad (k : Nat) (f : Core → Core) : (d.mapCore k f).bad = d.bad := rfl
@[simp] theorem mapCore_cs (k : Nat) (f : Core → Core) : (d.mapCore k f).cs = d.cs := rfl
@[simp] theorem mapCore_banks (k : Nat) (f : Core → Core) : (d.mapCore k f).banks = d.banks := rfl
@[simp] theorem mapCore_wash (k : Nat) (f : Core → Core) : (d.mapCore k f).wash = d.wash := rfl
@[simp] theorem mapCore_washPos (k : Nat) (f : Core → Core) : (d.mapCore k f).washPos = d.washPos := rfl
@[simp] theorem mapCore_washAgain (k : Nat) (f : Core → Core) : (d.mapCore k f).washAgain = d.washAgain := rfl
@[simp] theorem mapCore_washSince (k : Nat) (f : Core → Core) : (d.mapCore k f).washSince = d.washSince := rfl
@[simp] theorem mapCore_scrub (k : Nat) (f : Core → Core) : (d.mapCore k f).scrub = d.scrub := rfl
@[simp] theorem mapCore_scrubSince (k : Nat) (f : Core → Core) : (d.mapCore k f).scrubSince = d.scrubSince := rfl
@[simp] theorem mapCore_extCache (k : Nat) (f : Core → Core) : (d.mapCore k f).extCache = d.extCache := rfl
@[simp] theorem mapCore_extInval (k : Nat) (f : Core → Core) : (d.mapCore k f).extInval = d.extInval := rfl
@[simp] theorem mapCore_latch (k : Nat) (f : Core → Core) : (d.mapCore k f).latch = d.latch := rfl
@[simp] theorem mapCore_parked (k : Nat) (f : Core → Core) : (d.mapCore k f).parked = d.parked := rfl
@[simp] theorem mapCore_slots (k : Nat) (f : Core → Core) : (d.mapCore k f).slots = d.slots := rfl
@[simp] theorem mapCore_disp (k : Nat) (f : Core → Core) : (d.mapCore k f).disp = d.disp := rfl
@[simp] theorem mapCore_gust (k : Nat) (f : Core → Core) : (d.mapCore k f).gust = d.gust := rfl
@[simp] theorem mapCore_gustW (k : Nat) (f : Core → Core) : (d.mapCore k f).gustW = d.gustW := rfl
@[simp] theorem mapCore_gustLast (k : Nat) (f : Core → Core) : (d.mapCore k f).gustLast = d.gustLast := rfl
@[simp] theorem mapCore_eng (k : Nat) (f : Core → Core) : (d.mapCore k f).eng = d.eng := rfl
@[simp] theorem mapCore_trc (k : Nat) (f : Core → Core) : (d.mapCore k f).trc = d.trc := rfl
@[simp] theorem mapCore_tb (k : Nat) (f : Core → Core) : (d.mapCore k f).tb = d.tb := rfl
@[simp] theorem mapCore_trim (k : Nat) (f : Core → Core) : (d.mapCore k f).trim = d.trim := rfl
@[simp] theorem mapCore_trimDrop (k : Nat) (f : Core → Core) : (d.mapCore k f).trimDrop = d.trimDrop := rfl
@[simp] theorem mapCore_wdogAt (k : Nat) (f : Core → Core) : (d.mapCore k f).wdogAt = d.wdogAt := rfl
@[simp] theorem mapCore_glz (k : Nat) (f : Core → Core) : (d.mapCore k f).glz = d.glz := rfl
@[simp] theorem mapCore_glzCapt (k : Nat) (f : Core → Core) : (d.mapCore k f).glzCapt = d.glzCapt := rfl
@[simp] theorem mapCore_nceCh (k : Nat) (f : Core → Core) : (d.mapCore k f).nceCh = d.nceCh := rfl
@[simp] theorem mapCore_nceGrp (k : Nat) (f : Core → Core) : (d.mapCore k f).nceGrp = d.nceGrp := rfl
@[simp] theorem mapCore_nceBurst (k : Nat) (f : Core → Core) : (d.mapCore k f).nceBurst = d.nceBurst := rfl
@[simp] theorem mapCore_nceStrm (k : Nat) (f : Core → Core) : (d.mapCore k f).nceStrm = d.nceStrm := rfl
@[simp] theorem mapCore_fh (k : Nat) (f : Core → Core) : (d.mapCore k f).fh = d.fh := rfl
@[simp] theorem mapCore_fhq (k : Nat) (f : Core → Core) : (d.mapCore k f).fhq = d.fhq := rfl
@[simp] theorem mapCore_flow (k : Nat) (f : Core → Core) : (d.mapCore k f).flow = d.flow := rfl
@[simp] theorem mapCore_perst (k : Nat) (f : Core → Core) : (d.mapCore k f).perst = d.perst := rfl
@[simp] theorem mapCore_fn (k : Nat) (f : Core → Core) : (d.mapCore k f).fn = d.fn := rfl
@[simp] theorem mapCore_vfMbox (k : Nat) (f : Core → Core) : (d.mapCore k f).vfMbox = d.vfMbox := rfl
@[simp] theorem mapCore_mbox (k : Nat) (f : Core → Core) : (d.mapCore k f).mbox = d.mbox := rfl
@[simp] theorem mapCore_msix (k : Nat) (f : Core → Core) : (d.mapCore k f).msix = d.msix := rfl
@[simp] theorem mapCore_msixPend (k : Nat) (f : Core → Core) : (d.mapCore k f).msixPend = d.msixPend := rfl
@[simp] theorem mapCore_ring (k : Nat) (f : Core → Core) : (d.mapCore k f).ring = d.ring := rfl
@[simp] theorem mapCore_tracePair (k : Nat) (f : Core → Core) : (d.mapCore k f).tracePair = d.tracePair := rfl
@[simp] theorem mapCore_peers (k : Nat) (f : Core → Core) : (d.mapCore k f).peers = d.peers := rfl
@[simp] theorem mapCore_fab (k : Nat) (f : Core → Core) : (d.mapCore k f).fab = d.fab := rfl
@[simp] theorem mapCore_tag (k : Nat) (f : Core → Core) : (d.mapCore k f).tag = d.tag := rfl
@[simp] theorem mapCore_helloAt (k : Nat) (f : Core → Core) : (d.mapCore k f).helloAt = d.helloAt := rfl
@[simp] theorem mapCore_advAt (k : Nat) (f : Core → Core) : (d.mapCore k f).advAt = d.advAt := rfl
@[simp] theorem mapCore_flash (k : Nat) (f : Core → Core) : (d.mapCore k f).flash = d.flash := rfl
@[simp] theorem mapCore_erased (k : Nat) (f : Core → Core) : (d.mapCore k f).erased = d.erased := rfl
@[simp] theorem mapCore_boot (k : Nat) (f : Core → Core) : (d.mapCore k f).boot = d.boot := rfl
@[simp] theorem mapCore_pf (k : Nat) (f : Core → Core) : (d.mapCore k f).pf = d.pf := rfl
@[simp] theorem mapCore_modes (k : Nat) (f : Core → Core) : (d.mapCore k f).modes = d.modes := rfl
@[simp] theorem mapCore_prog (k : Nat) (f : Core → Core) : (d.mapCore k f).prog = d.prog := rfl
@[simp] theorem mapCore_lc (k : Nat) (f : Core → Core) : (d.mapCore k f).lc = d.lc := rfl
@[simp] theorem mapCore_cage (k : Nat) (f : Core → Core) : (d.mapCore k f).cage = d.cage := rfl
@[simp] theorem mapCore_pwr (k : Nat) (f : Core → Core) : (d.mapCore k f).pwr = d.pwr := rfl
@[simp] theorem mapCore_jtag (k : Nat) (f : Core → Core) : (d.mapCore k f).jtag = d.jtag := rfl
@[simp] theorem mapCore_aonSent (k : Nat) (f : Core → Core) : (d.mapCore k f).aonSent = d.aonSent := rfl
@[simp] theorem mapCore_meas (k : Nat) (f : Core → Core) : (d.mapCore k f).meas = d.meas := rfl
@[simp] theorem mapCore_log (k : Nat) (f : Core → Core) : (d.mapCore k f).log = d.log := rfl
@[simp] theorem mapCore_logSeq (k : Nat) (f : Core → Core) : (d.mapCore k f).logSeq = d.logSeq := rfl
@[simp] theorem mapCore_logFirst (k : Nat) (f : Core → Core) : (d.mapCore k f).logFirst = d.logFirst := rfl
@[simp] theorem mapCore_pcAt (k : Nat) (f : Core → Core) : (d.mapCore k f).pcAt = d.pcAt := rfl
@[simp] theorem mapCore_evq (k : Nat) (f : Core → Core) : (d.mapCore k f).evq = d.evq := rfl
@[simp] theorem mapCore_sent (k : Nat) (f : Core → Core) : (d.mapCore k f).sent = d.sent := rfl
@[simp] theorem mapCore_free (k : Nat) (f : Core → Core) : (d.mapCore k f).free = d.free := rfl

/-! setByte changes only mem. -/
@[simp] theorem setByte_regs (a : Nat) (b : Byte) : (d.setByte a b).regs = d.regs := rfl
@[simp] theorem setByte_bad (a : Nat) (b : Byte) : (d.setByte a b).bad = d.bad := rfl
@[simp] theorem setByte_cores (a : Nat) (b : Byte) : (d.setByte a b).cores = d.cores := rfl
@[simp] theorem setByte_cs (a : Nat) (b : Byte) : (d.setByte a b).cs = d.cs := rfl
@[simp] theorem setByte_banks (a : Nat) (b : Byte) : (d.setByte a b).banks = d.banks := rfl
@[simp] theorem setByte_wash (a : Nat) (b : Byte) : (d.setByte a b).wash = d.wash := rfl
@[simp] theorem setByte_washPos (a : Nat) (b : Byte) : (d.setByte a b).washPos = d.washPos := rfl
@[simp] theorem setByte_washAgain (a : Nat) (b : Byte) : (d.setByte a b).washAgain = d.washAgain := rfl
@[simp] theorem setByte_washSince (a : Nat) (b : Byte) : (d.setByte a b).washSince = d.washSince := rfl
@[simp] theorem setByte_scrub (a : Nat) (b : Byte) : (d.setByte a b).scrub = d.scrub := rfl
@[simp] theorem setByte_scrubSince (a : Nat) (b : Byte) : (d.setByte a b).scrubSince = d.scrubSince := rfl
@[simp] theorem setByte_extCache (a : Nat) (b : Byte) : (d.setByte a b).extCache = d.extCache := rfl
@[simp] theorem setByte_extInval (a : Nat) (b : Byte) : (d.setByte a b).extInval = d.extInval := rfl
@[simp] theorem setByte_latch (a : Nat) (b : Byte) : (d.setByte a b).latch = d.latch := rfl
@[simp] theorem setByte_parked (a : Nat) (b : Byte) : (d.setByte a b).parked = d.parked := rfl
@[simp] theorem setByte_slots (a : Nat) (b : Byte) : (d.setByte a b).slots = d.slots := rfl
@[simp] theorem setByte_disp (a : Nat) (b : Byte) : (d.setByte a b).disp = d.disp := rfl
@[simp] theorem setByte_gust (a : Nat) (b : Byte) : (d.setByte a b).gust = d.gust := rfl
@[simp] theorem setByte_gustW (a : Nat) (b : Byte) : (d.setByte a b).gustW = d.gustW := rfl
@[simp] theorem setByte_gustLast (a : Nat) (b : Byte) : (d.setByte a b).gustLast = d.gustLast := rfl
@[simp] theorem setByte_eng (a : Nat) (b : Byte) : (d.setByte a b).eng = d.eng := rfl
@[simp] theorem setByte_trc (a : Nat) (b : Byte) : (d.setByte a b).trc = d.trc := rfl
@[simp] theorem setByte_tb (a : Nat) (b : Byte) : (d.setByte a b).tb = d.tb := rfl
@[simp] theorem setByte_trim (a : Nat) (b : Byte) : (d.setByte a b).trim = d.trim := rfl
@[simp] theorem setByte_trimDrop (a : Nat) (b : Byte) : (d.setByte a b).trimDrop = d.trimDrop := rfl
@[simp] theorem setByte_wdogAt (a : Nat) (b : Byte) : (d.setByte a b).wdogAt = d.wdogAt := rfl
@[simp] theorem setByte_glz (a : Nat) (b : Byte) : (d.setByte a b).glz = d.glz := rfl
@[simp] theorem setByte_glzCapt (a : Nat) (b : Byte) : (d.setByte a b).glzCapt = d.glzCapt := rfl
@[simp] theorem setByte_nceCh (a : Nat) (b : Byte) : (d.setByte a b).nceCh = d.nceCh := rfl
@[simp] theorem setByte_nceGrp (a : Nat) (b : Byte) : (d.setByte a b).nceGrp = d.nceGrp := rfl
@[simp] theorem setByte_nceBurst (a : Nat) (b : Byte) : (d.setByte a b).nceBurst = d.nceBurst := rfl
@[simp] theorem setByte_nceStrm (a : Nat) (b : Byte) : (d.setByte a b).nceStrm = d.nceStrm := rfl
@[simp] theorem setByte_fh (a : Nat) (b : Byte) : (d.setByte a b).fh = d.fh := rfl
@[simp] theorem setByte_fhq (a : Nat) (b : Byte) : (d.setByte a b).fhq = d.fhq := rfl
@[simp] theorem setByte_flow (a : Nat) (b : Byte) : (d.setByte a b).flow = d.flow := rfl
@[simp] theorem setByte_perst (a : Nat) (b : Byte) : (d.setByte a b).perst = d.perst := rfl
@[simp] theorem setByte_fn (a : Nat) (b : Byte) : (d.setByte a b).fn = d.fn := rfl
@[simp] theorem setByte_vfMbox (a : Nat) (b : Byte) : (d.setByte a b).vfMbox = d.vfMbox := rfl
@[simp] theorem setByte_mbox (a : Nat) (b : Byte) : (d.setByte a b).mbox = d.mbox := rfl
@[simp] theorem setByte_msix (a : Nat) (b : Byte) : (d.setByte a b).msix = d.msix := rfl
@[simp] theorem setByte_msixPend (a : Nat) (b : Byte) : (d.setByte a b).msixPend = d.msixPend := rfl
@[simp] theorem setByte_ring (a : Nat) (b : Byte) : (d.setByte a b).ring = d.ring := rfl
@[simp] theorem setByte_tracePair (a : Nat) (b : Byte) : (d.setByte a b).tracePair = d.tracePair := rfl
@[simp] theorem setByte_peers (a : Nat) (b : Byte) : (d.setByte a b).peers = d.peers := rfl
@[simp] theorem setByte_fab (a : Nat) (b : Byte) : (d.setByte a b).fab = d.fab := rfl
@[simp] theorem setByte_tag (a : Nat) (b : Byte) : (d.setByte a b).tag = d.tag := rfl
@[simp] theorem setByte_helloAt (a : Nat) (b : Byte) : (d.setByte a b).helloAt = d.helloAt := rfl
@[simp] theorem setByte_advAt (a : Nat) (b : Byte) : (d.setByte a b).advAt = d.advAt := rfl
@[simp] theorem setByte_flash (a : Nat) (b : Byte) : (d.setByte a b).flash = d.flash := rfl
@[simp] theorem setByte_erased (a : Nat) (b : Byte) : (d.setByte a b).erased = d.erased := rfl
@[simp] theorem setByte_boot (a : Nat) (b : Byte) : (d.setByte a b).boot = d.boot := rfl
@[simp] theorem setByte_pf (a : Nat) (b : Byte) : (d.setByte a b).pf = d.pf := rfl
@[simp] theorem setByte_modes (a : Nat) (b : Byte) : (d.setByte a b).modes = d.modes := rfl
@[simp] theorem setByte_prog (a : Nat) (b : Byte) : (d.setByte a b).prog = d.prog := rfl
@[simp] theorem setByte_lc (a : Nat) (b : Byte) : (d.setByte a b).lc = d.lc := rfl
@[simp] theorem setByte_cage (a : Nat) (b : Byte) : (d.setByte a b).cage = d.cage := rfl
@[simp] theorem setByte_pwr (a : Nat) (b : Byte) : (d.setByte a b).pwr = d.pwr := rfl
@[simp] theorem setByte_jtag (a : Nat) (b : Byte) : (d.setByte a b).jtag = d.jtag := rfl
@[simp] theorem setByte_aonSent (a : Nat) (b : Byte) : (d.setByte a b).aonSent = d.aonSent := rfl
@[simp] theorem setByte_meas (a : Nat) (b : Byte) : (d.setByte a b).meas = d.meas := rfl
@[simp] theorem setByte_log (a : Nat) (b : Byte) : (d.setByte a b).log = d.log := rfl
@[simp] theorem setByte_logSeq (a : Nat) (b : Byte) : (d.setByte a b).logSeq = d.logSeq := rfl
@[simp] theorem setByte_logFirst (a : Nat) (b : Byte) : (d.setByte a b).logFirst = d.logFirst := rfl
@[simp] theorem setByte_pcAt (a : Nat) (b : Byte) : (d.setByte a b).pcAt = d.pcAt := rfl
@[simp] theorem setByte_evq (a : Nat) (b : Byte) : (d.setByte a b).evq = d.evq := rfl
@[simp] theorem setByte_sent (a : Nat) (b : Byte) : (d.setByte a b).sent = d.sent := rfl
@[simp] theorem setByte_free (a : Nat) (b : Byte) : (d.setByte a b).free = d.free := rfl

end

end Sys2Proof.Laws
end

