-- ==== Sys2Proof/Laws/Ops.lean ====
section
/-! SUPPORT. The laws of the named operations: registers and fields, memory, cores, and numbers. -/

namespace Sys2Proof.Laws
open Sys2Proof.Machine

/-! ## Bit fields -/

/-- A field of a number is below 2^w. -/
theorem bitsOf_lt (x lo w : Nat) : bitsOf x lo w < 2 ^ w := Nat.mod_lt _ (Nat.two_pow_pos w)

/-- A number as its parts above, in and below a field. -/
theorem bitsOf_parts (x lo w : Nat) :
    x = x / 2 ^ (lo + w) * 2 ^ (lo + w) + bitsOf x lo w * 2 ^ lo + x % 2 ^ lo := by
  unfold bitsOf
  have h1 := Nat.div_add_mod x (2 ^ lo)
  have h2 := Nat.div_add_mod (x / 2 ^ lo) (2 ^ w)
  have h3 : x / 2 ^ (lo + w) = x / 2 ^ lo / 2 ^ w := by rw [pow_add, Nat.div_div_eq_div_mul]
  have h4 : x / 2 ^ lo / 2 ^ w * 2 ^ (lo + w) = 2 ^ lo * (2 ^ w * (x / 2 ^ lo / 2 ^ w)) := by rw [pow_add]; ring
  rw [h3, h4]
  have h5 : 2 ^ lo * (2 ^ w * (x / 2 ^ lo / 2 ^ w)) + x / 2 ^ lo % 2 ^ w * 2 ^ lo = 2 ^ lo * (x / 2 ^ lo) := by
    rw [Nat.mul_comm (x / 2 ^ lo % 2 ^ w), ← Nat.mul_add, h2]
  omega

/-- What a field write makes of a number. -/
theorem setBits_parts (x lo w v : Nat) :
    setBits x lo w v = x / 2 ^ (lo + w) * 2 ^ (lo + w) + v % 2 ^ w * 2 ^ lo + x % 2 ^ lo := by
  have h := bitsOf_parts x lo w
  unfold setBits
  omega

/-- A field reads as written. -/
@[simp] theorem bitsOf_setBits_same (x lo w v : Nat) : bitsOf (setBits x lo w v) lo w = v % 2 ^ w := by
  rw [setBits_parts]
  unfold bitsOf
  have hlt : x % 2 ^ lo < 2 ^ lo := Nat.mod_lt _ (Nat.two_pow_pos lo)
  have h : x / 2 ^ (lo + w) * 2 ^ (lo + w) + v % 2 ^ w * 2 ^ lo + x % 2 ^ lo
      = x % 2 ^ lo + 2 ^ lo * (v % 2 ^ w + 2 ^ w * (x / 2 ^ (lo + w))) := by
    rw [pow_add]; ring
  rw [h, Nat.add_mul_div_left _ _ (Nat.two_pow_pos lo), Nat.div_eq_of_lt hlt, Nat.zero_add,
    Nat.add_mul_mod_self_left, Nat.mod_mod]

/-- A write of a field below leaves a field alone. -/
theorem bitsOf_setBits_above (x lo w v lo' w' : Nat) (h : lo + w ≤ lo') :
    bitsOf (setBits x lo w v) lo' w' = bitsOf x lo' w' := by
  obtain ⟨k, rfl⟩ := Nat.exists_eq_add_of_le h
  rw [setBits_parts]
  unfold bitsOf
  have hlt : x % 2 ^ lo < 2 ^ lo := Nat.mod_lt _ (Nat.two_pow_pos lo)
  have hv : v % 2 ^ w < 2 ^ w := Nat.mod_lt _ (Nat.two_pow_pos w)
  have hb : v % 2 ^ w * 2 ^ lo + x % 2 ^ lo < 2 ^ (lo + w) := by
    rw [pow_add]; nlinarith [Nat.two_pow_pos lo, Nat.two_pow_pos w]
  have e1 : (x / 2 ^ (lo + w) * 2 ^ (lo + w) + v % 2 ^ w * 2 ^ lo + x % 2 ^ lo) / 2 ^ (lo + w) = x / 2 ^ (lo + w) := by
    rw [Nat.add_assoc, Nat.add_comm, Nat.add_mul_div_right _ _ (Nat.two_pow_pos _), Nat.div_eq_of_lt hb, Nat.zero_add]
  rw [pow_add 2 (lo + w) k, ← Nat.div_div_eq_div_mul, e1, ← Nat.div_div_eq_div_mul]

/-- A write of a field above leaves a field alone. -/
theorem bitsOf_setBits_below (x lo w v lo' w' : Nat) (h : lo' + w' ≤ lo) :
    bitsOf (setBits x lo w v) lo' w' = bitsOf x lo' w' := by
  obtain ⟨k, rfl⟩ := Nat.exists_eq_add_of_le h
  rw [setBits_parts]
  unfold bitsOf
  have hx := bitsOf_parts x (lo' + w' + k) w
  set A := x / 2 ^ (lo' + w' + k + w)
  have e : ∀ B, (A * 2 ^ (lo' + w' + k + w) + B * 2 ^ (lo' + w' + k) + x % 2 ^ (lo' + w' + k)) / 2 ^ lo' % 2 ^ w'
      = x % 2 ^ (lo' + w' + k) / 2 ^ lo' % 2 ^ w' := by
    intro B
    have h2 : A * 2 ^ (lo' + w' + k + w) + B * 2 ^ (lo' + w' + k) + x % 2 ^ (lo' + w' + k)
        = x % 2 ^ (lo' + w' + k) + 2 ^ lo' * (2 ^ w' * (2 ^ k * (A * 2 ^ w + B))) := by
      simp only [pow_add]; ring
    rw [h2, Nat.add_mul_div_left _ _ (Nat.two_pow_pos _), Nat.add_mul_mod_self_left]
  rw [e]
  conv_rhs => rw [hx]
  rw [e]

/-- A field write keeps a number within its register. -/
theorem setBits_lt (x lo w v n : Nat) (hx : x < 2 ^ n) (h : lo + w ≤ n) : setBits x lo w v < 2 ^ n := by
  obtain ⟨k, rfl⟩ := Nat.exists_eq_add_of_le h
  rw [setBits_parts]
  have hlt : x % 2 ^ lo < 2 ^ lo := Nat.mod_lt _ (Nat.two_pow_pos lo)
  have hv : v % 2 ^ w < 2 ^ w := Nat.mod_lt _ (Nat.two_pow_pos w)
  have hq : x / 2 ^ (lo + w) < 2 ^ k := by
    rw [Nat.div_lt_iff_lt_mul (Nat.two_pow_pos _), ← pow_add, Nat.add_comm k]; exact hx
  have hb : v % 2 ^ w * 2 ^ lo + x % 2 ^ lo < 2 ^ (lo + w) := by
    rw [pow_add]; nlinarith [Nat.two_pow_pos lo, Nat.two_pow_pos w]
  rw [pow_add 2 (lo + w) k]
  nlinarith [Nat.two_pow_pos (lo + w)]

/-! ## Registers and fields -/

@[simp] theorem reg_setReg_same (d : Dev) (a : Nat) (v : Word) : (d.setReg a v).reg a = v := by
  simp [Dev.reg, Dev.setReg]

theorem reg_setReg_ne (d : Dev) (a b : Nat) (v : Word) (h : b ≠ a) : (d.setReg a v).reg b = d.reg b := by
  simp [Dev.reg, Dev.setReg, smap_get_put_ne _ _ _ _ _ h]

@[simp] theorem setReg_setReg (d : Dev) (a : Nat) (v w : Word) : (d.setReg a v).setReg a w = d.setReg a w := by
  simp [Dev.setReg]

/-- A field of another register is left alone. -/
theorem f_setReg_ne (d : Dev) (a : Nat) (v : Word) (y : Fld) (h : y.addr ≠ a) : (d.setReg a v).f y = d.f y := by
  simp [Dev.f, reg_setReg_ne _ _ _ _ h]

theorem f_setF_ne (d : Dev) (x y : Fld) (v : Nat) (h : y.addr ≠ x.addr) : (d.setF x v).f y = d.f y :=
  f_setReg_ne _ _ _ _ h

/-- A field of a register reads as written. -/
theorem f_setF_same (d : Dev) (x : Fld) (v : Nat) (h : x.lo + x.w ≤ 32) : (d.setF x v).f x = v % 2 ^ x.w := by
  have hlt := setBits_lt (d.reg x.addr).toNat x.lo x.w v 32 (d.reg x.addr).isLt h
  simp only [Dev.f, Dev.setF, reg_setReg_same, BitVec.toNat_ofNat, Nat.mod_eq_of_lt hlt, bitsOf_setBits_same]

/-- Another field of the same register is left alone. -/
theorem f_setF_apart (d : Dev) (x y : Fld) (v : Nat) (ha : y.addr = x.addr) (h : x.lo + x.w ≤ 32)
    (hd : x.lo + x.w ≤ y.lo ∨ y.lo + y.w ≤ x.lo) : (d.setF x v).f y = d.f y := by
  have hlt := setBits_lt (d.reg x.addr).toNat x.lo x.w v 32 (d.reg x.addr).isLt h
  simp only [Dev.f, Dev.setF, ha, reg_setReg_same, BitVec.toNat_ofNat, Nat.mod_eq_of_lt hlt]
  rcases hd with hd | hd
  · exact bitsOf_setBits_above _ _ _ _ _ _ hd
  · exact bitsOf_setBits_below _ _ _ _ _ _ hd

/-- What any field reads after a write of one. -/
theorem f_setF_cases (d : Dev) (x y : Fld) (v : Nat) (h : x.lo + x.w ≤ 32) :
    (d.setF x v).f y =
      if y.addr = x.addr then
        if x.lo + x.w ≤ y.lo ∨ y.lo + y.w ≤ x.lo then d.f y
        else if y.lo = x.lo ∧ y.w = x.w then v % 2 ^ x.w
        else bitsOf (setBits (d.reg x.addr).toNat x.lo x.w v) y.lo y.w
      else d.f y := by
  split
  · rename_i ha
    split
    · rename_i hd
      exact f_setF_apart d x y v ha h hd
    · split
      · rename_i he
        have : y = x := by cases y; cases x; simp_all
        rw [this]
        exact f_setF_same d x v h
      · have hlt := setBits_lt (d.reg x.addr).toNat x.lo x.w v 32 (d.reg x.addr).isLt h
        simp only [Dev.f, Dev.setF, ha, reg_setReg_same, BitVec.toNat_ofNat, Nat.mod_eq_of_lt hlt]
  · rename_i ha
    exact f_setF_ne d x y v ha

/-- Fields depend on the registers alone. -/
theorem f_congr (d e : Dev) (h : d.regs = e.regs) (x : Fld) : d.f x = e.f x := by
  simp [Dev.f, Dev.reg, h]
theorem fb_congr (d e : Dev) (h : d.regs = e.regs) (x : Fld) : d.fb x = e.fb x := by
  simp [Dev.fb, f_congr d e h]

@[simp] theorem f_mapCore (d : Dev) (k : Nat) (g : Core → Core) (x : Fld) : (d.mapCore k g).f x = d.f x :=
  f_congr _ _ rfl x
@[simp] theorem fb_mapCore (d : Dev) (k : Nat) (g : Core → Core) (x : Fld) : (d.mapCore k g).fb x = d.fb x :=
  fb_congr _ _ rfl x
@[simp] theorem reg_mapCore (d : Dev) (k : Nat) (g : Core → Core) (a : Nat) : (d.mapCore k g).reg a = d.reg a := by
  simp only [Dev.reg, mapCore_regs]
@[simp] theorem f_raise (d : Dev) (e u c a i : Nat) (x : Fld) : (d.raise e u c a i).f x = d.f x :=
  f_congr _ _ rfl x
@[simp] theorem fb_raise (d : Dev) (e u c a i : Nat) (x : Fld) : (d.raise e u c a i).fb x = d.fb x :=
  fb_congr _ _ rfl x

/-! ## Cores -/

@[simp] theorem core_setCore_same (d : Dev) (k : Nat) (c : Core) : (d.setCore k c).core k = c := by
  simp [Dev.core, Dev.setCore]
@[simp] theorem core_mapCore_same (d : Dev) (k : Nat) (g : Core → Core) : (d.mapCore k g).core k = g (d.core k) := by
  simp [Dev.mapCore]
theorem core_mapCore_ne (d : Dev) (k j : Nat) (g : Core → Core) (h : j ≠ k) : (d.mapCore k g).core j = d.core j := by
  simp [Dev.core, Dev.mapCore, Dev.setCore, smap_get_put_ne _ _ _ _ _ h]
@[simp] theorem mapCore_mapCore (d : Dev) (k : Nat) (g h : Core → Core) :
    (d.mapCore k g).mapCore k h = d.mapCore k fun c => h (g c) := by
  simp [Dev.mapCore, Dev.setCore, Dev.core]
@[simp] theorem core_setF (d : Dev) (x : Fld) (v k : Nat) : (d.setF x v).core k = d.core k := rfl
@[simp] theorem core_raise (d : Dev) (e u c a i k : Nat) : (d.raise e u c a i).core k = d.core k := rfl

/-! ## Memory -/

/-- Memory keeps its canonical form under a write of a byte. -/
theorem setByte_wf (d : Dev) (a : Nat) (b : Byte) (h : Memory.wf d.mem = true) : Memory.wf (d.setByte a b).mem = true :=
  smap_wf_set (fun _ => memDefault) d.mem a b h

/-- Memory keeps its canonical form under a write of bytes. -/
theorem setBytes_wf (d : Dev) (a : Nat) (l : List Byte) (h : Memory.wf d.mem = true) :
    Memory.wf (d.setBytes a l).mem = true := by
  induction l generalizing d a with
  | nil => exact h
  | cons b t ih => exact ih _ _ (setByte_wf d a b h)

theorem wr_wf (d : Dev) (a n v : Nat) (h : Memory.wf d.mem = true) : Memory.wf (d.wr a n v).mem = true :=
  setBytes_wf d a _ h

theorem above_filter {α : Type} (m : SMap α) (lo : Nat) (p : Nat × α → Bool) (h : SMap.above lo m = true) :
    SMap.above lo (m.filter p) = true := by
  simp only [SMap.above, List.all_eq_true] at h ⊢
  exact fun e he => h e (List.mem_filter.mp he).1

theorem wf_filter {α : Type} [DecidableEq α] (f : Nat → α) (m : SMap α) (p : Nat × α → Bool) (h : SMap.wf f m = true) :
    SMap.wf f (m.filter p) = true := by
  induction m with
  | nil => rfl
  | cons e t ih =>
    obtain ⟨k, v⟩ := e
    simp only [SMap.wf, Bool.and_eq_true, decide_eq_true_eq] at h
    by_cases hp : p (k, v) = true
    · simp only [List.filter_cons, hp, if_true, SMap.wf, Bool.and_eq_true, decide_eq_true_eq]
      exact ⟨⟨h.1.1, above_filter t k p h.1.2⟩, ih h.2⟩
    · simp only [List.filter_cons, hp]
      exact ih h.2

/-- Memory keeps its canonical form when a range is cleared. -/
theorem clearMem_wf (d : Dev) (a n : Nat) (h : Memory.wf d.mem = true) : Memory.wf (d.clearMem a n).mem = true :=
  wf_filter _ _ _ h

/-- A byte reads as written. -/
theorem byte_setByte_same (d : Dev) (a : Nat) (b : Byte) (h : Memory.wf d.mem = true) : (d.setByte a b).byte a = b :=
  smap_get_set_same (fun _ => memDefault) d.mem a b h
/-- A write leaves every other byte alone. -/
theorem byte_setByte_ne (d : Dev) (a x : Nat) (b : Byte) (h : x ≠ a) : (d.setByte a b).byte x = d.byte x :=
  smap_get_set_ne d.mem a x b memDefault memDefault h
/-- A write of bytes leaves every byte outside them alone. -/
theorem byte_setBytes_out (d : Dev) (a x : Nat) (l : List Byte) (h : x < a ∨ a + l.length ≤ x) :
    (d.setBytes a l).byte x = d.byte x := by
  induction l generalizing d a with
  | nil => rfl
  | cons b t ih =>
    simp only [List.length_cons] at h
    rw [Dev.setBytes, ih _ _ (by omega), byte_setByte_ne _ _ _ _ (by omega)]
/-- Bytes read as written. -/
theorem byte_setBytes_in (d : Dev) (a i : Nat) (l : List Byte) (h : Memory.wf d.mem = true) (hi : i < l.length) :
    (d.setBytes a l).byte (a + i) = l[i] := by
  induction l generalizing d a i with
  | nil => simp at hi
  | cons b t ih =>
    cases i with
    | zero =>
      rw [Dev.setBytes, byte_setBytes_out _ _ _ _ (by omega)]
      exact byte_setByte_same d a b h
    | succ j =>
      have := ih (d.setByte a b) (a + 1) j (setByte_wf d a b h) (by simpa using hi)
      rw [Dev.setBytes, show a + (j + 1) = a + 1 + j by omega, this]
      simp

/-- A write of bytes changes memory alone. -/
theorem setBytes_eq (d : Dev) (a : Nat) (l : List Byte) : d.setBytes a l = { d with mem := (d.setBytes a l).mem } := by
  induction l generalizing d a with
  | nil => rfl
  | cons b t ih => rw [Dev.setBytes, ih]; rfl

end Sys2Proof.Laws
end

