-- ==== Sys2Proof/Laws/Issue.lean ====
section
/-! SUPPORT. The laws of issue: what a lone instruction of a ready core does. -/

namespace Sys2Proof.Laws
open Sys2Proof.Machine

/-- The device whose core holds this bundle. -/
def held (d : Dev) (k : Nat) (b : List Instr) : Dev := d.mapCore k fun c => { c with bundle := b }

section
variable (d : Dev) (k j : Nat) (b : List Instr)
@[simp] theorem held_f (x : Fld) : (held d k b).f x = d.f x := f_mapCore d k _ x
@[simp] theorem held_fb (x : Fld) : (held d k b).fb x = d.fb x := fb_mapCore d k _ x
@[simp] theorem held_reg (a : Nat) : (held d k b).reg a = d.reg a := rfl
@[simp] theorem held_core : (held d k b).core k = { d.core k with bundle := b } := by simp [held]
@[simp] theorem held_g (r : Reg) : (held d k b).g k r = d.g k r := by simp [Dev.g, Core.rg]
@[simp] theorem held_pp (r : PReg) : (held d k b).pp k r = d.pp k r := rfl
@[simp] theorem held_pv (r : Reg) : (held d k b).pv k r = d.pv k r := rfl
@[simp] theorem held_p (r : PReg) : (held d k b).p k r = d.p k r := by simp [Dev.p, Core.rp]
@[simp] theorem held_v (r : Reg) : (held d k b).v k r = d.v k r := by simp [Dev.v, Core.rv]
@[simp] theorem held_guard (h : Hd) : (held d h.k b).guard h = d.guard h := by simp [Dev.guard]
@[simp] theorem held_level : (held d k b).level k = d.level k := rfl
@[simp] theorem held_seg (n : Nat) : (held d k b).seg k n = d.seg k n := rfl
@[simp] theorem held_mapAddr (a : Nat) (w : Bool) : (held d k b).mapAddr k a w = d.mapAddr k a w := rfl
@[simp] theorem held_address (rb : Nat) (o : Int) (pi cwe : Bool) (cw : Nat) :
    (held d k b).address k rb o pi cwe cw = d.address k rb o pi cwe cw := rfl
@[simp] theorem held_vl : (held d k b).vl k = d.vl k := rfl
@[simp] theorem held_active (pm : PReg) (s n : Nat) : (held d k b).active k pm s n = d.active k pm s n := by
  simp [Dev.active]
end

/-- The loop steps at a bundle boundary do nothing outside loops. -/
theorem loopEnd_off (d : Dev) (k : Nat) (h : d.fb (F.CORE_STATUS_LA k) = false) : d.loopEnd k = d := by
  simp [Dev.loopEnd, h]
theorem rptEnd_off (d : Dev) (k : Nat) (h : d.fb (F.CORE_STATUS_RA k) = false) : d.rptEnd k = d := by
  simp [Dev.rptEnd, h]

/-- A lone instruction is never an illegal bundle. -/
theorem bundleBad_one (x : Sem) : bundleBad [x] = false := by
  have h1 : classesOk [x.cls] = true := by cases x.cls <;> decide
  have h2 : ∀ p : Sem → Bool, ([x].filter p).length ≤ 1 := fun p => List.length_filter_le p [x]
  have h3 : ∀ p : Sem → Bool, ¬ (2 < ([x].filter p).length) := fun p => by have := h2 p; omega
  have h4 : ∀ p : Sem → Bool, ¬ (1 < ([x].filter p).length) := fun p => by have := h2 p; omega
  simp [bundleBad, h1, destsClash, h3, h4]

theorem scbHit_none (c : Core) (l : List Sem) (h : c.cx = []) : scbHit c l = false := by
  have h0 : ∀ n, bitAt 0 n = false := by intro n; simp [bitAt]
  simp only [scbHit, h, scbBits, List.foldl_nil, h0, List.any_eq_false, Bool.or_eq_true, not_or]
  intro x _
  refine ⟨by simp, ?_⟩
  simp only [List.any_eq_true, not_exists, not_and]
  intro y _
  cases y <;> simp

/-- A fold whose steps all change nothing changes nothing. -/
theorem foldl_idle {α β : Type} (f : β → α → β) (l : List α) (b : β) (h : ∀ x ∈ l, f b x = b) : l.foldl f b = b :=
  List.foldlRecOn l f (motive := fun c => c = b) rfl fun _ e a m => by rw [e]; exact h a m

/-- What stands still about a core at a bundle boundary, whatever its memories hold. -/
structure Still (d : Dev) (k : Nat) : Prop where
  bundle : (d.core k).bundle = []
  stall : (d.core k).stall = .none
  got : (d.core k).got = []
  fills : (d.core k).fills = []
  emitted : (d.core k).emitted = 0
  eslDone : (d.core k).eslDone = none
  inflight : (d.core k).inflight = []
  ds : (d.core k).ds = 0
  step : (d.core k).step = false
  la : d.fb (F.CORE_STATUS_LA k) = false
  ra : d.fb (F.CORE_STATUS_RA k) = false
  tries : d.csSeen k = d

theorem still_of (sp : Spine) (d : Dev) (k : Nat) (h : Alone sp d k) : Still d k :=
  { bundle := h.bundle, stall := h.stall, got := h.got, fills := h.fills, emitted := h.emitted, eslDone := h.eslDone
    inflight := h.inflight, ds := h.ds, step := h.step, la := h.la, ra := h.ra, tries := h.tries }

/-- What a core holds is beside the shared coprocessors, and so is memory. -/
theorem csSeen_mapCore (d : Dev) (k j : Nat) (f : Core → Core) : (d.mapCore j f).csSeen k = (d.csSeen k).mapCore j f := by
  have key : ∀ (l : List Nat) (d : Dev), l.foldl (fun d u =>
      let x := d.csUnit (coreCluster k) u
      if (x.op.map (·.core.val)) = some k ∧ x.tie.isSome then d.setCs (coreCluster k) u { x with tie := none } else d)
        (d.mapCore j f) = (l.foldl (fun d u =>
      let x := d.csUnit (coreCluster k) u
      if (x.op.map (·.core.val)) = some k ∧ x.tie.isSome then d.setCs (coreCluster k) u { x with tie := none } else d)
        d).mapCore j f := by
    intro l
    induction l with
    | nil => exact fun _ => rfl
    | cons u t ih =>
      intro d
      simp only [List.foldl_cons]
      rw [← ih]
      refine congrArg (fun x => List.foldl _ x t) ?_
      have e : (d.mapCore j f).csUnit (coreCluster k) u = d.csUnit (coreCluster k) u := rfl
      rw [e]
      split <;> rfl
  exact key _ d
theorem held_tries (d : Dev) (k : Nat) (b : List Instr) (h : d.csSeen k = d) : (held d k b).csSeen k = held d k b := by
  rw [held, csSeen_mapCore, h]

/-- What a lone instruction does where its word is a listed one. -/
theorem semsOf_lone (sp : Spine) (d : Dev) (i : Instr) (h : Hd) (x : Sem) (hl : d.listedAt h.k 0 = true)
    (hs : semOf sp (held d h.k [i]) i = some (h, x)) : semsOf sp (held d h.k [i]) h.k = [x] := by
  have e : (held d h.k [i]).listedAt h.k 0 = d.listedAt h.k 0 := by simp only [Dev.listedAt, held_core]; rfl
  simp [semsOf, hs, e, hl]

/-- The issue of a lone instruction of a ready core that raises no exception before it takes effect. -/
theorem issue_lone (sp : Spine) (d : Dev) (i : Instr) (h : Hd) (x : Sem)
    (hh : headOf i = some h) (hl : h.last = true) (ha : Alone sp d h.k)
    (hs : semOf sp (held d h.k [i]) i = some (h, x))
    (ht : (held d h.k [i]).trapOf h.k x = none)
    (hf : fences (if x.run then x.eff else []) = true → d.fabWrites (coreUid h.k) 0 = false)
    (hn : Core.far { d.core h.k with bundle := [i] } (if x.run then x.eff else []) = false) :
    issueInstr i (sp, d) = issueGo h.k 4 (if x.run then [x] else []) none [] (sp, held d h.k [i]) := by
  have hb := ha.bundle
  have hiss : (held d h.k [i]).issues sp h.k = true := by
    have := ha.issues
    simpa [Dev.issues, held] using this
  have hm : (d.mapCore h.k fun c => { c with bundle := c.bundle ++ [i] }) = held d h.k [i] := by
    simp [Dev.mapCore, held, hb]
  have hstep : issueInstr i (sp, d) = issue h.k none (sp, held d h.k [i]) := by
    simp [issueInstr, hh, ha.issues, hl, hm, hb]
  have hL : (held d h.k [i]).loopEnd h.k = held d h.k [i] := loopEnd_off _ _ ha.la
  have hR : (held d h.k [i]).rptEnd h.k = held d h.k [i] := rptEnd_off _ _ ha.ra
  have hscb := scbHit_none { d.core h.k with bundle := [i] } [x] ha.cx
  have hsem := semsOf_lone sp d i h x ha.listed hs
  have hact : actsOf [x] none = if x.run then [x] else [] := by cases hx : x.run <;> simp [actsOf, hx]
  have heff : (if x.run = true then [x] else []).flatMap (·.eff) = if x.run then x.eff else [] := by cases x.run <;> simp
  have hq : fences (if x.run then x.eff else []) = true → (held d h.k [i]).quiet h.k = true := by
    intro hfe
    have := hf hfe
    simp only [Dev.quiet, held_core, ha.wb, ha.portA, List.isEmpty_nil, Bool.true_and, Bool.not_eq_true']
    exact this
  rw [hstep]
  unfold issue
  simp only [hiss, hL, hR, hsem, bundleBad_one, Dev.firstTrap, ht, Option.map_none, hact, heff, held_core, hscb, hn,
    List.getLast?_singleton, Option.bind_some, hh, Option.map_some, hl, Option.getD_some, Bool.and_self, if_true,
    Bool.not_false, Bool.and_false, Bool.false_eq_true, if_false, List.length_singleton, Option.getD_none]
  cases hfe : fences (if x.run then x.eff else []) with
  | false => simp
  | true => simp [hq hfe]

/-! ## Results -/

/-- Results as effects. -/
def wrs (l : List (RegWr × Nat × Bool)) : List Eff := l.map fun x => .wr x.1 x.2.1 x.2.2

/-- An effect that neither reaches memory or another unit nor waits. -/
def plainEff (e : Eff) : Bool :=
  match e with
  | .ld _ _ _ | .st _ | .esl _ | .cs _ _ _ | .fence | .cache _ _ _ | .cacheAll _ => false
  | _ => true

/-- An effect of the core's own: neither a try at a shared coprocessor nor an Easel instruction. -/
def ownEff (e : Eff) : Bool :=
  match e with
  | .esl _ | .cs _ _ _ => false
  | _ => true
theorem own_of_plain (e : Eff) (h : plainEff e = true) : ownEff e = true := by cases e <;> first | rfl | cases h

/-- The results among the effects of a bundle. -/
def resOf (l : List Eff) : List (RegWr × Nat × Bool) := l.flatMap fun e =>
  match e with
  | .wr r lat acc => [(r, lat, acc)]
  | .ld dst es lat => (loadWr dst es (es.map (·.data))).map fun r => (r, lat, false)
  | _ => []

theorem mem_wrs (l : List (RegWr × Nat × Bool)) (e : Eff) : e ∈ wrs l ↔ ∃ x ∈ l, Eff.wr x.1 x.2.1 x.2.2 = e := by
  simp [wrs]
theorem wrs_all (l : List (RegWr × Nat × Bool)) (p : Eff → Prop) (h : ∀ r n a, p (.wr r n a)) : ∀ e ∈ wrs l, p e := by
  intro e he
  obtain ⟨x, _, rfl⟩ := (mem_wrs l e).mp he
  exact h _ _ _
theorem wrs_plain (l : List (RegWr × Nat × Bool)) : ∀ e ∈ wrs l, plainEff e = true := wrs_all l _ fun _ _ _ => rfl
@[simp] theorem resOf_wrs (l : List (RegWr × Nat × Bool)) : resOf (wrs l) = l := by
  simp [resOf, wrs, List.flatMap_map]
theorem resOf_append (l m : List Eff) : resOf (l ++ m) = resOf l ++ resOf m := List.flatMap_append

/-- The effects of results change nothing once the results are in flight. -/
theorem fxLate_wrs (k lvl : Nat) (l : List (RegWr × Nat × Bool)) (w : Whole) : (wrs l).foldl (fxLate k lvl) w = w :=
  foldl_idle _ _ _ (wrs_all l _ fun _ _ _ => rfl)
theorem fxFlag_wrs (k : Nat) (l : List (RegWr × Nat × Bool)) (d : Dev) : (wrs l).foldl (fxFlag k) d = d :=
  foldl_idle _ _ _ (wrs_all l _ fun _ _ _ => rfl)
/-- What a bundle does after its results is what it does without them. -/
theorem goesOf_wrs (l : List (RegWr × Nat × Bool)) (m : List Eff) : goesOf (wrs l ++ m) = goesOf m := by
  have h : goesOf (wrs l) = none := List.find?_eq_none.mpr (wrs_all l _ fun _ _ _ => by simp)
  rw [goesOf, List.find?_append, ← goesOf, h, Option.none_or, ← goesOf]
theorem aovOf_wrs (l : List (RegWr × Nat × Bool)) (m : List Eff) : aovOf (wrs l ++ m) = aovOf m := by
  have h : aovOf (wrs l) = none := List.findSome?_eq_none_iff.mpr (wrs_all l _ fun _ _ _ => rfl)
  rw [aovOf, List.findSome?_append, ← aovOf, h, Option.none_or, ← aovOf]
theorem trapEndOf_wrs (l : List (RegWr × Nat × Bool)) (m : List Eff) : trapEndOf (wrs l ++ m) = trapEndOf m := by
  have h : trapEndOf (wrs l) = none := List.findSome?_eq_none_iff.mpr (wrs_all l _ fun _ _ _ => rfl)
  rw [trapEndOf, List.findSome?_append, ← trapEndOf, h, Option.none_or, ← trapEndOf]
theorem vov_wrs (l : List (RegWr × Nat × Bool)) (m : List Eff) : (wrs l ++ m).contains Eff.vov = m.contains Eff.vov := by
  have h : (wrs l).contains Eff.vov = false := by simp [wrs]
  rw [List.contains_append, h, Bool.false_or]
theorem advance_wrs (d : Dev) (k next : Nat) (l : List (RegWr × Nat × Bool)) (m : List Eff) :
    d.advance k next (wrs l ++ m) = d.advance k next m := by unfold Dev.advance; rw [goesOf_wrs]
theorem endTrap_wrs (d0 d : Dev) (k epc : Nat) (l : List (RegWr × Nat × Bool)) (m : List Eff) :
    d0.endTrap d k epc (wrs l ++ m) = d0.endTrap d k epc m := by
  unfold Dev.endTrap; rw [aovOf_wrs, trapEndOf_wrs, vov_wrs]
/-- A bundle that ends in no exception goes on. -/
theorem endTrap_off (d0 d : Dev) (k epc : Nat) (l : List Eff) (h0 : trapEndOf l = none)
    (h1 : aovOf l = none ∨ d0.fb (F.CORE_STATUS_AOV_EN k) = false)
    (h2 : l.contains Eff.vov = false ∨ d0.fb (F.CORE_STATUS_VOV_EN k) = false) : d0.endTrap d k epc l = d := by
  have v : (l.contains Eff.vov && d0.fb (F.CORE_STATUS_VOV_EN k)) = false := by
    cases h2 with
    | inl h => rw [h]; rfl
    | inr h => rw [h, Bool.and_false]
  unfold Dev.endTrap
  simp only [v, h0]
  cases h1 with
  | inl h => simp [h]
  | inr h => simp [h]

theorem plain_fences (l : List Eff) (h : ∀ e ∈ l, plainEff e = true) : fences l = false := by
  refine List.any_eq_false.mpr fun e he => ?_
  have := h e he
  cases e <;> simp_all [plainEff]
theorem plain_loads (l : List Eff) (st : List (Nat × List Byte)) (h : ∀ e ∈ l, plainEff e = true) : loadAccs l st = [] := by
  induction l generalizing st with
  | nil => rfl
  | cons e t ih =>
    have h0 := ih st fun x hx => h x (List.mem_cons_of_mem _ hx)
    have h1 := h e List.mem_cons_self
    cases e <;> first | exact h0 | cases h1
theorem plain_stores (l : List Eff) (h : ∀ e ∈ l, plainEff e = true) : storeAccs l = [] := by
  refine List.flatMap_eq_nil_iff.mpr fun e he => ?_
  have := h e he
  cases e <;> first | rfl | cases this
theorem own_esl (l : List Eff) (h : ∀ e ∈ l, ownEff e = true) : eslOf l = none := by
  refine List.findSome?_eq_none_iff.mpr fun e he => ?_
  have := h e he
  cases e <;> first | rfl | cases this
theorem plain_own (l : List Eff) (h : ∀ e ∈ l, plainEff e = true) : ∀ e ∈ l, ownEff e = true :=
  fun e he => own_of_plain e (h e he)
theorem plain_far (c : Core) (l : List Eff) (h : ∀ e ∈ l, plainEff e = true) : c.far l = false := by
  simp [Core.far, plain_loads l [] h, plain_stores l h]
theorem plain_load (x : Sem) (h : ∀ e ∈ x.eff, plainEff e = true) : loadOf x = none := by
  refine List.findSome?_eq_none_iff.mpr fun e he => ?_
  have := h e he
  cases e <;> first | rfl | cases this
theorem own_fx (k : Nat) (l : List Eff) (h : ∀ e ∈ l, ownEff e = true) (x : Fx) :
    l.foldl (fxStep k) x = { x with wr := x.wr ++ (resOf l).map fun y => inFlight y.1 y.2.1 y.2.2 } := by
  induction l generalizing x with
  | nil => simp [resOf]
  | cons e t ih =>
    have h1 := h e List.mem_cons_self
    rw [List.foldl_cons, ih fun x hx => h x (List.mem_cons_of_mem _ hx)]
    cases e <;> first | rfl | (simp [fxStep, resOf, List.append_assoc]; done) | cases h1

/-- Effects that fill no line, store nothing and clean no cache need no room. -/
theorem putAll_plain (k lvl : Nat) (l : List Eff) (d : Dev) (h : ∀ e ∈ l, plainEff e = true)
    (hf : (d.core k).fills = []) : putAll k lvl l d = (true, d) := by
  simp only [putAll, hf, fillAll, Bool.not_true, Bool.false_eq_true, if_false, plain_stores l h, List.drop_nil, storeAll]
  refine foldl_idle _ _ _ fun e he => ?_
  have := h e he
  cases e <;> first | rfl | cases this

/-- A bundle that reaches no memory and no other unit takes effect at once. -/
theorem issueGo_plain (sp : Spine) (d : Dev) (k : Nat) (b : List Instr) (x : Sem) (acts : List Sem)
    (ha : acts = if x.run then [x] else []) (hs : Still d k) (he : ∀ e ∈ acts.flatMap (·.eff), plainEff e = true) :
    issueGo k 4 acts none [] (sp, held d k b) = commit k 4 (acts.flatMap (·.eff)) [] none (sp, held d k b) := by
  have hl := plain_loads _ [] he
  have hst := plain_stores _ he
  have hes := own_esl _ (plain_own _ he)
  have hr : ∀ (d : Dev) got, resolve d got 0 [] [] acts = (acts.flatMap (·.eff), none) := by
    intro d got
    subst ha
    cases hx : x.run with
    | false => rfl
    | true =>
      rw [hx, if_pos rfl, List.flatMap_singleton] at he
      simp [resolve, plain_load x he]
  have hfi : ((held d k b).core k).fills = [] := by rw [held_core]; exact hs.fills
  have hed : ((held d k b).core k).eslDone = none := by rw [held_core]; exact hs.eslDone
  have hp : ∀ lvl, putAll k lvl (acts.flatMap (·.eff)) (held d k b) = (true, held d k b) :=
    fun lvl => putAll_plain k lvl _ _ he hfi
  unfold issueGo
  simp only [hl, hst, fetchLines, storeFirst, List.any_nil, Bool.false_and, Bool.false_eq_true, if_false, Bool.not_true,
    Bool.or_self, fetchElems, hr, Core.regWaits, List.map_nil, hed, hes, Option.isNone_none, Bool.and_self, if_true,
    Option.getD_none, issueEnd, hp]

/-- What a core holds matters at that core alone. -/
theorem mapCore_eq (d : Dev) (k : Nat) (f g : Core → Core) (h : f (d.core k) = g (d.core k)) :
    d.mapCore k f = d.mapCore k g := by
  simp [Dev.mapCore, h]

/-- A core with the register files of another. -/
def coreWith (x c : Core) : Core := { x with g := c.g, a := c.a, p := c.p, v := c.v }

/-- Writes of results and a change beside the register files do not meet. -/
theorem applyWr_around (d : Dev) (k : Nat) (x : RegWr) (c : Core) :
    (d.mapCore k (coreWith c)).applyWr k x = (d.applyWr k x).mapCore k (coreWith c) := by
  cases x with
  | vl m => rfl
  | _ => simp [Dev.applyWr, Core.rv, coreWith]
theorem applyWrs_around (d : Dev) (k : Nat) (l : List (RegWr × Nat × Bool)) (c : Core) :
    l.foldl (fun d x => d.applyWr k x.1) (d.mapCore k (coreWith c))
      = (l.foldl (fun d x => d.applyWr k x.1) d).mapCore k (coreWith c) := by
  induction l generalizing d with
  | nil => rfl
  | cons y t ih => rw [List.foldl_cons, applyWr_around, ih, List.foldl_cons]

/-- A result changes nothing of what issue keeps. -/
structure SameIssue (d e : Dev) (k : Nat) : Prop where
  core : ∃ g a p v, e.core k = { d.core k with g := g, a := a, p := p, v := v }
  la : e.fb (F.CORE_STATUS_LA k) = d.fb (F.CORE_STATUS_LA k)
  ra : e.fb (F.CORE_STATUS_RA k) = d.fb (F.CORE_STATUS_RA k)
theorem applyWr_issue (d : Dev) (k : Nat) (x : RegWr) : SameIssue d (d.applyWr k x) k := by
  cases x with
  | vl m =>
    refine ⟨⟨_, _, _, _, rfl⟩, ?_, ?_⟩ <;>
      · simp only [Dev.applyWr, Dev.fb]
        rw [f_setF_ne _ _ _ _ (by simp [F.CORE_STATUS_LA, F.CORE_STATUS_RA, F.VEC_VL_VL])]
  | _ => exact ⟨⟨_, _, _, _, by simp only [Dev.applyWr, core_mapCore_same]; rfl⟩, fb_mapCore _ _ _ _, fb_mapCore _ _ _ _⟩
theorem applyWrs_issue (d : Dev) (k : Nat) (l : List (RegWr × Nat × Bool)) :
    SameIssue d (l.foldl (fun d x => d.applyWr k x.1) d) k := by
  induction l generalizing d with
  | nil => exact ⟨⟨_, _, _, _, rfl⟩, rfl, rfl⟩
  | cons y t ih =>
    have h1 := applyWr_issue d k y.1
    have h2 := ih (d.applyWr k y.1)
    obtain ⟨g, a, p, v, hc⟩ := h1.core
    obtain ⟨g', a', p', v', hc'⟩ := h2.core
    exact ⟨⟨g', a', p', v', hc'.trans (by rw [hc])⟩, h2.la.trans h1.la, h2.ra.trans h1.ra⟩


/-! ## A lone bundle lands -/

/-- A result after one step of the bundle that made it. -/
def stepOne (x : RegWr × Nat × Bool) : InFlight := { wr := x.1, rem := x.2.1 - 1, acc := x.2.2, fresh := true }

/-- The device once a lone bundle's results have been put in flight and those due written. -/
def landed (d : Dev) (k : Nat) (b : List Instr) (l : List (RegWr × Nat × Bool)) : Dev :=
  ((l.filter fun x => x.2.1 == 1).foldl (fun d x => d.applyWr k x.1) d).mapCore k fun c =>
    { c with bundle := b, inflight := (l.filter fun x => x.2.1 != 1).map stepOne, pc := (d.core k).pc }

/-- Of results in flight, those of latency 1 are due after one step. -/
theorem due_one (l : List (RegWr × Nat × Bool)) (p : Nat → Bool) :
    ((l.map fun y => inFlight y.1 y.2.1 y.2.2).map fun x => { x with rem := x.rem - 1 }).filter (fun x => p x.rem)
      = (l.filter fun x => p (x.2.1 - 1)).map stepOne := by
  rw [List.map_map, List.filter_map]
  rfl
theorem filter_one (l : List (RegWr × Nat × Bool)) (hl : ∀ x ∈ l, 1 ≤ x.2.1) :
    (l.filter fun x => x.2.1 - 1 == 0) = l.filter (fun x => x.2.1 == 1) ∧
    (l.filter fun x => x.2.1 - 1 != 0) = l.filter (fun x => x.2.1 != 1) := by
  constructor <;> refine List.filter_congr fun x hx => ?_
  all_goals
    have := hl x hx
    rw [Bool.eq_iff_iff]
    simp only [beq_iff_eq, bne_iff_ne]
    omega

/-- A lone bundle's results come due. -/
theorem land_lone (d : Dev) (k : Nat) (b : List Instr) (l : List (RegWr × Nat × Bool)) (hd : (d.core k).inflight = [])
    (hl : ∀ x ∈ l, 1 ≤ x.2.1) :
    ((held d k b).mapCore k fun c =>
      { c with inflight := (c.inflight.map fun y => { y with fresh := false }) ++ l.map fun y => inFlight y.1 y.2.1 y.2.2 }).landStep k
      = landed d k b l := by
  have h0 : ((held d k b).mapCore k fun c =>
      { c with inflight := (c.inflight.map fun y => { y with fresh := false }) ++ l.map fun y => inFlight y.1 y.2.1 y.2.2 })
      = d.mapCore k (coreWith { d.core k with bundle := b, inflight := l.map fun y => inFlight y.1 y.2.1 y.2.2 }) := by
    rw [held, mapCore_mapCore]
    exact mapCore_eq _ _ _ _ (by simp [hd, coreWith])
  obtain ⟨f1, f2⟩ := filter_one l hl
  have g1 := due_one l (· == 0)
  have g2 := due_one l (· != 0)
  simp only [f1] at g1
  simp only [f2] at g2
  obtain ⟨g, a, p, v, hc⟩ := (applyWrs_issue d k (l.filter fun x => x.2.1 == 1)).core
  rw [h0, Dev.landStep]
  simp only [core_mapCore_same, coreWith, g1, g2, List.foldl_map, stepOne]
  have g3 := applyWrs_around d k (l.filter fun x => x.2.1 == 1)
    { d.core k with bundle := b, inflight := l.map fun y => inFlight y.1 y.2.1 y.2.2 }
  simp only at g3
  rw [g3, mapCore_mapCore, landed]
  exact mapCore_eq _ _ _ _ (by simp only [hc]; rfl)

/-- Where execution goes after a bundle outside loops and delay slots. -/
theorem goOn_plain (d : Dev) (k next : Nat) (h0 : (d.core k).ds = 0) (h1 : d.fb (F.CORE_STATUS_LA k) = false)
    (h2 : d.fb (F.CORE_STATUS_RA k) = false) : d.goOn k next = d.setPc k next := by
  simp only [Dev.goOn, h0]
  simp only [fb_mapCore, h1, h2, Dev.setPc, mapCore_mapCore]
  simp only [Bool.false_eq_true, if_false, false_and, Nat.zero_ne_one]
  exact mapCore_eq _ _ _ _ (by simp [h0])

/-- The state of a core after results have been put in flight. -/
theorem landed_core (d : Dev) (k : Nat) (b : List Instr) (l : List (RegWr × Nat × Bool)) (hs : Still d k) :
    ((landed d k b l).core k).ds = 0 ∧ (landed d k b l).fb (F.CORE_STATUS_LA k) = false
      ∧ (landed d k b l).fb (F.CORE_STATUS_RA k) = false := by
  have e := applyWrs_issue d k (l.filter fun x => x.2.1 == 1)
  obtain ⟨g, a, p, v, hc⟩ := e.core
  refine ⟨?_, ?_, ?_⟩
  · simp [landed, hc, hs.ds]
  · simp [landed, e.la, hs.la]
  · simp [landed, e.ra, hs.ra]

/-- A landed bundle that moves on is the lone bundle's end. -/
theorem landed_done (d : Dev) (k : Nat) (b : List Instr) (l : List (RegWr × Nat × Bool)) (hs : Still d k) :
    ((landed d k b l).setPc k ((d.core k).pc.toNat + 4)).bundleDone k = d.lone k l := by
  obtain ⟨g, a, p, v, hc⟩ := (applyWrs_issue d k (l.filter fun x => x.2.1 == 1)).core
  simp only [landed, Dev.setPc, Dev.bundleDone, mapCore_mapCore, Dev.lone]
  refine mapCore_eq _ _ _ _ ?_
  simp [hc, hs.bundle, hs.stall, hs.got, hs.fills, hs.emitted, hs.eslDone, hs.step, stepOne]

/-- The effects of a lone bundle that tries no shared coprocessor and holds no Easel instruction. -/
theorem commit_own (sp : Spine) (d : Dev) (k : Nat) (b : List Instr) (effs : List Eff) (hs : d.csSeen k = d)
    (hi : (d.core k).inflight = []) (he : ∀ e ∈ effs, ownEff e = true) (hl : ∀ x ∈ resOf effs, 1 ≤ x.2.1) :
    commit k 4 effs [] none (sp, held d k b) =
      (let w := effs.foldl (fxLate k (d.f (F.CORE_STATUS_PRIV k))) (sp, landed d k b (resOf effs))
       let e := (effs.foldl (fxFlag k) w.2).advance k ((d.core k).pc.toNat + 4) effs
       (w.1, ((held d k b).endTrap e k (e.core k).pc.toNat effs).bundleDone k)) := by
  have hp := land_lone d k b (resOf effs) hi hl
  simp only [commit, own_esl effs he, own_fx _ effs he, held_tries d k b hs, List.nil_append, hp, held_f, held_core]

/-- A lone instruction that reaches no memory and no other unit, up to where its bundle takes effect. -/
theorem instr_plain (sp : Spine) (d : Dev) (i : Instr) (h : Hd) (x : Sem) (effs : List Eff)
    (hh : headOf i = some h) (hl : h.last = true) (ha : Alone sp d h.k)
    (hs : semOf sp (held d h.k [i]) i = some (h, x))
    (ht : (held d h.k [i]).trapOf h.k x = none)
    (he : (if x.run then x.eff else []) = effs) (hp : ∀ e ∈ effs, plainEff e = true) (hr : ∀ x ∈ resOf effs, 1 ≤ x.2.1) :
    issueInstr i (sp, d) =
      (let w := effs.foldl (fxLate h.k (d.f (F.CORE_STATUS_PRIV h.k))) (sp, landed d h.k [i] (resOf effs))
       let e := (effs.foldl (fxFlag h.k) w.2).advance h.k ((d.core h.k).pc.toNat + 4) effs
       (w.1, ((held d h.k [i]).endTrap e h.k (e.core h.k).pc.toNat effs).bundleDone h.k)) := by
  subst he
  have ef : (if x.run = true then [x] else []).flatMap (·.eff) = if x.run then x.eff else [] := by cases x.run <;> simp
  rw [issue_lone sp d i h x hh hl ha hs ht (by simp [plain_fences _ hp]) (plain_far _ _ hp),
    issueGo_plain sp d h.k [i] x _ rfl (still_of sp d h.k ha) (by rw [ef]; exact hp), ef]
  exact commit_own sp d h.k [i] _ ha.tries ha.inflight (plain_own _ hp) hr

/-- What a lone instruction does that only has results: they go in flight, and the pc moves on (R116, R125). -/
theorem instr_lone (sp : Spine) (d : Dev) (i : Instr) (h : Hd) (x : Sem) (l : List (RegWr × Nat × Bool))
    (hh : headOf i = some h) (hl : h.last = true) (ha : Alone sp d h.k)
    (hs : semOf sp (held d h.k [i]) i = some (h, x))
    (ht : (held d h.k [i]).trapOf h.k x = none)
    (he : (if x.run then x.eff else []) = wrs l) (hp : ∀ x ∈ l, 1 ≤ x.2.1) :
    issueInstr i (sp, d) = (sp, d.lone h.k l) := by
  rw [instr_plain sp d i h x (wrs l) hh hl ha hs ht he (wrs_plain l) (by rw [resOf_wrs]; exact hp), resOf_wrs]
  obtain ⟨c1, c2, c3⟩ := landed_core d h.k [i] l (still_of sp d h.k ha)
  have e1 : ∀ (e : Dev) n, e.advance h.k n (wrs l) = e.goOn h.k n := fun e n => by
    have := advance_wrs e h.k n l []
    rwa [List.append_nil] at this
  have e2 : ∀ (e : Dev) n, (held d h.k [i]).endTrap e h.k n (wrs l) = e := fun e n => by
    have := endTrap_wrs (held d h.k [i]) e h.k n l []
    rw [List.append_nil] at this
    rw [this]
    exact endTrap_off _ _ _ _ [] rfl (.inl rfl) (.inl rfl)
  simp only [fxLate_wrs, fxFlag_wrs, e1, e2, goOn_plain _ _ _ c1 c2 c3]
  rw [landed_done d h.k [i] l (still_of sp d h.k ha)]

/-! ## Sticky flags -/

/-- Is an effect the setting of a sticky flag? -/
def flagEff (e : Eff) : Bool :=
  match e with
  | .aov _ | .vov | .qsat => true
  | _ => false

/-- A sticky flag's write is outside the loop flags and the cores. -/
theorem fxFlag_core (k j : Nat) (e : Eff) (d : Dev) : (fxFlag k d e).core j = d.core j := by cases e <;> rfl
theorem fxFlag_map (k j : Nat) (e : Eff) (d : Dev) (g : Core → Core) :
    fxFlag k (d.mapCore j g) e = (fxFlag k d e).mapCore j g := by cases e <;> rfl
theorem fb_flag_apart (d : Dev) (x y : Fld) (v : Nat) (ha : y.addr = x.addr) (h : x.lo + x.w ≤ 32)
    (hd : x.lo + x.w ≤ y.lo ∨ y.lo + y.w ≤ x.lo) : (d.setF x v).fb y = d.fb y := by
  simp only [Dev.fb, f_setF_apart d x y v ha h hd]
theorem fb_flag_ne (d : Dev) (x y : Fld) (v : Nat) (h : y.addr ≠ x.addr) : (d.setF x v).fb y = d.fb y := by
  simp only [Dev.fb, f_setF_ne d x y v h]
theorem fxFlag_loop (k : Nat) (e : Eff) (d : Dev) (y : Fld) (hy : y = F.CORE_STATUS_LA k ∨ y = F.CORE_STATUS_RA k) :
    (fxFlag k d e).fb y = d.fb y := by
  cases e with
  | aov a =>
    refine fb_flag_apart d (F.CORE_STATUS_AOV k) y 1 ?_ (by simp [F.CORE_STATUS_AOV]) ?_ <;>
      cases hy <;> subst y <;> simp [F.CORE_STATUS_AOV, F.CORE_STATUS_LA, F.CORE_STATUS_RA]
  | vov =>
    refine fb_flag_apart d (F.CORE_STATUS_VOV k) y 1 ?_ (by simp [F.CORE_STATUS_VOV]) ?_ <;>
      cases hy <;> subst y <;> simp [F.CORE_STATUS_VOV, F.CORE_STATUS_LA, F.CORE_STATUS_RA]
  | qsat =>
    refine fb_flag_ne d (F.VEC_STATUS_QSAT k) y 1 ?_
    cases hy <;> subst y <;> simp [F.VEC_STATUS_QSAT, F.CORE_STATUS_LA, F.CORE_STATUS_RA]
  | _ => rfl
theorem fxFlags_keep (k : Nat) (fl : List Eff) (d : Dev) :
    (∀ j, (fl.foldl (fxFlag k) d).core j = d.core j) ∧
    (∀ j g, fl.foldl (fxFlag k) (d.mapCore j g) = (fl.foldl (fxFlag k) d).mapCore j g) ∧
    ∀ y, y = F.CORE_STATUS_LA k ∨ y = F.CORE_STATUS_RA k → (fl.foldl (fxFlag k) d).fb y = d.fb y := by
  refine ⟨fun j => ?_, fun j g => ?_, fun y hy => ?_⟩ <;> induction fl generalizing d <;> try rfl
  all_goals rename_i e t ih; simp only [List.foldl_cons]
  · rw [ih, fxFlag_core]
  · rw [fxFlag_map, ih]
  · rw [ih, fxFlag_loop k e d y hy]

/-- What a lone instruction does that has results and sets sticky flags whose exceptions are disabled. -/
theorem instr_flag (sp : Spine) (d : Dev) (i : Instr) (h : Hd) (x : Sem) (l : List (RegWr × Nat × Bool)) (fl : List Eff)
    (hh : headOf i = some h) (hl : h.last = true) (ha : Alone sp d h.k)
    (hs : semOf sp (held d h.k [i]) i = some (h, x))
    (ht : (held d h.k [i]).trapOf h.k x = none)
    (he : (if x.run then x.eff else []) = wrs l ++ fl) (hp : ∀ x ∈ l, 1 ≤ x.2.1)
    (hf : ∀ e ∈ fl, flagEff e = true)
    (h1 : aovOf fl = none ∨ d.fb (F.CORE_STATUS_AOV_EN h.k) = false)
    (h2 : Eff.vov ∉ fl ∨ d.fb (F.CORE_STATUS_VOV_EN h.k) = false) :
    issueInstr i (sp, d) = (sp, fl.foldl (fxFlag h.k) (d.lone h.k l)) := by
  have each : ∀ e ∈ fl, plainEff e = true ∧ resOf [e] = [] ∧
      (∀ lvl w, fxLate h.k lvl w e = w) ∧ ¬ (match e with
        | .branch (some _) | .skip _ | .loop _ _ _ | .rpt _ | .eret => true
        | _ => false) = true ∧ (match e with | .trapEnd c => some c | _ => none) = none := by
    intro e he
    have := hf e he
    cases e <;> first | exact ⟨rfl, rfl, fun _ _ => rfl, Bool.false_ne_true, rfl⟩ | cases this
  have hw : resOf fl = [] := List.flatMap_eq_nil_iff.mpr fun e he => by
    have := (each e he).2.1
    rwa [resOf, List.flatMap_singleton] at this
  have hgo : goesOf fl = none := List.find?_eq_none.mpr fun e he => (each e he).2.2.2.1
  have hte : trapEndOf fl = none := List.findSome?_eq_none_iff.mpr fun e he => (each e he).2.2.2.2
  have hlate : ∀ lvl w, fl.foldl (fxLate h.k lvl) w = w := fun lvl w => foldl_idle _ _ _ fun e he => (each e he).2.2.1 lvl w
  have hr : resOf (wrs l ++ fl) = l := by rw [resOf_append, resOf_wrs, hw, List.append_nil]
  have hq : ∀ e ∈ wrs l ++ fl, plainEff e = true := fun e he =>
    (List.mem_append.mp he).elim (wrs_plain l e) fun m => (each e m).1
  have hend : ∀ e n, (held d h.k [i]).endTrap e h.k n (wrs l ++ fl) = e := fun e n => by
    rw [endTrap_wrs]
    exact endTrap_off _ _ _ _ fl hte (by simpa using h1) (by simpa using h2)
  have hst := still_of sp d h.k ha
  rw [instr_plain sp d i h x _ hh hl ha hs ht he hq (by rw [hr]; exact hp), hr]
  obtain ⟨c1, c2, c3⟩ := landed_core d h.k [i] l hst
  obtain ⟨g1, g2, g3⟩ := fxFlags_keep h.k fl (landed d h.k [i] l)
  simp only [List.foldl_append, fxLate_wrs, fxFlag_wrs, hlate, hend, advance_wrs]
  unfold Dev.advance
  rw [hgo]
  simp only []
  rw [goOn_plain _ _ _ (by rw [g1]; exact c1) (by rw [g3 _ (.inl rfl), c2]) (by rw [g3 _ (.inr rfl), c3])]
  have h9 := landed_done d h.k [i] l hst
  simp only [Dev.setPc, Dev.bundleDone] at h9 ⊢
  rw [← g2, ← (fxFlags_keep h.k fl _).2.1, h9]

/-! ## Sound memory -/

theorem badIn_clean (d : Dev) (a n : Nat) (h : d.bad = []) : d.badIn a n = [] := by rw [Dev.badIn, h]; rfl
theorem eccRead_clean (d : Dev) (a n : Nat) (h : d.bad = []) : d.eccRead a n = d := by
  rw [Dev.eccRead, badIn_clean d a n h]; rfl
theorem firstUe_clean (d : Dev) (a n : Nat) (h : d.bad = []) : d.firstUe a n = none := by
  rw [Dev.firstUe, badIn_clean d a n h]; rfl
theorem mend_clean (d : Dev) (a n : Nat) (h : d.bad = []) : d.mend a n = d := by
  have e : d.mend a n = { d with bad := [] } := by unfold Dev.mend; rw [h]; rfl
  rw [e, ← h]
theorem csReads_clean (d : Dev) (a n : Nat) (h : ∀ c u, (d.csUnit c u).op = none) : d.csReads a n = d := by
  unfold Dev.csReads
  split
  · exact foldl_idle _ _ _ fun u _ => by rw [h]
  · rfl
theorem setBytes_frame (d : Dev) (a : Nat) (l : List Byte) : d.setBytes a l = { d with mem := (d.setBytes a l).mem } := by
  induction l generalizing d a with
  | nil => rfl
  | cons b t ih => rw [Dev.setBytes, ih]; rfl
@[simp] theorem setBytes_bad (d : Dev) (a : Nat) (l : List Byte) : (d.setBytes a l).bad = d.bad := by rw [setBytes_frame]
@[simp] theorem setBytes_csUnit (d : Dev) (a : Nat) (l : List Byte) (c u : Nat) :
    (d.setBytes a l).csUnit c u = d.csUnit c u := by rw [setBytes_frame]; rfl

/-- A read of sound memory gives its bytes. -/
theorem memAcc_clean (d : Dev) (a n : Nat) (h : d.bad = []) : d.memAcc a n false [] = (.ok (d.bytes a n), d) := by
  simp [Dev.memAcc, firstUe_clean d a n h, eccRead_clean d a n h]
/-- A write of sound memory writes its bytes. -/
theorem memPut_clean (d : Dev) (a : Nat) (l : List Byte) (h : Clean d) : d.memPut a l = (true, d.setBytes a l) := by
  have e : ∀ ps : List Nat, ps.foldl (fun d b => d.eccRead b (eccUnit a)) d = d := fun ps =>
    foldl_idle _ _ _ fun b _ => eccRead_clean d b _ h.bad
  have f : ∀ ps : List Nat, ps.filter (fun b => (d.firstUe b (eccUnit a)).isSome) = [] := fun ps =>
    List.filter_eq_nil_iff.mpr fun b _ => by rw [firstUe_clean d b _ h.bad]; simp
  unfold Dev.memPut
  simp only [csReads_clean d a _ h.cs, e, f, if_true]
  rw [mend_clean _ _ _ (by rw [setBytes_bad]; exact h.bad)]
theorem clean_setBytes (d : Dev) (a : Nat) (l : List Byte) (h : Clean d) : Clean (d.setBytes a l) :=
  ⟨by rw [setBytes_bad]; exact h.bad, fun c u => by rw [setBytes_csUnit]; exact h.cs c u⟩
theorem clean_mapCore (d : Dev) (k : Nat) (f : Core → Core) (h : Clean d) : Clean (d.mapCore k f) := ⟨h.bad, h.cs⟩

theorem setBytes_mapCore (d : Dev) (k : Nat) (f : Core → Core) (a : Nat) (l : List Byte) :
    (d.mapCore k f).setBytes a l = (d.setBytes a l).mapCore k f := by
  induction l generalizing a d with
  | nil => rfl
  | cons x t ih => exact ih (d.setByte a x) (a + 1)

/-! ## Loads and stores of the data scratch -/

/-- The core has these bytes of its loads, and this many of its store's accesses have left. -/
def progress (got : SMap (Option (List Byte))) (n : Nat) (c : Core) : Core := { c with got := got, emitted := n }

/-- What a lone bundle leaves does not hang on how its memory accesses went on. -/
theorem commit_progress (sp : Spine) (d : Dev) (k : Nat) (b : List Instr) (effs : List Eff) (l : List (RegWr × Nat × Bool))
    (g : SMap (Option (List Byte))) (n : Nat) (hs : Still d k) (he : ∀ e ∈ effs, ownEff e = true) (hr : resOf effs = l)
    (hl : ∀ x ∈ l, 1 ≤ x.2.1) (hq : ∀ e ∈ effs, (∀ lvl w, fxLate k lvl w e = w) ∧ (∀ d, fxFlag k d e = d))
    (h0 : goesOf effs = none) (h1 : aovOf effs = none) (h2 : effs.contains Eff.vov = false) (h3 : trapEndOf effs = none) :
    commit k 4 effs [] none (sp, (held d k b).mapCore k (progress g n)) = (sp, d.lone k l) := by
  subst hr
  have e0 : (held d k b).mapCore k (progress g n) = held (d.mapCore k (progress g n)) k b := by
    simp only [held, mapCore_mapCore]; rfl
  have ht : (d.mapCore k (progress g n)).csSeen k = d.mapCore k (progress g n) := by rw [csSeen_mapCore, hs.tries]
  have el : landed (d.mapCore k (progress g n)) k b (resOf effs) = (landed d k b (resOf effs)).mapCore k (progress g n) := by
    have e1 : d.mapCore k (progress g n) = d.mapCore k (coreWith (progress g n (d.core k))) := mapCore_eq _ _ _ _ rfl
    obtain ⟨g', a, p, v, hc⟩ := (applyWrs_issue d k ((resOf effs).filter fun x => x.2.1 == 1)).core
    simp only [landed]
    rw [e1, applyWrs_around, core_mapCore_same]
    simp only [mapCore_mapCore]
    exact mapCore_eq _ _ _ _ (by rw [hc]; rfl)
  rw [e0, commit_own sp _ k b effs ht (by simp [progress, hs.inflight]) he hl, el]
  obtain ⟨c1, c2, c3⟩ := landed_core d k b (resOf effs) hs
  simp only [foldl_idle _ _ _ fun e h => (hq e h).1 _ _, foldl_idle _ _ _ fun e h => (hq e h).2 _]
  unfold Dev.advance
  rw [h0]
  simp only []
  rw [goOn_plain _ _ _ (by simp [progress, c1]) (by simp [c2]) (by simp [c3]), endTrap_off _ _ _ _ effs h3 (.inl h1) (.inl h2)]
  refine congrArg _ ((?_ : _ = _).trans (landed_done d k b (resOf effs) hs))
  simp only [Dev.setPc, Dev.bundleDone, mapCore_mapCore, core_mapCore_same, progress]

/-- Bytes brought by the accesses from number `i`. -/
def brought (f : Elem → List Byte) (i : Nat) (es : List Elem) (g : SMap (Option (List Byte))) : SMap (Option (List Byte)) :=
  match es with
  | [] => g
  | e :: t => brought f (i + 1) t (SMap.put g i (some (f e)))
theorem put_keys {α : Type} (m : SMap α) (k i : Nat) (v : α) (h : ∀ x ∈ m, x.1 < i) (hk : k ≤ i) :
    ∀ x ∈ SMap.put m k v, x.1 < i + 1 := by
  induction m with
  | nil => intro x hx; rw [SMap.put, List.mem_singleton] at hx; subst hx; exact Nat.lt_succ_of_le hk
  | cons e t ih =>
    obtain ⟨a, w⟩ := e
    have ha := h (a, w) List.mem_cons_self
    have ht := ih fun x hx => h x (List.mem_cons_of_mem _ hx)
    intro x hx
    have m2 : x = (k, v) ∨ x = (a, w) ∨ x ∈ t ∨ x ∈ SMap.put t k v := by
      unfold SMap.put at hx
      split at hx
      · simp only [List.mem_cons] at hx; tauto
      · split at hx <;> simp only [List.mem_cons] at hx <;> tauto
    rcases m2 with e | e | m | m
    · rw [e]; exact Nat.lt_succ_of_le hk
    · rw [e]; exact Nat.lt_succ_of_lt ha
    · exact Nat.lt_succ_of_lt (h x (List.mem_cons_of_mem _ m))
    · exact ht x m
theorem brought_get (f : Elem → List Byte) (i : Nat) (es : List Elem) (g : SMap (Option (List Byte))) (dv : Option (List Byte)) :
    (∀ j, j < i → SMap.get (brought f i es g) j dv = SMap.get g j dv) ∧
    ∀ j (h : j < es.length), SMap.get (brought f i es g) (i + j) dv = some (f es[j]) := by
  induction es generalizing i g with
  | nil => exact ⟨fun _ _ => rfl, fun j h => absurd h (Nat.not_lt_zero j)⟩
  | cons e t ih =>
    obtain ⟨h1, h2⟩ := ih (i + 1) (SMap.put g i (some (f e)))
    refine ⟨fun j hj => ?_, fun j hj => ?_⟩
    · rw [brought, h1 j (by omega), smap_get_put_ne _ _ _ _ _ (by omega)]
    · cases j with
      | zero => exact (h1 i (by omega)).trans (smap_get_put_same g i (some (f e)) dv)
      | succ j =>
        have := h2 j (by simpa using hj)
        rw [brought, show i + (j + 1) = i + 1 + j by omega, this]
        rfl

/-- Accesses that all lie in the core's data scratch are made at once. -/
theorem fetch_scratch (k lvl n i : Nat) (es : List Elem) (hs : ∀ e ∈ es, e.path = .scratch) (sp : Spine) (d : Dev)
    (hb : d.bad = []) (g : SMap (Option (List Byte))) (hg : ∀ x ∈ g, x.1 < i) :
    fetchElems k lvl false (es.map fun e => (e, [])) i [] (sp, d.mapCore k (progress g n))
      = (false, sp, d.mapCore k (progress (brought (fun e => d.bytes e.da e.size) i es g) n)) := by
  induction es generalizing i g with
  | nil => rfl
  | cons e t ih =>
    have h1 := hs e List.mem_cons_self
    have hn : (g.any fun x => x.1 == i) = false := List.any_eq_false.mpr fun x hx => by
      have := hg x hx
      simp only [beq_iff_eq]; omega
    have hm := memAcc_clean (d.mapCore k (progress g n)) e.da e.size hb
    have hf : fetchElem k lvl e [] [] (sp, d.mapCore k (progress g n))
        = (.ok (d.bytes e.da e.size), sp, d.mapCore k (progress g n)) := by
      simp only [fetchElem, Core.waits, h1, Bool.false_eq_true, if_false, hm, List.foldl_nil]
      rfl
    have ih' := ih (i + 1) (fun x hx => hs x (List.mem_cons_of_mem _ hx)) (SMap.put g i (some (d.bytes e.da e.size)))
      (put_keys g i i _ hg (Nat.le_refl i))
    have hsc : (e.path == Path.regs) = false := by rw [h1]; rfl
    simp only [List.map_cons, fetchElems, hsc, core_mapCore_same, progress, hn, bne_self_eq_false, Bool.or_self,
      Bool.false_eq_true, if_false, List.drop_nil]
    rw [hf]
    simp only [mapCore_mapCore]
    exact ih'
theorem fetch_regs (k lvl i : Nat) (l : List (Elem × List (Nat × List Byte))) (hs : ∀ e ∈ l, e.1.path = .scratch) (w : Whole) :
    fetchElems k lvl true l i [] w = (false, w) := by
  induction l generalizing i with
  | nil => rfl
  | cons e t ih =>
    have h1 : (e.1.path == Path.regs) = false := by rw [hs e List.mem_cons_self]; rfl
    have h2 := ih (i + 1) fun x hx => hs x (List.mem_cons_of_mem _ hx)
    simp [fetchElems, h1, h2]

theorem held_progress (d : Dev) (k : Nat) (b : List Instr) (hs : Still d k) :
    held d k b = (held d k b).mapCore k (progress [] 0) := by
  rw [held, mapCore_mapCore]
  exact mapCore_eq _ _ _ _ (by simp [progress, hs.got, hs.emitted])

/-- A lone load of the data scratch. -/
theorem instr_ld (sp : Spine) (d : Dev) (i : Instr) (h : Hd) (x : Sem) (dst : LdDst) (es : List Elem) (lat : Nat)
    (u : List (RegWr × Nat × Bool))
    (hh : headOf i = some h) (hl : h.last = true) (ha : Alone sp d h.k) (hb : d.bad = [])
    (hs : semOf sp (held d h.k [i]) i = some (h, x))
    (ht : (held d h.k [i]).trapOf h.k x = none)
    (he : (if x.run then x.eff else []) = .ld dst es lat :: wrs u) (hlat : 1 ≤ lat) (hp : ∀ x ∈ u, 1 ≤ x.2.1)
    (hes : ∀ e ∈ es, e.path = .scratch) :
    issueInstr i (sp, d) = (sp, d.lone h.k (((loadWr dst (es.map fun e => { e with data := d.bytes e.da e.size })
      (es.map fun e => d.bytes e.da e.size)).map fun r => (r, lat, false)) ++ u)) := by
  have hx : x.run = true := by
    cases hx : x.run with
    | false => rw [hx] at he; cases he
    | true => rfl
  rw [hx, if_pos rfl] at he
  have hst := still_of sp d h.k ha
  have hpl := plain_loads (wrs u) [] (wrs_plain u)
  have hla : loadAccs x.eff [] = es.map fun e => (e, []) := by rw [he, loadAccs, hpl, List.append_nil]
  have hsa : storeAccs x.eff = [] := by rw [he]; exact plain_stores (wrs u) (wrs_plain u)
  have hfe : fences x.eff = false := by rw [he]; exact plain_fences (wrs u) (wrs_plain u)
  have hsc : ∀ e ∈ es, ∀ c : Core, c.near e = true := fun e m c => by simp [Core.near, hes e m]
  have hfar : ∀ c : Core, c.far x.eff = false := fun c => by
    have key : ∀ l : List Elem, (∀ e ∈ l, c.near e = true) →
        (((l.map fun e => (e, ([] : List (Nat × List Byte)))).mapIdx fun i x => !c.near x.1 && !(c.got.any fun y => y.1 == i)).contains true)
          = false := by
      intro l hl
      rw [Bool.eq_false_iff]
      intro hc
      rw [List.contains_iff_mem, List.mem_mapIdx] at hc
      obtain ⟨j, hj, e⟩ := hc
      simp only [List.getElem_map, hl _ (List.getElem_mem _), Bool.not_true, Bool.false_and, Bool.false_eq_true] at e
    simp only [Core.far, hla, hsa, key es fun e m => hsc e m c, List.any_nil, Bool.or_false]
  rw [issue_lone sp d i h x hh hl ha hs ht (by simp [hx, hfe]) (by rw [hx, if_pos rfl]; exact hfar _), hx, if_pos rfl]
  have hnr : ∀ c : Core, c.regWaits es = false := fun c => List.any_eq_false.mpr fun e m => by simp [hes e m]
  have hmp : ((es.map fun e => (e, ([] : List (Nat × List Byte)))).map (·.1)) = es := by
    rw [List.map_map]; exact List.map_id es
  have hsf : storeFirst x.eff = false := by
    simp only [storeFirst, hla, List.any_map]
    exact List.any_eq_false.mpr fun e _ => by simp
  have hf1 := fetch_scratch h.k (d.f (F.CORE_STATUS_PRIV h.k)) 0 0 es hes sp (held d h.k [i]) hb [] (by simp)
  rw [← held_progress d h.k [i] hst] at hf1
  have hbr := brought_get (fun e => (held d h.k [i]).bytes e.da e.size) 0 es []
  have hes2 : bring (brought (fun e => (held d h.k [i]).bytes e.da e.size) 0 es []) 0 es
      = es.map fun e => { e with data := d.bytes e.da e.size } := by
    refine List.ext_getElem (by simp [bring]) fun j h1 h2 => ?_
    have := (hbr none).2 j (by simpa using h2)
    simp only [bring, List.getElem_mapIdx, List.getElem_map, this, Option.getD_some]
    rfl
  have hnone : ((List.range es.length).find? fun j =>
      SMap.get (brought (fun e => (held d h.k [i]).bytes e.da e.size) 0 es []) (0 + j) (some []) == none) = none :=
    List.find?_eq_none.mpr fun j hj => by
      rw [(hbr (some [])).2 j (List.mem_range.mp hj)]
      exact Bool.false_ne_true
  have hld : loadOf x = some (dst, es, lat) := by rw [loadOf, he]; rfl
  have hwe : ∀ es' : List Elem, x.eff.map (Eff.withElems es') = .ld dst es' lat :: wrs u := fun es' => by
    rw [he]
    simp [Eff.withElems, wrs]
  have hre : ∀ D : Dev, resolve D (brought (fun e => (held d h.k [i]).bytes e.da e.size) 0 es []) 0 [] [] [x]
      = (.ld dst (es.map fun e => { e with data := d.bytes e.da e.size }) lat :: wrs u, none) := fun D => by
    simp only [resolve, hld, hnone, hes2, hwe, List.nil_append]
  generalize hG : brought (fun e => (held d h.k [i]).bytes e.da e.size) 0 es [] = G at hf1 hre
  generalize hE : es.map (fun e => { e with data := d.bytes e.da e.size }) = es' at hre
  have hown : ∀ e ∈ Eff.ld dst es' lat :: wrs u, ownEff e = true := fun e m => by
    cases m with
    | head => rfl
    | tail _ m => exact own_of_plain e (wrs_plain u e m)
  have hput : ∀ lvl, putAll h.k lvl (.ld dst es' lat :: wrs u) ((held d h.k [i]).mapCore h.k (progress G 0))
      = (true, (held d h.k [i]).mapCore h.k (progress G 0)) := fun lvl => by
    have e1 : (((held d h.k [i]).mapCore h.k (progress G 0)).core h.k).fills = [] := by simp [progress, hst.fills]
    have e2 : storeAccs (.ld dst es' lat :: wrs u) = [] := plain_stores (wrs u) (wrs_plain u)
    simp only [putAll, e1, fillAll, Bool.not_true, Bool.false_eq_true, if_false, e2, List.drop_nil, storeAll]
    refine foldl_idle _ _ _ fun e m => ?_
    cases m with
    | head => rfl
    | tail _ m => obtain ⟨_, _, rfl⟩ := (mem_wrs u e).mp m; rfl
  have hres : resOf (.ld dst es' lat :: wrs u)
      = ((loadWr dst es' (es'.map (·.data))).map fun r => (r, lat, false)) ++ u := by
    rw [← List.singleton_append, resOf_append, resOf_wrs, resOf, List.flatMap_singleton]
  have hdat : es'.map (·.data) = es.map fun e => d.bytes e.da e.size := by rw [← hE, List.map_map]; rfl
  have hfin := commit_progress sp d h.k [i] (.ld dst es' lat :: wrs u) _ G 0 hst hown hres (fun y hy => by
      cases List.mem_append.mp hy with
      | inl m => obtain ⟨r, _, rfl⟩ := List.mem_map.mp m; exact hlat
      | inr m => exact hp y m)
    (fun e m => by
      cases m with
      | head => exact ⟨fun _ _ => rfl, fun _ => rfl⟩
      | tail _ m => obtain ⟨_, _, rfl⟩ := (mem_wrs u e).mp m; exact ⟨fun _ _ => rfl, fun _ => rfl⟩)
    (by have := goesOf_wrs u []; rw [List.append_nil] at this; exact this)
    (by have := aovOf_wrs u []; rw [List.append_nil] at this; exact this)
    (by have := vov_wrs u []; rw [List.append_nil] at this; exact this)
    (by have := trapEndOf_wrs u []; rw [List.append_nil] at this; exact this)
  have hesl : eslOf x.eff = none := by
    rw [he]
    refine own_esl _ fun e m => ?_
    cases m with
    | head => rfl
    | tail _ m => exact own_of_plain e (wrs_plain u e m)
  have hed : ((held d h.k [i]).core h.k).eslDone = none := by rw [held_core]; exact hst.eslDone
  rw [hdat] at hfin
  unfold issueGo
  simp only [List.flatMap_singleton, hsa, fetchLines, hsf, Bool.false_and, Bool.false_eq_true, if_false, Bool.not_true,
    Bool.or_self, hla, held_f, hf1, core_mapCore_same, progress]
  have hrg := fun lvl w => fetch_regs h.k lvl 0 (es.map fun e => (e, ([] : List (Nat × List Byte))))
    (fun e m => by obtain ⟨y, hy, rfl⟩ := List.mem_map.mp m; exact hes y hy) w
  have hpg : ∀ c : Core, (progress G 0 c).got = G := fun _ => rfl
  simp only [hpg, hre, hmp, hnr, Bool.false_eq_true, if_false, hed, hesl, Option.isNone_none, Bool.and_self, if_true,
    Option.getD_none, issueEnd, List.flatMap_singleton, hla, hrg, core_mapCore_same, hput]
  exact hfin

/-- The device once elements have been stored to the data scratch. -/
def stored (d : Dev) (es : List Elem) : Dev := es.foldl (fun d e => d.setBytes e.da e.data) d

theorem stored_eq (d : Dev) (es : List Elem) : stored d es = { d with mem := (stored d es).mem } := by
  have : ∃ m, stored d es = { d with mem := m } :=
    List.foldlRecOn es (fun d e => d.setBytes e.da e.data) (motive := fun D : Dev => ∃ m, D = { d with mem := m }) ⟨d.mem, rfl⟩
      fun D hD e _ => by obtain ⟨m, rfl⟩ := hD; exact ⟨_, setBytes_frame _ _ _⟩
  obtain ⟨m, e⟩ := this
  rw [e]

/-- What memory holds is beside what stands still about a core. -/
theorem still_mem (d : Dev) (k : Nat) (m : SMap Byte) (h : Still d k) : Still { d with mem := m } k :=
  { bundle := h.bundle, stall := h.stall, got := h.got, fills := h.fills, emitted := h.emitted, eslDone := h.eslDone
    inflight := h.inflight, ds := h.ds, step := h.step, la := h.la, ra := h.ra
    tries := by
      have key : ∀ (l : List Nat) (d : Dev), l.foldl (fun d u =>
          let x := d.csUnit (coreCluster k) u
          if (x.op.map (·.core.val)) = some k ∧ x.tie.isSome then d.setCs (coreCluster k) u { x with tie := none } else d)
            { d with mem := m } = { l.foldl (fun d u =>
          let x := d.csUnit (coreCluster k) u
          if (x.op.map (·.core.val)) = some k ∧ x.tie.isSome then d.setCs (coreCluster k) u { x with tie := none } else d)
            d with mem := m } := fun l => by
        induction l with
        | nil => exact fun _ => rfl
        | cons u t ih =>
          intro d
          simp only [List.foldl_cons]
          rw [← ih]
          refine congrArg (fun x => List.foldl _ x t) ?_
          have e : ({ d with mem := m } : Dev).csUnit (coreCluster k) u = d.csUnit (coreCluster k) u := rfl
          rw [e]
          split <;> rfl
      exact (key _ d).trans (congrArg (fun x : Dev => { x with mem := m }) h.tries) }

/-- Elements of the data scratch are stored at once. -/
theorem store_scratch (k lvl n : Nat) (b : List Instr) (es : List Elem) (hs : ∀ e ∈ es, e.path = .scratch) (d : Dev)
    (hc : Clean d) : storeAll k lvl es ((held d k b).mapCore k (progress [] n))
      = (true, (held (stored d es) k b).mapCore k (progress [] (n + es.length))) := by
  induction es generalizing d n with
  | nil => rfl
  | cons e t ih =>
    have h1 := hs e List.mem_cons_self
    have h2 := ih (n + 1) (fun x hx => hs x (List.mem_cons_of_mem _ hx)) (d.setBytes e.da e.data) (clean_setBytes d _ _ hc)
    have hc2 : Clean ((held d k b).mapCore k (progress [] n)) := clean_mapCore _ _ _ (clean_mapCore _ _ _ hc)
    have hput := memPut_clean _ e.da e.data hc2
    have e0 : ((held d k b).mapCore k (progress [] n)).setBytes e.da e.data
        = (held (d.setBytes e.da e.data) k b).mapCore k (progress [] n) := by
      have f1 := setBytes_mapCore (held d k b) k (progress [] n) e.da e.data
      have f2 := setBytes_mapCore d k (fun c => { c with bundle := b }) e.da e.data
      rw [f1, held, f2]; rfl
    simp only [storeAll, storeElem, h1, hput, e0, mapCore_mapCore]
    rw [show n + (e :: t).length = n + 1 + t.length by rw [List.length_cons]; omega]
    exact h2

theorem clean_stored (d : Dev) (es : List Elem) (h : Clean d) : Clean (stored d es) :=
  List.foldlRecOn es (fun d e => d.setBytes e.da e.data) (motive := fun D : Dev => Clean D) h
    fun D hD _ _ => clean_setBytes D _ _ hD

/-- A lone store to the data scratch. -/
theorem instr_st (sp : Spine) (d : Dev) (i : Instr) (h : Hd) (x : Sem) (es : List Elem) (u : List (RegWr × Nat × Bool))
    (hh : headOf i = some h) (hl : h.last = true) (ha : Alone sp d h.k) (hc : Clean d)
    (hs : semOf sp (held d h.k [i]) i = some (h, x))
    (ht : (held d h.k [i]).trapOf h.k x = none)
    (he : (if x.run then x.eff else []) = .st es :: wrs u) (hp : ∀ x ∈ u, 1 ≤ x.2.1)
    (hes : ∀ e ∈ es, e.path = .scratch) :
    issueInstr i (sp, d) = (sp, (stored d es).lone h.k u) := by
  have hx : x.run = true := by
    cases hx : x.run with
    | false => rw [hx] at he; cases he
    | true => rfl
  rw [hx, if_pos rfl] at he
  have hst := still_of sp d h.k ha
  have hst2 : Still (stored d es) h.k := by rw [stored_eq]; exact still_mem d h.k _ hst
  have hsa : storeAccs x.eff = es := by
    rw [he]
    show es ++ storeAccs (wrs u) = es
    rw [plain_stores (wrs u) (wrs_plain u), List.append_nil]
  have hla : loadAccs x.eff [] = [] := by rw [he]; exact plain_loads (wrs u) _ (wrs_plain u)
  have hfe : fences x.eff = false := by rw [he]; exact plain_fences (wrs u) (wrs_plain u)
  have hfar : ∀ c : Core, c.far x.eff = false := fun c => by
    simp only [Core.far, hla, hsa, List.mapIdx_nil, List.contains_nil, Bool.false_or]
    exact List.any_eq_false.mpr fun e m => by rw [hes e m]; simp
  rw [issue_lone sp d i h x hh hl ha hs ht (by simp [hx, hfe]) (by rw [hx, if_pos rfl]; exact hfar _), hx, if_pos rfl]
  have hown : ∀ e ∈ Eff.st es :: wrs u, ownEff e = true := fun e m => by
    cases m with
    | head => rfl
    | tail _ m => exact own_of_plain e (wrs_plain u e m)
  have hline : ∀ (l : List Elem) (lvl : Nat) (w : Whole), (∀ e ∈ l, e.path = .scratch) → fetchLines h.k lvl l [] w = (false, w) := by
    intro l lvl w hl
    induction l with
    | nil => rfl
    | cons e t ih =>
      have h1 := hl e List.mem_cons_self
      simp [fetchLines, h1, ih fun x hx => hl x (List.mem_cons_of_mem _ hx)]
  have hld : loadOf x = none := by
    rw [loadOf, he]
    refine List.findSome?_eq_none_iff.mpr fun e m => ?_
    cases m with
    | head => rfl
    | tail _ m => obtain ⟨_, _, rfl⟩ := (mem_wrs u e).mp m; rfl
  have hre : ∀ (D : Dev) g, resolve D g 0 [] [] [x] = (.st es :: wrs u, none) := fun D g => by
    simp only [resolve, hld, he, List.nil_append]
  have hput : ∀ lvl, putAll h.k lvl (.st es :: wrs u) (held d h.k [i])
      = (true, (held (stored d es) h.k [i]).mapCore h.k (progress [] es.length)) := fun lvl => by
    have e1 : ((held d h.k [i]).core h.k).fills = [] := by rw [held_core]; exact hst.fills
    have e2 : ((held d h.k [i]).core h.k).emitted = 0 := by rw [held_core]; exact hst.emitted
    have e3 : storeAccs (.st es :: wrs u) = es := by rw [← he]; exact hsa
    have e4 := store_scratch h.k lvl 0 [i] es hes d hc
    rw [← held_progress d h.k [i] hst, Nat.zero_add] at e4
    simp only [putAll, e1, fillAll, Bool.not_true, Bool.false_eq_true, if_false, e2, e3, List.drop_zero, e4]
    refine foldl_idle _ _ _ fun e m => ?_
    cases m with
    | head => rfl
    | tail _ m => obtain ⟨_, _, rfl⟩ := (mem_wrs u e).mp m; rfl
  have hfin := commit_progress sp (stored d es) h.k [i] (.st es :: wrs u) u [] es.length hst2 hown
    (by rw [← List.singleton_append, resOf_append, resOf_wrs]; rfl) hp
    (fun e m => by
      cases m with
      | head => exact ⟨fun _ _ => rfl, fun _ => rfl⟩
      | tail _ m => obtain ⟨_, _, rfl⟩ := (mem_wrs u e).mp m; exact ⟨fun _ _ => rfl, fun _ => rfl⟩)
    (by have := goesOf_wrs u []; rw [List.append_nil] at this; exact this)
    (by have := aovOf_wrs u []; rw [List.append_nil] at this; exact this)
    (by have := vov_wrs u []; rw [List.append_nil] at this; exact this)
    (by have := trapEndOf_wrs u []; rw [List.append_nil] at this; exact this)
  have hesl : eslOf x.eff = none := by rw [he]; exact own_esl _ hown
  have hed : ((held d h.k [i]).core h.k).eslDone = none := by rw [held_core]; exact hst.eslDone
  unfold issueGo
  simp only [List.flatMap_singleton, hsa, hline es _ _ hes, storeFirst, hla, List.any_nil, Bool.false_and, Bool.false_eq_true,
    if_false, Bool.not_true, Bool.or_self, fetchElems, hre, Core.regWaits, List.map_nil, hed, hesl, Option.isNone_none,
    Bool.and_self, if_true, Option.getD_none, issueEnd, hput]
  exact hfin

/-! ## One effect beside results -/

/-- An effect of the kind that a bundle has once: where execution goes, a control register, a wait. -/
def oneEff (e : Eff) : Bool :=
  match e with
  | .wr _ _ _ | .ld _ _ _ | .st _ | .aov _ | .vov | .qsat | .esl _ | .cs _ _ _ | .fence | .cache _ _ _ | .cacheAll _ => false
  | _ => true

/-- What a lone instruction does that has results and one effect of such a kind. -/
theorem instr_one (sp : Spine) (d : Dev) (i : Instr) (h : Hd) (x : Sem) (l : List (RegWr × Nat × Bool)) (e : Eff)
    (hh : headOf i = some h) (hl : h.last = true) (ha : Alone sp d h.k)
    (hs : semOf sp (held d h.k [i]) i = some (h, x))
    (ht : (held d h.k [i]).trapOf h.k x = none)
    (he : (if x.run then x.eff else []) = wrs l ++ [e]) (hp : ∀ x ∈ l, 1 ≤ x.2.1) (h1 : oneEff e = true) :
    issueInstr i (sp, d) =
      (let w := fxLate h.k (d.f (F.CORE_STATUS_PRIV h.k)) (sp, landed d h.k [i] l) e
       let t := w.2.advance h.k ((d.core h.k).pc.toNat + 4) [e]
       (w.1, ((held d h.k [i]).endTrap t h.k (t.core h.k).pc.toNat [e]).bundleDone h.k)) := by
  have hr : resOf (wrs l ++ [e]) = l := by
    rw [resOf_append, resOf_wrs]
    cases e <;> first | exact List.append_nil l | cases h1
  have hq : ∀ y ∈ wrs l ++ [e], plainEff y = true := fun y hy =>
    (List.mem_append.mp hy).elim (wrs_plain l y) fun m => by
      rw [List.mem_singleton.mp m]
      cases e <;> first | rfl | cases h1
  have hflag : ∀ d, fxFlag h.k d e = d := fun d => by cases e <;> first | rfl | cases h1
  rw [instr_plain sp d i h x _ hh hl ha hs ht he hq (by rw [hr]; exact hp), hr]
  simp only [List.foldl_append, fxLate_wrs, fxFlag_wrs, hflag, advance_wrs, endTrap_wrs, List.foldl_cons, List.foldl_nil]

/-- Changes of a core before a bundle's end can be made after it. -/
theorem done_map (d : Dev) (k : Nat) (f : Core → Core)
    (hf : ∀ c : Core, f { c with bundle := [], stall := .none, got := [], fills := [], emitted := 0, eslDone := none }
      = { f c with bundle := [], stall := .none, got := [], fills := [], emitted := 0, eslDone := none })
    (hs : (d.core k).step = false) (hk : ((f (d.core k))).step = false) :
    (d.mapCore k f).bundleDone k = (d.bundleDone k).mapCore k f := by
  simp only [Dev.bundleDone, mapCore_mapCore]
  refine mapCore_eq _ _ _ _ ?_
  have e := hf (d.core k)
  rw [if_neg (by rw [hk]; exact Bool.false_ne_true), if_neg (by rw [hs]; exact Bool.false_ne_true)]
  exact e.symm

/-! ## Taking an exception (R146) -/

theorem landStep_nil (d : Dev) (k : Nat) (h : (d.core k).inflight = []) :
    d.landStep k = d.mapCore k fun c => { c with inflight := [] } := by
  simp [Dev.landStep, h]
theorem landAll_nil (d : Dev) (k n : Nat) (h : (d.core k).inflight = []) :
    d.landAll k (n + 1) = d.mapCore k fun c => { c with inflight := [] } := by
  induction n generalizing d with
  | zero => rw [Dev.landAll, landStep_nil d k h]; rfl
  | succ n ih => rw [Dev.landAll, landStep_nil d k h, ih _ (by simp), mapCore_mapCore]

theorem trapSave_cores (d : Dev) (k epc : Nat) (int : Bool) (code : Nat) (tv : Option Nat) (eob : Bool) (ds : Nat)
    (tg : Option (BitVec 16)) : (d.trapSave k epc int code tv eob ds tg).cores = d.cores := by
  cases tv <;> cases tg <;> simp only [Dev.trapSave, setF_cores]
@[simp] theorem trapSave_core (d : Dev) (k epc : Nat) (int : Bool) (code : Nat) (tv : Option Nat) (eob : Bool) (ds : Nat)
    (tg : Option (BitVec 16)) (j : Nat) : (d.trapSave k epc int code tv eob ds tg).core j = d.core j := by
  unfold Dev.core
  rw [trapSave_cores]
@[simp] theorem trapSave_mem (d : Dev) (k epc : Nat) (int : Bool) (code : Nat) (tv : Option Nat) (eob : Bool) (ds : Nat)
    (tg : Option (BitVec 16)) : (d.trapSave k epc int code tv eob ds tg).mem = d.mem := by
  cases tv <;> cases tg <;> simp only [Dev.trapSave, setF_mem]

/-- A taken exception or interrupt ends its bundle. -/
theorem trapEnter_done (d : Dev) (k epc : Nat) (int : Bool) (code : Nat) (tv : Option Nat) (eob : Bool)
    (hs : (d.core k).step = false) (hi : (d.core k).inflight = []) :
    (d.trapEnter k epc int code tv eob).bundleDone k = d.trapEnter k epc int code tv eob := by
  simp only [Dev.trapEnter, landAll_nil d k 7 hi, Dev.bundleDone, mapCore_mapCore]
  refine mapCore_eq _ _ _ _ ?_
  simp [hs]

theorem f_lt (d : Dev) (x : Fld) : d.f x < 2 ^ x.w := bitsOf_lt _ _ _

/-- What an exception leaves in the registers: the saved level, interrupt enable, delay slots and loop flags; the cause,
the value and the pc; M level with interrupts off and no loop. -/
theorem trapSave_status (d : Dev) (k epc : Nat) (int : Bool) (code : Nat) (tv : Option Nat) (eob : Bool) (ds : Nat)
    (tg : Option (BitVec 16)) :
    let t := d.trapSave k epc int code tv eob ds tg
    t.f (F.CORE_STATUS_PPRIV k) = d.f (F.CORE_STATUS_PRIV k) ∧ t.f (F.CORE_STATUS_PIE k) = d.f (F.CORE_STATUS_IE k) ∧
    t.f (F.CORE_STATUS_PRIV k) = 3 ∧ t.f (F.CORE_STATUS_IE k) = 0 ∧
    t.f (F.CORE_STATUS_LA k) = 0 ∧ t.f (F.CORE_STATUS_RA k) = 0 := by
  have p1 := f_lt d (F.CORE_STATUS_PRIV k)
  have p2 := f_lt d (F.CORE_STATUS_IE k)
  simp only [F.CORE_STATUS_PRIV, F.CORE_STATUS_IE] at p1 p2
  cases tv <;> cases tg <;>
  · refine ⟨?_, ?_, ?_, ?_, ?_, ?_⟩ <;>
    · simp [Dev.trapSave, f_setF_cases, F.CORE_STATUS_PRIV, F.CORE_STATUS_IE, F.CORE_STATUS_PPRIV, F.CORE_STATUS_PIE, F.CORE_STATUS_LA,
        F.CORE_STATUS_RA, F.CORE_ESTATE_DS, F.CORE_ESTATE_LA, F.CORE_ESTATE_RA, F.CORE_ESTATE_EOB, F.CORE_EBT_EBT, F.CORE_EPC_EPC,
        F.CORE_CAUSE_CODE, F.CORE_CAUSE_INT, F.CORE_TVAL_TVAL]
      try omega

theorem trapSave_saved (d : Dev) (k epc : Nat) (int : Bool) (code v : Nat) (eob : Bool) (ds : Nat)
    (tg : Option (BitVec 16)) :
    let t := d.trapSave k epc int code (some v) eob ds tg
    t.f (F.CORE_ESTATE_DS k) = ds % 4 ∧ t.f (F.CORE_ESTATE_LA k) = d.f (F.CORE_STATUS_LA k) ∧
    t.f (F.CORE_ESTATE_RA k) = d.f (F.CORE_STATUS_RA k) ∧ t.f (F.CORE_ESTATE_EOB k) = b2n eob ∧
    t.f (F.CORE_EPC_EPC k) = epc / 4 % 2 ^ 14 ∧ t.f (F.CORE_CAUSE_CODE k) = code % 64 ∧ t.f (F.CORE_CAUSE_INT k) = b2n int ∧
    t.f (F.CORE_TVAL_TVAL k) = v % 2 ^ 32 := by
  have p3 := f_lt d (F.CORE_STATUS_LA k)
  have p4 := f_lt d (F.CORE_STATUS_RA k)
  have e1 : b2n eob % 2 = b2n eob := by cases eob <;> rfl
  have e2 : b2n int % 2 = b2n int := by cases int <;> rfl
  simp only [F.CORE_STATUS_LA, F.CORE_STATUS_RA] at p3 p4
  cases tg <;>
  · refine ⟨?_, ?_, ?_, ?_, ?_, ?_, ?_, ?_⟩ <;>
    · simp [Dev.trapSave, f_setF_cases, F.CORE_STATUS_PRIV, F.CORE_STATUS_IE, F.CORE_STATUS_PPRIV, F.CORE_STATUS_PIE, F.CORE_STATUS_LA,
        F.CORE_STATUS_RA, F.CORE_ESTATE_DS, F.CORE_ESTATE_LA, F.CORE_ESTATE_RA, F.CORE_ESTATE_EOB, F.CORE_EBT_EBT, F.CORE_EPC_EPC,
        F.CORE_CAUSE_CODE, F.CORE_CAUSE_INT, F.CORE_TVAL_TVAL, e1, e2]
      try omega

/-- What an exception does not touch: the registers of the cores but pc and what waits, every other core, and memory; and
where the core goes on. -/
theorem trapEnter_keeps (d : Dev) (k epc : Nat) (int : Bool) (code : Nat) (tv : Option Nat) (eob : Bool)
    (hi : (d.core k).inflight = []) :
    let t := d.trapEnter k epc int code tv eob
    (t.core k).g = (d.core k).g ∧ (t.core k).a = (d.core k).a ∧ (t.core k).p = (d.core k).p ∧ (t.core k).v = (d.core k).v ∧
    (t.core k).pc = BitVec.ofNat 16 (d.f (F.CORE_TVEC_BASE k) * 64 + (if int then 0x40 else 0)) ∧ (t.core k).ds = 0 ∧
    (t.core k).mode = .run ∧ t.mem = d.mem ∧ (∀ j, j ≠ k → t.core j = d.core j) := by
  simp only [Dev.trapEnter, landAll_nil d k 7 hi, core_mapCore_same, trapSave_core, f_mapCore, mapCore_mem, trapSave_mem, true_and]
  intro j hj
  rw [core_mapCore_ne _ _ _ _ hj, trapSave_core, core_mapCore_ne _ _ _ _ hj]

/-- A lone instruction that raises a precise exception of its own: nothing of it but the exception happens. -/
theorem instr_trap (sp : Spine) (d : Dev) (i : Instr) (h : Hd) (x : Sem) (c v : Nat)
    (hh : headOf i = some h) (hl : h.last = true) (ha : Alone sp d h.k)
    (hs : semOf sp (held d h.k [i]) i = some (h, x)) (hg : x.gather = none)
    (ht : (held d h.k [i]).trapOf h.k x = some (c, v)) :
    issueInstr i (sp, d) = (sp, (landed d h.k [i] []).trapEnter h.k (d.core h.k).pc.toNat false c (some v) false) := by
  have hb := ha.bundle
  have hst := still_of sp d h.k ha
  have hiss : (held d h.k [i]).issues sp h.k = true := by
    have := ha.issues
    simpa [Dev.issues, held] using this
  have hm : (d.mapCore h.k fun c => { c with bundle := c.bundle ++ [i] }) = held d h.k [i] := by
    simp [Dev.mapCore, held, hb]
  have hstep : issueInstr i (sp, d) = issue h.k none (sp, held d h.k [i]) := by
    simp [issueInstr, hh, ha.issues, hl, hm, hb]
  have hL : (held d h.k [i]).loopEnd h.k = held d h.k [i] := loopEnd_off _ _ ha.la
  have hR : (held d h.k [i]).rptEnd h.k = held d h.k [i] := rptEnd_off _ _ ha.ra
  have hscb := scbHit_none { d.core h.k with bundle := [i] } [x] ha.cx
  have hsem := semsOf_lone sp d i h x ha.listed hs
  have hact : actsOf [x] (some 0) = [] := by simp [actsOf, hg]
  have hfi : ((held d h.k [i]).core h.k).fills = [] := by rw [held_core]; exact hst.fills
  have hed : ((held d h.k [i]).core h.k).eslDone = none := by rw [held_core]; exact hst.eslDone
  have hp : ∀ lvl, putAll h.k lvl [] (held d h.k [i]) = (true, held d h.k [i]) := fun lvl => putAll_plain h.k lvl [] _ (by simp) hfi
  have hland := land_lone d h.k [i] [] hst.inflight (by simp)
  have e2 : ((landed d h.k [i] []).core h.k).step = false := by simp [landed, hst.step]
  have e3 : ((landed d h.k [i] []).core h.k).inflight = [] := by simp [landed]
  rw [hstep]
  unfold issue
  simp only [hiss, hL, hR, hsem, bundleBad_one, Dev.firstTrap, ht, Option.map_some, hact, List.flatMap_nil, held_core, hscb,
    List.getLast?_singleton, Option.bind_some, hh, hl, Option.getD_some, Bool.and_self, if_true, fences, List.any_nil, Core.far,
    loadAccs, storeAccs, List.mapIdx_nil, List.contains_nil, Bool.or_self, Bool.not_false, Bool.and_false, Bool.false_and,
    Bool.false_eq_true, if_false, List.length_singleton, Option.getD_none]
  unfold issueGo
  simp only [List.flatMap_nil, storeAccs, loadAccs, fetchLines, storeFirst, List.any_nil, Bool.false_and, Bool.false_eq_true,
    if_false, Bool.not_true, Bool.or_self, fetchElems, resolve, Core.regWaits, List.map_nil, hed, Option.isNone_some,
    Option.getD_none, issueEnd, hp, if_true]
  unfold commit
  simp only [List.foldl_nil, held_tries d h.k [i] hst.tries, List.map_nil, List.append_nil] at hland ⊢
  rw [hland]
  simp only [held_core]
  exact congrArg _ (trapEnter_done _ _ _ _ _ _ _ e2 e3)

end Sys2Proof.Laws
end

