-- ==== Sys2Proof/Laws/Regs.lean ====
section
/-! SUPPORT. What a register access comes to: the block that an address lies in, and the write of a register by a
requester in service. -/

namespace Sys2Proof.Laws

open Sys2Proof.Machine

/-- The addresses of a block of the hub. -/
theorem blkOf_hub (o : Nat) (b : Blk) (h : o < 0x70000)
    (hb : b = if o / 0x10000 = 0 then Blk.gso else if o / 0x10000 = 1 then .evt else if o / 0x10000 = 2 then .tb
      else if o / 0x10000 = 3 then .trm else if o / 0x10000 = 4 then .lc else if o / 0x10000 = 5 then .hst else .eur) :
    blkOf (0x02010000000 + o) = some (b, o % 0x10000) := by
  subst hb
  unfold blkOf
  rw [if_neg (by omega), if_pos (by omega)]
  simp only [Nat.add_sub_cancel_left]
  rw [if_pos h]
  obtain ⟨x, hx⟩ : ∃ x, o / 0x10000 = x := ⟨_, rfl⟩
  have hd : x < 7 := by omega
  rw [hx]
  interval_cases x <;> rfl

/-- The same, for an address `a` and its offset `w` in the block. -/
theorem blkOf_hub_at (o a : Nat) (b : Blk) (w : Nat) (h : a = 0x02010000000 + o) (ho : o < 0x70000) (hw : w = o % 0x10000)
    (hb : b = if o / 0x10000 = 0 then Blk.gso else if o / 0x10000 = 1 then .evt else if o / 0x10000 = 2 then .tb
      else if o / 0x10000 = 3 then .trm else if o / 0x10000 = 4 then .lc else if o / 0x10000 = 5 then .hst else .eur) :
    blkOf a = some (b, w) := by
  subst h hw
  exact blkOf_hub o b ho hb

/-- The addresses of a port's `FH` block. -/
theorem blkOf_fh (p o : Nat) (hp : p < 16) (h : o < 0x10000) : blkOf (blkBase (.fh p) + o) = some (.fh p, o) := by
  show blkOf (0x02010100000 + p * 0x10000 + o) = _
  unfold blkOf
  have h1 : (0x02010100000 + p * 0x10000 + o - 0x02010000000 - 0x100000) / 0x10000 = p := by omega
  have h2 : (0x02010100000 + p * 0x10000 + o - 0x02010000000) % 0x10000 = o := by omega
  rw [if_neg (by omega), if_pos (by omega)]
  simp only [h1, h2]
  rw [if_neg (by omega), if_pos (by omega)]

/-- The addresses of the `NCE` block. -/
theorem blkOf_nce (o : Nat) (h : o < 0x100000) : blkOf (blkBase .nce + o) = some (.nce, o) := by
  show blkOf (0x02010200000 + o) = _
  unfold blkOf
  have h1 : 0x02010200000 + o - 0x02010000000 - 0x200000 = o := by omega
  rw [if_neg (by omega), if_pos (by omega)]
  simp only [h1]
  repeat rw [if_neg (by omega)]
  rw [if_pos (by omega)]

/-- The addresses of the `GLZ` block. -/
theorem blkOf_glz (o : Nat) (h : o < 0x100000) : blkOf (blkBase .glz + o) = some (.glz, o) := by
  show blkOf (0x02010300000 + o) = _
  unfold blkOf
  have h1 : 0x02010300000 + o - 0x02010000000 - 0x300000 = o := by omega
  rw [if_neg (by omega), if_pos (by omega)]
  simp only [h1]
  repeat rw [if_neg (by omega)]
  rw [if_pos (by omega)]

/-- The addresses of the hub's `PAL` block. -/
theorem blkOf_palh (o : Nat) (h : o < 0x10000) : blkOf (blkBase .palh + o) = some (.palh, o) := by
  show blkOf (0x02010400000 + o) = _
  unfold blkOf
  have h1 : (0x02010400000 + o - 0x02010000000) % 0x10000 = o := by omega
  rw [if_neg (by omega), if_pos (by omega)]
  simp only [h1]
  repeat rw [if_neg (by omega)]
  rw [if_pos (by omega)]

/-- The addresses of the hub's `ESL` block. -/
theorem blkOf_eslh (o : Nat) (h : o < 0x10000) : blkOf (blkBase .eslh + o) = some (.eslh, o) := by
  show blkOf (0x02010500000 + o) = _
  unfold blkOf
  have h1 : (0x02010500000 + o - 0x02010000000) % 0x10000 = o := by omega
  rw [if_neg (by omega), if_pos (by omega)]
  simp only [h1]
  repeat rw [if_neg (by omega)]
  rw [if_pos (by omega)]

/-- The addresses of the hub's `GST` block. -/
theorem blkOf_gsth (o : Nat) (h : o < 0x10000) : blkOf (blkBase .gsth + o) = some (.gsth, o) := by
  show blkOf (0x02010600000 + o) = _
  unfold blkOf
  have h1 : (0x02010600000 + o - 0x02010000000) % 0x10000 = o := by omega
  rw [if_neg (by omega), if_pos (by omega)]
  simp only [h1]
  repeat rw [if_neg (by omega)]
  rw [if_pos (by omega)]

/-- The addresses of a region's `GST` block. -/
theorem blkOf_gstr (r o : Nat) (hr : r < 16) (h : o < 0x10000) : blkOf (blkBase (.gstr r) + o) = some (.gstr r, o) := by
  show blkOf (0x01000000000 + r * 0x10000000 + 0x0F010000 + o) = _
  unfold blkOf
  have h1 : (0x01000000000 + r * 0x10000000 + 0x0F010000 + o - 0x01000000000) / 0x10000000 = r := by omega
  obtain ⟨w, hw, hl⟩ : ∃ w, w = 0x0F010000 + o ∧ 0x0F010000 ≤ w := ⟨_, rfl, by omega⟩
  have hu : w < 0x0F010000 + 0x10000 := by omega
  have h2 : (0x01000000000 + r * 0x10000000 + 0x0F010000 + o - 0x01000000000) % 0x10000000 = w := by omega
  have h3 : (w - 0x0F000000) / 0x10000 = 1 := by
    clear hw h2 h1
    omega
  have h4 : w % 0x10000 = o := by omega
  rw [if_pos (by omega)]
  simp only [h1, h2]
  rw [if_neg (by omega), if_pos (by omega), h3, h4]
  rfl

/-- The addresses of a region's `ENC` block. -/
theorem blkOf_enc (r o : Nat) (hr : r < 16) (h : o < 0x10000) : blkOf (blkBase (.enc r) + o) = some (.enc r, o) := by
  show blkOf (0x01000000000 + r * 0x10000000 + 0x0F050000 + o) = _
  unfold blkOf
  have h1 : (0x01000000000 + r * 0x10000000 + 0x0F050000 + o - 0x01000000000) / 0x10000000 = r := by omega
  obtain ⟨w, hw, hl⟩ : ∃ w, w = 0x0F050000 + o ∧ 0x0F050000 ≤ w := ⟨_, rfl, by omega⟩
  have hu : w < 0x0F050000 + 0x10000 := by omega
  have h2 : (0x01000000000 + r * 0x10000000 + 0x0F050000 + o - 0x01000000000) % 0x10000000 = w := by omega
  have h3 : (w - 0x0F000000) / 0x10000 = 5 := by
    clear hw h2 h1
    omega
  have h4 : w % 0x10000 = o := by omega
  rw [if_pos (by omega)]
  simp only [h1, h2]
  rw [if_neg (by omega), if_pos (by omega), h3, h4]
  rfl

/-- The addresses of a region's `PAL` block. -/
theorem blkOf_palr (r o : Nat) (hr : r < 16) (h : o < 0x10000) : blkOf (blkBase (.palr r) + o) = some (.palr r, o) := by
  show blkOf (0x01000000000 + r * 0x10000000 + 0x0F060000 + o) = _
  unfold blkOf
  have h1 : (0x01000000000 + r * 0x10000000 + 0x0F060000 + o - 0x01000000000) / 0x10000000 = r := by omega
  obtain ⟨w, hw, hl⟩ : ∃ w, w = 0x0F060000 + o ∧ 0x0F060000 ≤ w := ⟨_, rfl, by omega⟩
  have hu : w < 0x0F060000 + 0x10000 := by omega
  have h2 : (0x01000000000 + r * 0x10000000 + 0x0F060000 + o - 0x01000000000) % 0x10000000 = w := by omega
  have h3 : (w - 0x0F000000) / 0x10000 = 6 := by
    clear hw h2 h1
    omega
  have h4 : w % 0x10000 = o := by omega
  rw [if_pos (by omega)]
  simp only [h1, h2]
  rw [if_neg (by omega), if_pos (by omega), h3, h4]
  rfl

/-- No die fences an address outside every region's window. -/
theorem fencedDie_out (sp : Spine) (a : Nat) (h : winRegion a = none) : fencedDie sp a = none := by
  unfold fencedDie; rw [h]

/-- An address in a block is register space. -/
theorem tgtOf_blk (a : Nat) (x : Blk × Nat) (h : blkOf a = some x) : tgtOf a = .regs := by
  have hi : inBlocks a = true := by simp [inBlocks, h]
  unfold blkOf at h
  split at h
  · simp only [] at h
    split at h
    · cases h
    · unfold tgtOf
      rw [if_neg (by omega), if_neg (by omega), if_pos (by omega)]
      generalize (a - 0x01000000000) % 0x10000000 = o at *
      simp only []
      rw [if_neg (show ¬ o < 0x01800000 by omega), if_neg (show ¬ (0x02000000 ≤ o ∧ o < 0x02600000) by omega),
        if_neg (show ¬ (0x08000000 ≤ o ∧ o < 0x08800000) by omega), if_pos hi]
  · split at h
    · unfold tgtOf
      repeat rw [if_neg (by omega)]
      rw [if_pos (by omega), if_pos hi]
    · cases h

/-- A register access by a requester in service: what the block does with the write, then the bundles that wait. -/
theorem regStep_eq (s : State) (q : Req) (a : Nat) (v : Word) (b : Blk) (o : Nat) (hq : reqGone s.spine s.dev q = false)
    (ha : a % 4 = 0) (hf : fencedDie s.spine a = none) (hb : regBad q a = false) (hbl : blkOf a = some (b, o)) :
    wholeCmd s (regStep q a v) =
      s.written (blkWrite q b o a v (s.spine, s.dev.given q a v)).1 (blkWrite q b o a v (s.spine, s.dev.given q a v)).2 := by
  have hw : wordsOf (leBytes 4 v.toNat) (leBytes 4 v.toNat).length = [v] := by
    have hl : (leBytes 4 v.toNat).length = 4 := rfl
    rw [hl]
    show (if (leBytes 4 v.toNat).length < 4 then [] else BitVec.ofNat 32 (ofLeBytes ((leBytes 4 v.toNat).take 4)) :: wordsOf ((leBytes 4 v.toNat).drop 4) 3) = [v]
    rw [hl, if_neg (by omega)]
    have h0 : wordsOf ((leBytes 4 v.toNat).drop 4) 3 = [] := rfl
    have h1 : ofLeBytes ((leBytes 4 v.toNat).take 4) = v.toNat := by
      have hv := v.isLt
      simp only [leBytes, ofLeBytes, List.take, BitVec.toNat_ofNat]
      omega
    rw [h0, h1, BitVec.ofNat_toNat, BitVec.setWidth_eq]
  have hs : regStep q a v (s.spine, s.dev) = retryFences (blkWrite q b o a v (s.spine, s.dev.given q a v)) := by
    unfold regStep
    simp only [hq, Bool.false_eq_true, if_false, tgtOf_blk a (b, o) hbl, if_true]
    show retryFences (regWriteBytes q a _ (s.spine, s.dev.given q a v)) = _
    unfold regWriteBytes
    rw [if_pos ⟨ha, Nat.le_refl 4⟩, hw]
    show retryFences (regWriteWord q a v (s.spine, s.dev.given q a v)) = _
    unfold regWriteWord
    simp only [hf, hb, hbl, Bool.false_eq_true, if_false]
  unfold wholeCmd State.onWhole State.written
  rw [hs]

/-- No die fences an address of the hub. -/
theorem fencedDie_hub (sp : Spine) (a : Nat) (h : 0x02000000000 ≤ a) : fencedDie sp a = none :=
  fencedDie_out sp a (by unfold winRegion; rw [if_neg (by omega)])

/-- No die fences a region's registers while its own die stands. -/
theorem fencedDie_region (sp : Spine) (a r o : Nat) (hr : r < 16) (ho : o < 0x1000000)
    (ha : a = 0x01000000000 + r * 0x10000000 + 0x0F000000 + o) (hd : sp.contain.dies.contains (r / 4) = false) :
    fencedDie sp a = none := by
  unfold fencedDie winRegion
  rw [if_pos (by omega)]
  have e : (a - 0x01000000000) / 0x10000000 = r := by omega
  rw [e]
  simp only [hd, Bool.false_eq_true, if_false]

/-- A write of a bank's register where the die and the bank are in service. -/
theorem bankWrite_open (sp : Spine) (d : Dev) (q : Req) (r n a : Nat) (d' : Dev) (hf : fencedDie sp a = none)
    (hu : sp.contain.units.contains (bankUid r n) = false) : d.bankWrite sp q r n a d' = d' := by
  unfold Dev.bankWrite
  rw [hf]
  simp only [hu, Bool.false_eq_true, if_false]

/-- The row of a block at the head of its list is the one looked for. -/
theorem findReg_here (r : RegSpec) (t : List RegSpec) (off : Nat)
    (h : r.off ≤ off ∧ (off - r.off) % r.stride = 0 ∧ (off - r.off) / r.stride < r.count) :
    findReg (r :: t) off = some (r, (off - r.off) / r.stride) := by
  unfold findReg; rw [if_pos h]

/-- The row of a block at the head of its list is not the one looked for. -/
theorem findReg_skip (r : RegSpec) (t : List RegSpec) (off : Nat)
    (h : ¬ (r.off ≤ off ∧ (off - r.off) % r.stride = 0 ∧ (off - r.off) / r.stride < r.count)) :
    findReg (r :: t) off = findReg t off := by
  rw [findReg, if_neg h]

/-- A register of a block whose every register M-level hub firmware may access is no decode error; its fields. -/
theorem regBad_of (q : Req) (a : Nat) (b : Blk) (o : Nat) (fs : List FieldSpec) (hb : blkOf a = some (b, o))
    (ha : a < 0x40000000000) (hf : (findReg (blkRegs b) o).map (·.1.fields) = some fs)
    (hp : (match b with
      | .hst | .core _ | .fh _ | .gstr _ | .palr _ => true
      | _ => false) = false) :
    regBad q a = false ∧ fieldsAt a = some fs := by
  have h2 : fieldsAt a = some fs := by
    unfold fieldsAt
    rw [if_neg (by omega), hb]
    simp only [hf]
    cases b <;> first | rfl | (simp at hp)
  refine ⟨?_, h2⟩
  unfold regBad regHole
  rw [hb, h2]
  cases b <;> first | rfl | (simp at hp)

/-- A register that is no hole of its block, and no core's, M-level hub firmware may access. -/
theorem regBad_gen (q : Req) (a : Nat) (b : Blk) (o : Nat) (hb : blkOf a = some (b, o))
    (hc : (match b with
      | .core _ => true
      | _ => false) = false)
    (h : (match b with
      | .hst => !hstListed o
      | .fh _ => o != 0x70 && (fieldsAt a).isNone
      | _ => (fieldsAt a).isNone) = false) : regBad q a = false := by
  unfold regBad regHole
  rw [hb]
  cases b <;> first
    | (simp at hc; done)
    | (simp only [] at h ⊢; rw [h]; rfl)

/-- Only its cores' write buffers change when a device is given a write. -/
theorem given_eq (d : Dev) (q : Req) (a : Nat) (v : Word) : ∃ cs, d.given q a v = { d with cores := cs } := by
  unfold Dev.given
  split
  · exact ⟨_, rfl⟩
  · exact ⟨_, rfl⟩

/-- What the cores do not hold stays as it was when a device is given a write. -/
theorem given_get {α : Type} (g : Dev → α) (hg : ∀ (d : Dev) (cs : SMap Core), g { d with cores := cs } = g d) (d : Dev) (q : Req)
    (a : Nat) (v : Word) : g (d.given q a v) = g d := by
  obtain ⟨cs, h⟩ := given_eq d q a v
  rw [h]; exact hg d cs

@[simp] theorem given_reg (d : Dev) (q : Req) (a b : Nat) (v : Word) : (d.given q a v).reg b = d.reg b :=
  given_get (fun d => d.reg b) (fun _ _ => rfl) d q a v
@[simp] theorem given_f (d : Dev) (q : Req) (a : Nat) (v : Word) (x : Fld) : (d.given q a v).f x = d.f x :=
  given_get (fun d => d.f x) (fun _ _ => rfl) d q a v
@[simp] theorem given_fb (d : Dev) (q : Req) (a : Nat) (v : Word) (x : Fld) : (d.given q a v).fb x = d.fb x :=
  given_get (fun d => d.fb x) (fun _ _ => rfl) d q a v

/-- A register write by M-level hub firmware, whose effect `he` states. -/
theorem regStep_fw (s : State) (q : Req) (a : Nat) (v : Word) (b : Blk) (o : Nat) (sp' : Spine) (d' : Dev) (h : Fw s q)
    (ha : a % 4 = 0) (hf : fencedDie s.spine a = none) (hb : regBad q a = false) (hbl : blkOf a = some (b, o))
    (he : blkWrite q b o a v (s.spine, s.dev.given q a v) = (sp', d')) :
    wholeCmd s (regStep q a v) = s.written sp' d' := by
  rw [regStep_eq s q a v b o h.here ha hf hb hbl, he]

end Sys2Proof.Laws
end

