-- ==== Sys2Proof/Laws/Spine.lean ====
section
/-! SUPPORT. What a command can do to time and containment: one relation between the spine before and after, and that
every effect on the whole block stays within it. -/

namespace Sys2Proof.Machine

/-- The invariant of the spine: the source of a package fault is one that R598 lists, and the times shown late are few and
past. -/
structure Spine.Ok (sp : Spine) : Prop where
  pkg : sp.contain.pkg ≤ 8
  few : sp.recent.length ≤ recentMax
  past : ∀ u ∈ sp.recent, u ≤ sp.now

/-- A spine that commands other than the full reset and the loss of power may lead to: time has not gone back, nothing
has returned to service, and the invariant is kept. -/
structure Spine.Later (a b : Spine) : Prop where
  now : a.now ≤ b.now
  pkg : a.contain.pkg ≠ 0 → b.contain.pkg ≠ 0
  units : ∀ x ∈ a.contain.units, x ∈ b.contain.units
  chans : ∀ x ∈ a.contain.chans, x ∈ b.contain.chans
  clusters : ∀ x ∈ a.contain.clusters, x ∈ b.contain.clusters
  dies : ∀ x ∈ a.contain.dies, x ∈ b.contain.dies
  ok : a.Ok → b.Ok

theorem Spine.Later.refl (a : Spine) : a.Later a :=
  by constructor <;> simp

theorem Spine.Later.trans {a b c : Spine} (h : a.Later b) (k : b.Later c) : a.Later c where
  now := h.now.trans k.now
  ok := k.ok ∘ h.ok
  pkg := k.pkg ∘ h.pkg
  units u := k.units u ∘ h.units u
  chans u := k.chans u ∘ h.chans u
  dies u := k.dies u ∘ h.dies u
  clusters u := k.clusters u ∘ h.clusters u

/-- What is out of service stays out of service. -/
theorem Spine.Later.out {a b : Spine} (h : a.Later b) (u : Nat) (x : a.contain.out u = true) : b.contain.out u = true := by
  simp only [Contain.out, Bool.or_eq_true, Bool.and_eq_true, List.contains_iff_mem, bne_iff_ne] at x ⊢
  rcases x with ((x | x) | x) | ⟨x, y⟩
  · exact .inl (.inl (.inl (h.pkg x)))
  · exact .inl (.inl (.inr (h.units _ x)))
  · exact .inl (.inr (h.dies _ x))
  · exact .inr ⟨x, h.clusters _ y⟩

theorem Spine.Later.gone {a b : Spine} (h : a.Later b) (u ch : Nat) (x : a.contain.gone u ch = true) :
    b.contain.gone u ch = true := by
  simp only [Contain.gone, Bool.or_eq_true, List.contains_iff_mem] at x ⊢
  exact x.imp (h.out u) (h.chans _)

/-! ## The basic changes -/

/-- A change of containment that only adds leads to a later spine. -/
theorem Spine.Later.of_contain (sp : Spine) (c : Contain) (hp : sp.contain.pkg ≠ 0 → c.pkg ≠ 0)
    (h8 : sp.contain.pkg ≤ 8 → c.pkg ≤ 8) (hu : sp.contain.units ⊆ c.units) (hc : sp.contain.chans ⊆ c.chans)
    (hk : sp.contain.clusters ⊆ c.clusters) (hd : sp.contain.dies ⊆ c.dies) : sp.Later { sp with contain := c } where
  now := le_rfl
  pkg := hp
  units _ := @hu _
  chans _ := @hc _
  clusters _ := @hk _
  dies _ := @hd _
  ok h := { pkg := h8 h.pkg, few := h.few, past := h.past }
theorem addUnit_later (sp : Spine) (u : Nat) : sp.Later (sp.addUnit u) := by
  apply Spine.Later.of_contain <;> simp
theorem addChan_later (sp : Spine) (u ch : Nat) : sp.Later (sp.addChan u ch) := by
  apply Spine.Later.of_contain <;> simp
theorem addCluster_later (sp : Spine) (c : Nat) : sp.Later (sp.addCluster c) := by
  apply Spine.Later.of_contain <;> simp
theorem addDie_later (sp : Spine) (d : Nat) : sp.Later (sp.addDie d) := by
  apply Spine.Later.of_contain <;> simp
theorem setPkg_later (sp : Spine) (n : Nat) (h1 : 1 ≤ n) (h8 : n ≤ 8) : sp.Later (sp.setPkg n) := by
  apply Spine.Later.of_contain <;> simp <;> omega
theorem goto_later (sp : Spine) (n : Nat) : sp.Later (sp.goto (sp.now + n)) := by
  have h : sp.Ok → (sp.goto (sp.now + n)).Ok := by
    intro ok
    refine { pkg := ok.pkg, few := List.length_take_le _ _, past := fun u hu => ?_ }
    rcases List.mem_cons.1 (List.mem_of_mem_take hu) with rfl | hm
    · exact Nat.le_add_right _ _
    · exact (ok.past u hm).trans (Nat.le_add_right _ _)
  constructor <;> first | exact h | exact Nat.le_add_right _ _ | simp [Spine.goto]
theorem stepTime_later (sp : Spine) (d : Dev) (s : Int) : sp.Later (stepTime sp d s).1 := by
  unfold stepTime
  split
  · exact .refl _
  · exact goto_later _ _
theorem tick_later (w : Whole) : w.1.Later (tick w).1 := goto_later _ _

/-- An effect on the whole block that keeps to the relation. -/
abbrev Keeps (f : Whole → Whole) : Prop := ∀ w : Whole, w.1.Later (f w).1

/-- The relation where the effect acts on a spine with a device made for it. -/
theorem Keeps.pair {f : Whole → Whole} (h : Keeps f) (sp : Spine) (d : Dev) : sp.Later (f (sp, d)).1 := h (sp, d)
theorem Spine.Later.pair {a b : Spine} (h : a.Later b) (d : Dev) : a.Later (b, d).1 := h
theorem Keeps.comp {f g : Whole → Whole} (hf : Keeps f) (hg : Keeps g) : Keeps fun w => g (f w) :=
  fun w => (hf w).trans (hg (f w))
theorem Keeps.dev (f : Spine → Dev → Dev) : Keeps fun w => (w.1, f w.1 w.2) := fun w => .refl w.1
/-- A fold of effects. -/
theorem foldl_later {α : Type} (f : Whole → α → Whole) (hf : ∀ a, Keeps fun w => f w a) (l : List α) (w : Whole) :
    w.1.Later (l.foldl f w).1 := by
  induction l generalizing w with
  | nil => exact .refl _
  | cons a t ih => exact (hf a w).trans (ih _)

theorem foldl_pair {α : Type} (f : Whole → α → Whole) (hf : ∀ a, Keeps fun w => f w a) (l : List α) (sp : Spine) (d : Dev) :
    sp.Later (l.foldl f (sp, d)).1 := foldl_later f hf l (sp, d)

/-! ## Faults (R23 to R30) -/

theorem packageFault_later (src rail : Nat) : Keeps (packageFault src rail) := by
  intro w
  unfold packageFault
  split
  · rename_i h
    simp only [within, Bool.and_eq_true, decide_eq_true_eq] at h
    split
    · exact setPkg_later _ _ h.1 h.2
    · exact .refl _
  · exact .refl _
theorem clusterQuarantine_later (c : Nat) : Keeps (clusterQuarantine c) := by
  intro w
  unfold clusterQuarantine
  split
  · exact .refl _
  · split
    · exact .refl _
    · exact addCluster_later _ _
theorem dieFence_later (die : Nat) : Keeps (dieFence die) := by
  intro w
  unfold dieFence
  split
  · exact .refl _
  · split
    · exact .refl _
    · exact addDie_later _ _
theorem unitCase_later (uid : Nat) (ev : Dev → Dev) (quar : Whole → Whole) (h : Keeps quar) :
    Keeps fun w => unitCase uid w ev quar := by
  intro w
  dsimp only
  unfold unitCase
  split
  · exact .refl _
  · split
    · exact .refl _
    · exact h w
theorem coreFault_later (k : Nat) : Keeps (coreFault k) := by
  intro w
  have h1 := unitCase_later (coreUid k) (coreEvent k)
    (fun v => (v.1.addUnit (coreUid k), coreEvent k ((v.2.coreLost k).handBackAll (coreUid k) 0)))
    (fun v => addUnit_later v.1 (coreUid k)) w
  unfold coreFault
  dsimp only
  split
  · exact h1.trans (clusterQuarantine_later _ _)
  · exact h1
theorem csFault_later (c u : Nat) : Keeps (csFault c u) := unitCase_later _ _ _ fun v => addUnit_later v.1 _
theorem bankFault_later (r n : Nat) : Keeps (bankFault r n) := unitCase_later _ _ _ fun v => addUnit_later v.1 _
theorem engineFault_later (r e : Nat) : Keeps (engineFault r e) := unitCase_later _ _ _ fun v => addUnit_later v.1 _
theorem hubGustFault_later : Keeps hubGustFault := unitCase_later _ _ _ fun v => addUnit_later v.1 _
theorem nceFault_later : Keeps nceFault := unitCase_later _ _ _ fun v => addUnit_later v.1 _
theorem glazeFault_later : Keeps glazeFault := unitCase_later _ _ _ fun v => addUnit_later v.1 _
theorem otherFault_later (u : Nat) : Keeps (otherFault u) := unitCase_later _ _ _ fun v => addUnit_later v.1 _
theorem chanFault_later (e n : Nat) : Keeps (chanFault e n) := by
  intro w
  unfold chanFault
  split
  · split
    · exact .refl _
    · split
      · exact .refl _
      · exact addChan_later _ _ _
  · exact .refl _
theorem fault_later (x : FaultAt) : Keeps x.apply := by
  intro w
  cases x with
  | core k => exact coreFault_later k w
  | cs c u => exact csFault_later c u w
  | bank r n => exact bankFault_later r n w
  | engine r u => exact engineFault_later r u w
  | chan e n => exact chanFault_later e n w
  | hubGust => exact hubGustFault_later w
  | nce => exact nceFault_later w
  | glaze => exact glazeFault_later w
  | other u => exact otherFault_later u w
  | cluster c => exact clusterQuarantine_later c w
  | die i => exact dieFence_later i w
  | pkg src => exact packageFault_later src 0 w
  | nothing => exact .refl _
theorem unitFault_later (uid : Nat) : Keeps (unitFault uid) := fun w => fault_later _ w
/-- The fault of one unit alone is that unit's fault. -/
theorem faultsAt_single (x : FaultAt) (w : Whole) (h : x.covers x = false) : faultsAt [x] w = x.apply w := by
  cases x <;> simp [faultsAt, h, FaultAt.level]
theorem faultsAt_later (l : List FaultAt) : Keeps (faultsAt l) := by
  intro w
  unfold faultsAt
  dsimp only
  with_reducible exact foldl_pair _ (fun x => fault_later x) _ _ _
theorem washFault_later (t : WashTgt) : Keeps (washFault t) := by
  intro w
  unfold washFault
  split
  · exact bankFault_later _ _ _
  · split
    · exact coreFault_later _ _
    · exact packageFault_later _ _ _
  · exact .refl _
theorem avsSettle_later (mv : Nat) (nak : Bool) : Keeps (avsSettle mv nak) := by
  intro w
  unfold avsSettle
  dsimp only
  repeat' split
  all_goals first
    | exact packageFault_later 8 0 (w.1, w.2.setF F.GSO_AVS_STAT_ERR 1)
    | exact .refl _

/-! ## Registers and accesses -/

theorem stepGoWrite_later (q : Req) (v : Word) : Keeps (stepGoWrite q v) := by
  intro w
  unfold stepGoWrite
  dsimp only
  repeat' split
  all_goals first
    | exact .refl _
    | exact stepTime_later _ _ _
theorem blkWrite_later (q : Req) (b : Blk) (o a : Nat) (v : Word) : Keeps (blkWrite q b o a v) := by
  intro w
  unfold blkWrite
  cases b <;> dsimp only <;> first
    | exact .refl _
    | (split
       · exact stepGoWrite_later _ _ _
       · exact .refl _)
theorem regWriteWord_later (q : Req) (a : Nat) (v : Word) : Keeps (regWriteWord q a v) := by
  intro w
  unfold regWriteWord
  repeat' split
  all_goals first
    | exact .refl _
    | exact blkWrite_later _ _ _ _ _ _
theorem writeWords_later (f : Nat → Word → Whole → Whole) (hf : ∀ a v, Keeps (f a v)) (a : Nat) (l : List Word) :
    Keeps (writeWords f a l) := by
  intro w
  induction l generalizing a w with
  | nil => exact .refl _
  | cons v t ih => exact (hf a v w).trans (ih _ _)
theorem regWriteBytes_later (q : Req) (a : Nat) (data : List Byte) : Keeps (regWriteBytes q a data) := by
  intro w
  unfold regWriteBytes
  split
  · exact writeWords_later _ (regWriteWord_later q) _ _ _
  · exact .refl _
theorem hostWriteWord_later (f off : Nat) (v : Word) : Keeps (hostWriteWord f off v) := by
  intro w
  unfold hostWriteWord
  dsimp only
  repeat' split
  all_goals first
    | exact .refl _
    | exact blkWrite_later _ _ _ _ _ _
theorem hostWriteBytes_later (f off : Nat) (data : List Byte) : Keeps (hostWriteBytes f off data) := by
  intro w
  unfold hostWriteBytes
  split
  · exact writeWords_later _ (hostWriteWord_later f) _ _ _
  · split <;> exact .refl _
theorem regAcc_later (q : Req) (a n : Nat) (write : Bool) (data : List Byte) (w : Whole) :
    w.1.Later (regAcc q a n write data w).2.1 := by
  unfold regAcc
  split
  · with_reducible exact .refl _
  · dsimp only
    split
    · with_reducible exact regWriteBytes_later _ _ _ _
    · with_reducible exact .refl _
theorem portOn_later (a : Nat) (back : Bool) (w : Whole) (r : AccOut × Dev) : w.1.Later (portOn a back w r).2.1 := by
  unfold portOn
  split
  · split <;> with_reducible exact .refl _
  · with_reducible exact .refl _
theorem busAcc_later (q : Req) (a n : Nat) (write : Bool) (data : List Byte) (late back : Bool) (ext : List Byte)
    (tell : Bool) (w : Whole) : w.1.Later (busAcc q a n write data late back ext tell w).2.1 := by
  unfold busAcc
  split
  · with_reducible exact regAcc_later _ _ _ _ _ _
  · with_reducible exact .refl _
  · with_reducible exact .refl _
  · with_reducible exact portOn_later _ _ _ _
theorem busRead_later (q : Req) (a n : Nat) (ext : List Byte) (w : Whole) : w.1.Later (busRead q a n ext w).2.1 :=
  busAcc_later _ _ _ _ _ _ _ _ _ _
theorem busWrite_later (q : Req) (a : Nat) (data : List Byte) (late : Bool) (w : Whole) :
    w.1.Later (busWrite q a data late w).2.1 := busAcc_later _ _ _ _ _ _ _ _ _ _
theorem busReads_later (q : Req) (l : List (Nat × Nat)) (ext : List Byte) (w : Whole) :
    w.1.Later (busReads q l ext w).2.1 := by
  induction l generalizing ext w with
  | nil => exact .refl _
  | cons x t ih =>
    obtain ⟨a, n⟩ := x
    have h := busRead_later q a n ext w
    unfold busReads
    dsimp only
    split
    · split <;> exact h.trans (ih _ _)
    · exact h
theorem busPost_later (q : Req) (a : Nat) (data : List Byte) : Keeps (busPost q a data) := fun w => by
  unfold busPost
  with_reducible exact busAcc_later _ _ _ _ _ _ _ _ _ _

/-! ## Easel, Gust and the narrowband engine -/

theorem cqAppend_later (k s : Nat) (l : List Byte) : Keeps (cqAppend k s l) := by
  intro w
  unfold cqAppend
  dsimp only
  split
  · with_reducible exact .refl _
  · split
    · with_reducible exact .refl _
    · with_reducible exact Spine.Later.pair (busPost_later _ _ _ _) _
theorem complete_later (s : Nat) : Keeps (complete s) := by
  intro w
  have h : ∀ (d : Dev) (l : List Byte), w.1.Later
      ((if d.dCqEn s then cqAppend (d.dCq s) s l (w.1, d) else (w.1, d) : Whole)).1 := by
    intro d l
    split
    · with_reducible exact (cqAppend_later _ _ _).pair _ _
    · with_reducible exact .refl _
  unfold complete
  dsimp only
  split
  · with_reducible exact .refl _
  · split
    · with_reducible exact .refl _
    · split
      · with_reducible exact .refl _
      · with_reducible exact h _ _
theorem gstFetchStep_later (e n : Nat) (ext : List Byte) : Keeps (gstFetchStep e n ext) := by
  intro w
  unfold gstFetchStep
  split
  · split
    · with_reducible exact .refl _
    · dsimp only
      split <;> with_reducible exact busRead_later _ _ _ _ _
  · with_reducible exact .refl _
theorem gstCopy_later (e n : Nat) (ext : List Byte) : Keeps (gstCopy e n ext) := by
  intro w
  unfold gstCopy
  split
  · with_reducible exact .refl _
  · dsimp only
    split <;> with_reducible exact busRead_later _ _ _ _ _
theorem gstCompare_later (e n : Nat) (ext ext2 : List Byte) : Keeps (gstCompare e n ext ext2) := by
  intro w
  unfold gstCompare
  split
  · with_reducible exact .refl _
  · rename_i b x _
    have h : w.1.Later (if x.cmpPat then ((.ok (patBytes x.pat (w.2.chan e n).pos b.n), w) : AccOut × Whole)
        else busRead (gstReq e n) b.sa b.n ext w).2.1 := by
      split
      · with_reducible exact .refl _
      · with_reducible exact busRead_later _ _ _ _ _
    dsimp only
    split
    · split <;> with_reducible exact h.trans (busRead_later _ _ _ _ _)
    · with_reducible exact h
theorem gstLand_later (e i : Nat) : Keeps (gstLand e i) := by
  intro w
  unfold gstLand
  dsimp only
  split
  · with_reducible exact .refl _
  · split
    · with_reducible exact .refl _
    · split <;> with_reducible exact busAcc_later _ _ _ _ _ _ _ _ _ _
theorem nceWrites_later (l : List (Nat × List Byte)) (w : Whole) : w.1.Later (nceWrites l w).2.1 := by
  induction l generalizing w with
  | nil => exact .refl _
  | cons x t ih =>
    obtain ⟨a, y⟩ := x
    have h := busWrite_later nceReq a y (w.2.lateOf nceReq a y.length) w
    unfold nceWrites
    dsimp only
    split
    · with_reducible exact h
    · with_reducible exact h.trans (ih _)
theorem nceJobRun_later (g : Nat) (j : NceJob) : Keeps (nceJobRun g j) := by
  intro w
  unfold nceJobRun
  dsimp only
  split <;> with_reducible exact nceWrites_later _ _
theorem nceRecordWrite_later (g : Nat) : Keeps (nceRecordWrite g) := by
  intro w
  unfold nceRecordWrite
  split
  · with_reducible exact .refl _
  · dsimp only
    split
    · with_reducible exact (nceJobRun_later _ _).pair _ _
    · with_reducible exact .refl _
theorem nceStatusWrite_later (g idx st : Nat) : Keeps (nceStatusWrite g idx st) :=
  fun w => busPost_later nceReq (w.2.txEntryAt g idx + 3) (leBytes 1 st) w
theorem nceBits_later (l : List (Nat × Nat)) (acc : List Byte) (w : Whole) : w.1.Later (nceBits l acc w).2.1 := by
  induction l generalizing acc w with
  | nil => exact .refl _
  | cons x t ih =>
    obtain ⟨a, n⟩ := x
    have h := busRead_later nceReq a n [] w
    unfold nceBits
    dsimp only
    split
    · with_reducible exact h.trans (ih _ _)
    · with_reducible exact h
    · with_reducible exact h
theorem nceFetchBits_later (g : Nat) : Keeps (nceFetchBits g) := by
  intro w
  unfold nceFetchBits
  split
  · with_reducible exact .refl _
  · dsimp only
    split <;> with_reducible exact nceBits_later _ _ _
theorem nceTxEntry_later (g : Nat) : Keeps (nceTxEntry g) := by
  intro w
  unfold nceTxEntry
  split
  · with_reducible exact .refl _
  · have h0 := nceFetchBits_later g w
    dsimp only
    split
    · with_reducible exact h0
    · rename_i idx _
      have h := h0.trans (busRead_later nceReq ((nceFetchBits g w).2.txEntryAt g idx) 32 [] (nceFetchBits g w))
      split
      · with_reducible exact h
      · split
        · with_reducible exact h.trans ((nceStatusWrite_later _ _ _).pair _ _)
        · with_reducible exact h.trans ((nceFetchBits_later _).pair _ _)
theorem nceTxDone_later (n : Nat) : Keeps (nceTxDone n) := by
  intro w
  unfold nceTxDone
  split
  · with_reducible exact .refl _
  · split
    · with_reducible exact .refl _
    · split
      · with_reducible exact (nceStatusWrite_later _ _ _).pair _ _
      · with_reducible exact nceFetchBits_later _ _

/-! ## Channel engines -/

theorem engPut_later (r e : Nat) (l : List EngOut) (undo : List (Nat × List Byte)) (w : Whole) :
    w.1.Later (engPut r e l undo w).2.2.2.1 := by
  induction l generalizing undo w with
  | nil => exact .refl _
  | cons o t ih =>
    have h := busWrite_later (engReq r e) o.at_ o.data (w.2.lateOf (engReq r e) o.at_ o.data.length) w
    unfold engPut
    dsimp only
    split
    · with_reducible exact h.trans (ih _ _)
    · with_reducible exact h
    · with_reducible exact h
theorem engDrain_later (r e : Nat) : Keeps (engDrain r e) := by
  intro w
  unfold engDrain
  split
  · split
    · dsimp only
      split
      · with_reducible exact (engPut_later _ _ _ _ _).trans (engPut_later _ _ _ _ _)
      · with_reducible exact engPut_later _ _ _ _ _
    · with_reducible exact .refl _
  · with_reducible exact .refl _
theorem engFinish_later (r e : Nat) (outs : List EngOut) (code : Nat) : Keeps (engFinish r e outs code) :=
  fun w => engDrain_later r e (w.1, w.2.mapRun r e fun t => { t with outs := outs, fin := some code })
theorem engFail_later (r e code status : Nat) : Keeps (engFail r e code status) := by
  intro w
  unfold engFail
  split
  · with_reducible exact engFinish_later _ _ _ _ _
  · with_reducible exact .refl _
/-- What follows a read keeps to the relation if the read did. -/
theorem engGot_later (r e : Nat) (x : AccOut × Whole) (k : List Byte → Whole → Whole) (a : Spine) (h : a.Later x.2.1)
    (hk : ∀ l, Keeps (k l)) : a.Later (engGot r e x k).1 := by
  unfold engGot
  split
  · with_reducible exact h.trans (hk _ _)
  · with_reducible exact h
  · with_reducible exact h.trans (engFail_later _ _ _ _ _)
theorem engRead_later (r e a n : Nat) (ext : List Byte) (w : Whole) : w.1.Later (engRead r e a n ext w).2.1 :=
  busReads_later _ _ _ _
theorem engStart_later (r e : Nat) (ext : List Byte) : Keeps (engStart r e ext) := by
  intro w
  unfold engStart
  dsimp only
  split
  · split
    · with_reducible exact .refl _
    · rename_i s q _
      have h := busRead_later (engReq r e) (w.2.dBuf0 s) 64 ext w
      split
      · with_reducible exact .refl _
      · split
        · with_reducible exact h
        · split
          · with_reducible exact h
          · with_reducible exact h.trans ((engFail_later _ _ _ _).pair _ _)
        · with_reducible exact h
  · with_reducible exact .refl _
theorem engRun_later (r e op : Nat) (k : EngRun → Whole → Whole) (hk : ∀ t, Keeps (k t)) : Keeps (engRun r e op k) := by
  intro w
  unfold engRun
  split
  · split
    · split
      · split
        · with_reducible exact engDrain_later _ _ _
        · exact hk _ _
      · with_reducible exact .refl _
    · with_reducible exact .refl _
  · with_reducible exact .refl _
theorem fftInput_later (r e fmt n : Nat) (l : List Byte) (ext : List Byte) (k : List (Int × Int) → Whole → Whole)
    (hk : ∀ x, Keeps (k x)) : Keeps fun w => fftInput r e fmt n l ext w k := by
  intro w
  unfold fftInput
  dsimp only
  split
  · exact engGot_later _ _ _ _ _ (engRead_later _ _ _ _ _ _) fun _ v =>
      engGot_later _ _ _ _ _ (engRead_later _ _ _ _ _ _) fun _ => hk _
  · exact engGot_later _ _ _ _ _ (engRead_later _ _ _ _ _ _) fun _ => hk _
theorem fftResult_later (r e : Nat) (l : List Byte) (y : List CVal × Nat) : Keeps (fftResult r e l y) :=
  fun w => by
    unfold fftResult
    dsimp only
    with_reducible exact (engFinish_later _ _ _ _).pair _ _
theorem fftTask_later (r e op : Nat) (ext : List Byte) : Keeps (fftTask r e op ext) := by
  intro w
  unfold fftTask
  split
  · with_reducible exact .refl _
  · refine engRun_later r e op _ (fun t v => ?_) w
    dsimp only
    split
    · split
      · split
        · with_reducible exact fftInput_later _ _ _ _ _ _ _ (fun _ => fftResult_later _ _ _ _) _
        · with_reducible exact .refl _
      · split
        · with_reducible exact fftInput_later _ _ _ _ _ _ _ (fun _ => fftResult_later _ _ _ _) _
        · with_reducible exact fftInput_later _ _ _ _ _ _ _ (fun _ => fftResult_later _ _ _ _) _
    · with_reducible exact engFail_later _ _ _ _ _
/-- The relation between whole blocks, for the reading of several blocks. -/
def Leads (w v : Whole) : Prop := w.1.Later v.1
theorem engGot_leads (r e : Nat) (x : AccOut × Whole) (k : List Byte → Whole → Whole) (w : Whole) (h : w.1.Later x.2.1)
    (hk : ∀ l v, Leads v (k l v)) : Leads w (engGot r e x k) := engGot_later r e x k w.1 h hk
theorem readBlocks_leads (r : Nat) (x : CodeDesc) (buf : Nat) (l : List Nat) (at_ : Nat) (ext : List Byte) (acc : List CbIn)
    (k : List CbIn → Whole → Whole) (hk : ∀ y v, Leads v (k y v)) (w : Whole) : Leads w (readBlocks r x buf l at_ ext acc w k) := by
  induction l generalizing at_ ext acc w with
  | nil => exact hk _ _
  | cons b t ih =>
    unfold readBlocks
    simp only []
    with_reducible refine engGot_leads _ _ _ _ _ (engRead_later _ _ _ _ _ _) fun _ v => ?_
    with_reducible refine engGot_leads _ _ _ _ _ (engRead_later _ _ _ _ _ _) fun _ v => ?_
    split
    · with_reducible exact engGot_leads _ _ _ _ _ (engRead_later _ _ _ _ _ _) fun _ v => ih _ _ _ v
    · with_reducible exact ih _ _ _ v
theorem readBlocks_later (r : Nat) (x : CodeDesc) (buf : Nat) (l : List Nat) (at_ : Nat) (ext : List Byte) (acc : List CbIn)
    (k : List CbIn → Whole → Whole) (hk : ∀ y, Keeps (k y)) : Keeps fun w => readBlocks r x buf l at_ ext acc w k :=
  fun w => readBlocks_leads r x buf l at_ ext acc k hk w
theorem decodeBlocks_later (r : Nat) (t : EngRun) (x : CodeDesc) (buf : Nat) (l : List CbIn) :
    Keeps (decodeBlocks r t x buf l) := fun w => by
  unfold decodeBlocks
  dsimp only
  with_reducible exact (engFinish_later _ _ _ _).pair _ _
theorem harqTask_later (r op : Nat) (ext : List Byte) : Keeps (harqTask r op ext) := by
  refine engRun_later r 2 op _ fun t v => ?_
  dsimp only
  split
  · split
    · with_reducible refine engGot_later _ _ _ _ _ (engRead_later _ _ _ _ _ _) fun _ u => ?_
      split
      · with_reducible exact readBlocks_later _ _ _ _ _ _ _ _ (fun _ => decodeBlocks_later _ _ _ _ _) _
      · with_reducible exact engFail_later _ _ _ _ _
    · with_reducible exact engFail_later _ _ _ _ _
  · with_reducible exact engFail_later _ _ _ _ _
theorem decodeOne_later (r : Nat) (t : EngRun) (x : CodeDesc) (pay crcs : List Bool) :
    Keeps (decodeOne r t x pay crcs) := fun w => by
  unfold decodeOne
  dsimp only
  with_reducible exact (engFinish_later _ _ _ _).pair _ _
/-- The four tasks of one block: the check of the descriptor, one read, and what follows it. -/
theorem polarTask_later (r : Nat) (ext : List Byte) : Keeps (polarTask r ext) := by
  refine engRun_later r 2 1 _ fun t v => ?_
  dsimp only
  split
  · exact engGot_later _ _ _ _ _ (engRead_later _ _ _ _ _ _) fun _ => decodeOne_later _ _ _ _ _
  · with_reducible exact engFail_later _ _ _ _ _
theorem smallTask_later (r : Nat) (ext : List Byte) : Keeps (smallTask r ext) := by
  refine engRun_later r 2 3 _ fun t v => ?_
  dsimp only
  split
  · exact engGot_later _ _ _ _ _ (engRead_later _ _ _ _ _ _) fun _ => decodeOne_later _ _ _ _ _
  · with_reducible exact engFail_later _ _ _ _ _
theorem tbCrcTask_later (r : Nat) (ext : List Byte) : Keeps (tbCrcTask r ext) := by
  refine engRun_later r 2 4 _ fun t v => ?_
  dsimp only
  split
  · exact engGot_later _ _ _ _ _ (busReads_later _ _ _ _) fun _ v => engFinish_later _ _ _ _ v
  · with_reducible exact engFail_later _ _ _ _ _
theorem encTask_later (r op : Nat) (ext : List Byte) : Keeps (encTask r op ext) := by
  refine engRun_later r 3 op _ fun t v => ?_
  dsimp only
  split
  · exact engGot_later _ _ _ _ _ (engRead_later _ _ _ _ _ _) fun _ v => (engFinish_later _ _ _ _).pair _ _
  · with_reducible exact engFail_later _ _ _ _ _
theorem engPut_pair (r e : Nat) (l : List EngOut) (sp : Spine) (d : Dev) :
    sp.Later (engPut r e l [] (sp, d)).2.2.2.1 := engPut_later r e l [] (sp, d)
theorem engLast_later (r e : Nat) (t : EngRun) (w : Whole) : w.1.Later (engLast r e t w).2.1 := by
  unfold engLast
  split
  · dsimp only
    have h := engPut_later r e t.outs [] w
    split
    · with_reducible exact h
    · split
      · with_reducible exact h.trans (engPut_pair r e _ _ _)
      · with_reducible exact h
  · with_reducible exact .refl _
theorem engComplete_later (r e : Nat) : Keeps (engComplete r e) := by
  intro w
  have h := engDrain_later r e w
  unfold engComplete
  split
  · dsimp only
    split
    · split
      · split <;> with_reducible exact h.trans (engLast_later _ _ _ _)
      · with_reducible exact h
    · with_reducible exact h
  · with_reducible exact .refl _

/-! ## The issue of bundles -/

theorem fetchElem_later (k lvl : Nat) (e : Elem) (st : List (Nat × List Byte)) (ext : List Byte) (w : Whole) :
    w.1.Later (fetchElem k lvl e st ext w).2.1 := by
  have h : ∀ a n, w.1.Later (busRead (coreReq k lvl) a n ext w).2.1 := fun _ _ => busRead_later _ _ _ _ _
  unfold fetchElem
  dsimp only
  repeat' split
  all_goals first
    | with_reducible exact .refl _
    | with_reducible exact h _ _
theorem fetchElems_later (k lvl : Nat) (regs : Bool) (l : List (Elem × List (Nat × List Byte))) (i : Nat) (ext : List Byte)
    (w : Whole) : w.1.Later (fetchElems k lvl regs l i ext w).2.1 := by
  induction l generalizing i ext w with
  | nil => exact .refl _
  | cons x t ih =>
    obtain ⟨e, st⟩ := x
    have ih' : ∀ i ext (sp : Spine) d, sp.Later (fetchElems k lvl regs t i ext (sp, d)).2.1 :=
      fun i ext sp d => ih i ext (sp, d)
    have h := fetchElem_later k lvl e st ext w
    unfold fetchElems
    dsimp only
    split
    · with_reducible exact ih _ _ _
    · split
      · with_reducible exact h
      · with_reducible exact h.trans (ih' _ _ _ _)
      · with_reducible exact h
theorem fetchElems_pair (k lvl : Nat) (regs : Bool) (l : List (Elem × List (Nat × List Byte))) (i : Nat) (ext : List Byte)
    (sp : Spine) (d : Dev) : sp.Later (fetchElems k lvl regs l i ext (sp, d)).2.1 :=
  fetchElems_later k lvl regs l i ext (sp, d)
theorem fetchLines_later (k lvl : Nat) (l : List Elem) (ext : List Byte) (w : Whole) :
    w.1.Later (fetchLines k lvl l ext w).2.1 := by
  induction l generalizing ext w with
  | nil => exact .refl _
  | cons e t ih =>
    have ih' : ∀ ext (sp : Spine) d, sp.Later (fetchLines k lvl t ext (sp, d)).2.1 := fun ext sp d => ih ext (sp, d)
    have h := busRead_later (coreReq k lvl) (e.da / 64 * 64) 64 ext w
    unfold fetchLines
    dsimp only
    split
    · with_reducible exact ih _ _
    · split
      · with_reducible exact .refl _
      · split
        · with_reducible exact h
        · with_reducible exact h.trans (ih' _ _ _)
        · with_reducible exact h.trans (ih' _ _ _)
theorem fxLate_later (k lvl : Nat) (e : Eff) : Keeps fun w => fxLate k lvl w e := by
  intro w
  dsimp only
  unfold fxLate
  split <;> with_reducible exact .refl _
theorem fxStep_later (k : Nat) (x : Fx) (e : Eff) : x.w.1.Later (fxStep k x e).w.1 := by
  unfold fxStep
  split <;> with_reducible exact .refl _
theorem fxSteps_later (k : Nat) (l : List Eff) (x : Fx) : x.w.1.Later (l.foldl (fxStep k) x).w.1 :=
  List.foldlRecOn l (fxStep k) (motive := fun y => x.w.1.Later y.w.1) (.refl _) fun y h e _ => h.trans (fxStep_later k y e)
theorem commit_later (k size : Nat) (effs : List Eff) (esl : List InFlight) (stop : Option (Nat × Nat)) :
    Keeps (commit k size effs esl stop) := by
  intro w
  have h : w.1.Later (effs.foldl (fxStep k) { w := (w.1, w.2.csSeen k), wr := esl }).w.1 :=
    fxSteps_later k effs { w := (w.1, w.2.csSeen k), wr := esl }
  unfold commit
  dsimp only
  repeat' split
  all_goals with_reducible exact h.trans (foldl_pair _ (fxLate_later k _) effs _ _)
theorem issueEnd_later (k size : Nat) (acts : List Sem) (esl : List InFlight) (stop : Option (Nat × Nat)) :
    Keeps (issueEnd k size acts esl stop) := by
  intro w
  have h := fetchElems_later k (w.2.f (F.CORE_STATUS_PRIV k)) true (loadAccs (acts.flatMap (·.eff)) []) 0 [] w
  unfold issueEnd
  dsimp only
  split
  · with_reducible exact h.trans ((commit_later _ _ _ _ _).pair _ _)
  · with_reducible exact h
theorem issueGo_later (k size : Nat) (acts : List Sem) (stop : Option (Nat × Nat)) (ext : List Byte) :
    Keeps (issueGo k size acts stop ext) := by
  intro w
  have h0 := fetchLines_later k (w.2.f (F.CORE_STATUS_PRIV k)) (storeAccs (acts.flatMap (·.eff))) ext w
  unfold issueGo
  dsimp only
  generalize fetchLines k (w.2.f (F.CORE_STATUS_PRIV k)) (storeAccs (acts.flatMap (·.eff))) ext w = a at h0 ⊢
  generalize (if storeFirst (acts.flatMap (·.eff)) && !a.1 then putAll k (w.2.f (F.CORE_STATUS_PRIV k)) ((acts.flatMap (·.eff)).filter Eff.isStore) a.2.2
    else (true, a.2.2)) = b
  have h1 : w.1.Later ((if a.1 || !b.1 then (false, (a.2.1, b.2)) else
      fetchElems k (w.2.f (F.CORE_STATUS_PRIV k)) false (loadAccs (acts.flatMap (·.eff)) []) 0 ext (a.2.1, b.2) : Bool × Whole)).2.1 := by
    split
    · with_reducible exact h0
    · with_reducible exact h0.trans (fetchElems_pair _ _ _ _ _ _ _ _)
  generalize (if a.1 || !b.1 then (false, (a.2.1, b.2)) else
      fetchElems k (w.2.f (F.CORE_STATUS_PRIV k)) false (loadAccs (acts.flatMap (·.eff)) []) 0 ext (a.2.1, b.2) : Bool × Whole) = c at h1 ⊢
  repeat' split
  all_goals first
    | with_reducible exact h1
    | with_reducible exact h1.trans ((commit_later _ _ _ _ _).pair _ _)
    | with_reducible exact h1.trans ((issueEnd_later _ _ _ _ _).pair _ _)
theorem issue_later (k : Nat) (back : Option (List Byte)) : Keeps (issue k back) := by
  intro w
  unfold issue
  dsimp only
  repeat' split
  all_goals first
    | with_reducible exact .refl _
    | with_reducible exact (issueGo_later _ _ _ _ _).pair _ _
theorem issueInstr_later (i : Instr) : Keeps (issueInstr i) := by
  intro w
  unfold issueInstr
  split
  · dsimp only
    split
    · split
      · with_reducible exact (issue_later _ _).pair _ _
      · with_reducible exact .refl _
    · with_reducible exact .refl _
  · with_reducible exact .refl _
theorem retry_later (k : Nat) : Keeps (retry k) := by
  intro w
  unfold retry
  split
  · with_reducible exact .refl _
  · with_reducible exact issue_later _ _ _
theorem retrySubmits_later : Keeps retrySubmits := by
  intro w
  unfold retrySubmits
  refine foldl_later _ (fun k v => ?_) _ w
  dsimp only
  split
  · with_reducible exact issue_later _ _ _
  · with_reducible exact .refl _
theorem retryFences_later : Keeps retryFences := by
  intro w
  unfold retryFences
  refine foldl_later _ (fun k v => ?_) _ w
  dsimp only
  split
  · with_reducible exact issue_later _ _ _
  · with_reducible exact .refl _
theorem loadReturn_later (k : Nat) (ext : List Byte) : Keeps (loadReturn k ext) := by
  intro w
  unfold loadReturn
  split
  · with_reducible exact issue_later _ _ _
  · with_reducible exact .refl _
theorem interrupt_later (k : Nat) : Keeps (interrupt k) := by
  intro w
  unfold interrupt
  dsimp only
  split <;> with_reducible exact .refl _
theorem wfiWake_later (k : Nat) : Keeps (wfiWake k) := by
  intro w
  unfold wfiWake
  dsimp only
  repeat' split
  all_goals with_reducible exact .refl _
theorem cxResult_later (k : Nat) (rd : Reg) : Keeps (cxResult k rd) := by
  intro w
  unfold cxResult
  dsimp only
  split
  · with_reducible exact .refl _
  · split
    · with_reducible exact .refl _
    · with_reducible exact (retry_later k).pair _ _

/-! ## The effects of the commands' families -/

theorem eurTake_later (h : EurIn) (f : Nat → Spine → Dev → Dev) : Keeps (eurTake h f) := by
  intro w
  unfold eurTake
  split
  · split <;> with_reducible exact .refl _
  · with_reducible exact .refl _
theorem eurAckFrame_later (h : EurIn) : Keeps (eurAckFrame h) := by
  intro w
  unfold eurAckFrame
  split <;> with_reducible exact .refl _
theorem eurHello_later (h : EurIn) : Keeps (eurHello h) := by
  intro w
  unfold eurHello
  split <;> with_reducible exact .refl _
theorem eurRetry_later : Keeps eurRetry := retrySubmits_later.comp retryFences_later
theorem eurWriteFrame_later (h : EurIn) (a : Nat) (data : List Byte) : Keeps (eurWriteFrame h a data) :=
  eurTake_later h _
theorem eurReadFrame_later (h : EurIn) (a n : Nat) : Keeps (eurReadFrame h a n) := eurTake_later h _
theorem eurWriteRsp_later (h : EurIn) (status : Nat) : Keeps (eurWriteRsp h status) := eurTake_later h _
theorem eurReadRsp_later (h : EurIn) (status : Nat) (data : List Byte) : Keeps (eurReadRsp h status data) := eurTake_later h _
theorem eurSpill_later (h : EurIn) (desc : List Byte) : Keeps (eurSpill h desc) := eurTake_later h _
theorem eurSpillRsp_later (h : EurIn) (status : Nat) : Keeps (eurSpillRsp h status) := eurTake_later h _
theorem eurSpillCpl_later (h : EurIn) (r : List Byte) : Keeps (eurSpillCpl h r) := eurTake_later h _
theorem eurSpillCancel_later (h : EurIn) (id : Nat) : Keeps (eurSpillCancel h id) := eurTake_later h _
theorem eurAdv_later (h : EurIn) (free : Nat) : Keeps (eurAdv h free) := eurTake_later h _
theorem eurEvent_later (h : EurIn) (i : Nat) : Keeps (eurEvent h i) := eurTake_later h _
theorem eurFrame_later (p : Nat) (b : List Byte) : Keeps (eurFrame p b) := by
  intro w
  unfold eurFrame
  dsimp only
  split
  · with_reducible exact .refl _
  · split
    · with_reducible exact eurAckFrame_later _ _
    · with_reducible exact eurWriteFrame_later _ _ _ _
    · with_reducible exact (eurWriteRsp_later _ _ _).trans (eurRetry_later _)
    · with_reducible exact eurReadFrame_later _ _ _ _
    · with_reducible exact eurReadRsp_later _ _ _ _
    · with_reducible exact eurSpill_later _ _ _
    · with_reducible exact (eurSpillRsp_later _ _ _).trans (eurRetry_later _)
    · with_reducible exact eurSpillCpl_later _ _ _
    · with_reducible exact (eurSpillCancel_later _ _ _).trans (eurRetry_later _)
    · with_reducible exact eurAdv_later _ _ _
    · with_reducible exact eurEvent_later _ _ _
    · with_reducible exact eurHello_later _ _
    · with_reducible exact .refl _
theorem fhReceive_later (p : Nat) (fcs ptpIp : Bool) (err : Int) (frame : List Byte) :
    Keeps (fhReceive p fcs ptpIp err frame) := by
  intro w
  unfold fhReceive
  split
  · with_reducible exact .refl _
  · split
    · with_reducible exact .refl _
    · with_reducible exact (eurFrame_later p _).pair _ _
theorem routeStep_later (n : Nat) : Keeps (routeStep n) := by
  intro w
  unfold routeStep
  split
  · with_reducible exact (retrySubmits_later).pair _ _
  · with_reducible exact .refl _
theorem firmware_later (f : Whole → Whole) (h : Keeps f) : Keeps fun w => firmware w f := by
  intro w
  dsimp only
  unfold firmware
  split
  · with_reducible exact h w
  · with_reducible exact .refl _
theorem drainComplete_later (sp : Spine) (d : Dev) : sp.Later (drainComplete sp d).1 := by
  unfold drainComplete
  dsimp only
  split
  · with_reducible exact stepTime_later _ _ _
  · with_reducible exact .refl _
theorem drainTimeout_later (sp : Spine) (d : Dev) : sp.Later (drainTimeout sp d).1 := by
  unfold drainTimeout
  split
  · with_reducible exact drainComplete_later _ _
  · with_reducible exact .refl _
theorem washEnd_later (t : WashTgt) (fail : Bool) : Keeps (washEnd t fail) := by
  intro w
  unfold washEnd
  split
  · split
    · with_reducible exact (washFault_later t).pair _ _
    · with_reducible exact .refl _
  · with_reducible exact .refl _
theorem paletteArrive_later (m : MemAcc) (peer : Option MemAcc) : Keeps (paletteArrive m peer) := by
  intro w
  unfold paletteArrive
  dsimp only
  repeat' split
  all_goals first
    | with_reducible exact .refl _
    | with_reducible exact (busPost_later _ _ _).pair _ _
    | (unfold writeLeaves; with_reducible exact (busPost_later _ _ _).pair _ _)
theorem regStep_later (q : Req) (a : Nat) (v : Word) : Keeps (regStep q a v) := by
  intro w
  unfold regStep
  split
  · with_reducible exact .refl _
  · dsimp only
    refine Spine.Later.trans ?_ (retryFences_later _)
    split
    · with_reducible exact (regWriteBytes_later q a _).pair _ _
    · with_reducible exact (busPost_later q a _).pair _ _
theorem servoCycle_later : Keeps servoCycle := by
  intro w
  unfold servoCycle
  split
  · split
    · with_reducible exact .refl _
    · dsimp only
      split
      · with_reducible exact stepTime_later _ _ _
      · with_reducible exact .refl _
  · with_reducible exact .refl _
theorem storeStep_later (f : Spine → Dev → Dev) : Keeps (storeStep f) := by
  intro w
  unfold storeStep
  split
  · with_reducible exact (retrySubmits_later).pair _ _
  · with_reducible exact .refl _

/-! ## Commands -/

theorem wholeCmd_later (s t : State) (f : Whole → Whole) (h : Keeps f) (e : wholeCmd s f = .next t) :
    s.spine.Later t.spine := by
  injection e with e
  exact e ▸ h (s.spine, s.dev)
theorem devCmd_later (s t : State) (f : Spine → Dev → Dev) (e : devCmd s f = .next t) : s.spine.Later t.spine := by
  injection e with e
  exact e ▸ .refl _
theorem mbCmd_later (s t : State) (cmd : Nat) (run : Spine → Nat → Dev → Nat × List Nat × Dev) (e : mbCmd cmd run s = .next t) :
    s.spine.Later t.spine := devCmd_later s t _ e
theorem spdmCmd_later (s t : State) (f : Dev → Dev) (e : spdmCmd s f = .next t) : s.spine.Later t.spine := devCmd_later s t _ e
theorem coreInstr_later (s t : State) (i : Instr) (e : coreInstr i s = .next t) : s.spine.Later t.spine :=
  wholeCmd_later s t _ (issueInstr_later i) e

end Sys2Proof.Machine
end

