-- ==== Sys2Proof/Tests/Slice0.lean ====
section
/-! SUPPORT. Tests of the model: ill-formed commands that WellFormed refuses, worked examples of the spec, and for every
statement a state and operands that meet its hypotheses. -/

namespace Sys2Proof.Tests

-- The kernel checks of these theorems one after another: each waiting check would hold a thread of its own.
set_option Elab.async false

open Sys2Proof Sys2Proof.Machine

/-! ## States -/

/-- The device after reset, and a state with a device. -/
def d0 : Dev := State.reset.dev
def at_ (d : Dev) : State := { State.reset with dev := d }
/-- The outcome's device, if the command completes. -/
def dev? (o : Out) : Option Dev :=
  match o with
  | .next t => some t.dev
  | _ => none
/-- Core 0 runs; the hub core 384 runs from reset. -/
def run0 : Dev := d0.coreStart 0
/-- An instruction that is a bundle of its own: of core 0, of hub core 384. -/
def h0 : Hd := { k := 0, last := true, pg := 0, gn := false }
def hH : Hd := { k := 384, last := true, pg := 0, gn := false }
/-- A device with a general register of hub core 384, or of core 0, set. -/
def hubG (r : Reg) (v : Word) (d : Dev) : Dev := d.applyWr 384 (.g r v)
def coreG (r : Reg) (v : Word) (d : Dev) : Dev := d.applyWr 0 (.g r v)

theorem test_core0_alone : Alone State.reset.spine run0 0 := by constructor <;> rfl
theorem test_hub_alone : Alone State.reset.spine d0 384 := by constructor <;> rfl
theorem test_core0_ready : ReadyV (at_ run0) h0 :=
  { last := rfl, alone := test_core0_alone, hub := by decide }
theorem test_hub_ready : Ready (at_ d0) hH := { last := rfl, alone := test_hub_alone }

/-! ## Ill-formed commands -/

def badReq : Req := { uid := 0, ch := 0, lvl := 2, dbg := false }
def goodReq : Req := { uid := 0, ch := 0, lvl := 3, dbg := false }

def badHdr : EurHdr := { port := 0, src := 0, dst := 0, seq := 0, ack := 0, credit := 0, tag := 0 }
/-- A requester at a level that does not exist is refused of every write that names one. -/
theorem test_wf_requester :
    ([.regWrite badReq 0 0, .rclRead badReq 0, .readLowWord badReq 0, .targetWrite badReq 0, .eslKill badReq 0,
      .handover badReq 0 0 0 [], .handover goodReq 0 0 0 [(badReq, 0)], .delegation badReq 0 0 0, .powerRequest badReq 0 0 0, .nolendWrite badReq 0 0 0 0,
      .extentInval badReq 0, .gstStart badReq 0 0, .gstStop badReq 0 0, .swreqWrite badReq 0 0,
      .captureStreamEnable badReq false 0 0, .abort badReq 0, .bt0HiWrite badReq 0 0, .txrdyWrite badReq 0 0,
      .ptpTxtsPop badReq 0, .tscapArm badReq 0 0] : List Instr).all (fun i => !wellFormed i) = true := by decide
theorem test_wf_requester2 :
    ([.offsetCommit badReq 0, .stepGo badReq 0, .trigArm badReq 0 0, .trigDisarm badReq 0 0, .tbNowRead badReq,
      .captureCommand badReq 0, .estimateCommand badReq 0, .nextTWrite badReq 0 0, .codeReq badReq 0 0, .kick badReq 0,
      .timeoutWrite badReq 0, .outWrAdvance badReq 0 0, .evtSendWrite badReq 0, .i2cGo badReq 0 0,
      .statClear badReq 0 0, .swRaise badReq 0, .evtCfgWrite badReq 0 0, .hostWindowAccess badReq 0 (.read 1) [],
      .fabricWindowAccess badReq 0 (.read 1)] : List Instr).all (fun i => !wellFormed i) = true := by decide
/-- Every other check refuses a term that breaks it. -/
theorem test_wf_operands :
    ([.regWrite goodReq 2 0, .rclRead goodReq 1, .readLowWord goodReq 3, .packageFault 0, .packageFault 9,
      .functionConfig [0] false, .stageImage [0] false, .loopS h0 0 0 false 1,
      .paletteAccess (.read goodReq 0 0) [] none, .paletteAccess (.read goodReq 0 1) [] (some (.write goodReq 0 [])),
      .coreMemoryAccess (.write badReq 0 [0]) [], .coreMemoryAccess (.write goodReq 0 []) [],
      .hostWindowAccess goodReq 0 (.read 4097) [], .fabricWindowAccess goodReq 0 (.read 4097), .bar2Access (.read 4097) 0 [],
      .fhRxFrame 0 true true 0 [0] [], .hostLinkUp 0 1, .hostLinkUp 6 1, .hostLinkUp 1 2, .hostBarWrite 0 0 []] :
      List Instr).all (fun i => !wellFormed i) = true := by decide
set_option maxRecDepth 20000 in
theorem test_wf_operands2 :
    ([.h2dEntry 0 [0] false, .challenge [0], .getMeasurements 0 true [], .unsupportedRequest 0x84,
      .write badHdr 0 (List.replicate 1025 0) [], .readRsp badHdr 0 (List.replicate 1025 0), .spill badHdr [0],
      .spillCpl badHdr [0], .eventRoute 0, .configurationRequest 0 (.read 2), .configurationRequest 0 (.other 1 0),
      .configurationRequest 1 (.sriov 1), .configurationRequest 0 (.sriov 17)] :
      List Instr).all (fun i => !wellFormed i) = true := by decide
/-- Well-formed terms beside them are accepted. -/
theorem test_wf_accepts :
    ([.regWrite goodReq 4 0, .packageFault 8, .functionConfig (List.replicate 16 0) false, .hostLinkUp 5 16,
      .paletteAccess (.read goodReq 0 64) [] none, .bar2Access (.read 4096) 0 [], .eventRoute 1, .add h0 1 2 3,
      .configurationRequest 0 (.sriov 16), .challenge (List.replicate 32 0)] : List Instr).all wellFormed = true := by decide

/-! ## Worked examples of the spec -/

/-- R135 to R137, the table of worked cases. -/
theorem test_srai_floor : ((dev? (exec (.srai hH 1 2 1) (at_ (hubG 2 0xFFFFFFFB d0)))).map fun d => d.g 384 1) = some 0xFFFFFFFD := by
  decide
def acc0 (v : BitVec 48) : State := at_ (d0.applyWr 384 (.a 0 v))
/-- What a lone instruction puts in flight. -/
def flying (o : Out) (k : Nat) : List RegWr := ((dev? o).map fun d => (d.core k).inflight.map (·.wr)).getD []
theorem test_anarrow : flying (exec (.anarrow hH 1 0 1) (acc0 0xFFFFFFFFFFFB)) 384 = [.g 1 0xFFFFFFFD] ∧
    flying (exec (.anarrow hH 1 0 4) (acc0 0x000123456789)) 384 = [.g 1 0x12345678] ∧
    flying (exec (.anarrow hH 1 0 0) (acc0 0x000123456789)) 384 = [.g 1 0x23456789] := by decide
theorem test_maca_overflow :
    let o := exec (.macaHh hH 0 2 3) (at_ (hubG 3 0x100 (hubG 2 0x100 (d0.applyWr 384 (.a 0 0x7FFFFFFF0000)))))
    flying o 384 = [.a 0 0x800000000000] ∧ ((dev? o).map fun d => d.fb (F.CORE_STATUS_AOV 384)) = some true := by decide
/-- R138: MAXI over 5, −2, 9, 9, 3 keeps 9 and index 2; here the fourth value, a tie of a higher index, is not taken. -/
theorem test_maxi_tie : flying (exec (.maxi hH 4 1 2) (at_ (hubG 1 9 (hubG 2 3 (hubG 4 9 (hubG 5 2 d0)))))) 384 =
    [.g 4 9, .g 5 2] := by decide
/-- R30, R28: after a package fault the source stays until full reset. -/
theorem test_package_fault : ((match exec (.packageFault 5) (at_ d0) with
    | .next t => t.spine.contain.pkg
    | _ => 0)) = 5 := by decide
/-- R469: at rate 0 a tick adds 1.25 ns, in units of 2^-48 ns. -/
theorem test_tick : (match step (at_ d0) with
    | .next t => t.spine.now
    | _ => 0) = 5 * 2 ^ 48 / 4 := by decide
/-- R551: FULL_RESET is command 8; the queue is first in, first out. -/
theorem test_queue : (match step { at_ d0 with pending := [.refLoss, .hostLinkDown] } with
    | .next t => t.pending
    | _ => []) = [.hostLinkDown] := by decide
/-- R2, R16 to R20: unit identifiers of core 0, of core 383, of hub core 384, of the NCE. -/
theorem test_uids : coreUid 0 = 0 ∧ coreUid 383 = 3 * 2 ^ 9 + 3 * 2 ^ 7 + 5 * 2 ^ 4 + 3 ∧ uidDie (coreUid 384) = 4 := by decide
/-- No word of the table has bits: the decoder reads none, and placing one changes nothing. -/
theorem test_no_words : decodeTableWord 32 0 = none ∧ ((at_ d0).withFetchWord 32 0).pending = [] := by decide
/-- The memory's form is kept: writing the byte that an unlisted address reads as lists nothing. -/
theorem test_memory_form : (d0.setByte 16 0).mem = [] ∧ ((d0.setByte 16 7).setByte 16 0).mem = [] ∧
    Memory.wf ((d0.setByte 16 7).setByte 8 3).mem = true := by decide

/-! ## States that meet the statements' hypotheses -/

/-- O1 to O6: lone bundles of a ready core, at M level, with AOV off; register 30 heads the last pair, 16 is the last shift. -/
theorem witness_scalar : Ready (at_ d0) hH ∧ d0.fb (F.CORE_STATUS_AOV_EN 384) = false ∧ (30 : Reg).toNat % 2 = 0 ∧
    (16 : BitVec 5).toNat ≤ 16 := ⟨test_hub_ready, by decide⟩
/-- Sound memory, and no operation of a shared coprocessor: by evaluation. -/
theorem test_clean (d : Dev) (h : d.bad = []) (hc : d.cs = []) : Clean d :=
  { bad := h, cs := fun _ _ => by unfold Dev.csUnit; rw [hc]; rfl }
def mW : MForm := { sz := 2, u := false, pi := true, cwe := false, cw := 0, imm := 0 }
def lastWord : Dev := coreG 2 0x3FFFC run0
theorem test_lastWord_alone : Alone State.reset.spine lastWord 0 := by constructor <;> rfl
/-- O7: the last word of the data scratch, loaded and stored with post-increment. -/
theorem witness_scratch : Ready (at_ lastWord) h0 ∧ Clean lastWord ∧ ¬ (mW.sz = 3 ∧ (1 : Reg).toNat % 2 = 1) ∧
    (let o := lastWord.address 0 (lastWord.g 0 2).toNat 0 true false 0
     o.bad = false ∧ o.addr % 4 = 0 ∧ lastWord.mapAddr 0 o.addr false = some (0x0100003FFFC, .scratch) ∧
     lastWord.mapAddr 0 o.addr true = some (0x0100003FFFC, .scratch)) :=
  ⟨{ last := rfl, alone := test_lastWord_alone }, test_clean _ rfl rfl, by decide, by decide⟩
def hG : Hd := { hH with pg := 1 }
def jumpD : Dev := hubG 1 65532 d0
theorem test_jump_alone : Alone State.reset.spine jumpD 384 := by constructor <;> rfl
/-- O8: a branch back to the start, a jump to the last bundle, and a guard that is against it. -/
theorem witness_branch : Ready (at_ d0) hG ∧ d0.guard hG = false ∧ Ready (at_ jumpD) hH ∧ jumpD.guard hH = true ∧
    (0 : Int) ≤ (jumpD.core 384).pc.toNat + (0 : BitVec 22).toInt * 4 ∧
    (jumpD.core 384).pc.toNat + (0 : BitVec 22).toInt * 4 < 65536 ∧ (0 : Int) ≤ (jumpD.core 384).pc.toNat + (0 : BitVec 26).toInt * 4 ∧
    (jumpD.core 384).pc.toNat + (0 : BitVec 26).toInt * 4 < 65536 ∧ (jumpD.g 384 1).toNat < 65536 :=
  ⟨{ last := rfl, alone := test_hub_alone }, by decide, { last := rfl, alone := test_jump_alone }, by decide⟩
def countD : Dev := hubG 1 65536 d0
theorem test_count_alone : Alone State.reset.spine countD 384 := by constructor <;> rfl
/-- O9: the largest count from a register, with interrupts off. -/
theorem witness_loop : Ready (at_ countD) hH ∧ (true = true → (countD.g 384 1).toNat ≤ 65536) ∧ countD.fb (F.CORE_STATUS_IE 384) = false :=
  ⟨{ last := rfl, alone := test_count_alone }, by decide⟩
/-- O10, O12, O13: nothing waits, the level may run privileged instructions, no line is dirty. -/
theorem witness_system : Ready (at_ d0) hH ∧ d0.fabWrites (coreUid 384) 0 = false ∧ d0.level 384 ≠ .u ∧ (d0.core 384).l1 = [] :=
  ⟨test_hub_ready, by decide⟩
def userD : Dev := d0.setF (F.CORE_STATUS_PRIV 384) 0
theorem test_user_alone : Alone State.reset.spine userD 384 := by constructor <;> rfl
/-- O11: a number that names no register, at M and at U level; a register of the core's own; and, at M level and refused at U,
CORE_CTRL. -/
theorem witness_csr : Ready (at_ d0) hH ∧ Ready (at_ userD) hH ∧ csrOf 384 0xFFF = none ∧ d0.level 384 ≠ .u ∧ userD.level 384 = .u ∧
    csrOf 384 2 = some (384, 8) ∧ csrOf 384 1 = some (384, 4) ∧ mtcAllowed (userD.level 384) 384 4 = false ∧
    mtcAllowed (d0.level 384) 384 8 = true ∧ mtcAllowed (d0.level 384) 384 4 = true :=
  ⟨test_hub_ready, { last := rfl, alone := test_user_alone }, by decide⟩

/-! Vector, coprocessor and Easel instructions: core 0 with all its vector length, its coprocessors enabled and a word at the
front of memory. -/

/-- Core 0 with vector length `n`. -/
def vecD (n : Nat) : Dev := run0.applyWr 0 (.vl n)
def copD : Dev := run0.setReg (coreBase 0 + 0x800) 0xFFF
/-- Predicate 1 of all lanes. -/
def pD (d : Dev) : Dev := d.applyWr 0 (.p 1 (BitVec.allOnes 64))

/-- O14 to O20: a ready core with vector units, VOV off; the extreme element types of each clause; shifts by 15; an even pair. -/
theorem witness_vector : ReadyV (at_ run0) h0 ∧ run0.fb (F.CORE_STATUS_VOV_EN 0) = false ∧ (4 : BitVec 3).toNat ≤ 4 ∧
    (2 : BitVec 3).toNat ≤ 2 ∧ (15 : BitVec 5).toNat ≤ 15 ∧ (30 : Reg).toNat % 2 = 0 ∧ (6 : BitVec 3) ≠ 7 ∧
    ({ h0 with pg := 7 } : Hd).pg ≠ 0 ∧ h0.pg = 0 := ⟨test_core0_ready, by decide⟩
def vfm : VForm := { sz := 2, pi := false, cwe := false, cw := 0 }
def wordsD : Dev := coreG 2 0x3FFC0 (coreG 3 4 (vecD 64))
theorem test_words_alone : Alone State.reset.spine wordsD 0 := by constructor <;> rfl
/-- O21: the last sixteen words of the data scratch, as one access, at a stride of 4, and by a zero index. -/
theorem witness_vector_memory : let d := wordsD
    let act := d.active 0 0 4 16
    let o := d.address 0 (d.g 0 2).toNat 0 false false 0
    ReadyV (at_ d) h0 ∧ Clean d ∧ act = List.range 16 ∧ o.bad = false ∧
    (∀ w : Bool, ∀ i ∈ act, o.at (i * 4) % 4 = 0 ∧
      ∀ j < 4, d.mapAddr 0 (o.at (i * 4 + j)) w = some (0x0100003FFC0 + (4 * i + j), .scratch)) ∧
    (∀ w : Bool, ∀ i ∈ act, wrapInt 32 (((d.g 0 2).toNat : Int) + (i : Int) * (d.g 0 3).toInt) % 4 = 0 ∧
      d.mapAddr 0 (wrapInt 32 (((d.g 0 2).toNat : Int) + (i : Int) * (d.g 0 3).toInt)) w = some (0x0100003FFC0 + 4 * i, .scratch)) ∧
    (∀ w : Bool, ∀ i ∈ act.filter fun i => decide (d.f (F.VEC_VSTART_VSTART 0) ≤ i),
      wrapInt 32 (((d.g 0 2).toNat : Int) + laneS (d.v 0 5) 4 i * ((2 ^ 0 : Nat) : Int)) % 4 = 0 ∧
      d.mapAddr 0 (wrapInt 32 (((d.g 0 2).toNat : Int) + laneS (d.v 0 5) 4 i * ((2 ^ 0 : Nat) : Int))) w = some (0x0100003FFC0, .scratch)) ∧
    (4 : Reg) ≠ 5 :=
  ⟨{ last := rfl, alone := test_words_alone, hub := by decide }, test_clean _ rfl rfl, by decide +kernel⟩
theorem test_copD_alone : Alone State.reset.spine copD 0 := by constructor <;> rfl
/-- O22: an enabled private coprocessor, and even pairs. -/
theorem witness_private : ReadyV (at_ copD) h0 ∧ copD.copOn 0 0 = true ∧ (30 : Reg).toNat % 2 = 0 :=
  ⟨{ last := rfl, alone := test_copD_alone, hub := by decide }, by decide⟩
def pend0 : CxPend := { res := [(3, 7)] }
/-- O23: a core with one result to come. -/
theorem witness_cx_result : let d := run0.mapCore 0 fun c => { c with cx := [pend0] }
    (d.core 0).stall = .none ∧ State.reset.spine.contain.out (coreUid 0) = false ∧ (d.core 0).inflight = [] ∧
    (d.core 0).cx.find? (fun x => x.res.any fun y => y.1 == 3) = some pend0 := by decide
/-- An operation of core `k`. -/
def csBusyOp (k : CoreIx) : CsOp := { core := k, op := 0, ctl := 16, arg := 0, src := 0, dst := 0, len := 8, got := [] }
/-- Unit CS_0 of cluster 0 with core 1's operation: taken in this cycle, after core 3's, or some time before. -/
def csD (tie : Option CsTie) : Dev := copD.setCs 0 0 { op := some (csBusyOp 1), last := 1, tie := tie }
def csNow : CsTie := { now := State.reset.spine.now, prev := 3, pd := 2 }
theorem test_csD_alone : Alone State.reset.spine (csD none) 0 ∧ Alone State.reset.spine (csD (some csNow)) 0 := by
  constructor <;> constructor <;> rfl
/-- O24: the largest blocks of each unit, ending at the last byte of the data scratch; a unit that is free, one that is busy, and one
that took the operation of a later core in this cycle. -/
theorem witness_shared : ReadyV (at_ copD) h0 ∧ ReadyV (at_ (csD none)) h0 ∧ ReadyV (at_ (csD (some csNow))) h0 ∧ (2 : Reg).toNat % 2 = 0 ∧
    copD.copOn 0 1 = true ∧ copD.copOn 0 2 = true ∧
    State.reset.spine.contain.units.contains (mkUid 0 0 0 4) = false ∧ State.reset.spine.contain.units.contains (mkUid 0 0 0 5) = false ∧
    csLegal 0 0 16 0 = true ∧ csLegal 0 1 16 0 = true ∧ csLegal 1 0 4096 0 = true ∧ csLegal 1 1 4096 4096 = true ∧ csLegal 1 2 4096 0 = true ∧
    (∀ op ∈ [0, 1], csBlock copD 0 0x3FC00 (csSizes 0 op 16 0).1 = some 0x0100003FC00 ∧
      csBlock copD 0 0x3FBF8 (csSizes 0 op 16 0).2 = some 0x0100003FBF8) ∧
    (∀ op ∈ [0, 1, 2], csBlock copD 0 0x3C000 (csSizes 1 op 4096 4096).1 = some 0x0100003C000) ∧
    csBlock copD 0 0x37FF8 (csSizes 1 0 4096 0).2 = some 0x01000037FF8 ∧ csBlock copD 0 0x37FF8 (csSizes 1 1 4096 4096).2 = some 0x01000037FF8 ∧
    csBlock copD 0 0x3FFF8 (csSizes 1 2 4096 0).2 = some 0x0100003FFF8 ∧
    (copD.csUnit 0 0).op = none ∧ ((csD none).csUnit 0 0).op = some (csBusyOp 1) ∧ ((csD none).csUnit 0 0).tie = none ∧
    ((csD (some csNow)).csUnit 0 0).tie = some csNow ∧ csPlace csNow.prev (0 % 4) < csPlace csNow.prev ((csBusyOp 1).core.val % 4) :=
  ⟨{ last := rfl, alone := test_copD_alone, hub := by decide }, { last := rfl, alone := test_csD_alone.1, hub := by decide },
    { last := rfl, alone := test_csD_alone.2, hub := by decide }, by decide +kernel⟩
/-- O25: the last cluster's units, each with an operation of a core of it. -/
theorem witness_shared_ends : ∀ u ∈ [0, 1],
    ((copD.setCs 95 u { op := some (csBusyOp 383), last := 3, tie := none }).csUnit 95 u).op = some (csBusyOp 383) ∧
    State.reset.spine.contain.out (csUid 95 u) = false := by decide
/-- A device with the task descriptor of the last slot written: word 1 is `w`, region 0, cluster 0 of it. -/
def descD (d : Dev) (w : Nat) : Dev :=
  ((d.setBytes 0x020003FFFC0 (leBytes 4 0xFFFF)).setBytes 0x020003FFFC4 (leBytes 4 w)).setBytes 0x020003FFFC8 (leBytes 4 0x10001)
def slotD (x : Slot) : Dev := (descD d0 0).setSlot 65535 x
/-- O26: submissions of the last slot that are held and that are released at once; a held, a dependent and a ready task to cancel;
a core without and one with a task. -/
theorem witness_easel_instructions : d0.level 384 ≠ .u ∧ (0xFFFF : Word).toNat < 2 ^ 16 ∧
    (∀ w ∈ [0, 0x1080], ((descD d0 w).slot 65535).st = 0 ∧
      (descD d0 w).submitCause 65535 ((descD d0 w).coreSlot 65535) = 0) ∧
    (descD d0 0x1080).releasesNow State.reset.spine 65535 = false ∧ (descD d0 0).releasesNow State.reset.spine 65535 = true ∧
    (timeNs State.reset.spine : Int) ≤ (descD d0 0).dRelease 65535 ∧ SMap.wf (fun _ => Slot.free) d0.slots = true ∧
    (descD d0 0).chooseRegion State.reset.spine 65535 = some 0 ∧ d0.f F.ESL_CTRL_RESERVE < d0.freeEntries 0 ∧
    (slotD { Slot.free with st := 1 }).chooseRegion State.reset.spine 65535 = some 0 ∧
    0 < (slotD { Slot.free with st := 1 }).freeEntries 0 ∧
    (∀ n ∈ [1, 2, 3], ((slotD { Slot.free with st := n }).slot 65535).st = n ∧
      ((slotD { Slot.free with st := n }).slot 65535).fin = none ∧ (slotD { Slot.free with st := n }).dTag 65535 = 0) ∧
    d0.fb F.ESL_TRC_CTRL_EN = false ∧ isHubCore 0 = false ∧ run0.fabWrites (coreUid 0) 0 = false ∧ (run0.core 0).task = none ∧
    ((run0.mapCore 0 fun c => { c with task := some 65535 }).core 0).task = some 65535 := by decide +kernel
/-- Segment 2 of hub core 384 at the HBM, uncached. -/
def hbmD : Dev := ((d0.setF (F.CORE_SEG_V 384 2) 1).setF (F.CORE_SEG_W 384 2) 1)
theorem test_hbmD_alone : Alone State.reset.spine (hubG 2 0x2FFFFFFC hbmD) 384 := by constructor <;> rfl
/-- O27: the last word of the segment. -/
theorem witness_uncached : let d := hubG 2 0x2FFFFFFC hbmD
    let o := d.address 384 (d.g 384 2).toNat 0 true false 0
    Ready (at_ d) hH ∧ d.bad = [] ∧ mW.sz ≠ 3 ∧ d.guard { hH with gn := false } = true ∧ o.bad = false ∧ o.addr % 4 = 0 ∧
    d.mapAddr 384 o.addr false = some (0x0FFFFFFC, .uncached) ∧ tgtOf 0x0FFFFFFC = .hbm :=
  ⟨{ last := rfl, alone := test_hbmD_alone }, by decide +kernel⟩
/-- Line 0 is enabled and pending at core 0. -/
def killD (ie : Nat) : Dev :=
  ((run0.setF (F.CORE_IEN_IEN 0 0) 1).setF (F.CORE_STATUS_IE 0) ie).mapCore 0 fun c => { c with kill := true }
theorem test_killD_alone : Alone State.reset.spine (killD 1) 0 := by constructor <;> rfl
/-- O28: a halted core; one with a line to take, running and in WFI; one in WFI without IE, and one in a loop. -/
theorem witness_core_events : let wfi := fun (ie : Nat) => (killD ie).mapCore 0 fun c => { c with mode := .wfi }
    let held := ((wfi 1).setF (F.CORE_STATUS_LA 0) 1).setF (F.CORE_LC_LC 0) 1
    Alone State.reset.spine (killD 1) 0 ∧
    State.reset.spine.contain.out (coreUid 0) = false ∧ State.reset.spine.contain.pkg = 0 ∧ (d0.core 0).mode = .halted ∧
    ((killD 1).core 0).inflight = [] ∧ (killD 1).f (F.CORE_STATUS_IE 0) = 1 ∧ (killD 1).linesOn 0 ≠ 0 ∧
    (∀ ie ∈ [0, 1], ((wfi ie).core 0).mode = .wfi ∧ ((wfi ie).core 0).inflight = [] ∧ (wfi ie).f (F.CORE_STATUS_IE 0) = ie ∧
      (wfi ie).linesOn 0 ≠ 0 ∧ (((wfi ie).loopEnd 0).rptEnd 0).heldOff 0 = false) ∧
    (held.core 0).mode = .wfi ∧ held.linesOn 0 ≠ 0 ∧ ((held.loopEnd 0).rptEnd 0).heldOff 0 = true :=
  ⟨test_killD_alone, by decide +kernel⟩

/-! Register accesses of M-level firmware on hub core 0. -/

def fwReq : Req := { uid := 2048, ch := 0, lvl := 3, dbg := false }
def setF (x : Fld) (v : Nat) (d : Dev) : Dev := d.setF x v
/-- O29 to O34: the requester. -/
theorem witness_fw : Fw (at_ d0) fwReq := by constructor <;> decide
/-- O29: node 0 is an enabled peer that is UP. -/
def peerD : Dev := (d0.setF (F.EUR_PEER_CFG_EN 0) 1).setF (F.EUR_PEER_STAT_UP 0) 1
theorem witness_event_writes : State.reset.spine.contain.dies.contains 3 = false ∧
    (peerD.given fwReq F.EUR_EVT_SEND_NODE.addr 0).peerOf 0 = some 0 ∧ (peerD.given fwReq F.EUR_EVT_SEND_NODE.addr 0).peerUp 0 = true := by
  decide +kernel
def codeD : Dev := d0.setF (F.GSO_FUNC_STATE 130) 3
/-- O30: a sample at rest, a step backward and one forward, an idle and an armed trigger, a trim channel that is up, and DORMANT. -/
theorem witness_time_writes : d0.f F.TB_SERVO_CFG_SRC = 0 ∧ d0.f F.TB_STATUS_STEPPING = 0 ∧ d0.tb.sample = none ∧ d0.traffic = false ∧
    d0.fs F.TB_STEP_NS_NS = 0 ∧ (setF F.TB_STEP_NS_NS 0xFFFFFFFF d0).fs F.TB_STEP_NS_NS < 0 ∧
    d0.f (F.TB_TRIG_CTRL_EN 255) = 0 ∧ (let d := setF (F.TB_TRIG_CTRL_EN 255) 1 (setF (F.TB_TRIG_STAT_STATE 255) 1 d0)
     d.f (F.TB_TRIG_CTRL_EN 255) = 1 ∧ d.f (F.TB_TRIG_STAT_STATE 255) = 1) ∧
    codeD.fnUp 130 = true ∧ codeD.mode ≠ 5 ∧ bitAt (codeD.f F.TRM_STATUS_SAFE) 0 = false ∧ State.reset.spine.contain.pkg = 0 ∧
    codeD.f F.TB_SERVO_CFG_OUT ≠ 1 ∧ codeD.f F.TB_SERVO_CFG_OUT ≠ 2 ∧ (setF F.HST_STATUS_DORMANT 1 d0).fb F.HST_STATUS_DORMANT = true := by
  decide +kernel
/-- O31: a handover of the last bank from its first owner to core 0 of its region, a delegation by the owner to a channel of Gust and
its end, a write of another level in the same cycle, and a window that is not held and one that is. -/
def ownD : Dev := (d0.setF (F.PAL_OWNER_OWNER 15 51) 0x800)
theorem witness_memory_writes : State.reset.spine.contain.dies.contains 3 = false ∧
    State.reset.spine.contain.units.contains (bankUid 15 51) = false ∧ (ownD.bank 15 51).drain = none ∧
    mayOwn 15 (coreUid 360) 0 = true ∧ State.reset.spine.contain.gone (coreUid 360) 0 = false ∧ coreUid 360 ≠ 0x800 ∧ fwReq.uid.toNat = 0x800 ∧
    ownD.isOwner 15 51 fwReq = true ∧ mayDelegate 15 (gustUid 15) 31 = true ∧
    (ownD.setF (F.PAL_DELEG_EN 15 51) 1).fb (F.PAL_DELEG_EN 15 51) = true ∧ reqFw goodReq = false ∧ d0.washAt 15 = none ∧
    ({ d0 with wash := [(15, { tgt := .bank 15 51 8191, save := [] })] } : Dev).washAt 15 = some { tgt := .bank 15 51 8191, save := [] } := by
  decide +kernel
def mod1D : Dev := d0.setF (F.GST_CH_CFG_MODE (gstBaseOf 15) 31) 1
/-- O32: the last channels of a region's Gust and of the hub's, idle and running; a task to kill; a module; a host with the link's
registers. -/
theorem witness_mover_writes : 31 < gstChans 15 ∧ 63 < gstChans 16 ∧ mod1D.chMode1 15 31 = true ∧ d0.chMode1 16 63 = true ∧
    mod1D.chState 15 31 = 0 ∧ State.reset.spine.contain.gone (gustUid 15) 31 = false ∧
    (mod1D.setF (F.GST_CH_STATUS_STATE (gstBaseOf 15) 31) 1).chRuns 15 31 = true ∧ (mod1D.chan 15 31).stop = 0 ∧
    ((slotD { Slot.free with st := 3 }).slot 65535).st = 3 ∧ ((slotD { Slot.free with st := 3 }).slot 65535).fin = none ∧
    (slotD { Slot.free with st := 3 }).dTag 65535 = 0 ∧ d0.fb F.ESL_TRC_CTRL_EN = false ∧
    bitAt (0x20000 : Word).toNat 17 = true ∧ d0.fb (F.LC_CAGE_I2C_BUSY 3) = false ∧
    hostFull (State.reset.spine, setF F.HST_STATUS_DORMANT 1 d0) = true := by decide +kernel
def frame0 : NceFrame :=
  { sync := 0, phase := 0, eref := 0, tsync := 0, noise := 0, gain := 0, ferr := 0, eq := [], soft := [], hdr := none
    pay := 0, restarted := false, stall := false, pos := 0 }
def nceD : Dev := (d0.setF (F.NCE_CH_STATE_STATE 1535) 2).mapNce 1535 fun c => { c with frame := some frame0 }
/-- A position with carrier 47 admitted, and a table entry of it; the first is of the downlink. -/
def airD (dir : Nat) : Dev :=
  let d := ((d0.setF (F.FH_STRM_CFG_EN 0 127) 1).setF (F.FH_STRM_CFG_CARRIER 0 127) 47).setF (F.FH_STRM_CFG_DIR 0 127) dir
  { d with flow := SMap.set d.flow 47 (some { ul := 0, dl := 0, fill := 0, lim := none }) none }
def glzD : Dev := ((d0.setF (F.GSO_FUNC_STATE 129) 3).setF (F.GLZ_ROUND_EN 15) 1).setF (F.GLZ_CARR_NEXT_T_LO_T 47) 1
/-- O33: a frame to abort, a stream that no channel uses, a doorbell of a carrier that sends, an uplink entry, Glaze up with a
capture, an estimate and a swap at and beside a slot's start, and a target in DRAIN. -/
theorem witness_air_writes : bitAt (0x105FF : Word).toNat 16 = true ∧ (0x105FF : Word).toNat % 2 ^ 11 = 1535 ∧
    (nceD.nce 1535).frame = some frame0 ∧ nceD.chSt 1535 = 2 ∧ d0.sharedFree (.tx 3) = true ∧ d0.sharedFree (.cap 3) = true ∧
    ((airD 1).bellSym State.reset.spine 0 0x32F).isSome = true ∧
    (∀ k, ((airD 1).txSym 0 47 k).bell = none) ∧
    (airD 0).entryOf 0 127 = some (0, 127) ∧ (airD 0).f (F.FH_STRM_CFG_DIR 0 127) = 0 ∧
    (let v : Word := 0x3F8400
     bitAt v.toNat 21 = true ∧ bitsOf v.toNat 19 2 = 3 ∧ bitsOf v.toNat 15 4 = 15 ∧ 0 < bitsOf v.toNat 10 4 ∧ bitsOf v.toNat 26 4 = 0) ∧
    glzD.glzOn = true ∧ glzD.fnUp 129 = true ∧ bitAt (glzD.f F.GLZ_CAPT_CMD_BUSY) 3 = false ∧ glzD.fb (F.GLZ_ROUND_EN 15) = true ∧
    glzD.glz.est = none ∧
    ((glzD.setF (F.GLZ_CARR_NEXT_T_LO_T 47) 0).slotAtNs 47 0).isSome = true ∧ glzD.slotAtNs 47 (glzD.nextT 47) = none := by
  refine ⟨?_, ?_, ?_, ?_, ?_, ?_, ?_, fun k => rfl, ?_⟩ <;> decide +kernel
def drainD : Dev := ((d0.setF F.HST_STATUS_DORMANT 1).setF F.GSO_MODE_MODE 5).setF F.GSO_MODE_DRAINING 1
theorem witness_target_write : bitsOf (0x50 : Word).toNat 4 3 < 6 ∧ drainD.fb F.HST_STATUS_DORMANT = true ∧
    drainD.f F.GSO_MODE_HOLD_DRAIN = 0 ∧ drainD.mode = 5 ∧ drainD.f F.GSO_MODE_DRAINING = 1 ∧
    (∀ n < 134, drainD.f (F.GSO_FUNC_RESUME n) = 0) := by decide +kernel
/-- O34: no latched word, and a queue of timestamps. -/
theorem witness_reads : d0.latch = [] ∧ ((d0.mapFh 15 fun x => { x with txts := [(255, 0)] }).fhPort 15).txts = [(255, 0)] := by
  decide +kernel

/-! ## Boot, faults, the mailbox and the line card -/

/-- The least image: its header, one empty segment to the first data scratch, no records. -/
def imgD (d : Dev) (b flags : Nat) : Dev :=
  ((d.flashErase b 640).flashProg b (leBytes 4 0x47534F31 ++ leBytes 4 1 ++ leBytes 4 512 ++ leBytes 4 640 ++ leBytes 4 0 ++
      leBytes 1 64 ++ leBytes 1 flags ++ leBytes 2 1 ++ leBytes 4 512 ++ leBytes 4 0 ++ leBytes 4 512 ++ leBytes 4 0 ++ leBytes 4 512)).flashProg
    (b + 512) (leBytes 8 0x01000000000 ++ leBytes 4 0 ++ leBytes 4 0)
/-- The fuses and the key accept every image: what a witness of a verified image needs of the device. -/
def Accepts : Prop := (∀ k, (Config.sha384 k == Config.rootHash) = true) ∧ ∀ k h g, Config.ecdsaOk k h g = true
/-- The checks of an image's header, and of its segment, that do not rest on the key. -/
def headOk (d : Dev) (s b : Nat) : Bool :=
  let len := d.hdr b 0xC 4
  d.hdr b 0 4 == 0x47534F31 && d.hdr b 4 4 == 1 && d.hdr b 8 4 == 512 && within 608 640 len
    && decide (len ≤ 2 ^ 40) && decide (d.hdr b 0x14 1 ≤ 64) && within 1 64 (d.hdr b 0x16 2) && d.tabOk b 0x18 (d.hdr b 0x1C 4) 16
    && d.tabOk b 0x20 (d.hdr b 0x24 4) 16 && d.tabOk b 0x28 (d.hdr b 0x16 2) 32 && (bitAt (d.hdr b 0x15 1) 1 == (s == 2)) &&
    d.hdr b 0x14 1 == 64 && d.layer b 0 == [] && d.layer b 1 == [] && (d.segms b).all fun x => d.segOk b x
theorem test_verify (d : Dev) (s : Nat) (ha : Accepts) (hr : 640 ≤ imgRoom s) (h : headOk d s (imgBase s) = true) (hf : d.boot.fuse = none) :
    d.verify s none = none := by
  have hk : d.rollback ≤ 64 := by unfold Dev.rollback; rw [hf]; exact Nat.min_le_left 64 _
  unfold headOk at h
  simp only [Bool.and_eq_true, beq_iff_eq, List.all_eq_true] at h
  obtain ⟨⟨⟨⟨⟨h1, h2⟩, h3⟩, h4⟩, h5⟩, h6⟩ := h
  have hh : (d.headChecks s).find? (fun c => !c.2) = none := by
    have hw : within 608 (imgRoom s) (d.hdr (imgBase s) 0xC 4) = true := by
      have := h1.1.1.1.1.1.1.2
      unfold within at this ⊢
      simp only [Bool.and_eq_true, decide_eq_true_eq] at this ⊢
      exact ⟨this.1, Nat.le_trans this.2 hr⟩
    simp [Dev.headChecks, h1, h2, h3, ha.1, hk, hw]
  have hb : (d.bodyChecks (imgBase s)).filter (fun c => !c.2.2 && decide (c.1 ≤ 2 ^ 40)) = [] := by
    rw [List.filter_eq_nil_iff]
    unfold Dev.bodyChecks
    simp only [h4, h5, List.mapIdx_nil, List.nil_append, List.mem_append, List.mem_singleton]
    rintro c (hc | rfl)
    · rw [List.mem_mapIdx] at hc
      obtain ⟨i, hi, rfl⟩ := hc
      simp [h6 _ (List.getElem_mem hi)]
    · simp [ha.2]
  unfold Dev.verify
  simp only [Option.getD_none, hh, hb, List.foldl_nil]
  simp
  simpa using h1.1.1.1.1.1.2

theorem test_room (s : Nat) : 640 ≤ imgRoom s := by
  unfold imgRoom slotSize
  repeat' split
  all_goals omega
/-- The factory image, and the image of slot B beside a marker sector that is erased, on a board with 512 MiB. -/
def facD : Dev := imgD d0 0 2
def stgD : Dev := imgD (d0.flashErase 0x400000 0x20000) 0x2400000 0
theorem test_get {α : Type} (a : Nat) (x : α) : ∀ m : SMap α, (∀ e ∈ m, e.1 ≠ a) → SMap.get m a x = x
  | [], _ => rfl
  | e :: t, h => by
    rw [SMap.get, if_neg (h e List.mem_cons_self)]
    exact test_get a x t fun y hy => h y (List.mem_cons_of_mem _ hy)
theorem test_flash : ∀ e ∈ stgD.flash, 0x420000 ≤ e.1 := by decide +kernel
theorem test_erased : stgD.erased = [(0x400000, 0x420000), (0x2400000, 0x2400280)] := by decide +kernel
theorem test_blank (a : Nat) (h1 : 0x400000 ≤ a) (h2 : a < 0x420000) : stgD.flashByte a = 0xFF := by
  unfold Dev.flashByte
  rw [test_get a _ _ fun e he => by have := test_flash e he; omega, test_erased]
  simp [h1, h2]
theorem test_no_mark (i : Nat) (h2 : i < 4096) : stgD.markOk i = false := by
  have h : stgD.flashNum (markAt i) 4 = 0xFFFFFFFF := by
    unfold Dev.flashNum Dev.flashBytes markAt
    rw [show List.range 4 = [0, 1, 2, 3] from rfl]
    simp only [List.map_cons, List.map_nil]
    rw [test_blank _ (by omega) (by omega), test_blank _ (by omega) (by omega), test_blank _ (by omega) (by omega),
      test_blank _ (by omega) (by omega)]
    rfl
  unfold Dev.markOk
  simp [h]
theorem test_newest : stgD.newestMark = none := by
  unfold Dev.newestMark
  have : ∀ l : List Nat, (∀ i ∈ l, i < 4096) → l.foldl (fun b i =>
      if stgD.markOk i then
        (match b with
          | some j => if stgD.markSeq j ≤ stgD.markSeq i then some i else b
          | none => some i)
      else b) none = none := by
    intro l
    induction l with
    | nil => intro _; rfl
    | cons x t ih =>
      intro h
      rw [List.foldl_cons, test_no_mark x (h x List.mem_cons_self)]
      exact ih fun i hi => h i (List.mem_cons_of_mem _ hi)
  exact this _ fun i hi => List.mem_range.mp hi
theorem test_stage (d : Dev) (h : d.newestMark = none) : d.stageSlot = 1 ∧ d.markFull = false := by
  simp [Dev.stageSlot, Dev.activeSlot, Dev.markFull, Dev.newestSeq, h]
/-- A device that has reached DORMANT, with a command and its arguments at the front of the mailboxes. -/
def mbD (d : Dev) (cmd : Nat) (args : List (Nat × Nat)) : Dev :=
  let e := args.foldl (fun d x => d.setReg (blkBase .hst + 0x104 + 4 * x.1) (BitVec.ofNat 32 x.2))
    ((d.setF F.HST_STATUS_DORMANT 1).setReg (blkBase .hst + 0x100) (BitVec.ofNat 32 cmd))
  { e with mbox := [0] }
def front (d : Dev) (cmd : Nat) : Bool :=
  hostFull (State.reset.spine, d) && d.mbFront cmd == some 0 && d.mbArgsOk 0 cmd
def bootD (f : Boot → Boot) (d : Dev) : Dev := { d with boot := f d.boot }
/-- COMMIT_IMAGE at the front, with the image staged in slot B. -/
def comD : Dev := setF F.HST_STAGE_COMPLETE 1 (mbD (bootD (fun b => { b with staged := 1 }) stgD) 3 [])
/-- O36, O37: the factory image and the staged one verify, where the key accepts them. -/
theorem witness_verified (ha : Accepts) (h : Config.flashMib = 512) :
    (let d := bootD (fun b => { b with at_ := .load 2 }) facD
     d.boot.at_ = .load 2 ∧ d.verify (d.candSlot 2) none = none) ∧
    front comD 3 = true ∧ comD.fb F.HST_STAGE_COMPLETE = true ∧ comD.boot.committed = false ∧ comD.markFull = false ∧
    comD.verify comD.boot.staged none = none := by
  have hb : imgBase 1 = 0x2400000 := by unfold imgBase slotSize; simp [h]
  refine ⟨⟨rfl, test_verify _ 2 ha (test_room 2) (by decide +kernel) (by decide +kernel)⟩, by decide +kernel, by decide +kernel, rfl,
    (test_stage comD test_newest).2, ?_⟩
  exact test_verify comD 1 ha (test_room 1) (by rw [hb]; decide +kernel) (by decide +kernel)
/-- O36: the other steps of boot and reset. -/
theorem witness_boot : d0.boot.at_ = .off ∧ d0.boot.again = false ∧ d0.boot.rstLow = false ∧ d0.boot.rst = none ∧
    (bootD (fun b => { b with rstLow := true }) d0).boot.rstLow = true ∧
    (let d := bootD (fun b => { b with at_ := .load 2 }) facD
     d.boot.at_ = .load 2 ∧ d.verify (d.candSlot 2) (some 511) = some (7, 511)) ∧
    (bootD (fun b => { b with at_ := .verified }) d0).boot.at_ = .verified ∧ (bootD (fun b => { b with at_ := .layers }) d0).boot.at_ = .layers ∧
    (bootD (fun b => { b with rst := some 1 }) d0).boot.rst = some 1 ∧
    (let d := setF F.HST_STATUS_DORMANT 1 (setF F.TB_STATUS_STATE 2 (bootD (fun b => { b with at_ := .dormant, autoDue := true }) d0))
     State.reset.spine.contain.pkg = 0 ∧ d.boot.autoDue = true ∧ d.servoGood = true ∧ d.mode = 0 ∧ d.fb F.HST_STATUS_DORMANT = true) ∧
    (let d := setF F.GSO_POLICY_PKG_FAULT_RESET 1 (bootD (fun b => { b with at_ := .dormant, due := true }) d0)
     (State.reset.spine.setPkg 8).contain.pkg ≠ 0 ∧ d.fb F.GSO_POLICY_PKG_FAULT_RESET = true ∧ d.boot.at_ ≠ .off ∧ d.boot.rst = none ∧
     d.boot.due = true) := by decide +kernel
/-- O35: the last core, cluster, die, engine, channel and unit in service. -/
theorem witness_faults : let c := State.reset.spine.contain
    c.pkg = 0 ∧ c.out (coreUid 383) = false ∧ (∃ i < 4, i ≠ 383 % 4 ∧ c.units.contains (coreUid (coreCluster 383 * 4 + i)) = false) ∧ c.clusters.contains 95 = false ∧
    c.dies.contains 3 = false ∧ within 1 8 8 = true ∧ c.out (regionUid 15 3) = false ∧ 63 < gstChans 16 ∧ 31 < gstChans 15 ∧
    c.gone (gustUid 16) 63 = false ∧ c.out (hubUid 4) = false ∧ c.out nceUid = false ∧ c.out glzUid = false := by decide +kernel

/-- A FUNCTION_CONFIG record of carrier 0: its radio access technology. -/
def carrRec (a : Nat) : List Byte := leBytes 8 a ++ leBytes 4 3 ++ leBytes 4 1
theorem witness_stage_room : 0 + 2 ^ 24 ≤ slotSize := by
  unfold slotSize
  repeat' split
  all_goals decide
/-- O37: each command at the front, with the largest arguments that it takes. -/
theorem witness_mailbox :
    (∀ c ∈ [1, 8], front (mbD d0 c []) c = true) ∧
    (let d := mbD d0 2 [(3, 2 ^ 24)]
     front d 2 = true ∧ d.boot.committed = false ∧ d.mbArg 0 2 = d.f F.HST_STAGE_BYTES ∧ d.mbArg 0 3 = 2 ^ 24 ∧
     d.mbArg 0 2 = 0 ∧ 2 ^ 24 % 256 = 0 ∧ bitAt (d.mbArg 0 4) 0 = false) ∧
    (let d := mbD (setF F.TB_STATUS_STATE 3 (setF F.GSO_MODE_MODE 4 d0)) 4 [(0, 5)]
     front d 4 = true ∧ d.mbArg 0 0 = 5 ∧ d.mode = 4 ∧ d.f F.GSO_MODE_HOLD_DRAIN = 0) ∧
    (let d := mbD (setF (F.GSO_FUNC_STATE 133) 3 d0) 5 [(0, 133)]
     front d 5 = true ∧ d.mbArg 0 0 = 133 ∧ d.fnState 133 = 3) ∧
    (let d := mbD (setF (F.GSO_FUNC_STATE 130) 1 (setF F.GSO_MODE_MODE 2 d0)) 6 [(0, 130)]
     front d 6 = true ∧ d.mbArg 0 0 = 130 ∧ d.fnState 130 = 1 ∧ fnMayRun 130 d.mode = true ∧ d.mode ≠ 5 ∧ (d.startCheck 130).1 = true) ∧
    (let d := mbD (setF (F.GSO_FUNC_STATE 133) 1 d0) 7 [(0, 133)]
     front d 7 = true ∧ d.mbArg 0 0 = 133 ∧ d.mbArg 0 1 = 0 ∧ d.fnState 133 = 1 ∧ d.mbArg 0 4 = 0) ∧
    (∀ m ∈ [0, 1], let d := mbD d0 7 [(0, 0), (1, m), (4, 1)]
     front d 7 = true ∧ d.mbArg 0 0 = 0 ∧ d.mbArg 0 1 = m ∧ d.fnState 0 = 0 ∧ d.mbArg 0 4 = 1 ∧
     (∀ r ∈ recsOf 1 (fitBytes 16 (carrRec (F.GSO_CARR_RAT 0).addr)), d.recOfFn 0 r = true) ∧
     ∃ r ∈ recsOf 1 (fitBytes 16 (carrRec F.GSO_MODE_MODE.addr)), d.recOfFn 0 r = false) ∧
    (let d := mbD d0 9 [(0, 1)]
     front d 9 = true ∧ bitAt (d.mbArg 0 0) 1 = false) ∧
    (let d := mbD (setF F.HST_TRIG_RANGE_COUNT 1 (setF F.HST_TRIG_RANGE_FIRST 255 d0)) 10 [(0, 255)]
     front d 10 = true ∧ d.f F.HST_TRIG_RANGE_FIRST ≤ d.mbArg 0 0 ∧
     d.mbArg 0 0 < d.f F.HST_TRIG_RANGE_FIRST + d.f F.HST_TRIG_RANGE_COUNT ∧ d.mbArg 0 0 < 256) ∧
    (let d := mbD d0 11 [(2, 65536)]
     front d 11 = true ∧ d.mbArg 0 3 = 0 ∧ d.mbArg 0 2 = 65536) := by decide +kernel
def lateSp : Spine := { State.reset.spine with now := 10 ^ 6 * nsUnit, recent := [10 ^ 6 * nsUnit] }
def farSp : Spine := { State.reset.spine with now := 61 * 10 ^ 9 * nsUnit }
/-- O38: modes with a drain that is over, one under way before and at its timeout, and a watchdog. -/
def drD (st : Nat) : Dev := setF (F.GSO_FUNC_STATE 0) st (setF F.GSO_DRAIN_TIMEOUT_TIMEOUT_MS 1 drainD)
theorem witness_modes : lateSp.contain.pkg = 0 ∧ (drD 0).drained_ = true ∧
    ((((drD 0).setF F.GSO_MODE_DRAINING 0).raise evGsoDrainDone gsoUid).clearCause lateSp 2).fb F.TB_STATUS_JUMP_PEND = false ∧
    (drD 4).traffic = true ∧ (drD 4).mode = 5 ∧ (drD 4).fb F.GSO_MODE_DRAINING = true ∧ (drD 4).f F.GSO_DRAIN_TIMEOUT_TIMEOUT_MS = 1 ∧
    (drD 4).modes.drainAt + 1 * 1000000 * nsUnit ≤ lateSp.now ∧ State.reset.spine.now < (drD 4).modes.drainAt + 1 * 1000000 * nsUnit ∧
    (setF (F.GSO_FUNC_STATE 133) 3 d0).fnActive 133 = true ∧
    SMap.get d0.prog 133 0 + 3 * d0.wdInterval 133 ≤ 3 * 1000000 * nsUnit := by decide +kernel
def pfD (f : Pwrfail → Pwrfail) : Dev := { d0 with pf := f Pwrfail.idle }
/-- O38: the supply at rest, failed with a flush that runs, an erase; temperatures at the limits; a core voltage that has settled. -/
theorem witness_power : d0.pf.low = false ∧ d0.pf.flush = none ∧ d0.pf.erase = none ∧
    (let d := pfD fun p => { p with low := true, flush := some (1, []) }
     d.pf.flush = some (1, []) ∧ d.pf.low = true ∧ d.pf.flush.isSome = true) ∧
    (let d := pfD fun p => { p with erase := some 1 }
     d.pf.erase = some 1 ∧ d.pf.wait = none) ∧
    d0.f (F.GSO_THERM_THROT 3) = 0 ∧ d0.throttleC ≤ sx 8 127 ∧ sx 8 128 < d0.throttleC - d0.hystC ∧
    (setF (F.GSO_THERM_THROT 3) 1 d0).f (F.GSO_THERM_THROT 3) = 1 ∧
    (let d : Dev := { d0 with pwr := { d0.pwr with rise := some 1000 } }
     d.pwr.rise = some 1000 ∧ d.pwr.since + max 1 (d.f F.GSO_AVS_SETTLE_US) * (1000 * nsUnit) ≤ lateSp.now) := by decide +kernel
def cageD (st : Nat) (prs rst : Bool) : Dev :=
  setF (F.LC_CAGE_CFG_AUTO 3) 1 (setF (F.LC_CAGE_STAT_STATE 3) st (d0.mapCage 3 fun c => { c with prs := prs, rst := rst }))
def app0 (r l : Nat) : ModApp := { code := 1, rate := BitVec.ofNat _ r, lanes := BitVec.ofNat _ l }
/-- O39: the latch, the key and the last cage in each of its states. -/
theorem witness_line_card : State.reset.spine.contain.out lcUid = false ∧ (setF F.LC_STATUS_LATCH 1 d0).fb F.LC_STATUS_LATCH = true ∧
    (setF F.GSO_POLICY_LATCH_DRAIN_EN 0 d0).f F.GSO_POLICY_LATCH_DRAIN_EN = 0 ∧ d0.fb F.LC_STATUS_LATCH = false ∧ d0.fb F.LC_CFG_CLOSE_RESUME = false ∧
    d0.fb F.LC_STATUS_KEY = false ∧
    (let d : Dev := { setF F.GSO_POLICY_SVC_RESET_EN 1 (setF F.LC_STATUS_KEY 1 (bootD (fun b => { b with at_ := .dormant }) d0)) with
       lc := { timed := true, acted := false, pressed := 0 } }
     d.fb F.LC_STATUS_KEY = true ∧ d.lc.timed = true ∧ d.lc.acted = false ∧ (lateSp.now - d.lc.pressed) / (10 ^ 6 * nsUnit) < 1000 ∧
     12001 ≤ (farSp.now - d.lc.pressed) / (10 ^ 6 * nsUnit) ∧ d.fb F.GSO_POLICY_SVC_RESET_EN = true ∧ d.boot.at_ ≠ .off ∧
     d.boot.rst = none) ∧
    (cageD 0 false false).f (F.LC_CAGE_STAT_STATE 3) = 0 ∧ ((cageD 0 false false).cageAt 3).prs = false ∧
    (∀ r ∈ [true, false], (cageD 1 true r).f (F.LC_CAGE_STAT_STATE 3) = 1 ∧ ((cageD 1 true r).cageAt 3).rst = r) ∧
    (cageD 1 true false).fb (F.LC_CAGE_CFG_AUTO 3) = true ∧ ((cageD 1 true false).cageAt 3).prs = true ∧
    ((cageD 1 true false).cageAt 3).since + min 0 (1000 * max 1 ((cageD 1 true false).f (F.LC_CAGE_CFG_TMO_S 3))) * (10 ^ 6 * nsUnit) ≤
      State.reset.spine.now ∧
    (cageD 2 true false).f (F.LC_CAGE_STAT_STATE 3) = 2 ∧ (cageD 3 true false).f (F.LC_CAGE_STAT_STATE 3) = 3 ∧
    ((cageD 3 true false).mapCage 3 fun c => { c with apps := [app0 4 4] }).modApp 3 = none ∧
    ((cageD 3 true false).mapCage 3 fun c => { c with apps := [app0 100 1] }).modApp 3 = some (app0 100 1) ∧
    d0.fb (F.LC_CAGE_I2C_BUSY 3) = false ∧ (setF (F.LC_CAGE_I2C_BUSY 3) 1 d0).fb (F.LC_CAGE_I2C_BUSY 3) = true ∧
    (setF (F.LC_CAGE_I2C_BUSY 3) 1 d0).modStep 3 = false ∧ d0.fb (F.LC_CAGE_I2C_WRITE 3) = false := by decide +kernel
def occ0 (n : Nat) : Dev := d0.raise n 0
/-- O40: a package fault with an event that the always-on island takes and one that it does not; a core that is sampled; the debug
port, closed and open. -/
theorem witness_event_test : State.reset.spine.contain.pkg = 0 ∧ (State.reset.spine.setPkg 1).contain.pkg ≠ 0 ∧
    (∃ o, (occ0 48).evq = [o] ∧ aonEvents.contains o.num = false) ∧
    (∃ o, (occ0 evPwrfail).evq = [o] ∧ aonEvents.contains o.num = true ∧ (occ0 evPwrfail).f (F.EVT_CFG_ROUTE o.num) ≠ 1) ∧
    (let d := setF F.EVT_TRC_CTRL_PC_EN 1 (setF F.EVT_TRC_CTRL_PC_CORE 383 { d0 with pwr := { d0.pwr with clk := 1000 } })
     d.pcDue lateSp (coreCluster 383) = true ∧ d.fb F.EVT_TRC_CTRL_PC_EN = true ∧ d.f F.EVT_TRC_CTRL_PC_CORE = 383 ∧ d.parked.contains (coreCluster 383) = false) ∧
    (let d := setF F.EVT_DBG_OPEN 1 d0
     let e := d.mapCore 384 fun c => { c with mode := .debug }
     d.fb F.EVT_DBG_OPEN = true ∧ (d.core 384).mode ≠ .debug ∧ e.fb F.EVT_DBG_OPEN = true ∧ (e.core 384).mode = .debug) := by
  refine ⟨?_, ?_, ⟨_, rfl, ?_⟩, ⟨_, rfl, ?_⟩, ?_⟩ <;> decide +kernel
/-- O40: a closed debug port, on a device that is not locked. -/
theorem witness_debug (h : Config.dbgLock = false) (token : List Byte) :
    d0.fb F.EVT_DBG_OPEN = false ∧ (Config.dbgLock = false ∨ Config.debugTokenOk token = true) := ⟨by decide, .inl h⟩

/-! ## Memories, Easel and Gust -/

def bankD (p : PwrPhase) (req : Nat) : Dev := (d0.mapBank 15 51 fun b => { b with phase := p }).setF (F.PAL_PWR_REQ 15 51) req
def drainB (x : Drain) : Dev := (d0.setF (F.PAL_DELEG_EN 15 51) 1).mapBank 15 51 fun b => { b with drain := some x }
def drain0 (own old del : Bool) : Drain := { own := own, uid := 0, ch := 0, oldIn := old, delIn := del }
def lastWin : WashTgt := .bank 15 51 8191
def washOn : Dev := { (setF F.PAL_WASH_STAT_RUN 1 (setF F.PAL_WASH_CFG_PASS_H 1 d0)) with washPos := [(15, 57343)], washSince := some 0 }
def washD : Dev := { washOn with wash := [(15, { tgt := lastWin, save := [] })] }
/-- The window of the last bank's last page, whose first word goes bad. -/
def badWin : Ecc := [(BitVec.ofNat 42 (washSpan lastWin).1, true)]
/-- O41: the last bank in each of its phases, with a drain to reach a unit and one that is done, and its last window, not yet
borrowed, sound and not, and borrowed; a scrub at rest, under way and due. -/
theorem witness_banks : let sp := State.reset.spine
    bankLive sp 15 51 = true ∧ (∀ p ∈ [PwrPhase.on, .retention, .waking, .powering], ((bankD p 1).bank 15 51).phase = p) ∧
    (bankD .on 1).pwrReq 15 51 = 1 ∧ (bankD .on 1).bankIdle 15 51 = true ∧ ((bankD .on 1).bank 15 51).woken = false ∧
    (let d := (bankD .on 1).mapBank 15 51 fun b => { b with woken := true }
     bankLive lateSp 15 51 = true ∧ (d.bank 15 51).phase = .on ∧ d.pwrReq 15 51 = 1 ∧ d.bankIdle 15 51 = true ∧
     (d.bank 15 51).woken = true ∧ (d.bank 15 51).used + d.f (F.PAL_RET_HOLD_US 15) * 1000 * nsUnit ≤ lateSp.now) ∧
    (∀ p ∈ [PwrPhase.on, .retention], (bankD p 2).pwrReq 15 51 = 2 ∧ (bankD p 2).bankIdle 15 51 = true ∧ (bankD p 2).washAt 15 = none) ∧
    ((drainB (drain0 true false false)).bank 15 51).drain = some (drain0 true false false) ∧
    (drainB (drain0 true false false)).fb (F.PAL_DELEG_EN 15 51) = true ∧
    (∀ own ∈ [true, false], ((drainB (drain0 own true true)).bank 15 51).drain = some (drain0 own true true) ∧
      (drainB (drain0 own true true)).drained sp 15 51 (drain0 own true true) = true) ∧
    (∀ ecc ∈ [[], badWin], let e := washOn.upset ecc
     e.washRuns sp = true ∧ (e.washBegin sp).washMay sp lastWin = true) ∧
    (washOn.upset []).firstUe (washSpan lastWin).1 (washSpan lastWin).2 = none ∧
    ((washOn.upset badWin).firstUe (washSpan lastWin).1 (washSpan lastWin).2).isSome = true ∧
    (washD.washAt (washKey lastWin)).map (·.tgt) = some lastWin ∧ sp.contain.out (bankUid 15 51) = false ∧
    sp.contain.pkg = 0 ∧ (∀ x ∈ [none, some 0], let d : Dev := { setF F.PAL_HBM_SCRUB_HOURS 1 d0 with scrub := 2 ^ 29, scrubSince := x }
      d.f F.PAL_HBM_SCRUB_HOURS = 1 ∧ d.scrubSince = x ∧ d.scrub = 2 ^ 29) ∧
    0 + 1 * 3600 * 10 ^ 9 * nsUnit ≤ ({ sp with now := 3600 * 10 ^ 9 * nsUnit } : Spine).now ∧ ¬ 0 + 1 * 3600 * 10 ^ 9 * nsUnit ≤ farSp.now ∧
    (setF F.PAL_EXT_INVAL_BUSY 1 d0).fb F.PAL_EXT_INVAL_BUSY = true := by decide +kernel
def lastBank : BitVec 42 := BitVec.ofNat 42 (bankBase 15 51 + 0x1FFFF8)
def r0Req : Req := { uid := BitVec.ofNat 12 (coreUid 360), ch := 0, lvl := 0, dbg := false }
def extD (e : Nat) : Dev :=
  { setF F.PAL_EXT_CTRL_EN 1 (setF F.HST_STATUS_LINK_UP 1 (setF (F.EUR_PEER_CFG_NODE 0) 1 peerD)) with extCache := [(0, e), (0x80000, e)] }
/-- O42: the last 8 bytes of the last bank, of the last core's data scratch and of the HBM; a requester that the bank and one that
no core memory admits; a window to the host, and one to a peer that is down and that is up. -/
theorem witness_arrivals : let sp := State.reset.spine
    Clean d0 ∧ Clean (extD 3) ∧ reqGone sp d0 fwReq = false ∧ reqGone sp d0 r0Req = false ∧ fencedDie sp lastBank.toNat = none ∧
    sp.contain.units.contains (bankUid 15 51) = false ∧ (d0.bank 15 51).phase = .on ∧ (d0.bank 15 51).waiting = [] ∧
    tgtOf lastBank.toNat = .bank 15 51 ∧
    tgtOf (lastBank.toNat + 7) = .bank 15 51 ∧ d0.judge 15 51 fwReq false false = .ok ∧ d0.judge 15 51 fwReq true false = .ok ∧
    d0.judge 15 51 r0Req true false = .refuse 0 ∧
    tgtOf (coreMem 387 + 0x3FFF8) = .cmem 387 ∧ tgtOf (coreMem 387 + 0x3FFFF) = .cmem 387 ∧ cmemAdmits 387 fwReq = true ∧
    cmemAdmits 387 r0Req = false ∧ hostFull (sp, setF F.HST_STATUS_DORMANT 1 d0) = true ∧ tgtOf 0x3FFFFFFF8 = .hbm ∧
    tgtOf 0x20000000000 = .host ∧ tgtOf 0x30000000000 = .fabric ∧ reqGone sp (extD 3) fwReq = false ∧
    (∀ w ∈ [true, false], let r := (extD 3).extCheck 0 fwReq 0x20000000000 w
     r.1 = some 3 ∧ (r.2.fnCfg (bitsOf 3 6 5)).d3 = false ∧ r.2.fb F.HST_STATUS_LINK_UP = true) ∧
    (∀ up ∈ [1, 0], let r := ((extD 21).setF (F.EUR_PEER_STAT_UP 0) up).extCheck 1 fwReq 0x30000000000 false
     r.1 = some 21 ∧ r.2.peerOf (bitsOf 21 4 14) = some 0 ∧ r.2.peerUp 0 = (up == 1)) :=
  ⟨test_clean _ rfl rfl, test_clean _ rfl rfl, by decide +kernel⟩
def taskD (x : Slot) : Dev := (descD d0 0).setSlot 65535 x
/-- One task, held for a time, pending, ready in region 0 and not yet late, and running with a status. -/
def held1 : Dev := (descD d0 0x40).setSlot 65535 { Slot.free with st := 1 }
def pend1 : Dev := taskD { Slot.free with st := 2 }
def ready1 : Dev := taskD { Slot.free with st := 3, region := some 0 }
def done1 (f : Option (Nat × Nat)) : Dev := taskD { Slot.free with st := 4, region := some 0, fin := some 0, spillFrom := f }
/-- The same ready task with an execution time, when its deadline has passed at region 0. -/
def lateD : Dev := ((ready1.setBytes 0x020003FFFDC (leBytes 4 1)).setBytes 0x020003FFFC4 (leBytes 4 0x100))
def spillD : Dev :=
  let d := (((((lateD.setF (F.EUR_PEER_CFG_EN 0) 1).setF (F.EUR_PEER_STAT_UP 0) 1).setF (F.ESL_SPILL_PEER_EN 0) 1).setF
    F.ESL_SPILL_CFG_OUT_EN 1).setF F.ESL_SPILL_SLACK_NS 1)
  { d with peers := SMap.put d.peers 0 { d.peer 0 with adv := some (1, lateSp.now) } }
def idleD : Dev := ready1.mapCore 0 fun c => { c with mode := .easel }
/-- A task of an engine that has ended, and its successor, which a full ready list of region 0 has no entry for. -/
def fullD : Dev :=
  let d := ((descD d0 1).setBytes (slotAddr 65535 + 0xC) (leBytes 4 (2 ^ 28))).setBytes (slotAddr 65535 + 0x30) (leBytes 4 65534)
  { (d.setBytes (slotAddr 65534 + 4) (leBytes 4 0x80)).setBytes (slotAddr 65534 + 8) (leBytes 4 0x10001) with
    slots := ((List.range 4096).map fun i => (i, { Slot.free with st := 3, region := some 0 })) ++
      [(65534, { Slot.free with st := 1, dep := 1 }), (65535, { Slot.free with st := 4, region := some 0, fin := some 0 })] }
/-- The descriptor of the last slot goes bad. -/
def badDesc : Ecc := [(BitVec.ofNat 42 (slotAddr 65535), true)]
/-- O43: a task due for release, one to place, one late, one that misses its deadline, one to spill, one that has ended, with and without
an origin at a peer, one whose completion is held, one to dispatch to a waiting core, with a descriptor that is sound and one that is
not, and an advertisement that is due. -/
theorem witness_easel : let sp := State.reset.spine
    sp.contain.pkg = 0 ∧ (held1.slot 65535).st = 1 ∧ (held1.slot 65535).fin = none ∧ held1.dRel 65535 = 1 ∧
    held1.dRelease 65535 ≤ (timeNs sp : Int) ∧ pend1.canMove sp 65535 = true ∧
    (∀ t ∈ pend1.slots, pendBefore pend1 65535 t.1 = true → pend1.canMove sp t.1 = false) ∧
    (lateD.slot 65535).region = some 0 ∧ readyIn 0 (lateD.slot 65535) = true ∧ (lateD.slot 65535).late = false ∧
    lateD.dWcet 65535 ≠ 0 ∧ ((lateD.dDeadline 65535 : Int) - lateD.dWcet 65535) * nsUnit < ((lateD.showCopy lateSp 0 0).disp_ 0).copy ∧
    (lateD.missJudge lateSp 65535 0).map (·.2.1) = some true ∧ (lateD.slot 65535).missed = false ∧ (lateD.slot 65535).fin = none ∧
    spillD.spillPeer lateSp = some 0 ∧ (spillD.slot 65535).offered = false ∧ spillD.dSpillable 65535 = true ∧
    spillD.fb F.ESL_SPILL_CFG_OUT_EN = true ∧ spillD.pickUnit lateSp 0 65535 = none ∧ spillD.f F.ESL_SPILL_SLACK_NS ≠ 0 ∧
    (spillD.dDeadline 65535 : Int) - spillD.dWcet 65535 - timeNs lateSp < spillD.f F.ESL_SPILL_SLACK_NS ∧
    (∀ f ∈ [none, some (15, 65535)], ((done1 f).slot 65535).fin = some 0 ∧ ((done1 f).slot 65535).st = 4 ∧
      ((done1 f).slot 65535).spillFrom = f ∧ (done1 f).completionHeld sp 65535 0 = none ∧
      ((done1 f).returnGrants sp 65535).dCqEn 65535 = false ∧ ((done1 f).returnGrants sp 65535).dEvtEn 65535 = false ∧
      ((done1 f).returnGrants sp 65535).dSuccs 65535 = []) ∧
    sp.contain.out (dispatcherUid 0) = false ∧
    (∀ ecc ∈ [[], badDesc], let d := (idleD.upset ecc).showCopy sp 0 4
     (d.readyList 0).find? (fun t => ((d.decide_ sp 0).slot t).st == 4) = some 65535 ∧ d.floorPick sp 0 = none ∧ d.readyOrder 0 = [65535] ∧
     (d.pickUnit sp 0 65535).isSome = true ∧ (d.firstUe (slotAddr 65535) 64).isSome = !ecc.isEmpty) ∧
    (let d := setF F.ESL_SPILL_CFG_IN_EN 1 d0
     d.fb F.ESL_SPILL_CFG_IN_EN = true ∧ d.advAt + d.f F.ESL_SPILL_CFG_ADV_US * usUnit ≤ lateSp.now) ∧
    d0.fb F.ESL_SPILL_CFG_IN_EN = false := by decide +kernel
theorem witness_held : (fullD.slot 65535).fin = some 0 ∧ fullD.completionHeld State.reset.spine 65535 0 = some 0 ∧
    (fullD.slot 65535).held = false := by decide +kernel
def runs1 (e n : Nat) : Dev := d0.setF (F.GST_CH_STATUS_STATE (gstBaseOf e) n) 1
def gd0 (op : Nat) (p : Bool) : GDesc :=
  { at_ := 0, op := op, delivered := true, irq := false, cmpPat := p, cmpHalt := p, last := true, srcN := 0, dstN := 0, pat := 0, src := 0
    dst := 0, next := 0, fence := 0, bad := false }
def gb0 (l : Option (List Byte)) (i : Option Nat) : GBurst := { sa := 0, da := 64, n := 64, data := l, diff := i }
def chanD (op : Nat) (p : Bool) (b : Option GBurst) : Dev :=
  (runs1 16 63).mapChan 16 63 fun c => { c with desc := some (gd0 op p), burst := b }
/-- The outcome of an access is this. -/
def okRead (o : AccOut) (n : Nat) : Bool :=
  match o with
  | .ok l => l.length == n
  | _ => false
/-- The hub engine's last channel with a fence and a write of its first descriptor under way, of program `m`. -/
def fenceD (m : Nat) : Dev :=
  { chanD 3 false none with gustW := [(16, [{ ch := 63, seq := m, dn := 0, a := 0, data := [1], asks := true, late := false }])] }
/-- Channel 0 of region 0's engine with a write to a bank that wakes. -/
def wakeW : Dev :=
  { d0.mapBank 0 0 (fun b => { b with phase := .waking }) with
    gustW := [(0, [{ ch := 0, seq := 0, dn := 0, a := bankBase 0 0, data := [1, 0, 0, 0, 0, 0, 0, 0], asks := true, late := false }])] }
/-- A descriptor with two source entries. -/
def ents0 : GDesc := { gd0 0 true with srcN := 2 }
/-- O44: the last channel of the hub engine with a descriptor to fetch, a burst of each operation in flight, one that leaves it, with
and without a STOP, a fence with and without a write under way, and a write that lands and one that waits. -/
theorem witness_gust : let sp := State.reset.spine
    let d := chanD 3 false none
    let q := gstReq 16 63
    let lost := d.mapChan 16 63 fun c => { c with lost := true }
    ((runs1 16 63).upset []).gstActs sp 16 63 = true ∧ (((runs1 16 63).upset []).chan 16 63).stop = 0 ∧
    ((runs1 16 63).upset []).gstFetch 16 63 = some (0, 64, 0) ∧
    okRead (busRead q 0 64 [] (sp, (runs1 16 63).upset [])).1 64 = true ∧ (busRead q 0x00400000000 64 [] (sp, runs1 16 63)).1 = .refused ∧
    (∀ op ∈ [0, 1, 2], ∀ p ∈ [true, false], ((chanD op p (some (gb0 none none))).upset []).gstDue sp 16 63 op = some (gb0 none none, gd0 op p) ∧
      okRead (busRead q 64 64 [] (sp, chanD op p (some (gb0 none none)))).1 64 = true ∧ (gd0 op p).cmpPat = p) ∧
    (d.chan 16 63).desc = some (gd0 3 false) ∧ d.gstActs sp 16 63 = true ∧ (d.chan 16 63).fenceOut = false ∧ (d.chan 16 63).stop = 0 ∧
    (d.chan 16 63).lost = false ∧ (d.chan 16 63).refused = false ∧ d.gstPending 16 63 = false ∧
    (fenceD 0).gstActs sp 16 63 = true ∧ (fenceD 0).gstPending 16 63 = true ∧
    (lost.chan 16 63).lost = true ∧ lost.gstPending 16 63 = false ∧
    (∀ op ∈ [0, 2], ∀ i ∈ [none, some 63], let x := chanD op true (some (gb0 (some []) i))
     (x.chan 16 63).burst = some (gb0 (some []) i) ∧ (x.chan 16 63).desc = some (gd0 op true) ∧ x.gstActs sp 16 63 = true ∧
     (x.chan 16 63).stop = 0 ∧ (gd0 op true).cmpHalt = true) ∧
    (let x := (chanD 0 true (some (gb0 (some []) none))).mapChan 16 63 fun c =>
       { c with stop := 9, desc := some ents0, si := 1, sEnt := some { addr := 0, len := 128, win := none, fixed := false, off := 0 } }
     (x.chan 16 63).desc = some ents0 ∧ (x.chan 16 63).stop ≠ 0 ∧ x.gstLast 16 63 64 = false) ∧
    ((fenceD 0).gustWrites 16)[0]?.isSome = true ∧
    okRead (busAcc q 0 1 true [1] false true [] false (sp, fenceD 0)).1 0 = true ∧
    (wakeW.gustWrites 0)[0]?.isSome = true ∧
    (busAcc (gstReq 0 0) (bankBase 0 0) 8 true [1, 0, 0, 0, 0, 0, 0, 0] false true [] false (sp, wakeW)).1 = .wait := by
  decide +kernel

/-! ## The engines, air and time -/

/-- A task descriptor's engine words. -/
def words (l : List Nat) : List Byte := (l ++ List.replicate (16 - l.length) 0).flatMap (leBytes 4)
def fftW : List Byte := words [0x54, 0, 0, 0, 0x10000]
def cztW : List Byte := words [0x50]
/-- Descriptors of the encoder and the decoder for each of their operations. -/
def encW (op : Nat) : List Byte :=
  words (if op = 0 then [0x12001, 24, 64, 0x100, 0, 64] else if op = 1 then [0, 12, 54] else if op = 2 then [0x12000, 16, 80, 0x100, 1000, 64]
    else if op = 3 then [0x1000, 12, 100] else [0, 3])
def decW (op : Nat) : List Byte :=
  words (if op = 0 then [0x12081, 24, 64, 0x100, 0, 64] else if op = 1 then [0, 12, 54] else if op = 2 then [0x12080, 16, 80, 0x100, 1000, 64]
    else if op = 3 then [0x1001000, 11, 32] else [0, 24, 0, 0x100, 0, 64])
def run1 (op : Nat) (l : List Byte) (code fin : Option Nat) : EngRun :=
  { slot := 65535, op := op, desc := l, code := code, undo := [], outs := [], fin := fin }
def engD (e : Nat) (q : List Nat) (x : Option EngRun) : Dev :=
  (descD d0 0).setEngine 15 e { (d0.engine 15 e) with queue := q, run := x }
/-- An index entry of one soft buffer of the largest size. -/
def harqD : Dev := (d0.setBytes 0 (leBytes 8 (1 + (2 ^ 20 - 1) * 2 ^ 34))).setF (F.DEC_HARQ_CTRL_EN 15) 1
/-- O45: the engines of the last region: a task to take, and one that has ended; a region that is parked. -/
theorem witness_engines :
    (∀ e ∈ [0, 1, 2, 3], engActs State.reset.spine 15 e = true ∧
      ((engD e [65535] none).engine 15 e).queue = [65535] ∧ ((engD e [65535] none).engine 15 e).run = none ∧
      (engD e [65535] none).unitHeld 15 1 e = false ∧ ((engD e [] none).engine 15 e).queue = [] ∧ ((engD e [] none).engine 15 e).run = none) ∧
    bitsOf ((engD 0 [65535] none).df 65535 0x20 0 32) 4 4 = engClass 0 ∧ (engD 0 [65535] none).df 65535 0x20 0 32 / 256 = 0 ∧
    (engD 0 [65535] none).df 65535 0x20 0 32 % 16 < engOps 0 ∧
    okRead (busRead (engReq 15 0) (((engD 0 [65535] none).upset []).dBuf0 65535) 64 [] (State.reset.spine, (engD 0 [65535] none).upset [])).1 64 = true ∧
    ({ engD 3 [] none with parked := [90, 91, 92, 93, 94, 95] } : Dev).regionParked 15 = true ∧
    ((engD 2 [] (some (run1 4 (decW 4) (some 0) none))).engine 15 2).run = some (run1 4 (decW 4) (some 0) none) := by decide +kernel
/-- O45: an FFT task to run for each operation. -/
theorem witness_fft : ((engD 0 [] (some (run1 0 fftW none none))).engine 15 0).run = some (run1 0 fftW none none) ∧
    fftOk 0 fftW = true ∧ fftOk 1 fftW = true ∧ fftOk 2 cztW = true ∧ fftOk 0 cztW = false ∧
    (cztLen (bitsOf (dw cztW 0 4) 0 4)).isSome = true := by decide +kernel
/-- O45: a task of the encoder and of the decoder to run for each operation. -/
theorem witness_encoder : ∀ op ∈ [0, 1, 2, 3, 4], encOk op (encW op) = true ∧
    okRead (engRead 15 3 (codeDesc true op (encW op)).inp ((encBits (codeDesc true op (encW op)) + 7) / 8) [] (State.reset.spine, d0.upset [])).1
      ((encBits (codeDesc true op (encW op)) + 7) / 8) = true := by decide +kernel
theorem witness_decoder : ∀ op ∈ [0, 1, 2, 3, 4], decOk op (decW op) = true ∧
    okRead (engRead 15 2 (codeDesc false op (decW op)).inp (codeDesc false op (decW op)).par.g [] (State.reset.spine, d0.upset [])).1
      (codeDesc false op (decW op)).par.g = true := by decide +kernel
theorem witness_decoder_spans : okRead (busReads (engReq 15 2) (tbSpans (codeDesc false 4 (decW 4))) [] (State.reset.spine, d0.upset [])).1
    (((tbSpans (codeDesc false 4 (decW 4))).map (·.2)).sum) = true := by decide +kernel
/-- O45: the index entry is read, and has room for the code blocks. -/
theorem witness_harq : (harqD.upset []).fb (F.DEC_HARQ_CTRL_EN 15) = true ∧
    okRead (engRead 15 2 ((harqD.upset []).harqBase 15 + ((harqD.upset []).dContext 65535 * 16 + (codeDesc false 0 (decW 0)).proc) * 8) 8 []
      (State.reset.spine, harqD.upset [])).1 8 = true ∧
    (∀ op ∈ [0, 2], codeBlocks (codeDesc false op (decW op)).par * (64 + 2 * softP (codeDesc false op (decW op)).par) ≤ (2 ^ 20 - 1) * 256) := by
  decide +kernel
def nceOn (f : NceCh → NceCh) (st : Nat) : Dev :=
  ((d0.setF (F.NCE_CH_STATE_STATE 1535) st).setF (F.NCE_CAP_CNT_LO_CNT 0) (2 ^ 32 - 1)).mapNce 1535 f
def ent0 (g : Option Bool) : NceEnt := { idx := 0, ch := 1535, irq := false, hold := false, nsym := 1, bits := 0, got := g, status := none }
def txD (l : List NceEnt) : Dev :=
  (((d0.setF (F.GSO_FUNC_STATE (fnNce 63)) 3).setF (F.NCE_GRP_TX_CTRL_EN 63) 1).setF (F.NCE_GRP_TX_PTR_WR 63) 1).mapGrp 63 fun x => { x with ents := l }
def winD : Dev := (nceOn (fun c => { c with mask := 255, win := 10 ^ 6 }) 1).setF (F.NCE_PROF_MOD_BURST 0) 1
/-- A record's writes under way: all made, or one that waits for a bank. -/
def job0 (l : List (Nat × List Byte)) : NceJob := { outs := l, units := 0, trunc := false, full := false }
def recD (l : List (Nat × List Byte)) : Dev :=
  (d0.mapBank 0 0 fun b => { b with phase := .waking }).mapGrp 63 fun x => { x with job := some (job0 l) }
/-- O46: the last channel: a stream that stalls, a symbol that has come, a header that decodes and one that does not, a replay, a
Lull window that is full, and a window to open. -/
theorem witness_nce_receive : let sp := State.reset.spine
    let hd := nceOn (fun c => { c with frame := some frame0 }) 2
    let bch := (hd.setF (F.NCE_PROF_HCODE_CODE 0) 1).setF (F.NCE_PROF_HCODE_N 0) 255
    sp.contain.out nceUid = false ∧ lateSp.contain.out nceUid = false ∧ (setF (F.NCE_CAP_CFG_EN 3) 1 d0).capStalled lateSp 3 = true ∧
    ((setF (F.NCE_CAP_CFG_EN 3) 1 d0).strm false 3).flag = false ∧
    hd.chSt 1535 = 2 ∧ hd.symArrived 1535 (hd.nce 1535).m = true ∧ (hd.nce 1535).frame = some frame0 ∧
    hd.headerOf 1535 frame0 = some (some ([], 0)) ∧ bch.chSt 1535 = 2 ∧ (bch.nce 1535).frame = some frame0 ∧ bch.headerOf 1535 frame0 = some none ∧
    (nceOn (fun c => { c with replay := some (0, 0, 0, []) }) 4).chSt 1535 = 4 ∧
    ((nceOn (fun c => { c with replay := some (0, 0, 0, []) }) 4).nce 1535).replay = some (0, 0, 0, []) ∧
    (setF (F.NCE_CH_STATE_LULL 1535) 256 d0).lullLen ≤ (setF (F.NCE_CH_STATE_LULL 1535) 256 d0).f (F.NCE_CH_STATE_LULL 1535) ∧
    winD.chSt 1535 = 1 ∧ winD.profBurst (winD.chProf 1535) = true ∧ bitAt (winD.nce 1535).mask ((winD.nce 1535).win % 8) = true ∧
    winD.winSample 1535 (winD.nce 1535).win = some 0 ∧ 0 ≤ winD.capCnt (winD.f (F.NCE_CH_CFG_STREAM 1535)) := by decide +kernel
/-- O46: the last group: a record whose writes have landed and one that waits, a transmit entry to take, which is accepted and which is
not, and a burst that is over. -/
theorem witness_nce_group : let sp := State.reset.spine
    let w8 : List (Nat × List Byte) := [(bankBase 0 0, [1, 0, 0, 0, 0, 0, 0, 0])]
    (∀ l ∈ [[], w8], (((recD l).nceBegin 63).grp 63).job = some (job0 l) ∧ (nceWrites l (sp, (recD l).nceBegin 63)).1 = l) ∧
    ((txD []).upset []).txUnread 63 = none ∧ ((txD []).upset []).txNext 63 = some 0 ∧
    okRead (busRead nceReq (((txD []).upset []).txEntryAt 63 0) 32 [] (sp, (txD []).upset [])).1 32 = true ∧
    ((txD []).txTake sp 63 0 (List.replicate 32 0)).1.isSome = true ∧
    ((setF (F.NCE_CH_CFG_TX_EN 1512) 1 (txD [])).txTake sp 63 0 (leBytes 4 1512 ++ leBytes 4 1 ++ leBytes 8 (10 ^ 9) ++ leBytes 8 0 ++ leBytes 8 0)).1 = none ∧
    (∀ b ∈ [true, false], ((txD [ent0 (some b)]).upset []).txGenerated sp 1535 = true ∧
      ((txD [ent0 (some b)]).upset []).txLive 1535 = some (ent0 (some b)) ∧ (ent0 (some b)).got = some b) := by decide +kernel
/-- Port 0 linked. -/
def linkD (d : Dev) : Dev := (d.setF (F.GSO_FUNC_STATE (fnPort 0)) 3).setF (F.FH_PORT_STATUS_LINK 0) 1
/-- A frame with a flag byte in the transmit window of port 0, and one timestamp slot or none left. -/
def mgmtD (b n : Nat) : Dev :=
  (((linkD d0).setBytes (fhTxWin 0) [64, 0, BitVec.ofNat 8 b, 255]).setF (F.FH_MGMT_PTR_TX 0) 80).mapFh 0 fun x =>
    { x with txts := List.replicate n (0, 0) }
def tx0 (b : Option Nat) (c : Option Bool) : TxSym := { c := 47, k := 0, bell := b, chk := c, cnt := 0, data := [], sent := 0, fin := false }
def sendD (t : TxSym) : Dev := (linkD (airD 1)).setTx 0 t
/-- O47: a port without a link and one with it; a frame that stays in the port and one for the fabric; a management frame with
and without a timestamp, with room and without; a symbol to close, one to check, one to send with and without a link. -/
theorem witness_fronthaul : let sp := State.reset.spine
    sp.contain.out (portUid 0) = false ∧ d0.portLinked 0 = false ∧ (linkD d0).portLinked 0 = true ∧ (linkD d0).loopRuns 0 = false ∧
    (((linkD d0).upset []).fhFrame sp 0 true true 0 []).1 = .none ∧
    ((linkD (setF (F.FH_PORT_CFG_TRUSTED 0) 1 d0)).fhFrame sp 0 true true 0 (List.replicate 12 0 ++ [0x88, 0xB5, 0, 0])).1 = .euril [0, 0] ∧
    (∀ b ∈ [0, 4], ∀ n ∈ [63, 64], (mgmtD b n).portLinked 0 = true ∧ ((mgmtD b n).fhPort 0).txRd ≠ (mgmtD b n).f (F.FH_MGMT_PTR_TX 0) % 8192 ∧
      ((mgmtD b n).byte (fhTxWin 0 + 2)).toNat = b ∧ bitAt b 4 = false ∧ bitAt b 2 = (b == 4) ∧ ((mgmtD b n).fhPort 0).txts.length = n) ∧
    (linkD d0).fb (F.FH_PORT_STATUS_LINK 0) = true ∧ ((linkD d0).setF (F.FH_PORT_STATUS_LINK 0) 0).portLive 0 = true ∧
    (linkD d0).fb (F.FH_PORT_STATUS_TS_VALID 0) = false ∧ (linkD d0).fnState (fnPort 0) = 3 ∧
    ((airD 0).rxHead 0).isSome = true ∧ (∀ t ∈ (airD 0).rxHead 0, t.1 ≤ now3 lateSp) ∧
    (airD 1).flowOf 0 47 = some { ul := 0, dl := 0, fill := 0, lim := none } ∧
    ((airD 1).txSendAt 0 47 0).isSome = true ∧ (∀ t ∈ (airD 1).txSendAt 0 47 0, t - (2000 * ns3 : Nat) ≤ now3 sp) ∧
    (airD 1).probeOnly 47 = false ∧ ((airD 1).txSym 0 47 0).bell = none ∧
    (let d := (airD 1).setTx 0 (tx0 (some 0) none)
     d.flowOf 0 47 = some { ul := 0, dl := 0, fill := 0, lim := none } ∧ (d.txSym 0 47 0).bell = some 0 ∧ d.fnState 47 ≠ 5) ∧
    (sendD (tx0 none (some false))).sendHead sp 0 = some (tx0 none (some false)) ∧
    ((sendD (tx0 none (some true))).setF (F.GSO_FUNC_STATE 47) 5).sendHead sp 0 = some (tx0 none (some true)) ∧
    ((sendD (tx0 none (some true))).setF (F.GSO_FUNC_STATE 47) 5).fnState 47 = 5 ∧
    ((airD 1).setTx 0 (tx0 none (some false))).sendHead sp 0 = some (tx0 none (some false)) ∧
    ((airD 1).setTx 0 (tx0 none (some false))).portLinked 0 = false ∧ (sendD (tx0 none (some false))).portLinked 0 = true ∧
    ((sendD (tx0 none (some false))).entries 0 47 1)[0]? = some 127 := by decide +kernel
def sampleD (x : Int) : Dev :=
  { (d0.setF (F.GSO_FUNC_STATE 128) 3).setF F.TB_SERVO_CFG_AUTO_STEP 1 with tb := { d0.tb with sample := some x } }
def armedD (p : Nat) : Dev :=
  ((d0.setF (F.TB_TRIG_CTRL_EN 255) 1).setF (F.TB_TRIG_STAT_STATE 255) 1).setF (F.TB_TRIG_PERIOD_PERIOD_NS 255) p
/-- O48: a reference, an edge on PPS_IN, a sample that the servo takes and one that it steps by, the end of a step, a second that
begins, an armed trigger of one shot and a periodic one, a code held for the deglitch, and the watchdog. -/
theorem witness_time : let sp := State.reset.spine
    bitAt (d0.f F.TB_STATUS_HCAUSE) 1 = false ∧ d0.fb F.TB_REF_CFG_SEL = false ∧ d0.refValid = true ∧
    (∀ src ∈ [0, 1], let d := setF F.TB_SERVO_CFG_SRC src (setF F.TB_PPS_IN_CFG_EN 1 d0)
     d.fb F.TB_PPS_IN_CFG_EN = true ∧ true ≠ d.fb F.TB_PPS_IN_CFG_EDGE ∧ d.fb F.TB_SERVO_CFG_SRC = (src == 1)) ∧
    (∀ x ∈ [0, 2 ^ 47 - 1], (sampleD x).fnActive 128 = true ∧ (sampleD x).tb.sample = some x) ∧ ((sampleD 0).servoSample sp 0).2 = none ∧
    ((sampleD (2 ^ 47 - 1)).servoSample sp (2 ^ 47 - 1)).2 = some (1 - 2 ^ 47) ∧ 
    (let d := setF F.TB_STATUS_STATE 1 d0
     d.f F.TB_STATUS_STATE = 1 ∧ d.tb.heard + max 1 (d.f F.TB_HOLD_CFG_TIMEOUT_MS) * 1000000 * nsUnit ≤ farSp.now) ∧
    (setF F.TB_STATUS_STEPPING 1 d0).fb F.TB_STATUS_STEPPING = true ∧ d0.tb.withhold = 0 ∧
    (let d := setF F.TB_PPS_OUT_CFG_EN 1 d0
     d.fb F.TB_PPS_OUT_CFG_EN = true ∧ d.tb.ppsSec < d.ppsSecond farSp.now ∧
     d.tb.ppsAt + max 1 (d.f F.TB_PPS_OUT_CFG_WIDTH_MS) * 1000000 * nsUnit ≤ farSp.now) ∧
    (∀ p ∈ [0, 1], (armedD p).fb (F.TB_TRIG_CTRL_EN 255) = true ∧ (armedD p).f (F.TB_TRIG_STAT_STATE 255) = 1 ∧
      (armedD p).trigTime 255 ≤ sp.now ∧ (armedD p).f (F.TB_TRIG_PERIOD_PERIOD_NS 255) = p) ∧
    ((d0.mapTrim 3 fun x => { x with hold := some 65535 }).trimCh 3).hold = some 65535 ∧
    (let d := setF F.TRM_WDOG_RUN 1 d0
     d.fb F.TRM_WDOG_RUN = true ∧ d.wdogAt + d.f F.TRM_WDOG_TIMEOUT_MS * 1000000 * nsUnit ≤ farSp.now) := by decide +kernel
def glzUp : Dev := setF (F.GSO_FUNC_STATE 130) 3 (setF F.TB_STATUS_STATE 2 (d0.setF (F.GSO_FUNC_STATE 129) 3))
def estD : Dev := { glzUp with glz := { glzUp.glz with est := some (47, 1, true), swap := 1 } }
def ocxoD (i : Nat) : Dev := { setF F.GLZ_STATUS_COMM_STEP 2 glzUp with glz := { glzUp.glz with ocxo := some (0, i, 0, []) } }
/-- O49: Glaze up with an estimate, a pass of swaps, a carrier with a swap that is late, a hold, a stale set, and a window that
ends. -/
theorem witness_glaze : let sp := State.reset.spine
    sp.contain.out glzUid = false ∧ estD.estReady = some (47, 1, true) ∧ estD.glzOn = true ∧ estD.glz.swap ≠ 0 ∧
    (setF (F.GLZ_CARR_STAT_PEND 47) 1 glzUp).fb (F.GLZ_CARR_STAT_PEND 47) = true ∧ glzUp.nextT 47 ≤ timeNs sp ∧
    (setF (F.GLZ_CARR_STAT_HOLD 47) 1 glzUp).fb (F.GLZ_CARR_STAT_HOLD 47) = true ∧
    glzUp.symStart 47 (glzUp.slotFrom 47 ((glzUp.swapT 47 * ns3 : Nat) : Int) + max 2 (glzUp.f F.GLZ_SWAP_CFG_HOLD_SLOTS) * (glzUp.air 47).syms)
      ≤ now3 farSp ∧
    glzUp.fb (F.GLZ_CARR_STAT_STALE 47) = false ∧ glzUp.f F.GLZ_MAX_AGE_SEC * 1000 < (setF (F.GLZ_CARR_STAT_VALID 47) 1 glzUp).glzAge farSp 47 ∧
    sp.contain.out (dispatcherUid 15) = false ∧ (glzUp.disp_ 15).floorAt + glzUp.floorWin ≤ farSp.now := by decide +kernel
/-- O49: its loopback port and its steps of commissioning. -/
theorem witness_commission :
    (setF F.GLZ_STATUS_COMM_STEP 1 (setF (F.GLZ_LOOP_CFG_EN 15) 1 glzUp)).loopRuns 15 = true ∧ glzUp.glzOn = true ∧
    (ocxoD 0).glz.ocxo.map (·.2.1) = some 0 ∧ (ocxoD 2).glz.ocxo.map (·.2.1) = some 2 ∧ (ocxoD 2).f F.GLZ_STATUS_COMM_STEP = 2 ∧
    (ocxoD 2).dwell ≤ farSp.now ∧ (ocxoD 2).glzOn = true ∧ (ocxoD 2).ocxoBar = none ∧
    (ocxoD 0).ocxoBar = none ∧ (ocxoD 0).dwell ≤ farSp.now ∧ (ocxoD 0).glzOn = true ∧
    (setF F.TB_STATUS_STATE 3 (ocxoD 0)).ocxoBar = some 3 ∧ (setF F.GLZ_STATUS_COMM_STEP 3 glzUp).calibDone farSp = true := by decide +kernel

/-! ## The host, the fabric and the whole machine -/

def ringD (ty : Nat) : Dev :=
  ((((setF F.HST_STATUS_LINK_UP 1 d0).setF (F.HST_RING_CFG_EN 255) 1).setF (F.HST_RING_CFG_TYPE 255) ty).setF (F.HST_DB_TAIL_TAIL 255) 1).mapRing 255
    fun x => { x with out := [[1]] }
/-- O50: a host without and with a link, a virtual function, a task pair and a message pair with an entry in each direction. -/
theorem witness_host : let sp := State.reset.spine
    d0.perst = false ∧ d0.fb F.HST_STATUS_LINK_UP = false ∧ (setF F.HST_STATUS_LINK_UP 1 d0).fb F.HST_STATUS_LINK_UP = true ∧
    d0.fnEnabled 0 = true ∧ (d0.setFn 16 { FnCfg.reset with vf := true }).fnEnabled 16 = true ∧ d0.f (F.HST_RING_CFG_FN 255) = 0 ∧
    hostUp sp = true ∧ sp.contain.out hostUid = false ∧
    (let d := setF (F.HST_RING_CFG_FN 255) 16 (setF F.HST_STATUS_DORMANT 1 (d0.setFn 16 { FnCfg.reset with vf := true }))
     d.f (F.HST_RING_CFG_FN 255) = 16 ∧ hostFull (sp, d) = true ∧ d.fnEnabled 16 = true ∧ d.perst = false) ∧
    (∀ t ∈ [1, 2], (ringD t).ringWorks 255 t = true ∧ (ringD t).ringFill 255 ≠ 0 ∧ (ringD t).f (F.HST_RING_CFG_TYPE 255) = t) ∧
    ((ringD 1).f (F.HST_DB_HEAD_DTAIL 255) + 65536 - (ringD 1).f (F.HST_DB_HEAD_HEAD 255)) % 65536 < (ringD 1).ringLen 255 ∧
    ((ringD 1).nextOut 255).map (·.1) = some [1] := by decide +kernel
/-- O51: boot has begun; a measurement that there is none of, one that there is, and a request that is not supported. -/
theorem witness_spdm : (bootD (fun b => { b with at_ := .dormant }) d0).spdmOn State.reset.spine = true ∧ d0.measAt 254 = none ∧
    (d0.measAt 1).isSome = true ∧ ([0x84, 0xE1, 0xE3, 0x81, 0x82, 0x83, 0xE0].contains 0xFF) = false := by decide +kernel
def eurH (seq : Nat) : EurHdr := { port := 0, src := 1, dst := 0, seq := BitVec.ofNat 16 seq, ack := 0, credit := 1, tag := 0 }
def eurD : Dev := ((linkD peerD).setF (F.EUR_PEER_CFG_NODE 0) 1).setF (F.FH_PORT_CFG_TRUSTED 0) 1
def ackD (n : Nat) : Dev :=
  eurD.mapPeer 0 fun p => { p with ackDue := true, rounds := n, unacked := [{ type := 1, tag := 0, payload := [], at_ := 0 }] }
/-- O52: a peer that is up on a linked port; a frame in its place in the order, and one out of it; an acknowledgement due; frames that
are sent again and that have been often enough. -/
theorem witness_fabric : let sp := State.reset.spine
    sp.contain.out (portUid 0) = false ∧ eurD.portLinked 0 = true ∧ ((eurD.upset []).eurDeliver sp (eurIn (eurH 0)) true).1 = some 0 ∧
    (eurD.eurDeliver sp (eurIn (eurH 0)) true).1 = some 0 ∧
    (eurD.eurDeliver sp (eurIn (eurH 7)) true).1 = none ∧ farSp.contain.pkg = 0 ∧
    eurD.helloAt + max 1 (eurD.f F.EUR_TIMING_HELLO_US) * usUnit ≤ farSp.now ∧ (ackD 0).peerUp 0 = true ∧ ((ackD 0).peer 0).ackDue = true ∧
    (∀ n ∈ [0, 15], (ackD n).peerUp 0 = true ∧ (ackD n).eurOverdue farSp 0 = true) ∧ ((ackD 0).peer 0).rounds < (ackD 0).f F.EUR_CFG_RETRY ∧
    (ackD 15).f F.EUR_CFG_RETRY ≤ ((ackD 15).peer 0).rounds := by decide +kernel
/-- O53: a bundle under way on core 0's hub core, with guards that hold; the instruction that ends it. -/
def hN : Hd := { hH with last := false }
theorem witness_bundles : Ready (at_ d0) hH ∧ d0.listedAt 384 1 = true ∧
    headOf (.add hN 1 2 3) = some hN ∧ hN.last = false ∧ d0.issues State.reset.spine hN.k = true ∧
    (d0.core hN.k).bundle = [] ∧ hN.k = hH.k ∧ (1 : Reg) ≠ 2 ∧ d0.guard hN = true ∧ d0.guard hH = true ∧
    d0.fb (F.CORE_STATUS_AOV_EN 384) = false := ⟨test_hub_ready, by decide +kernel⟩
theorem test_address_alone : Alone State.reset.spine (hubG 2 1 d0) 384 ∧ Alone State.reset.spine (hubG 2 0xFFFFFFFC d0) 384 := by
  constructor <;> constructor <;> rfl
/-- O54: a ready core at U level; a word at an odd address, an aligned one in a segment that is not valid; a hub core. -/
theorem witness_exceptions : Ready (at_ userD) hH ∧ Ready (at_ (hubG 2 1 d0)) hH ∧ Ready (at_ (hubG 2 0xFFFFFFFC d0)) hH ∧ userD.level 384 = .u ∧ d0.guard { hH with gn := false } = true ∧ mW.sz ≠ 3 ∧
    (let a := fun (v : Word) => (hubG 2 v d0).address 384 ((hubG 2 v d0).g 384 2).toNat 0 true false 0
     (a 1).bad = false ∧ (a 1).addr % 4 ≠ 0 ∧ (a 0xFFFFFFFC).addr % 4 = 0 ∧ (a 0xFFFFFFFC).bad = false ∧
     (hubG 2 0xFFFFFFFC d0).mapAddr 384 (a 0xFFFFFFFC).addr false = none ∧ (hubG 2 0xFFFFFFFC d0).mapAddr 384 (a 0xFFFFFFFC).addr true = none) ∧
    isHubCore hH.k = true :=
  ⟨{ last := rfl, alone := test_user_alone }, { last := rfl, alone := test_address_alone.1 }, { last := rfl, alone := test_address_alone.2 },
    by decide +kernel⟩
/-- The block with a command at the front, and a package fault, a unit, a channel, a cluster and a die out of service. -/
def lostSp : Spine := ((((State.reset.spine.setPkg 1).addUnit 0).addChan (gustUid 0) 31).addCluster 95).addDie 3
def lostS : State := { State.reset with spine := lostSp, pending := [.idcode] }
/-- O55, O58 to O60: a step, the invariant where it starts, and things out of service that it must keep. -/
theorem witness_machine : (∃ t, step lostS = .next t) ∧ lostS.pending.head? ≠ some .powerLoss ∧
    lostS.pending.head? ≠ some .fullResetExecute ∧ lostSp.contain.pkg ≤ 8 ∧ lostSp.recent.length ≤ recentMax ∧
    (∀ u ∈ lostSp.recent, u ≤ lostSp.now) ∧ lostSp.contain.pkg ≠ 0 ∧ lostSp.contain.out 0 = true ∧
    lostSp.contain.gone (gustUid 0) 31 = true ∧ 95 ∈ lostSp.contain.clusters ∧ 3 ∈ lostSp.contain.dies ∧
    State.reset.pending = [] := ⟨⟨_, rfl⟩, by decide +kernel⟩

end Sys2Proof.Tests
end

/-! Proofs of the statements about register accesses: O11, O29 and O34. -/

namespace Sys2Proof.Proofs
open Sys2Proof.Machine Sys2Proof.Laws

/-! ## Writes of the event block -/

/-- The addresses of the `EVT` block. -/
theorem blkOf_evt (o : Nat) (h : o < 0x10000) : blkOf (blkBase .evt + o) = some (.evt, o) := by
  refine blkOf_hub_at (0x10000 + o) _ _ _ ?_ (by omega) (by omega) ?_
  · show 0x02010010000 + o = _
    omega
  · rw [show (0x10000 + o) / 0x10000 = 1 by omega]
    rfl

/-- A write of a register of the `EVT` block by M-level hub firmware. -/
theorem regStep_evt (s : State) (q : Req) (a o : Nat) (v : Word) (fs : List FieldSpec) (h : Fw s q) (e : a = blkBase .evt + o)
    (ho : o < 0x10000) (h4 : o % 4 = 0) (hf : (findReg evtRegs o).map (·.1.fields) = some fs) :
    wholeCmd s (regStep q a v) = s.written s.spine ((s.dev.given q a v).evtWrite q o a v) := by
  subst e
  have hb := blkOf_evt o ho
  have ha : blkBase .evt + o = 0x02010010000 + o := rfl
  exact regStep_fw s q _ v .evt o _ _ h (by omega) (fencedDie_hub _ _ (by omega))
    (regBad_of q _ .evt o fs hb (by omega) hf rfl).1 hb rfl

/-- What a plain write leaves, once the fields of its register are known. -/
theorem plainWrite_of (d : Dev) (a : Nat) (v : Word) (fs : List FieldSpec) (h : fieldsAt a = some fs) :
    d.plainWrite a v = d.setReg a (BitVec.ofNat 32 (applyAcc fs (d.reg a).toNat v.toNat)) := by
  rw [Dev.plainWrite, h]

/-- The fields of a register of the `EVT` block. -/
theorem fieldsAt_evt (a o : Nat) (fs : List FieldSpec) (e : a = blkBase .evt + o) (ho : o < 0x10000)
    (h : (findReg evtRegs o).map (·.1.fields) = some fs) : fieldsAt a = some fs := by
  subst e
  have ha : blkBase .evt + o = 0x02010010000 + o := rfl
  rw [fieldsAt, if_neg (by omega), blkOf_evt o ho]
  exact h

theorem evtWriter_fw (q : Req) (h : reqFw q = true) : evtWriter q = true := by
  rw [evtWriter, h]; rfl

/-- The rows of `EVT_STAT_w` and `EVT_CFG_e`. -/
theorem findReg_evtStat (w : Fin 32) :
    (findReg evtRegs (0x100 + w * 0x4)).map (·.1.fields) = some [⟨0, 32, .w1c, false⟩] := by
  simp only [evtRegs, findReg]
  repeat rw [if_neg (by omega)]
  rw [if_pos (by omega)]
  rfl
theorem findReg_evtCfg (e : Fin 1024) : (findReg evtRegs (0x1000 + e * 0x4)).map (·.1.fields) =
    some [⟨0, 3, .rw, true⟩, ⟨3, 2, .rw, true⟩, ⟨6, 11, .rw, true⟩, ⟨17, 7, .rw, true⟩, ⟨24, 6, .rw, true⟩] := by
  simp only [evtRegs, findReg]
  repeat rw [if_neg (by omega)]
  rw [if_pos (by omega)]
  rfl

/-- The word of a register is the field of its 32 bits. -/
@[simp] theorem bitsOf_word (v : Word) : bitsOf v.toNat 0 32 = v.toNat := by
  have := v.isLt
  simp only [bitsOf]
  omega

theorem swRaise_fw (s : State) (q : Req) (v : Word) (h : Fw s q) :
    exec (.swRaise q v) s = s.written s.spine
      ((s.dev.given q F.EVT_SW_RAISE_INDEX.addr v).raise (48 + v.toNat % 16) q.uid.toNat q.ch.toNat) := by
  refine (regStep_evt s q _ 8 v _ h rfl (by omega) rfl rfl).trans (congrArg (s.written s.spine) ?_)
  rw [Dev.evtWrite, if_pos rfl, Dev.swRaise, evtWriter_fw q h.fw, if_pos rfl]
  rfl

theorem statClear_fw (s : State) (q : Req) (w : Fin 32) (v : Word) (h : Fw s q) :
    exec (.statClear q w v) s = (let x := F.EVT_STAT_STAT w
      let d := s.dev.given q x.addr v
      s.written s.spine (d.setReg x.addr (BitVec.ofNat 32 (d.f x - Nat.land (d.f x) v.toNat)))) := by
  have ho : 0x100 + w.val * 4 < 0x10000 := by omega
  have ha : (F.EVT_STAT_STAT w).addr = blkBase .evt + (0x100 + w * 4) := Nat.add_assoc _ _ _
  refine (regStep_evt s q _ (0x100 + w * 4) v _ h ha ho (by omega) (findReg_evtStat w)).trans (congrArg (s.written s.spine) ?_)
  have hw : (0x100 + w.val * 4 - 0x100) / 4 = w := by omega
  rw [Dev.evtWrite, if_neg (by omega), if_pos (by omega), Dev.statClear, evtWriter_fw q h.fw, if_pos rfl, hw]
  refine (plainWrite_of _ _ v _ (fieldsAt_evt _ _ _ ha ho (findReg_evtStat w))).trans ?_
  simp [applyAcc, Dev.f, F.EVT_STAT_STAT, Nat.add_assoc]

theorem evtCfgWrite_fw (s : State) (q : Req) (e : Fin 1024) (v : Word) (h : Fw s q) :
    exec (.evtCfgWrite q e v) s = (let x := F.EVT_CFG_ROUTE e
      s.written s.spine ((s.dev.given q x.addr v).setReg x.addr
        (BitVec.ofNat 32 (v.toNat % 2 ^ 30 - v.toNat / 32 % 2 * 32)))) := by
  have ho : 0x1000 + e.val * 4 < 0x10000 := by omega
  have ha : (F.EVT_CFG_ROUTE e).addr = blkBase .evt + (0x1000 + e * 4) := Nat.add_assoc _ _ _
  refine (regStep_evt s q _ (0x1000 + e * 4) v _ h ha ho (by omega) (findReg_evtCfg e)).trans (congrArg (s.written s.spine) ?_)
  have he : (0x1000 + e.val * 4 - 0x1000) / 4 = e := by omega
  rw [Dev.evtWrite, if_neg (by omega), if_neg (by omega), if_pos (by omega), Dev.evtCfgWrite, if_pos h.fw, he]
  refine (plainWrite_of _ _ v _ (fieldsAt_evt _ _ _ ha ho (findReg_evtCfg e))).trans ?_
  refine congrArg (fun n => Dev.setReg _ _ (BitVec.ofNat 32 n)) ?_
  simp only [applyAcc, bitsOf]
  omega

/-- A write of the alert enables of a region's encoder, whose six bits are RW. -/
theorem encEnable_fw (s : State) (q : Req) (r : Fin 16) (v : Word) (h : Fw s q)
    (hd : s.spine.contain.dies.contains (r.val / 4) = false) :
    exec (.regWrite q (BitVec.ofNat 42 (blkBase (.enc r) + 8)) v) s = (let a := blkBase (.enc r) + 8
      s.written s.spine ((s.dev.given q a v).setReg a (BitVec.ofNat 32 (v.toNat % 64)))) := by
  have ha : blkBase (.enc r) + 8 = 0x01000000000 + r * 0x10000000 + 0x0F000000 + 0x50008 := by
    show 0x01000000000 + r.val * 0x10000000 + 0x0F050000 + 8 = _
    omega
  have hb := blkOf_enc r 8 r.isLt (by omega)
  obtain ⟨hbad, hfs⟩ := regBad_of q _ (.enc r) 8 [⟨0, 6, .rw, true⟩] hb (by omega) rfl rfl
  have hn : (BitVec.ofNat 42 (blkBase (.enc r) + 8)).toNat = blkBase (.enc r) + 8 := by
    rw [BitVec.toNat_ofNat]
    omega
  show wholeCmd s (regStep q (BitVec.ofNat 42 (blkBase (.enc r) + 8)).toNat v) = _
  rw [hn]
  refine regStep_fw s q _ v (.enc r) 8 _ _ h (by omega) (fencedDie_region _ _ r _ r.isLt (by omega) ha hd) hbad hb ?_
  show (s.spine, if reqFw q then (s.dev.given q _ v).plainWrite _ v else s.dev.given q _ v) = _
  rw [if_pos h.fw, plainWrite_of _ _ v _ hfs]
  simp [applyAcc, bitsOf]

theorem evtSendWrite_fw (s : State) (q : Req) (v : Word) (k : Nat) (h : Fw s q)
    (hk : (s.dev.given q F.EUR_EVT_SEND_NODE.addr v).peerOf (v.toNat % 2 ^ 14) = some k)
    (hu : (s.dev.given q F.EUR_EVT_SEND_NODE.addr v).peerUp k = true) :
    exec (.evtSendWrite q v) s = s.written s.spine
      ((s.dev.given q F.EUR_EVT_SEND_NODE.addr v).eurNote s.spine k 10 (leBytes 1 (v.toNat / 2 ^ 14 % 16))) := by
  have hb : blkOf F.EUR_EVT_SEND_NODE.addr = some (.eur, 0x10) := by decide
  have hn : bitsOf v.toNat 0 14 = v.toNat % 2 ^ 14 := by simp [bitsOf]
  refine regStep_fw s q _ v .eur 0x10 _ _ h rfl (fencedDie_hub _ _ (by decide))
    (regBad_of q _ .eur 0x10 _ hb (by decide) rfl rfl).1 hb ?_
  show (s.spine, Dev.eurWrite _ _ _ _ _ _) = _
  rw [Dev.eurWrite, h.fw]
  simp only [Bool.not_true, Bool.false_eq_true, if_false, if_true, Dev.evtSend, h.fw, hn, hk, hu]
  rfl

/-- Settles O29: each write is the write of one register by hub firmware, whose effect its block states. -/
theorem eventRegisterWrites : Obligations.EventRegisterWrites := by
  intro s q v h
  exact ⟨swRaise_fw s q v h, fun w => statClear_fw s q w v h, fun e => evtCfgWrite_fw s q e v h,
    fun r hd => encEnable_fw s q r v h hd, fun k hk hu => evtSendWrite_fw s q v k h hk hu⟩

/-! ## Reads of registers -/

/-- M-level hub firmware is not the host. -/
theorem reqIs_host_fw (q : Req) (h : reqFw q = true) : reqIs q hostUid 0 = false := by
  have hu : ¬ (2048 ≤ hostUid ∧ hostUid < 2052) := by decide
  cases hd : q.dbg with
  | true => simp [reqIs, hd]
  | false =>
    simp only [reqFw, hd, Bool.false_or, Bool.and_eq_true, decide_eq_true_eq] at h
    have hne : q.uid.toNat ≠ hostUid := fun e => hu (e ▸ h.1)
    simp [reqIs, hne]

/-- A read command is answered with this word, and leaves this device. -/
def answered (s : State) (q : Req) (v : Word) (d : Dev) : Out :=
  s.to { d with sent := d.sent ++ [.rsp q.uid.toNat q.ch.toNat (leBytes 4 v.toNat) false] }

/-- A read of a register by M-level hub firmware is the read of its word. -/
theorem regFetch_fw (s : State) (q : Req) (a : Nat) (x : Blk × Nat) (h : Fw s q) (h4 : a % 4 = 0) (hb : blkOf a = some x) :
    devCmd s (regFetch q a) =
      answered s q (s.dev.regReadWord s.spine q a).1 (s.dev.regReadWord s.spine q a).2 := by
  have hh := reqIs_host_fw q h.fw
  have hg : askerGone s.spine s.dev q = false := by
    rw [askerGone, hh]
    exact h.here
  have hs : regSeen q a (s.spine, s.dev) = true := by
    rw [regSeen, hh]
    rfl
  have hf : fetchOf q a s.spine s.dev =
      (some (leBytes 4 (s.dev.regReadWord s.spine q a).1.toNat, false), (s.dev.regReadWord s.spine q a).2) := by
    unfold fetchOf
    rw [if_neg (by rw [hs]; decide), if_pos (tgtOf_blk a x hb)]
    unfold Dev.regReadBytes
    rw [if_pos ⟨h4, by omega⟩]
    rfl
  unfold devCmd State.onDev regFetch
  simp only [hg, hf, Bool.false_eq_true, if_false]
  rfl

/-- The read of a register in service whose value is not latched: what its block answers, and the latch of the high
word of a pair (R10). -/
theorem regReadWord_of (sp : Spine) (d : Dev) (q : Req) (a o : Nat) (b : Blk) (hf : fencedDie sp a = none)
    (hr : regBad q a = false) (hb : blkOf a = some (b, o)) (hl : d.latch.find? (fun e => e.1 == a) = none) :
    d.regReadWord sp q a =
      (let r := d.blkRead sp b o a
       if isPairLow (blkPairs b) o then
         (r.1, { r.2 with latch := SMap.put r.2.latch (a + 4) (r.2.regValue sp b (o + 4) (a + 4)) })
       else r) := by
  unfold Dev.regReadWord
  simp only [hf, hr, hb, hl, Bool.false_eq_true, if_false]

/-- What a clearing read leaves of a register whose fields are known. -/
theorem rclClear_of (d : Dev) (a : Nat) (fs : List FieldSpec) (h : fieldsAt a = some fs) :
    d.rclClear a =
      if fs.any fun f => f.acc == .rcl then d.setReg a (BitVec.ofNat 32 (clearRcl fs (d.reg a).toNat)) else d := by
  rw [Dev.rclClear, h]

/-- The value of a register outside the host's block, whose fields are known. -/
theorem regValue_of (sp : Spine) (d : Dev) (b : Blk) (o a : Nat) (fs : List FieldSpec) (hb : b ≠ .hst) (h : fieldsAt a = some fs) :
    d.regValue sp b o a = BitVec.ofNat 32 (readAcc fs (d.regView sp b o a)) := by
  unfold Dev.regValue
  rw [h]
  split
  · exact absurd rfl hb
  · rfl

/-- The value of the field that takes up the whole word of its register. -/
theorem f_word (d : Dev) (x : Fld) (h0 : x.lo = 0) (hw : x.w = 32) : d.f x = (d.reg x.addr).toNat := by
  rw [Dev.f, h0, hw, bitsOf_word]

/-- A read of the trace's lost count, which it clears (R12). -/
theorem lostRead_fw (s : State) (q : Req) (h : Fw s q)
    (hl : s.dev.latch.find? (fun e => e.1 == F.EVT_TRC_LOST_COUNT.addr) = none) :
    exec (.rclRead q (BitVec.ofNat 42 F.EVT_TRC_LOST_COUNT.addr)) s =
      answered s q (s.dev.reg F.EVT_TRC_LOST_COUNT.addr) (s.dev.setReg F.EVT_TRC_LOST_COUNT.addr 0) := by
  have hb : blkOf F.EVT_TRC_LOST_COUNT.addr = some (.evt, 0x14) := by decide
  obtain ⟨hr, hfs⟩ := regBad_of q F.EVT_TRC_LOST_COUNT.addr .evt 0x14 [⟨0, 32, .rcl, false⟩] hb (by decide) rfl rfl
  refine (regFetch_fw s q F.EVT_TRC_LOST_COUNT.addr _ h rfl hb).trans ?_
  rw [regReadWord_of _ _ q _ _ _ (fencedDie_hub _ _ (by decide)) hr hb hl]
  show answered s q (s.dev.regValue _ .evt _ _) (s.dev.rclClear _) = _
  rw [rclClear_of _ _ _ hfs, regValue_of _ _ .evt _ _ _ (by decide) hfs]
  simp [Dev.regView, readAcc, clearRcl]

/-- A read of the low word of a pair latches the high word (R10). -/
theorem extRefRead_fw (s : State) (q : Req) (h : Fw s q)
    (hl : s.dev.latch.find? (fun e => e.1 == F.PAL_EXT_REF_ADDR_LO_ADDR.addr) = none) :
    exec (.readLowWord q (BitVec.ofNat 42 F.PAL_EXT_REF_ADDR_LO_ADDR.addr)) s =
      answered s q (s.dev.reg F.PAL_EXT_REF_ADDR_LO_ADDR.addr)
        { s.dev with
          latch := SMap.put s.dev.latch (F.PAL_EXT_REF_ADDR_LO_ADDR.addr + 4)
            (BitVec.ofNat 32 (s.dev.f F.PAL_EXT_REF_ADDR_HI_ADDR)) } := by
  have hb : blkOf F.PAL_EXT_REF_ADDR_LO_ADDR.addr = some (.palh, 0x118) := by decide
  have hb4 : blkOf (F.PAL_EXT_REF_ADDR_LO_ADDR.addr + 4) = some (.palh, 0x11C) := by decide
  obtain ⟨hr, hfs⟩ := regBad_of q F.PAL_EXT_REF_ADDR_LO_ADDR.addr .palh 0x118 [⟨0, 32, .ro, false⟩] hb (by decide) rfl rfl
  obtain ⟨_, hfs4⟩ := regBad_of q (F.PAL_EXT_REF_ADDR_LO_ADDR.addr + 4) .palh 0x11C [⟨0, 10, .ro, false⟩] hb4 (by decide) rfl rfl
  have hp : isPairLow (blkPairs .palh) 0x118 = true := by decide
  have hv : s.dev.blkRead s.spine .palh 0x118 F.PAL_EXT_REF_ADDR_LO_ADDR.addr =
      (s.dev.reg F.PAL_EXT_REF_ADDR_LO_ADDR.addr, s.dev) := by
    show (s.dev.regValue _ .palh _ _, s.dev.rclClear _) = _
    rw [rclClear_of _ _ _ hfs, regValue_of _ _ .palh _ _ _ (by decide) hfs]
    simp [Dev.regView, readAcc]
  have hv4 : s.dev.regValue s.spine .palh 0x11C (F.PAL_EXT_REF_ADDR_LO_ADDR.addr + 4) =
      BitVec.ofNat 32 (s.dev.f F.PAL_EXT_REF_ADDR_HI_ADDR) := by
    rw [regValue_of _ _ .palh _ _ _ (by decide) hfs4]
    have hx : s.dev.f F.PAL_EXT_REF_ADDR_HI_ADDR = bitsOf (s.dev.reg (F.PAL_EXT_REF_ADDR_LO_ADDR.addr + 4)).toNat 0 10 := rfl
    simp [Dev.regView, readAcc, hx]
  refine (regFetch_fw s q F.PAL_EXT_REF_ADDR_LO_ADDR.addr _ h rfl hb).trans ?_
  rw [regReadWord_of _ _ q _ _ _ (fencedDie_hub _ _ (by decide)) hr hb hl]
  simp only [hv, hp, hv4, if_true]

/-- A read of the time latches all of its words (R470). -/
theorem tbNowRead_fw (s : State) (q : Req) (h : Fw s q)
    (hl : s.dev.latch.find? (fun e => e.1 == F.TB_NOW_NS_NS.addr) = none) :
    exec (.tbNowRead q) s = answered s q (BitVec.ofNat 32 (timeNs s.spine % 10 ^ 9)) (s.dev.nowLatch s.spine) := by
  have hb : blkOf F.TB_NOW_NS_NS.addr = some (.tb, 0x10) := by decide
  obtain ⟨hr, hfs⟩ := regBad_of q F.TB_NOW_NS_NS.addr .tb 0x10 [⟨0, 32, .ro, false⟩] hb (by decide) rfl rfl
  have hn : (s.dev.nowLatch s.spine).f F.TB_NOW_NS_NS = timeNs s.spine % 10 ^ 9 := by
    unfold Dev.nowLatch
    rw [f_setF_ne _ _ _ _ (by decide), f_setF_ne _ _ _ _ (by decide), f_setF_ne _ _ _ _ (by decide),
      f_setF_same _ _ _ (by decide)]
    simp only [F.TB_NOW_NS_NS]
    omega
  refine (regFetch_fw s q F.TB_NOW_NS_NS.addr _ h rfl hb).trans ?_
  rw [regReadWord_of _ _ q _ _ _ (fencedDie_hub _ _ (by decide)) hr hb hl]
  show answered s q ((s.dev.nowLatch s.spine).regValue _ .tb _ _) (s.dev.nowLatch s.spine) = _
  rw [← hn, f_word _ F.TB_NOW_NS_NS rfl rfl, regValue_of _ _ .tb _ _ _ (by decide) hfs]
  simp [Dev.regView, readAcc]

/-- A read of the two-step queue takes what stands at its head (R458). -/
theorem ptpTxtsPop_fw (s : State) (q : Req) (p : Fin 16) (h : Fw s q)
    (hl : s.dev.latch.find? (fun e => e.1 == (F.FH_PTP_TXTS_TAG_TAG p).addr) = none) :
    exec (.ptpTxtsPop q p) s = answered s q (s.dev.txtsPop p).1 (s.dev.txtsPop p).2 := by
  have ha : (F.FH_PTP_TXTS_TAG_TAG p).addr = 0x02010100000 + p * 0x10000 + 0x60 := rfl
  have hb : blkOf (F.FH_PTP_TXTS_TAG_TAG p).addr = some (.fh p, 0x60) := blkOf_fh p 0x60 p.isLt (by omega)
  have hfs : fieldsAt (F.FH_PTP_TXTS_TAG_TAG p).addr = some [⟨0, 8, .ro, false⟩, ⟨8, 1, .ro, false⟩, ⟨9, 7, .rcl, false⟩] := by
    unfold fieldsAt
    rw [if_neg (by omega), hb]
    rfl
  have hr := regBad_gen q _ (.fh p) 0x60 hb rfl (by
    show (0x60 != 0x70 && (fieldsAt (F.FH_PTP_TXTS_TAG_TAG p).addr).isNone) = false
    rw [hfs]
    rfl)
  refine (regFetch_fw s q (F.FH_PTP_TXTS_TAG_TAG p).addr _ h (by omega) hb).trans ?_
  rw [regReadWord_of _ _ q _ _ _ (fencedDie_hub _ _ (by omega)) hr hb hl]
  rfl

/-- Settles O34: each read answers what its block gives, and leaves the device that the block leaves. -/
theorem registerReads : Obligations.RegisterReads := by
  intro s q h
  have hw : ∀ (a : Nat) (v : Nat) (d : Dev), v = (s.dev.reg a).toNat → answered s q (s.dev.reg a) d = s.to
      { d with sent := d.sent ++ [.rsp q.uid.toNat q.ch.toNat (leBytes 4 v) false] } := by
    rintro a v d rfl
    rfl
  refine ⟨fun hl => ?_, fun hl => ?_, fun hl => ?_, fun p tag t l hl ht => ?_⟩
  · exact (lostRead_fw s q h hl).trans (hw _ _ _ (f_word _ _ rfl rfl))
  · exact (extRefRead_fw s q h hl).trans (hw _ _ _ (f_word _ _ rfl rfl))
  · refine (tbNowRead_fw s q h hl).trans ?_
    rw [answered, BitVec.toNat_ofNat, Nat.mod_eq_of_lt (by omega)]
    rfl
  · refine (ptpTxtsPop_fw s q p h hl).trans ?_
    unfold Dev.txtsPop
    simp only [ht]
    rw [answered, BitVec.toNat_ofNat]

/-! ## The commuting of a core's changes -/

/-- Puts at two keys may be made in either order. -/
theorem smap_put_comm {α : Type} (m : SMap α) (j k : Nat) (v w : α) (h : j < k) :
    SMap.put (SMap.put m k w) j v = SMap.put (SMap.put m j v) k w := by
  induction m with
  | nil => simp [SMap.put, h, Nat.not_lt_of_gt h, Nat.ne_of_gt h]
  | cons e t ih =>
    obtain ⟨a, x⟩ := e
    rcases Nat.lt_trichotomy k a with hk | hk | hk <;> grind [SMap.put]

/-- Changes of two cores may be made in either order. -/
theorem mapCore_comm (d : Dev) (j k : Nat) (f g : Core → Core) (h : j ≠ k) :
    (d.mapCore j f).mapCore k g = (d.mapCore k g).mapCore j f := by
  have e1 : (d.mapCore j f).core k = d.core k := core_mapCore_ne _ _ _ _ (Ne.symm h)
  have e2 : (d.mapCore k g).core j = d.core j := core_mapCore_ne _ _ _ _ h
  have key : SMap.put (SMap.put d.cores j (f (d.core j))) k (g (d.core k)) =
      SMap.put (SMap.put d.cores k (g (d.core k))) j (f (d.core j)) := by
    rcases Nat.lt_or_gt_of_ne h with hl | hl
    · exact (smap_put_comm _ _ _ _ _ hl).symm
    · exact smap_put_comm _ _ _ _ _ hl
  rw [Dev.mapCore, e1, Dev.mapCore, Dev.setCore, Dev.mapCore, e2, Dev.mapCore, Dev.setCore]
  simp only [Dev.setCore, key]

/-- A change of a core and a write of a field do not meet. (The parentheses keep `simp` from taking it as true by
computation, which is too deep for the kernel over a chain of writes.) -/
theorem setF_mapCore (d : Dev) (k : Nat) (f : Core → Core) (x : Fld) (v : Nat) :
    (d.mapCore k f).setF x v = (d.setF x v).mapCore k f := (rfl)

section
variable (d : Dev) (k : Nat) (b : List Instr)
theorem held_setF (x : Fld) (v : Nat) : (held d k b).setF x v = held (d.setF x v) k b := rfl
theorem held_setPc (n : Nat) : (held d k b).setPc k n = held (d.setPc k n) k b := by
  simp only [held, Dev.setPc, mapCore_mapCore]
theorem held_rotate (stg : Nat) : (held d k b).rotate k stg = held (d.rotate k stg) k b := by
  simp only [Dev.rotate, held, f_mapCore, setF_mapCore, Dev.applyWr, mapCore_mapCore]
theorem held_loopInfo : (held d k b).loopInfo k = d.loopInfo k := by
  simp only [Dev.loopInfo, held_core, held_f]
end

/-- Which bundle a core holds does not bear on where execution goes on outside delay slots. -/
theorem held_goOn (d : Dev) (k n : Nat) (b : List Instr) (h : (d.core k).ds = 0) :
    (held d k b).goOn k n = held (d.goOn k n) k b := by
  have e : ((held d k b).mapCore k fun c => { c with ds := c.ds - 1 }) =
      held (d.mapCore k fun c => { c with ds := c.ds - 1 }) k b := by
    simp only [held, mapCore_mapCore]
  simp only [Dev.goOn, held_core, h, Nat.zero_ne_one, if_false, e]
  generalize (d.mapCore k fun c => { c with ds := c.ds - 1 }) = x
  simp only [held_fb, held_f, held_setF, held_setPc, held_loopInfo, held_rotate]
  split
  · rfl
  · split
    · split
      · rfl
      · split <;> rfl
    · rfl

/-- A device in which core `k` is as `c` was, but for where it goes on and its predicates, which a loop's stages set. -/
def WentOn (c : Core) (k : Nat) (d : Dev) : Prop :=
  ∃ e pc p, d = Dev.mapCore e k fun _ => { c with pc := pc, p := p, ds := 0 }

theorem setPc_wentOn (c : Core) (k n : Nat) (d : Dev) (h : d.core k = { c with ds := 0 }) : WentOn c k (d.setPc k n) :=
  ⟨d, BitVec.ofNat 16 n, c.p, mapCore_eq _ _ _ _ (by rw [h])⟩
theorem rotate_wentOn (c : Core) (k stg : Nat) (d : Dev) (h : WentOn c k d) : WentOn c k (d.rotate k stg) := by
  obtain ⟨e, pc, p, rfl⟩ := h
  simp only [Dev.rotate, f_mapCore, setF_mapCore, Dev.applyWr, mapCore_mapCore]
  exact ⟨_, _, _, rfl⟩

/-- What going on leaves of a core outside delay slots. -/
theorem goOn_wentOn (d : Dev) (k n : Nat) (h : (d.core k).ds = 0) : WentOn (d.core k) k (d.goOn k n) := by
  have hx : ((d.mapCore k fun c => { c with ds := c.ds - 1 }).core k) = { d.core k with ds := 0 } := by
    rw [core_mapCore_same, h]
  simp only [Dev.goOn, h, Nat.zero_ne_one, if_false]
  generalize (d.mapCore k fun c => { c with ds := c.ds - 1 }) = x at hx
  split
  · exact setPc_wentOn _ _ _ _ hx
  · split
    · split
      · exact setPc_wentOn _ _ _ _ hx
      · have hp := setPc_wentOn (d.core k) k (x.f (F.CORE_LS_LS k) * 4) (x.setF (F.CORE_LC_LC k) (x.f (F.CORE_LC_LC k) - 1)) hx
        split
        · exact hp
        · exact rotate_wentOn _ _ _ _ hp
    · exact setPc_wentOn _ _ _ _ hx

/-- A core at a bundle boundary: what the end of a bundle clears is clear. -/
structure Idle (c : Core) : Prop where
  bundle : c.bundle = []
  stall : c.stall = .none
  got : c.got = []
  fills : c.fills = []
  emitted : c.emitted = 0
  eslDone : c.eslDone = none
  step : c.step = false

/-- The end of a bundle whose core has gone on takes only the bundle from it. -/
theorem bundleDone_wentOn (c : Core) (k : Nat) (d : Dev) (b : List Instr) (hc : Idle c) (h : WentOn c k d) :
    (held d k b).bundleDone k = d := by
  obtain ⟨e, pc, p, rfl⟩ := h
  simp only [held, Dev.bundleDone, mapCore_mapCore]
  exact mapCore_eq _ _ _ _ (by simp [hc.bundle, hc.stall, hc.got, hc.fills, hc.emitted, hc.eslDone, hc.step])

theorem idle_of_alone (sp : Spine) (d : Dev) (k : Nat) (h : Alone sp d k) : Idle (d.core k) :=
  ⟨h.bundle, h.stall, h.got, h.fills, h.emitted, h.eslDone, h.step⟩

/-- A lone bundle without results has landed as it was held. -/
theorem landed_nil (d : Dev) (k : Nat) (b : List Instr) (h : (d.core k).inflight = []) : landed d k b [] = held d k b :=
  mapCore_eq _ _ _ _ (by simp [h])

/-- A lone instruction that writes a control register goes on in what the write leaves, which is beside its core. -/
theorem instr_mtc (sp : Spine) (d e : Dev) (i : Instr) (h : Hd) (x : Sem) (a : Nat) (v : Word)
    (hh : headOf i = some h) (hl : h.last = true) (ha : Alone sp d h.k)
    (hs : semOf sp (held d h.k [i]) i = some (h, x))
    (ht : (held d h.k [i]).trapOf h.k x = none)
    (he : (if x.run then x.eff else []) = [.mtc a v])
    (hf : fxLate h.k (d.f (F.CORE_STATUS_PRIV h.k)) (sp, held d h.k [i]) (.mtc a v) = (sp, held e h.k [i]))
    (hc : e.core h.k = d.core h.k) :
    issueInstr i (sp, d) = (sp, e.goOn h.k ((d.core h.k).pc.toNat + 4)) := by
  have hg : goesOf [Eff.mtc a v] = none := rfl
  have hds : (e.core h.k).ds = 0 := by rw [hc]; exact ha.ds
  have hid : Idle (e.core h.k) := by rw [hc]; exact idle_of_alone sp d _ ha
  rw [instr_one sp d i h x [] _ hh hl ha hs ht he (by simp) rfl, landed_nil _ _ _ ha.inflight]
  simp only [hf, Dev.advance, hg, endTrap_off _ _ _ _ [Eff.mtc a v] rfl (.inl rfl) (.inl rfl)]
  rw [held_goOn _ _ _ _ hds, bundleDone_wentOn _ _ _ _ hid (goOn_wentOn _ _ _ hds)]

/-! ## The control registers of a core -/

/-- The addresses of a core's control registers. -/
theorem blkOf_core (k o : Nat) (hk : k < 384) (ho : o < 0x1000) : blkOf (coreBase k + o) = some (.core k, o) := by
  obtain ⟨r, hr⟩ : ∃ r, r = k / 24 := ⟨_, rfl⟩
  obtain ⟨c, hc⟩ : ∃ c, c = k % 24 / 4 := ⟨_, rfl⟩
  obtain ⟨j, hj⟩ : ∃ j, j = k % 4 := ⟨_, rfl⟩
  have hk' : r * 24 + c * 4 + j = k := by omega
  have hr' : r < 16 := by omega
  have hc' : c < 6 := by omega
  have hj' : j < 4 := by omega
  have e : coreBase k = 0x01000000000 + r * 0x10000000 + 0x0F100000 + c * 0x10000 + j * 0x1000 := by
    unfold coreBase regionBase
    rw [if_pos hk, hr, hc, hj]
  rw [e]
  clear hr hc hj e hk
  obtain ⟨w, hw, hl⟩ : ∃ w, w = 0x0F100000 + c * 0x10000 + j * 0x1000 + o ∧ 0x0F100000 ≤ w := ⟨_, rfl, by omega⟩
  have ha : 0x01000000000 + r * 0x10000000 + 0x0F100000 + c * 0x10000 + j * 0x1000 + o = 0x01000000000 + r * 0x10000000 + w := by
    omega
  have h1 : (0x01000000000 + r * 0x10000000 + w - 0x01000000000) / 0x10000000 = r := by omega
  have h2 : (0x01000000000 + r * 0x10000000 + w - 0x01000000000) % 0x10000000 = w := by omega
  have hu : w < 0x0F160000 := by omega
  have h4 : w % 0x10000 = j * 0x1000 + o := by omega
  have h3 : (w - 0x0F100000) / 0x10000 = c := by
    obtain ⟨x, rfl⟩ : ∃ x, w = 0x0F100000 + x := Nat.exists_eq_add_of_le hl
    rw [Nat.add_sub_cancel_left]
    omega
  have h5 : (j * 0x1000 + o) / 0x1000 = j := by omega
  have h6 : (j * 0x1000 + o) % 0x1000 = o := by omega
  rw [ha]
  unfold blkOf
  rw [if_pos (by omega)]
  simp only [h1, h2]
  rw [if_neg (by omega), if_neg (by omega), if_pos (by omega), h3, h4, if_pos (by omega), h5, h6, hk']

/-- The fields of a core's control register, compute core or hub core. -/
theorem fieldsAt_core (k o : Nat) (hk : k < 388) (ho : o < 0x1000) :
    fieldsAt (coreBase k + o) = (findReg coreRegs o).map (·.1.fields) := by
  unfold fieldsAt
  rcases Nat.lt_or_ge k 384 with h | h
  · have hb := blkOf_core k o h ho
    have ha : coreBase k + o < 0x40000000000 := by
      unfold coreBase regionBase
      rw [if_pos h]
      omega
    rw [if_neg (by omega), hb]
    rfl
  · have ha : coreBase k + o = 0x40000000000 + (k - 384) * 0x1000 + o := by
      unfold coreBase
      rw [if_neg (by omega)]
    have hm : (coreBase k + o - 0x40000000000) % 0x1000 = o := by omega
    rw [if_pos (by omega), hm]

/-- The register that a number names is one of a core, at an offset within its block. -/
theorem csrOf_bounds (k csr k' o : Nat) (hk : k < 388) (h : csrOf k csr = some (k', o)) :
    k' < 388 ∧ o < 0x1000 := by
  unfold csrOf at h
  grind

/-- What the control registers show of a core is kept: its mode, its kill line and its pending results. -/
def KeepsShown (f : Core → Core) : Prop := ∀ c, (f c).mode = c.mode ∧ (f c).kill = c.kill ∧ (f c).cx = c.cx

theorem shown_mapCore (d : Dev) (j k : Nat) (f : Core → Core) (h : KeepsShown f) :
    ((d.mapCore j f).core k).mode = (d.core k).mode ∧ ((d.mapCore j f).core k).kill = (d.core k).kill ∧
      ((d.mapCore j f).core k).cx = (d.core k).cx := by
  by_cases e : k = j
  · subst e
    rw [core_mapCore_same]
    exact h _
  · rw [core_mapCore_ne _ _ _ _ e]
    exact ⟨rfl, rfl, rfl⟩

theorem pendMask_mapCore (d : Dev) (j k : Nat) (f : Core → Core) (h : KeepsShown f) :
    (d.mapCore j f).pendMask k = d.pendMask k := by
  unfold Dev.pendMask
  rw [(shown_mapCore d j k f h).2.1]
  rfl

theorem csrValue_mapCore (sp : Spine) (d : Dev) (j k o : Nat) (f : Core → Core) (h : KeepsShown f) :
    csrValue sp (d.mapCore j f) k o = csrValue sp d k o := by
  obtain ⟨hm, _, hx⟩ := shown_mapCore d j k f h
  unfold csrValue
  rw [pendMask_mapCore d j k f h, hm, hx, reg_mapCore]
  rfl

theorem csrRead_mapCore (sp : Spine) (d : Dev) (j k o : Nat) (f : Core → Core) (h : KeepsShown f) :
    csrRead sp (d.mapCore j f) k o = csrRead sp d k o := by
  unfold csrRead
  rw [csrValue_mapCore sp d j k o f h]
  rfl

theorem rclClear_mapCore (d : Dev) (j a : Nat) (f : Core → Core) : (d.mapCore j f).rclClear a = (d.rclClear a).mapCore j f := by
  unfold Dev.rclClear
  split
  · rfl
  · split <;> rfl

/-- What a read of a control register leaves behind is beside what the cores hold. -/
theorem csrAfterRead_mapCore (sp : Spine) (d : Dev) (j k o : Nat) (f : Core → Core) (h : KeepsShown f) :
    csrAfterRead sp (d.mapCore j f) k o = (csrAfterRead sp d k o).mapCore j f := by
  simp only [csrAfterRead, mapCore_latch, csrValue_mapCore sp d j k _ f h, rclClear_mapCore]
  split
  · rfl
  · split <;> rfl

/-- A clearing read writes its own register, or nothing. -/
theorem rclClear_cases (d : Dev) (a : Nat) : d.rclClear a = d ∨ ∃ v, d.rclClear a = d.setReg a v := by
  unfold Dev.rclClear
  split
  · exact .inl rfl
  · split
    · exact .inr ⟨_, rfl⟩
    · exact .inl rfl

/-- A read of a control register changes latched words, or is a clearing read. -/
theorem csrAfterRead_cases (sp : Spine) (d : Dev) (j o : Nat) :
    (∃ l, csrAfterRead sp d j o = { d with latch := l }) ∨ csrAfterRead sp d j o = d.rclClear (coreBase j + o) := by
  simp only [csrAfterRead]
  split
  · exact .inl ⟨_, rfl⟩
  · split
    · exact .inl ⟨_, rfl⟩
    · exact .inr rfl

theorem csrAfterRead_core (sp : Spine) (d : Dev) (j o k : Nat) : (csrAfterRead sp d j o).core k = d.core k := by
  obtain ⟨l, h⟩ | h := csrAfterRead_cases sp d j o
  · rw [h]; rfl
  · obtain e | ⟨v, e⟩ := rclClear_cases d (coreBase j + o)
    · rw [h, e]
    · rw [h, e]; rfl

/-- No field of `CORE_STATUS` is cleared by a read. -/
theorem rclClear_status (d : Dev) (k : Nat) (hk : k < 388) : d.rclClear (coreBase k + 8) = d := by
  rw [rclClear_of _ _ _ (fieldsAt_core k 8 hk (by omega))]
  rfl

/-- A read of a control register leaves every core's status. -/
theorem csrAfterRead_status (sp : Spine) (d : Dev) (j o k : Nat) (x : Fld) (hk : k < 388) (hx : x.addr = coreBase k + 8) :
    (csrAfterRead sp d j o).fb x = d.fb x := by
  obtain ⟨l, h⟩ | h := csrAfterRead_cases sp d j o
  · rw [h]; rfl
  · rw [h]
    by_cases hs : coreBase j + o = coreBase k + 8
    · rw [hs, rclClear_status d k hk]
    · obtain e | ⟨v, e⟩ := rclClear_cases d (coreBase j + o)
      · rw [e]
      · rw [e, Dev.fb, Dev.fb, f_setReg_ne _ _ _ _ (by rw [hx]; exact Ne.symm hs)]

/-! ## MFC and MTC -/

/-- What a lone bundle with one general result due at once has done of its core before it goes on. -/
def wroteG (b : List Instr) (r : Reg) (v : Word) (c : Core) : Core :=
  { c with g := SMap.set c.g r.toNat v 0, bundle := b, inflight := [] }

theorem wroteG_shown (b : List Instr) (r : Reg) (v : Word) : KeepsShown (wroteG b r v) := fun _ => ⟨rfl, rfl, rfl⟩

theorem landed_g (d : Dev) (k : Nat) (b : List Instr) (r : Reg) (v : Word) :
    landed d k b [(.g r v, 1, false)] = d.mapCore k (wroteG b r v) := by
  have e : landed d k b [(.g r v, 1, false)] =
      (d.mapCore k fun c => { c with g := SMap.set c.g r.toNat v 0 }).mapCore k fun c =>
        { c with bundle := b, inflight := [], pc := (d.core k).pc } := rfl
  rw [e, mapCore_mapCore]
  exact mapCore_eq _ _ _ _ rfl

theorem lone_g (d : Dev) (k : Nat) (r : Reg) (v : Word) :
    d.lone k [(.g r v, 1, false)] = d.mapCore k fun c =>
      { c with g := SMap.set c.g r.toNat v 0, pc := BitVec.ofNat 16 (c.pc.toNat + 4), inflight := [] } := by
  have e : d.lone k [(.g r v, 1, false)] =
      (d.mapCore k fun c => { c with g := SMap.set c.g r.toNat v 0 }).mapCore k fun c =>
        { c with pc := BitVec.ofNat 16 (c.pc.toNat + 4), inflight := [] } := rfl
  rw [e, mapCore_mapCore]

/-- An instruction of a core's own is its issue. -/
theorem issued (s : State) (i : Instr) (d : Dev) (h : issueInstr i (s.spine, s.dev) = (s.spine, d)) :
    coreInstr i s = s.to d := by
  unfold coreInstr wholeCmd State.onWhole
  rw [h]
  rfl

/-- The exception of an instruction that acts and is in sequence outside loops and delay slots is its own. -/
theorem trapOf_alone (sp : Spine) (d : Dev) (k : Nat) (b : List Instr) (x : Sem) (ha : Alone sp d k) (hr : x.run = true)
    (hx : x.seq = .none ∨ x.seq = .mtcStatus) : (held d k b).trapOf k x = x.trap := by
  have hs : (held d k b).seqBad k x = false := by
    unfold Dev.seqBad
    rcases hx with e | e <;> simp [e, ha.la, ha.ra]
  simp [Dev.trapOf, hr, hs]

/-- Control registers read the same while a bundle is held. -/
theorem csrRead_held (sp : Spine) (d : Dev) (j k o : Nat) (b : List Instr) : csrRead sp (held d j b) k o = csrRead sp d k o :=
  csrRead_mapCore sp d j k o _ fun _ => ⟨rfl, rfl, rfl⟩

/-- The core and offset that an effect on a control register names. -/
theorem csr_parts (k o a : Nat) (ho : o < 0x1000) (h : k * 0x1000 + o = a) : a / 0x1000 = k ∧ a % 0x1000 = o := by
  omega

theorem mfc_none (s : State) (h : Hd) (r : Reg) (csr : BitVec 12) (hr : Ready s h) (hc : csrOf h.k csr.toNat = none) :
    exec (.mfc h r csr) s = s.results h [(.g r 0, 1, false)] := by
  have hs : semMfc s.spine (held s.dev h.k [.mfc h r csr]) h r csr =
      { cls := .c, word := encCsr h r csr 8, dests := [.g r], srcs := [r], eff := wrs [(.g r 0, 1, false)] } := by
    simp [semMfc, hc, wrs]
  exact issued s _ _ (instr_lone s.spine s.dev (.mfc h r csr) h _ [(.g r 0, 1, false)] rfl hr.last hr.alone
    (congrArg (fun x => some (h, x)) hs) (trapOf_alone s.spine _ _ _ _ hr.alone rfl (.inl rfl)) rfl (by simp))

theorem mfc_some (s : State) (h : Hd) (r : Reg) (csr : BitVec 12) (k' o : Nat) (hr : Ready s h)
    (hc : csrOf h.k csr.toNat = some (k', o)) :
    exec (.mfc h r csr) s =
      s.to ((csrAfterRead s.spine s.dev k' o).lone h.k [(.g r (csrRead s.spine s.dev k' o), 1, false)]) := by
  obtain ⟨v, hv⟩ : ∃ v, csrRead s.spine s.dev k' o = v := ⟨_, rfl⟩
  obtain ⟨a, he⟩ : ∃ a, k' * 0x1000 + o = a := ⟨_, rfl⟩
  obtain ⟨p1, p2⟩ := csr_parts k' o a (csrOf_bounds _ _ _ _ h.k.isLt hc).2 he
  have ha := hr.alone
  have hs : semMfc s.spine (held s.dev h.k [.mfc h r csr]) h r csr =
      { cls := .c, word := encCsr h r csr 8, dests := [.g r], srcs := [r]
        eff := wrs [(.g r v, 1, false)] ++ [.mfc a] } := by
    simp [semMfc, hc, wrs, csrRead_held, hv, he]
  have hd := csrAfterRead_core s.spine s.dev k' o h.k
  have hla := csrAfterRead_status s.spine s.dev k' o h.k (F.CORE_STATUS_LA h.k) h.k.isLt rfl
  have hra := csrAfterRead_status s.spine s.dev k' o h.k (F.CORE_STATUS_RA h.k) h.k.isLt rfl
  have key := instr_one s.spine s.dev (.mfc h r csr) h _ [(.g r v, 1, false)] (.mfc a) rfl hr.last ha
    (congrArg (fun x => some (h, x)) hs) (trapOf_alone s.spine _ _ _ _ ha rfl (.inl rfl)) rfl (by simp) rfl
  rw [hv]
  have hx : fxLate h.k (s.dev.f (F.CORE_STATUS_PRIV h.k))
      (s.spine, landed s.dev h.k [.mfc h r csr] [(.g r v, 1, false)]) (.mfc a) =
      (s.spine, (csrAfterRead s.spine s.dev k' o).mapCore h.k (wroteG [.mfc h r csr] r v)) := by
    rw [fxLate, p1, p2, landed_g, csrAfterRead_mapCore _ _ _ _ _ _ (wroteG_shown _ r v)]
  have hg : goesOf [Eff.mfc a] = none := rfl
  refine issued s _ _ (key.trans ?_)
  simp only [hx, lone_g, Dev.advance, hg]
  rw [goOn_plain _ _ _ (by simp [wroteG, hd, ha.ds]) (by simp [hla, ha.la]) (by simp [hra, ha.ra]),
    endTrap_off _ _ _ _ _ rfl (.inl rfl) (.inl rfl)]
  refine congrArg _ ?_
  simp only [Dev.setPc, Dev.bundleDone, mapCore_mapCore]
  refine mapCore_eq _ _ _ _ ?_
  simp [wroteG, hd, ha.bundle, ha.stall, ha.got, ha.fills, ha.emitted, ha.eslDone, ha.step]

/-- An exception saves the same whichever bundle the core holds. -/
theorem trapSave_mapCore (d : Dev) (j k epc : Nat) (f : Core → Core) (int : Bool) (code : Nat) (tv : Option Nat) (eob : Bool)
    (ds : Nat) (tg : Option (BitVec 16)) :
    (d.mapCore j f).trapSave k epc int code tv eob ds tg = (d.trapSave k epc int code tv eob ds tg).mapCore j f := by
  cases tv <;> cases tg <;> simp only [Dev.trapSave, f_mapCore, setF_mapCore]
theorem trapEnter_held (d : Dev) (k epc : Nat) (b : List Instr) (int : Bool) (code : Nat) (tv : Option Nat) (eob : Bool)
    (hi : (d.core k).inflight = []) :
    (held d k b).trapEnter k epc int code tv eob = d.trapEnter k epc int code tv eob := by
  have hi' : ((held d k b).core k).inflight = [] := by rw [held_core]; exact hi
  simp only [Dev.trapEnter, landAll_nil _ k 7 hi, landAll_nil _ k 7 hi']
  simp only [held, trapSave_mapCore, mapCore_mapCore, core_mapCore_same, f_mapCore]

/-- An MTC below the level that it needs takes `PRIV`. -/
theorem mtc_priv (s : State) (h : Hd) (r : Reg) (csr : BitVec 12) (x : Sem) (hr : Ready s h)
    (hs : semMtc (held s.dev h.k [.mtc h r csr]) h r csr = x) (hx : x.run = true) (hq : x.seq = .none ∨ x.seq = .mtcStatus)
    (hg : x.gather = none) (ht : x.trap = some (tPriv, encCsr h r csr 9)) :
    exec (.mtc h r csr) s =
      s.to (s.dev.trapEnter h.k (s.dev.core h.k).pc.toNat false 4 (some (encCsr h r csr 9)) false) := by
  refine issued s _ _ ((instr_trap s.spine s.dev (.mtc h r csr) h x tPriv _ rfl hr.last hr.alone
    (congrArg (fun x => some (h, x)) hs) hg ((trapOf_alone s.spine _ _ _ _ hr.alone hx hq).trans ht)).trans ?_)
  rw [landed_nil _ _ _ hr.alone.inflight, trapEnter_held _ _ _ _ _ _ _ _ hr.alone.inflight]
  rfl

theorem mtc_none (s : State) (h : Hd) (r : Reg) (csr : BitVec 12) (hr : Ready s h) (hc : csrOf h.k csr.toNat = none) :
    exec (.mtc h r csr) s = if s.dev.level h.k = .u then
        s.to (s.dev.trapEnter h.k (s.dev.core h.k).pc.toNat false 4 (some (encCsr h r csr 9)) false)
      else s.results h [] := by
  have hs : semMtc (held s.dev h.k [.mtc h r csr]) h r csr =
      { cls := .c, word := encCsr h r csr 9, srcs := [r], eff := []
        trap := if s.dev.level h.k == .u then some (tPriv, encCsr h r csr 9) else none } := by
    simp only [semMtc, hc]
    rfl
  split
  next hu => exact mtc_priv s h r csr _ hr hs rfl (.inl rfl) rfl (by rw [hu]; rfl)
  next hu =>
    refine issued s _ _ (instr_lone s.spine s.dev (.mtc h r csr) h _ [] rfl hr.last hr.alone
      (congrArg (fun x => some (h, x)) hs) ((trapOf_alone s.spine _ _ _ _ hr.alone rfl (.inl rfl)).trans ?_) rfl (by simp))
    simp [hu]

/-- What MTC does where its number names a register. -/
theorem semMtc_some (s : State) (h : Hd) (r : Reg) (csr : BitVec 12) (k' o a : Nat) (b : List Instr)
    (hc : csrOf h.k csr.toNat = some (k', o)) (he : k' * 0x1000 + o = a) :
    semMtc (held s.dev h.k b) h r csr =
      { cls := .c, word := encCsr h r csr 9, srcs := [r], seq := if o = 8 then .mtcStatus else .none
        trap := if mtcAllowed (s.dev.level h.k) k' o then none else some (tPriv, encCsr h r csr 9)
        eff := [.mtc a (s.dev.g h.k r)] } := by
  simp only [semMtc, hc, held_g, he]
  rfl

theorem mtc_refused (s : State) (h : Hd) (r : Reg) (csr : BitVec 12) (k' o : Nat) (hr : Ready s h)
    (hc : csrOf h.k csr.toNat = some (k', o)) (hm : mtcAllowed (s.dev.level h.k) k' o = false) :
    exec (.mtc h r csr) s =
      s.to (s.dev.trapEnter h.k (s.dev.core h.k).pc.toNat false 4 (some (encCsr h r csr 9)) false) := by
  refine mtc_priv s h r csr _ hr (semMtc_some s h r csr k' o _ _ hc rfl) rfl ?_ rfl (by simp [hm])
  by_cases ho : o = 8 <;> simp [ho]

/-- An MTC that is allowed goes on in what its write leaves, if that is beside the bundle of its core. -/
theorem mtc_allowed (s : State) (h : Hd) (r : Reg) (csr : BitVec 12) (k' o : Nat) (e : Dev) (hr : Ready s h)
    (hc : csrOf h.k csr.toNat = some (k', o)) (hm : mtcAllowed (s.dev.level h.k) k' o = true)
    (hd : e.core h.k = s.dev.core h.k)
    (hw : ∀ b, (if o = 4 then
        if bitAt (s.dev.g h.k r).toNat 0 then (held s.dev h.k b).coreStart k' else held s.dev h.k b
      else csrWrite (held s.dev h.k b) (s.dev.level h.k) k' o (s.dev.g h.k r)) = held e h.k b) :
    exec (.mtc h r csr) s = s.to (e.goOn h.k ((s.dev.core h.k).pc.toNat + 4)) := by
  obtain ⟨a, ha⟩ : ∃ a, k' * 0x1000 + o = a := ⟨_, rfl⟩
  obtain ⟨p1, p2⟩ := csr_parts k' o a (csrOf_bounds _ _ _ _ h.k.isLt hc).2 ha
  have hs := semMtc_some s h r csr k' o a [.mtc h r csr] hc ha
  refine issued s _ _ (instr_mtc s.spine s.dev e (.mtc h r csr) h _ a (s.dev.g h.k r) rfl hr.last hr.alone
    (congrArg (fun x => some (h, x)) hs) ((trapOf_alone s.spine _ _ _ _ hr.alone rfl ?_).trans ?_) rfl ?_ hd)
  · by_cases ho : o = 8 <;> simp [ho]
  · simp [hm]
  · rw [fxLate, p1, p2]
    exact congrArg (Prod.mk s.spine) (hw _)

theorem plainWrite_held (d : Dev) (k a : Nat) (v : Word) (b : List Instr) :
    (held d k b).plainWrite a v = held (d.plainWrite a v) k b := by
  unfold Dev.plainWrite
  split <;> rfl
theorem plainWrite_core (d : Dev) (a k : Nat) (v : Word) : (d.plainWrite a v).core k = d.core k := by
  unfold Dev.plainWrite
  split <;> rfl

/-- A write of a control register does not meet what the cores hold. -/
theorem csrWrite_held (d : Dev) (l : Level) (j o k : Nat) (v : Word) (b : List Instr) :
    csrWrite (held d k b) l j o v = held (csrWrite d l j o v) k b := by
  simp only [csrWrite, plainWrite_held, held_reg]
  split
  · rfl
  · split
    · rfl
    · split <;> rfl
theorem csrWrite_core (d : Dev) (l : Level) (j o k : Nat) (v : Word) : (csrWrite d l j o v).core k = d.core k := by
  simp only [csrWrite]
  split
  · exact plainWrite_core _ _ _ _
  · split
    · rfl
    · split
      · rfl
      · exact plainWrite_core _ _ _ _

theorem mtc_writes (s : State) (h : Hd) (r : Reg) (csr : BitVec 12) (k' o : Nat) (hr : Ready s h)
    (hc : csrOf h.k csr.toNat = some (k', o)) (hm : mtcAllowed (s.dev.level h.k) k' o = true) (ho : o ≠ 4) :
    exec (.mtc h r csr) s =
      s.to ((csrWrite s.dev (s.dev.level h.k) k' o (s.dev.g h.k r)).goOn h.k ((s.dev.core h.k).pc.toNat + 4)) := by
  refine mtc_allowed s h r csr k' o _ hr hc hm (csrWrite_core _ _ _ _ _ _) fun b => ?_
  rw [if_neg ho, csrWrite_held]

/-- A core that runs is not started again, whichever it is; another's start is beside the bundle held. -/
theorem coreStart_held (d : Dev) (j k : Nat) (b : List Instr) (hm : (d.core k).mode = .run) :
    (held d k b).coreStart j = held (d.coreStart j) k b ∧ (d.coreStart j).core k = d.core k := by
  by_cases e : j = k
  · subst e
    simp [Dev.coreStart, hm]
  · have hc : (held d k b).core j = d.core j := core_mapCore_ne _ _ _ _ e
    unfold Dev.coreStart
    rw [hc]
    split
    · simp only [held_f, held_setF]
      exact ⟨mapCore_comm _ k j _ _ (Ne.symm e), core_mapCore_ne _ _ _ _ (Ne.symm e)⟩
    · exact ⟨rfl, rfl⟩

theorem mtc_starts (s : State) (h : Hd) (r : Reg) (csr : BitVec 12) (k' : Nat) (hr : Ready s h)
    (hc : csrOf h.k csr.toNat = some (k', 4)) (hm : mtcAllowed (s.dev.level h.k) k' 4 = true) :
    exec (.mtc h r csr) s = s.to ((if (s.dev.g h.k r).toNat % 2 = 1 then s.dev.coreStart k' else s.dev).goOn h.k
      ((s.dev.core h.k).pc.toNat + 4)) := by
  have hmode : (s.dev.core h.k).mode = .run := by
    have hi := hr.alone.issues
    simp only [Dev.issues, Bool.and_eq_true, beq_iff_eq] at hi
    obtain ⟨⟨⟨hrun, -⟩, -⟩, -⟩ := hi
    exact hrun
  have hbit : bitAt (s.dev.g h.k r).toNat 0 = true ↔ (s.dev.g h.k r).toNat % 2 = 1 := by simp [bitAt]
  refine mtc_allowed s h r csr k' 4 _ hr hc hm ?_ fun b => ?_
  · split
    · exact (coreStart_held _ _ _ [] hmode).2
    · rfl
  · simp only [hbit, if_true]
    split
    · exact (coreStart_held _ _ _ b hmode).1
    · rfl

/-- Settles O11: MFC lands its value and then leaves what a read leaves; MTC takes `PRIV`, or goes on in what its write
leaves. -/
theorem controlRegisterResults : Obligations.ControlRegisterResults := by
  intro s h r csr hr
  refine ⟨fun hc => ⟨mfc_none s h r csr hr hc, mtc_none s h r csr hr hc⟩, fun k' o hc => ⟨mfc_some s h r csr k' o hr hc,
    mtc_refused s h r csr k' o hr hc, fun hm => ⟨mtc_writes s h r csr k' o hr hc hm, ?_⟩⟩⟩
  rintro rfl
  exact mtc_starts s h r csr k' hr hc hm

end Sys2Proof.Proofs

/-! Proofs of the statements about containment, faults and memory accesses: O35, O42, O58 and O60. -/

namespace Sys2Proof.Machine

/-! ## Every command but the full reset and the loss of power leads to a later spine -/

/-- An effect on the device alone. -/
theorem Keeps.dev_only (g : Whole → Dev) : Keeps fun w => (w.1, g w) := fun w => .refl w.1
/-- The relation where the command first names the words that have gone bad. -/
theorem Keeps.upset {f : Whole → Whole} (h : Keeps f) {ecc : Ecc} : Keeps fun w => f (w.1, w.2.upset ecc) :=
  fun w => h (w.1, w.2.upset ecc)
/-- The relation where bundles that stall in SUBMIT, that wait for writes, or both, then try again. -/
theorem Keeps.retried {f : Whole → Whole} (h : Keeps f) : Keeps fun w => retrySubmits (f w) := h.comp retrySubmits_later
theorem Keeps.fenced {f : Whole → Whole} (h : Keeps f) : Keeps fun w => retryFences (f w) := h.comp retryFences_later
theorem Keeps.tried {f : Whole → Whole} (h : Keeps f) : Keeps fun w => eurRetry (f w) := h.comp eurRetry_later
/-- The relation where a package fault holds the command back. -/
theorem inService_keeps {f : Whole → Whole} (h : Keeps f) : Keeps fun w => if w.1.contain.pkg = 0 then f w else w :=
  firmware_later f h
theorem drainOver_keeps : Keeps fun w => if w.2.drained_ then drainComplete w.1 w.2 else w := by
  intro w
  dsimp only
  split
  · exact drainComplete_later _ _
  · exact .refl _

/-- A command that completes with another device alone. -/
theorem onDev_later (s t : State) (g : Dev → Dev) (e : (.next (s.onDev g) : Out) = .next t) : s.spine.Later t.spine :=
  devCmd_later s t (fun _ => g) e

/-- What a command leads to, by what it acts on: the device alone, a register, the whole block by an effect of its own, or,
in every other case, the bundle of a core. -/
theorem exec_later (i : Instr) (s t : State) (hp : i ≠ .powerLoss) (hr : i ≠ .fullResetExecute) (e : exec i s = .next t) :
    s.spine.Later t.spine := by
  cases i with
  | rclRead | readLowWord | pkgFaultResetTimer | powerGood | resetNRelease | resetNAssert | candidateLoad | layerApply
  | dormantReached | fullResetDelayExpire | pwrfailFall | logFlushComplete | pwrfailRise | coreRun | loopEnd | rptEnd
  | csCommit | advertise | drainRequestArrival | handoverComplete | delegationDrained | retentionEntry
  | retentionHoldExpire | wakeDone | powerOff | powerOnDone | washBorrow | hbmScrub | extentInvalDone | fill | fence
  | burstGrant | burstDone | enginePark | captureStall | nceSymbol | headerResult | replayEnd | lullReport | windowOpen
  | nceServicePass | symbolClose | readinessCheck | symbolSend | mgmtTx | ptpTxtsPop | linkDown | linkUp | tsMeasurement
  | fhServicePass | refLoss | refRelock | ppsInEdge | noInputTimeout | stepComplete | ppsOutRise | ppsOutFall | trigFire
  | tbNowRead | estimate | swap | swapMiss | holdClear | stale | floorWindowEnd | glzServicePass | loopback
  | ocxoDwellEnd | glzCommDone | updateBoundary | deglitchEnd | trimWatchdogExpire | trmServicePass | perstNAssert
  | hostLinkDown | hostLinkUp | functionLevelReset | bar2Access | h2dEntry | d2hEntry | msixUnmask | helloTimer
  | ackTimer | latchOpen | latchClose | keyRelease | keyHoldReset | moduleInserted | moduleResetRelease | moduleInit
  | moduleReady | dataPathActivated | moduleWaitTimeout | moduleRemoved | moduleInterrupt | i2cDone | aonEvent | pcSample
  | bypass | idcode | samplePreload | extest | clamp | highz | extestPulse | extestTrain | tapReset | debug | debugHalt
  | debugStep | debugResume | thermReport | throttleEntry | throttleDeepen | throttleExit | perstNRelease | keyPress
  | flushSlotErased | modeRequest | functionStart | functionStop | functionConfig | stageImage | commitImage | fullReset
  | getStatus | traceControl | triggerSet | attest | getVersion | getCapabilities | negotiateAlgorithms | getDigests
  | getCertificate | challenge | getMeasurements | unsupportedRequest =>
    exact onDev_later s t _ e
  | regWrite | targetWrite | delegation | powerRequest | nolendWrite | extentInval | gstStart | gstStop | swreqWrite
  | captureStreamEnable | abort | bt0HiWrite | txrdyWrite | tscapArm | offsetCommit | stepGo | trigArm | trigDisarm
  | captureCommand | estimateCommand | nextTWrite | codeReq | kick | timeoutWrite | outWrAdvance | evtSendWrite | i2cGo
  | statClear | swRaise | evtCfgWrite =>
    exact wholeCmd_later s t _ (regStep_later _ _ _) e
  | unitFault => exact wholeCmd_later s t _ (faultsAt_later _).retried e
  | clusterQuarantine => exact wholeCmd_later s t _ (clusterQuarantine_later _).retried e
  | dieFence => exact wholeCmd_later s t _ (dieFence_later _).retried e
  | packageFault | thermalTrip | supplyFault => exact wholeCmd_later s t _ (packageFault_later _ _) e
  | avsSettle => exact wholeCmd_later s t _ (avsSettle_later _ _) e
  | csUnitFault => exact wholeCmd_later s t _ (csFault_later _ _) e
  | gstChannelFault => exact wholeCmd_later s t _ (chanFault_later _ _) e
  | hubEngineFault => exact wholeCmd_later s t _ hubGustFault_later e
  | engineFault => exact wholeCmd_later s t _ (engineFault_later _ _) e
  | nceFault => exact wholeCmd_later s t _ nceFault_later e
  | glazeFault => exact wholeCmd_later s t _ glazeFault_later e
  | washWindowDone => exact wholeCmd_later s t _ (washEnd_later _ _) e
  | autoStart | watchdogExpire => exact wholeCmd_later s t _ (firmware_later _ (Keeps.dev_only _)) e
  | drainComplete => exact wholeCmd_later s t _ (firmware_later _ drainOver_keeps) e
  | drainTimeout => exact wholeCmd_later s t _ (firmware_later _ (Keeps.retried fun w => drainTimeout_later w.1 w.2)) e
  | wfiWake => exact wholeCmd_later s t _ (wfiWake_later _) e
  | interruptTaken => exact wholeCmd_later s t _ (interrupt_later _) e
  | loadReturn => exact wholeCmd_later s t _ (loadReturn_later _ _).upset e
  | cxResult => exact wholeCmd_later s t _ (cxResult_later _ _) e
  | timeRelease | pendingPlace | dispatch | lateStart | miss | spillOffer => exact wholeCmd_later s t _ (storeStep_later _) e
  | completion => exact wholeCmd_later s t _ (inService_keeps (complete_later _).retried) e
  | eslKill => exact wholeCmd_later s t _ (regStep_later _ _ _).retried e
  | handover => exact wholeCmd_later s t _ (fun w => foldl_later _ (fun _ => regStep_later _ _ _) _ w) e
  | paletteAccess => exact wholeCmd_later s t _ (paletteArrive_later _ _).fenced.upset e
  | coreMemoryAccess | hostWindowAccess | fabricWindowAccess | configurationRequest =>
    exact wholeCmd_later s t _ (Keeps.dev_only _).fenced e
  | hostBarWrite => exact wholeCmd_later s t _ (hostWriteBytes_later _ _ _).fenced e
  | doorbellTail | doorbellHead => exact wholeCmd_later s t _ (hostWriteBytes_later _ _ _) e
  | descriptorFetch => exact wholeCmd_later s t _ (gstFetchStep_later _ _ _).upset e
  | copy => exact wholeCmd_later s t _ (gstCopy_later _ _ _).upset e
  | compare => exact wholeCmd_later s t _ (gstCompare_later _ _ _ _).upset e
  | writeResponse => exact wholeCmd_later s t _ (gstLand_later _ _).upset e
  | engineTaskStart => exact wholeCmd_later s t _ (engStart_later _ _ _).upset e
  | fft | ifft | czt => exact wholeCmd_later s t _ (fftTask_later _ _ _ _).upset e
  | ldpcDecode | turboDecode => exact wholeCmd_later s t _ (harqTask_later _ _ _).upset e
  | polarDecode => exact wholeCmd_later s t _ (polarTask_later _ _).upset e
  | smallBlockDecode => exact wholeCmd_later s t _ (smallTask_later _ _).upset e
  | tbCrc => exact wholeCmd_later s t _ (tbCrcTask_later _ _).upset e
  | ldpcEncode | polarEncode | turboEncode | convolutionalEncode | smallCodeEncode =>
    exact wholeCmd_later s t _ (encTask_later _ _ _).upset e
  | engineCompletion => exact wholeCmd_later s t _ (engComplete_later _ _) e
  | recordWrite => exact wholeCmd_later s t _ (nceRecordWrite_later _) e
  | txEntry => exact wholeCmd_later s t _ (nceTxEntry_later _).upset e
  | txBurstDone => exact wholeCmd_later s t _ (nceTxDone_later _).upset e
  | fhRxFrame => exact wholeCmd_later s t _ (fhReceive_later _ _ _ _ _).upset e
  | servoCycle => exact wholeCmd_later s t _ servoCycle_later e
  | ack => exact wholeCmd_later s t _ (eurAckFrame_later _) e
  | write => exact wholeCmd_later s t _ (eurWriteFrame_later _ _ _).upset e
  | writeRsp => exact wholeCmd_later s t _ (eurWriteRsp_later _ _).tried e
  | read => exact wholeCmd_later s t _ (eurReadFrame_later _ _ _).upset e
  | readRsp => exact wholeCmd_later s t _ (eurReadRsp_later _ _ _) e
  | spill => exact wholeCmd_later s t _ (eurSpill_later _ _) e
  | spillRsp => exact wholeCmd_later s t _ (eurSpillRsp_later _ _).tried e
  | spillCpl => exact wholeCmd_later s t _ (eurSpillCpl_later _ _) e
  | spillCancel => exact wholeCmd_later s t _ (eurSpillCancel_later _ _).tried e
  | adv => exact wholeCmd_later s t _ (eurAdv_later _ _) e
  | event => exact wholeCmd_later s t _ (eurEvent_later _ _) e
  | hello => exact wholeCmd_later s t _ (eurHello_later _) e
  | retransmitTimeout => exact wholeCmd_later s t _ (inService_keeps (Keeps.dev_only _).tried) e
  | eventRoute => exact wholeCmd_later s t _ (routeStep_later _) e
  | fullResetExecute => exact absurd rfl hr
  | powerLoss => exact absurd rfl hp
  | _ => exact coreInstr_later s t _ e

/-- A step other than the full reset and the loss of power leads to a later spine. -/
theorem step_later (s t : State) (e : step s = .next t) (hp : s.pending.head? ≠ some .powerLoss)
    (hr : s.pending.head? ≠ some .fullResetExecute) : s.spine.Later t.spine := by
  unfold step at e
  split at e
  · exact wholeCmd_later s t tick tick_later e
  next i rest hl =>
    have ht : s.pending.head? = some i := by rw [hl]; rfl
    rw [ht] at hp hr
    exact exec_later i { s with pending := rest } t (fun h => hp (congrArg some h)) (fun h => hr (congrArg some h)) e

/-! ## The invariant of the spine -/

theorem fullReset_ok (w : Whole) (h : w.1.Ok) : (fullReset w).1.Ok := by
  unfold fullReset
  split
  · exact { pkg := Nat.zero_le _, few := h.few, past := h.past }
  · exact h

/-- At the loss of power nothing is out of service and no time has been shown. -/
theorem powerLost_ok : Spine.Ok { now := 0, recent := [], contain := Contain.none } :=
  { pkg := Nat.zero_le _, few := Nat.zero_le _, past := fun _ hu => nomatch hu }

theorem exec_ok (i : Instr) (s t : State) (e : exec i s = .next t) (h : s.spine.Ok) : t.spine.Ok := by
  by_cases hp : i = .powerLoss
  · subst hp
    injection e with e
    exact e ▸ powerLost_ok
  by_cases hr : i = .fullResetExecute
  · subst hr
    injection e with e
    exact e ▸ fullReset_ok (s.spine, s.dev) h
  exact (exec_later i s t hp hr e).ok h

theorem step_ok (s t : State) (e : step s = .next t) (h : s.spine.Ok) : t.spine.Ok := by
  unfold step at e
  split at e
  · exact (wholeCmd_later s t tick tick_later e).ok h
  next i rest _ => exact exec_ok i { s with pending := rest } t e h

end Sys2Proof.Machine

namespace Sys2Proof.Proofs
open Sys2Proof.Machine Sys2Proof.Laws

/-- Settles O58: every command leads to a later spine, which keeps the invariant, or starts the spine again. -/
theorem spineInvariantStays : Obligations.SpineInvariantStays := by
  intro s t e
  rintro ok ⟨hpkg, hfew, hpast⟩
  obtain ⟨hpkg', hfew', hpast'⟩ := step_ok s t e { pkg := hpkg, few := hfew, past := hpast }
  exact ⟨hpkg', hfew', hpast'⟩

/-- Settles O60: a later spine has everything out of service that was so before. -/
theorem outOfServiceStays : Obligations.OutOfServiceStays := by
  intro s t e hp hr
  have h := step_later s t e hp hr
  exact ⟨h.pkg, h.out, h.gone, h.clusters, h.dies⟩

end Sys2Proof.Proofs

namespace Sys2Proof.Machine

/-! ## What a command answers -/

/-- What a command answers whose effect on the whole block is known. -/
theorem wholeCmd_whole (s : State) (f : Whole → Whole) (sp : Spine) (d : Dev) (h : f (s.spine, s.dev) = (sp, d)) :
    wholeCmd s f = s.whole sp d := by
  unfold wholeCmd State.onWhole State.whole
  rw [h]
/-- The same, before bundles that stall in SUBMIT, or that wait for writes, try again. -/
theorem wholeCmd_retried (s : State) (f : Whole → Whole) (sp : Spine) (d : Dev) (h : f (s.spine, s.dev) = (sp, d)) :
    wholeCmd s (fun w => retrySubmits (f w)) = s.retried sp d := by
  unfold wholeCmd State.onWhole State.retried
  dsimp only
  rw [h]

theorem wholeCmd_written (s : State) (f : Whole → Whole) (sp : Spine) (d : Dev) (h : f (s.spine, s.dev) = (sp, d)) :
    wholeCmd s (fun w => retryFences (f w)) = s.written sp d := by
  unfold wholeCmd State.onWhole State.written
  dsimp only
  rw [h]

/-! ## The fields of a UID -/

theorem uidDie_mkUid (d r c u : Nat) (hr : r < 4) (hc : c < 8) (hu : u < 16) : uidDie (mkUid d r c u) = d := by
  unfold uidDie mkUid
  omega
theorem uidRegion_mkUid (d r c u : Nat) (hr : r < 4) (hc : c < 8) (hu : u < 16) : uidRegion (mkUid d r c u) = r := by
  unfold uidRegion mkUid
  omega
theorem uidCluster_mkUid (d r c u : Nat) (hc : c < 8) (hu : u < 16) : uidCluster (mkUid d r c u) = c := by
  unfold uidCluster mkUid
  omega
theorem uidUnit_mkUid (d r c u : Nat) (hu : u < 16) : uidUnit (mkUid d r c u) = u := by
  unfold uidUnit mkUid
  omega
theorem mkUid_lt (d r c u : Nat) (hd : d < 8) (hr : r < 4) (hc : c < 8) (hu : u < 16) : mkUid d r c u < 2 ^ 12 := by
  show d * 512 + r * 128 + c * 16 + u < 2 ^ 12
  omega

theorem coreUid_compute (k : Nat) (h : k < 384) : coreUid k = mkUid (k / 96) (k / 24 % 4) (k % 24 / 4) (k % 4) := if_pos h
theorem coreUid_fields (k : Nat) (h : k < 384) : uidDie (coreUid k) = k / 96 ∧ uidRegion (coreUid k) = k / 24 % 4 ∧
    uidCluster (coreUid k) = k % 24 / 4 ∧ uidUnit (coreUid k) = k % 4 := by
  rw [coreUid_compute k h]
  exact ⟨uidDie_mkUid _ _ _ _ (by omega) (by omega) (by omega), uidRegion_mkUid _ _ _ _ (by omega) (by omega) (by omega),
    uidCluster_mkUid _ _ _ _ (by omega) (by omega), uidUnit_mkUid _ _ _ _ (by omega)⟩
theorem cicUid_fields (c : Nat) : uidDie (cicUid c) = c / 24 ∧ uidRegion (cicUid c) = c / 6 % 4 ∧
    uidCluster (cicUid c) = c % 6 ∧ uidUnit (cicUid c) = 6 :=
  ⟨uidDie_mkUid _ _ _ _ (by omega) (by omega) (by omega), uidRegion_mkUid _ _ _ _ (by omega) (by omega) (by omega),
    uidCluster_mkUid _ _ _ _ (by omega) (by omega), uidUnit_mkUid _ _ _ _ (by omega)⟩

/-- Two compute cores have different UIDs. -/
theorem coreUid_inj (j k : Nat) (hj : j < 384) (hk : k < 384) (h : coreUid j = coreUid k) : j = k := by
  rw [coreUid_compute j hj, coreUid_compute k hk] at h
  change j / 96 * 512 + j / 24 % 4 * 128 + j % 24 / 4 * 16 + j % 4 =
    k / 96 * 512 + k / 24 % 4 * 128 + k % 24 / 4 * 16 + k % 4 at h
  omega

/-- A fault of a compute core's UID is that core's. -/
theorem unitPlace_core (k : Nat) (h : k < 384) : unitPlace (coreUid k) = .core k := by
  obtain ⟨hd, hr, hc, hu⟩ := coreUid_fields k h
  unfold unitPlace
  simp only [hd, hr, hc, hu]
  rw [if_pos (by omega), if_pos (by omega), if_pos (by omega)]
  congr 1
  omega

/-- A fault of a cluster's interrupt controller is the cluster's. -/
theorem unitPlace_cic (c : Nat) (h : c < 96) : unitPlace (cicUid c) = .cluster c := by
  obtain ⟨hd, hr, hc, hu⟩ := cicUid_fields c
  unfold unitPlace
  simp only [hd, hr, hc, hu]
  rw [if_pos (by omega), if_pos (by omega), if_neg (by omega), if_neg (by omega), if_pos trivial]
  congr 1
  omega

theorem coreUid_lt (k : Nat) (h : k < 384) : coreUid k < 2 ^ 12 := by
  rw [coreUid_compute k h]
  exact mkUid_lt _ _ _ _ (by omega) (by omega) (by omega) (by omega)
theorem cicUid_lt (c : Nat) (h : c < 96) : cicUid c < 2 ^ 12 := mkUid_lt _ _ _ _ (by omega) (by omega) (by omega) (by omega)

/-- The place of the unit that a fault's operand names. -/
theorem place_core (k : Nat) (h : k < 384) : unitPlace (BitVec.ofNat 12 (coreUid k)).toNat = .core k := by
  rw [BitVec.toNat_ofNat, Nat.mod_eq_of_lt (coreUid_lt k h), unitPlace_core k h]
theorem place_cic (c : Nat) (h : c < 96) : unitPlace (BitVec.ofNat 12 (cicUid c)).toNat = .cluster c := by
  rw [BitVec.toNat_ofNat, Nat.mod_eq_of_lt (cicUid_lt c h), unitPlace_cic c h]

/-! ## What the containment in force says of a fault -/

/-- A unit that is not out of service is not quarantined. -/
theorem units_of_out (c : Contain) (u : Nat) (h : c.out u = false) : c.units.contains u = false := by
  unfold Contain.out at h
  simp only [Bool.or_eq_false_iff] at h
  obtain ⟨⟨⟨-, hu⟩, -⟩, -⟩ := h
  exact hu
/-- A Gust channel that is not out of service is not quarantined, nor is its engine. -/
theorem parts_of_gone (c : Contain) (u n : Nat) (h : c.gone u n = false) :
    c.out u = false ∧ c.chans.contains (u, n) = false := by
  unfold Contain.gone at h
  rwa [Bool.or_eq_false_iff] at h

/-- A fault takes in none of its own level or above. -/
theorem covers_higher (x y : FaultAt) (h : x.level ≤ y.level) : x.covers y = false := by
  unfold FaultAt.covers
  rw [decide_eq_false (Nat.not_lt.mpr h), Bool.false_and]

/-- The cluster that a core belongs to takes it out of service. -/
theorem cluster_covers_core (k : Nat) (h : k < 384) : (FaultAt.cluster (coreCluster k)).covers (.core k) = true := by
  have hu : ({ Contain.none with clusters := [coreCluster k] } : Contain).out (coreUid k) = true := by
    obtain ⟨hd, hr, hc, -⟩ := coreUid_fields k h
    have hk : k / 96 * 24 + k / 24 % 4 * 6 + k % 24 / 4 = coreCluster k := by unfold coreCluster; omega
    have hd4 : k / 96 < 4 := by omega
    have hc6 : k % 24 / 4 < 6 := by omega
    simp [Contain.out, hd, hr, hc, hk, hd4, hc6]
  simp [FaultAt.covers, FaultAt.level, hu]

/-- A unit's fault where nothing has it out of service: it is quarantined, and ready tasks are placed again. -/
theorem unitCase_here (uid : Nat) (w : Whole) (ev : Dev → Dev) (quar : Whole → Whole) (h : w.1.contain.out uid = false) :
    unitCase uid w ev quar = ((quar w).1, (quar w).2.redirect (quar w).1) := by
  unfold unitCase
  rw [if_neg (by rw [units_of_out _ _ h]; decide), if_neg (by rw [h]; decide)]

/-! ## The faults -/

/-- A core's fault that leaves another core of its cluster in service. -/
theorem coreFault_alone (k i : Nat) (w : Whole) (hk : k < 384) (h : w.1.contain.out (coreUid k) = false) (hi : i < 4)
    (hne : i ≠ k % 4) (hu : w.1.contain.units.contains (coreUid (coreCluster k * 4 + i)) = false) :
    coreFault k w = (w.1.addUnit (coreUid k),
      (coreEvent k ((w.2.coreLost k).handBackAll (coreUid k) 0)).redirect (w.1.addUnit (coreUid k))) := by
  have hj : coreUid (coreCluster k * 4 + i) ≠ coreUid k := fun e => by
    have := coreUid_inj _ _ (by unfold coreCluster; omega) hk e
    unfold coreCluster at this
    omega
  have hn : (w.1.addUnit (coreUid k)).contain.units.contains (coreUid (coreCluster k * 4 + i)) = false := by
    simp only [List.contains_eq_mem, decide_eq_false_iff_not] at hu ⊢
    simp [Spine.addUnit, hu, hj]
  unfold coreFault
  rw [unitCase_here _ _ _ _ h]
  refine if_neg fun ha => ?_
  have hc := List.all_eq_true.mp ha i (List.mem_range.mpr hi)
  rw [hn] at hc
  exact Bool.false_ne_true hc

/-- A core's fault in the cycle of its cluster's: the core's event is recorded, and the cluster is quarantined. -/
theorem faultsAt_core_cluster (k : Nat) (w : Whole) (hk : k < 384) :
    faultsAt [.core k, .cluster (coreCluster k)] w = clusterQuarantine (coreCluster k) (w.1, coreEvent k w.2) := by
  have h := cluster_covers_core k hk
  have h1 : (FaultAt.core k).covers (.cluster (coreCluster k)) = false := covers_higher _ _ (Nat.zero_le _)
  have h2 : (FaultAt.cluster (coreCluster k)).covers (.cluster (coreCluster k)) = false := covers_higher _ _ (Nat.le_refl _)
  simp [faultsAt, h, h1, h2, FaultAt.level, FaultAt.event, FaultAt.apply]

theorem clusterQuarantine_here (c : Nat) (w : Whole) (hp : w.1.contain.pkg = 0) (hc : w.1.contain.clusters.contains c = false)
    (hd : w.1.contain.dies.contains (c / 24) = false) :
    clusterQuarantine c w = (w.1.addCluster c, (clusterEvent c ((List.range 4).foldl (fun d i =>
      (d.coreLost (c * 4 + i)).handBackAll (coreUid (c * 4 + i)) 0) w.2)).redirect (w.1.addCluster c)) := by
  unfold clusterQuarantine
  rw [if_neg (by rw [hc]; decide), if_neg (by rw [hd, hp]; decide)]

theorem dieFence_here (die : Nat) (w : Whole) (hp : w.1.contain.pkg = 0) (hd : w.1.contain.dies.contains die = false) :
    dieFence die w = (let l := (List.range 96).foldl (fun d i => d.coreLost (die * 96 + i)) w.2
      (w.1.addDie die, (fenceEvent die ((l.failRunning fun r => r / 4 == die).setF F.EVT_FAULT_FENCED
        (Nat.lor (l.f F.EVT_FAULT_FENCED) (2 ^ die)))).redirect (w.1.addDie die))) := by
  unfold dieFence
  rw [if_neg (by rw [hd]; decide), if_neg (by rw [hp]; decide)]

theorem packageFault_here (src rail : Nat) (w : Whole) (h : within 1 8 src = true) (hp : w.1.contain.pkg = 0) :
    (packageFault src rail w).1 = w.1.setPkg src := by
  unfold packageFault
  rw [if_pos h, if_pos hp]

theorem chanFault_here (e n : Nat) (w : Whole) (hn : n < gstChans e) (h : w.1.contain.gone (gustUid e) n = false) :
    chanFault e n w = (w.1.addChan (gustUid e) n, (w.2.gstFault e n).redirect (w.1.addChan (gustUid e) n)) := by
  obtain ⟨ho, hc⟩ := parts_of_gone _ _ _ h
  unfold chanFault
  rw [if_pos hn, if_neg (by rw [hc]; decide), if_neg (by rw [ho]; decide)]

theorem engineFault_here (r e : Nat) (w : Whole) (h : w.1.contain.out (regionUid r e) = false) :
    engineFault r e w = (w.1.addUnit (regionUid r e), (((w.2.engFault r e).delegateDone (regionUid r e) 0).handBackAll
      (regionUid r e) 0).redirect (w.1.addUnit (regionUid r e))) := by
  unfold engineFault
  rw [unitCase_here _ _ _ _ h]
theorem hubGustFault_here (w : Whole) (h : w.1.contain.out (hubUid 4) = false) :
    hubGustFault w = (w.1.addUnit (hubUid 4),
      ((List.range 64).foldl (fun d n => d.gstFault 16 n) w.2).redirect (w.1.addUnit (hubUid 4))) := by
  unfold hubGustFault
  rw [unitCase_here _ _ _ _ h]
theorem nceFault_here (w : Whole) (h : w.1.contain.out nceUid = false) :
    nceFault w = (w.1.addUnit nceUid,
      ((nceEvent (w.2.setF F.NCE_STATUS_QUAR 1)).handBackAll nceUid 0).redirect (w.1.addUnit nceUid)) := by
  unfold nceFault
  rw [unitCase_here _ _ _ _ h]
theorem glazeFault_here (w : Whole) (h : w.1.contain.out glzUid = false) :
    glazeFault w = (let d := (glazeEvent (w.2.setF F.GLZ_STATUS_QUAR 1)).handBackAll glzUid 0
      (w.1.addUnit glzUid,
        (if d.fnActive 129 then d.wedge (w.1.addUnit glzUid) 129 else d).redirect (w.1.addUnit glzUid))) := by
  unfold glazeFault
  rw [unitCase_here _ _ _ _ h]

end Sys2Proof.Machine

namespace Sys2Proof.Proofs
open Sys2Proof.Machine Sys2Proof.Laws

theorem unitFault_core (s : State) (k : Fin 384) (h : s.spine.contain.out (coreUid k) = false)
    (ho : ∃ i < 4, i ≠ k.val % 4 ∧ s.spine.contain.units.contains (coreUid (coreCluster k * 4 + i)) = false) :
    exec (.unitFault (BitVec.ofNat 12 (coreUid k)) []) s = s.retried (s.spine.addUnit (coreUid k))
      ((((s.dev.coreLost k).handBackAll (coreUid k) 0).raise (evCoreQuar (coreCluster k)) (coreUid k)).redirect
        (s.spine.addUnit (coreUid k))) := by
  obtain ⟨i, hi, hne, hu⟩ := ho
  refine wholeCmd_retried s (faultsAt _) _ _ ?_
  rw [place_core k k.isLt, List.map_nil, faultsAt_single _ _ rfl]
  exact coreFault_alone k i _ k.isLt h hi hne hu

theorem unitFault_core_cluster (s : State) (k : Fin 384) :
    exec (.unitFault (BitVec.ofNat 12 (coreUid k)) [.unit (BitVec.ofNat 12 (cicUid (coreCluster k)))]) s =
      (let w := clusterQuarantine (coreCluster k) (s.spine, s.dev.raise (evCoreQuar (coreCluster k)) (coreUid k))
       s.retried w.1 w.2) := by
  have hc : coreCluster k < 96 := by unfold coreCluster; omega
  refine wholeCmd_retried s (faultsAt _) _ _ ?_
  rw [place_core k k.isLt, List.map_cons, List.map_nil, FaultSrc.place, place_cic _ hc]
  exact faultsAt_core_cluster k _ k.isLt

theorem packageFault_spine (s : State) (src : BitVec 4) (hp : s.spine.contain.pkg = 0) (h : within 1 8 src.toNat = true) :
    ∃ t, exec (.packageFault src) s = .next t ∧ t.spine = s.spine.setPkg src.toNat :=
  ⟨_, rfl, packageFault_here src.toNat 0 (s.spine, s.dev) h hp⟩

/-- Settles O35: each fault meets no containment in force, and is then what its own law says. -/
theorem faultsContain : Obligations.FaultsContain := by
  intro s hp
  refine ⟨unitFault_core s, unitFault_core_cluster s, fun k hc hd => ?cluster, fun k hd => ?die,
    fun src => packageFault_spine s src hp, fun r e h => ?engine, fun e n hn h => ?chan, fun h => ?hubGust, fun h => ?nce,
    fun h => ?glaze⟩
  case cluster => exact wholeCmd_retried s _ _ _ (clusterQuarantine_here k (s.spine, s.dev) hp hc hd)
  case die => exact wholeCmd_retried s _ _ _ (dieFence_here k (s.spine, s.dev) hp hd)
  case engine => exact wholeCmd_whole s _ _ _ (engineFault_here r e (s.spine, s.dev) h)
  case chan => exact wholeCmd_whole s _ _ _ (chanFault_here e n (s.spine, s.dev) hn h)
  case hubGust => exact wholeCmd_whole s _ _ _ (hubGustFault_here (s.spine, s.dev) h)
  case nce => exact wholeCmd_whole s _ _ _ (nceFault_here (s.spine, s.dev) h)
  case glaze => exact wholeCmd_whole s _ _ _ (glazeFault_here (s.spine, s.dev) h)

end Sys2Proof.Proofs

namespace Sys2Proof.Machine
open Sys2Proof.Laws

/-! ## Sound memory stays sound -/

theorem clean_mapBank (d : Dev) (r n : Nat) (f : Bank → Bank) (h : Clean d) : Clean (d.mapBank r n f) := ⟨h.bad, h.cs⟩
theorem clean_washRelease (d : Dev) (key : Nat) (h : Clean d) : Clean (d.washRelease key) := by
  unfold Dev.washRelease
  split
  · exact h
  · dsimp only
    split
    next hold _ _ _ _ _ _ =>
      have hc := clean_setBytes d (washSpan hold.tgt).1 hold.save h
      exact ⟨hc.bad, hc.cs⟩
    next => exact ⟨h.bad, h.cs⟩
theorem clean_washAbort (sp : Spine) (d : Dev) (r a n : Nat) (h : Clean d) : Clean (d.washAbort sp r a n) := by
  unfold Dev.washAbort
  split
  · exact h
  · dsimp only
    split
    · have hc := clean_washRelease d r h
      exact ⟨hc.bad, hc.cs⟩
    · exact h

/-- A write of sound memory writes its bytes. -/
theorem memAcc_write_clean (d : Dev) (a n : Nat) (l : List Byte) (h : Clean d) :
    d.memAcc a n true l = (.ok [], d.setBytes a l) := by
  simp [Dev.memAcc, memPut_clean d a l h]

/-! ## An access at a bank's port -/

/-- The port of a bank takes accesses: no fence or quarantine is in force, its power is on, and nothing waits there. -/
structure Dev.PortOpen (sp : Spine) (d : Dev) (r n a : Nat) : Prop where
  fence : fencedDie sp a = none
  unit : sp.contain.units.contains (bankUid r n) = false
  on : (d.bank r n).phase = .on
  waiting : (d.bank r n).waiting = []

/-- What a bank that serves an access notes before memory is reached: the time, and that a borrow of the window ends. -/
def Dev.served (sp : Spine) (d : Dev) (r n a size : Nat) : Dev :=
  (d.mapBank r n fun b => { b with used := sp.now }).washAbort sp r a size

theorem clean_served (sp : Spine) (d : Dev) (r n a size : Nat) (h : Clean d) : Clean (d.served sp r n a size) :=
  clean_washAbort _ _ _ _ _ (clean_mapBank _ _ _ _ h)

section
variable {sp : Spine} {d : Dev} {r n a : Nat}

theorem Dev.PortOpen.waitOver (h : d.PortOpen sp r n a) (q : Req) (len : Nat) (write : Bool) :
    d.waitOver r n q a len write = d := by
  unfold Dev.waitOver
  rw [h.waiting]
  rfl
theorem Dev.PortOpen.turn (h : d.PortOpen sp r n a) (q : Req) (len : Nat) (write : Bool) :
    d.notTurn sp r n q a len write = false := by
  unfold Dev.notTurn
  rw [h.waiting]
  rfl

/-- An open port does with an access what ownership says of it. -/
theorem Dev.PortOpen.bankAcc_ok (h : d.PortOpen sp r n a) (q : Req) (len : Nat) (write : Bool) (data : List Byte)
    (hj : d.judge r n q write false = .ok) : d.bankAcc sp r n q a len write data false false =
      (d.served sp r n a (if write then data.length else len)).memAcc a len write data := by
  unfold Dev.bankAcc
  simp only [h.fence, h.unit, h.on, h.turn, h.waitOver, hj, Bool.false_eq_true, if_false]
  rfl
theorem Dev.PortOpen.bankAcc_refuse (h : d.PortOpen sp r n a) (q : Req) (len kind : Nat) (write : Bool) (data : List Byte)
    (hj : d.judge r n q write false = .refuse kind) :
    d.bankAcc sp r n q a len write data false false = (.refused, d.refuse kind q a write) := by
  unfold Dev.bankAcc
  simp only [h.fence, h.unit, h.on, h.turn, h.waitOver, hj, Bool.false_eq_true, if_false]
end

/-! ## Accesses that arrive -/

/-- A read, or a write, of a requester that is no queued one of a core. -/
def readArr (q : Req) (a n : Nat) : Arr :=
  { q := q, a := a, n := n, write := false, data := [], late := false, from_ := none }
def writeArr (q : Req) (a : Nat) (data : List Byte) : Arr :=
  { q := q, a := a, n := data.length, write := true, data := data, late := false, from_ := none }

/-- The answer to a read. -/
def Dev.answered (d : Dev) (q : Req) (l : List Byte) : Dev :=
  { d with sent := d.sent ++ [.rsp q.uid.toNat q.ch.toNat l false] }

theorem bank_arr (x : Arr) (r n : Nat) (h0 : tgtOf x.a = .bank r n) (h1 : tgtOf (x.a + (x.size - 1)) = .bank r n)
    (hs : x.size ≠ 0) : x.bank = some (r, n) := by
  unfold Arr.bank
  simp only [h0, h1]
  simp [hs]

/-- An access in its turn at a bank's port that does not have to wait: it is answered. -/
theorem bankArrive_done (sp : Spine) (d e : Dev) (r n : Nat) (x : Arr) (o : AccOut) (hf : x.from_ = none) (ho : o ≠ .wait)
    (h : d.bankAcc sp r n x.q x.a x.n x.write x.data x.late false = (o, e)) : d.bankArrive sp r n x = (o, e.answer x o) := by
  have hp : e.popArr x = e := by simp [Dev.popArr, hf]
  unfold Dev.bankArrive Dev.arrived
  simp only [hf, Option.isSome_none, h]
  cases o with
  | wait => exact absurd rfl ho
  | ok _ | refused | err => simp only [hp]

/-- An access that is no queued one, lies in one bank and does not have to wait there. -/
theorem paletteAccess_done (s : State) (m : MemAcc) (x : Arr) (r n : Nat) (o : AccOut) (e : Dev)
    (hm : s.dev.arrival m = some x) (hf : x.from_ = none) (hq : reqGone s.spine s.dev x.q = false) (hb : x.bank = some (r, n))
    (ho : o ≠ .wait)
    (h : s.dev.bankAcc s.spine r n x.q x.a x.n x.write x.data x.late false = (o, e)) :
    exec (.paletteAccess m [] none) s = s.written s.spine (e.answer x o) := by
  have ha : arrives s.spine s.dev x = true := by simp [arrives, hf, hq]
  have ht : s.dev.inTurn r n x = true := by simp [Dev.inTurn, hf]
  refine wholeCmd_written s (fun w => paletteArrive m none (w.1, w.2.upset [])) _ _ ?_
  show paletteArrive m none (s.spine, s.dev) = _
  unfold paletteArrive
  simp only [hm, hb, ha, ht, bankArrive_done s.spine s.dev e r n x o hf ho h]
  rfl

section
variable (s : State) (q : Req) (a : BitVec 42) (r n : Nat) (hq : reqGone s.spine s.dev q = false)
  (hp : s.dev.PortOpen s.spine r n a.toNat) (h0 : tgtOf a.toNat = .bank r n)
include hq hp h0

theorem paletteRead_ok (len : BitVec 7) (hc : Clean s.dev) (h1 : tgtOf (a.toNat + (len.toNat - 1)) = .bank r n)
    (hs : len.toNat ≠ 0) (hj : s.dev.judge r n q false false = .ok) :
    exec (.paletteAccess (.read q a len) [] none) s =
      (let e := s.dev.served s.spine r n a.toNat len.toNat
       s.written s.spine (e.answered q (e.bytes a.toNat len.toNat))) :=
  paletteAccess_done s _ (readArr q a.toNat len.toNat) r n _ _ rfl rfl hq (bank_arr _ r n h0 h1 hs) (by simp)
    ((hp.bankAcc_ok q _ _ _ hj).trans (memAcc_clean _ _ _ (clean_served _ _ _ _ _ _ hc).bad))

theorem paletteWrite_ok (data : List Byte) (hc : Clean s.dev) (h1 : tgtOf (a.toNat + (data.length - 1)) = .bank r n)
    (hs : data.length ≠ 0) (hj : s.dev.judge r n q true false = .ok) :
    exec (.paletteAccess (.write q a data) [] none) s =
      s.written s.spine ((s.dev.served s.spine r n a.toNat data.length).setBytes a.toNat data) :=
  paletteAccess_done s _ (writeArr q a.toNat data) r n _ _ rfl rfl hq (bank_arr _ r n h0 h1 hs) (by simp)
    ((hp.bankAcc_ok q _ _ _ hj).trans (memAcc_write_clean _ _ _ _ (clean_served _ _ _ _ _ _ hc)))

theorem paletteWrite_refused (data : List Byte) (kind : Nat) (h1 : tgtOf (a.toNat + (data.length - 1)) = .bank r n)
    (hs : data.length ≠ 0) (hj : s.dev.judge r n q true false = .refuse kind) :
    exec (.paletteAccess (.write q a data) [] none) s = s.written s.spine (s.dev.refuse kind q a.toNat true) :=
  paletteAccess_done s _ (writeArr q a.toNat data) r n _ _ rfl rfl hq (bank_arr _ r n h0 h1 hs) (by simp)
    (hp.bankAcc_refuse q _ _ _ _ hj)
end

/-! ## Core memories -/

theorem cmemAcc_admitted (sp : Spine) (d : Dev) (k : Nat) (q : Req) (a len : Nat) (write : Bool) (data : List Byte)
    (hd : fencedDie sp a = none) (h : cmemAdmits k q = true) :
    d.cmemAcc sp k q a len write data = d.memAcc a len write data := by
  unfold Dev.cmemAcc
  simp only [hd]
  exact if_pos h
theorem cmemAcc_refused (sp : Spine) (d : Dev) (k : Nat) (q : Req) (a len : Nat) (write : Bool) (data : List Byte)
    (hd : fencedDie sp a = none) (h : cmemAdmits k q = false) :
    d.cmemAcc sp k q a len write data = (.refused, d.refuse 1 q a write) := by
  unfold Dev.cmemAcc
  simp only [hd]
  exact if_neg (by simp [h])

/-- An access that is no queued one and lies in one core memory is answered with its outcome. -/
theorem coreMemoryAccess_done (s : State) (m : MemAcc) (x : Arr) (k : Nat) (o : AccOut) (e : Dev)
    (hm : s.dev.arrival m = some x) (hf : x.from_ = none) (hq : reqGone s.spine s.dev x.q = false) (h0 : tgtOf x.a = .cmem k)
    (h1 : tgtOf (x.a + (x.size - 1)) = .cmem k) (hs : x.size ≠ 0)
    (h : s.dev.cmemAcc s.spine k x.q x.a x.n x.write x.data = (o, e)) :
    exec (.coreMemoryAccess m []) s = s.written s.spine (e.answer x o) := by
  have ha : arrives s.spine s.dev x = true := by simp [arrives, hf, hq]
  have hp : e.popArr x = e := by simp [Dev.popArr, hf]
  refine wholeCmd_written s (fun w => (w.1, cmemArrive m w.1 (w.2.upset []))) _ _ (congrArg (Prod.mk s.spine) ?_)
  show cmemArrive m s.spine s.dev = _
  unfold cmemArrive
  simp only [hm, h0, h1, ha, h, hp]
  simp [hs]

section
variable (s : State) (q : Req) (a : BitVec 42) (k : Nat) (hq : reqGone s.spine s.dev q = false) (hc : Clean s.dev)
  (hd : fencedDie s.spine a.toNat = none) (h0 : tgtOf a.toNat = .cmem k)
include hq hc hd h0

theorem coreMemoryRead (len : BitVec 7) (h1 : tgtOf (a.toNat + (len.toNat - 1)) = .cmem k) (hs : len.toNat ≠ 0)
    (ha : cmemAdmits k q = true) :
    exec (.coreMemoryAccess (.read q a len) []) s = s.written s.spine (s.dev.answered q (s.dev.bytes a.toNat len.toNat)) :=
  coreMemoryAccess_done s _ (readArr q a.toNat len.toNat) k _ _ rfl rfl hq h0 h1 hs
    ((cmemAcc_admitted _ _ k q _ _ _ _ hd ha).trans (memAcc_clean _ _ _ hc.bad))

theorem coreMemoryWrite (data : List Byte) (h1 : tgtOf (a.toNat + (data.length - 1)) = .cmem k) (hs : data.length ≠ 0) :
    exec (.coreMemoryAccess (.write q a data) []) s =
      s.written s.spine (if cmemAdmits k q then s.dev.setBytes a.toNat data else s.dev.refuse 1 q a.toNat true) := by
  have done := fun o e =>
    coreMemoryAccess_done s (.write q a data) (writeArr q a.toNat data) k o e rfl rfl hq h0 h1 hs
  split
  next ha => exact done _ _ ((cmemAcc_admitted _ _ k q _ _ _ _ hd ha).trans (memAcc_write_clean _ _ _ _ hc))
  next ha => exact done _ _ (cmemAcc_refused _ _ k q _ _ _ _ hd (by simpa using ha))
end

/-! ## HBM through BAR2 -/

/-- The HBM serves the host's access through BAR2 once the device answers it. -/
theorem unitAcc_hbm (sp : Spine) (d : Dev) (q : Req) (a len : Nat) (write : Bool) (data : List Byte) (h : tgtOf a = .hbm) :
    d.unitAcc sp q a len write data false false = d.memAcc a len write data := by
  unfold Dev.unitAcc
  simp only [h]

section
variable (s : State) (a : BitVec 34) (hh : hostFull (s.spine, s.dev) = true) (h0 : tgtOf a.toNat = .hbm) (hc : Clean s.dev)
include hh h0 hc

theorem bar2Write (data : List Byte) : exec (.bar2Access (.write data) a []) s = s.to (s.dev.setBytes a.toNat data) := by
  have h := unitAcc_hbm s.spine s.dev hostReq a.toNat data.length true data h0
  rw [memAcc_write_clean _ _ _ _ hc] at h
  show s.to (bar2Step (.write data) a.toNat s.spine s.dev) = _
  unfold bar2Step
  simp only [hh, if_true, WinOp.isWrite, WinOp.size, WinOp.data, h]

theorem bar2Read (len : BitVec 13) : exec (.bar2Access (.read len) a []) s =
    s.to { s.dev with sent := s.dev.sent ++ [.bar2 (s.dev.bytes a.toNat len.toNat) false] } := by
  have h := unitAcc_hbm s.spine s.dev hostReq a.toNat len.toNat false [] h0
  rw [memAcc_clean _ _ _ hc.bad] at h
  show s.to (bar2Step (.read len) a.toNat s.spine s.dev) = _
  unfold bar2Step
  simp only [hh, if_true, WinOp.isWrite, WinOp.size, WinOp.data, h]
  rfl
end

/-! ## The windows -/

/-- The frames of `n` bytes from a target address, none of them answered, with the next tags. -/
def Dev.fabParts (d : Dev) (target n : Nat) : List FabPart :=
  (fabSplit target n (n / 1024 + 2)).zipIdx.map fun x => { tag := (d.tag + x.2) % 65536, len := x.1, ans := none }

/-- A read of `n` bytes at a peer's target address is opened for a requester that waits for its answer. -/
def Dev.fabReading (sp : Spine) (d : Dev) (q : Req) (a n k target : Nat) : Dev :=
  ({ d with tag := (d.tag + (d.fabParts target n).length) % 65536
            fab := d.fab ++ [{ uid := q.uid.toNat, ch := q.ch.toNat, a := a, n := n, write := false, peer := k
                               parts := d.fabParts target n, tell := true }] } : Dev).fabFrames
    sp k target 0 false [] (d.fabParts target n)

section
variable (s : State) (q : Req) (a : BitVec 42) (hq : reqGone s.spine s.dev q = false)
include hq

/-- A window access that is done at once is answered with its outcome. -/
theorem hostWindowAccess_done (op : WinOp) (ext : List Byte) (o : AccOut) (e : Dev) (h0 : tgtOf a.toNat = .host)
    (ho : o ≠ .wait) (h : s.dev.hostWin q a.toNat (WinOp.size op) (WinOp.isWrite op) (WinOp.data op) ext = (o, e)) :
    exec (.hostWindowAccess q a op ext) s = s.written s.spine (e.answer (winArr q a.toNat op) o) := by
  refine wholeCmd_written s (fun w => (w.1, hostWinStep q a.toNat op ext w.1 w.2)) _ _ (congrArg (Prod.mk s.spine) ?_)
  unfold hostWinStep
  simp only [hq, h0, h]
  cases o with
  | wait => exact absurd rfl ho
  | ok _ | refused | err => rfl

theorem hostWindowRead (len : BitVec 13) (ext : List Byte) (e : Nat) (d1 : Dev) (h0 : tgtOf a.toNat = .host)
    (h3 : (d1.fnCfg (bitsOf e 6 5)).d3 = false) (hl : d1.fb F.HST_STATUS_LINK_UP = true)
    (he : s.dev.extCheck 0 q a.toNat false = (some e, d1)) :
    exec (.hostWindowAccess q a (.read len) ext) s = s.written s.spine (Dev.answered { d1 with sent := d1.sent ++
      [.hostRead (bitsOf e 6 5) (bitsOf e 21 43 * 2 ^ 21 + a.toNat % 2 ^ 21) len.toNat (bitAt e 4) (bitAt e 5)] } q
      (fitBytes len.toNat ext)) := by
  refine hostWindowAccess_done s q a hq (.read len) ext (.ok (fitBytes len.toNat ext)) _ h0 (by simp) ?_
  unfold Dev.hostWin
  simp [WinOp.isWrite, WinOp.size, he, h3, hl]

theorem hostWindowWrite (data ext : List Byte) (e : Nat) (d1 : Dev) (h0 : tgtOf a.toNat = .host)
    (h3 : (d1.fnCfg (bitsOf e 6 5)).d3 = false) (hl : d1.fb F.HST_STATUS_LINK_UP = true) (hn : data ≠ [])
    (he : s.dev.extCheck 0 q a.toNat true = (some e, d1)) :
    exec (.hostWindowAccess q a (.write data) ext) s = s.written s.spine { d1 with sent := d1.sent ++
      [.hostWrite (bitsOf e 6 5) (bitsOf e 21 43 * 2 ^ 21 + a.toNat % 2 ^ 21) (bitAt e 4) (bitAt e 5) data] } := by
  refine hostWindowAccess_done s q a hq (.write data) ext (.ok []) _ h0 (by simp) ?_
  unfold Dev.hostWin
  simp [WinOp.isWrite, WinOp.data, he, h3, hl, hn]

theorem fabricWindowAccess_done (op : WinOp) (o : AccOut) (e : Dev) (h0 : tgtOf a.toNat = .fabric) (ho : o ≠ .wait)
    (h : s.dev.fabWin s.spine q a.toNat (WinOp.size op) (WinOp.isWrite op) (WinOp.data op) true = (o, e)) :
    exec (.fabricWindowAccess q a op) s = s.written s.spine (e.answer (winArr q a.toNat op) o) := by
  refine wholeCmd_written s (fun w => (w.1, fabWinStep q a.toNat op w.1 w.2)) _ _ (congrArg (Prod.mk s.spine) ?_)
  unfold fabWinStep
  simp only [hq, h0, h]
  cases o with
  | wait => exact absurd rfl ho
  | ok _ | refused | err => rfl

/-- A window access that waits for its frames is not answered yet. -/
theorem fabricWindowAccess_waits (op : WinOp) (e : Dev) (h0 : tgtOf a.toNat = .fabric)
    (h : s.dev.fabWin s.spine q a.toNat (WinOp.size op) (WinOp.isWrite op) (WinOp.data op) true = (.wait, e)) :
    exec (.fabricWindowAccess q a op) s = s.written s.spine e := by
  refine wholeCmd_written s (fun w => (w.1, fabWinStep q a.toNat op w.1 w.2)) _ _ (congrArg (Prod.mk s.spine) ?_)
  unfold fabWinStep
  simp only [hq, h0, h]
  simp

/-- A read through the fabric window of a peer that is down meets an error. -/
theorem fabricWindowRead_down (len : BitVec 13) (e k : Nat) (d1 : Dev) (h0 : tgtOf a.toNat = .fabric)
    (he : s.dev.extCheck 1 q a.toNat false = (some e, d1)) (hk : d1.peerOf (bitsOf e 4 14) = some k)
    (hu : d1.peerUp k = false) :
    exec (.fabricWindowAccess q a (.read len)) s = s.written s.spine
      { d1 with sent := d1.sent ++ [.rsp q.uid.toNat q.ch.toNat [] true] } := by
  refine fabricWindowAccess_done s q a hq (.read len) .err d1 h0 (by simp) ?_
  unfold Dev.fabWin
  simp [WinOp.isWrite, he, hk, hu]

/-- A read through the fabric window of a peer that is up opens a request, whose frames are sent. -/
theorem fabricWindowRead_up (len : BitVec 13) (e k : Nat) (d1 : Dev) (h0 : tgtOf a.toNat = .fabric)
    (he : s.dev.extCheck 1 q a.toNat false = (some e, d1)) (hk : d1.peerOf (bitsOf e 4 14) = some k)
    (hu : d1.peerUp k = true) :
    exec (.fabricWindowAccess q a (.read len)) s = s.written s.spine
      (d1.fabReading s.spine q a.toNat len.toNat k (bitsOf e 21 21 * 2 ^ 21 + a.toNat % 2 ^ 21)) := by
  refine fabricWindowAccess_waits s q a hq (.read len) _ h0 ?_
  unfold Dev.fabWin
  simp [WinOp.isWrite, WinOp.size, WinOp.data, he, hk, hu, Dev.fabReading, Dev.fabParts]
end

end Sys2Proof.Machine

namespace Sys2Proof.Proofs
open Sys2Proof.Machine Sys2Proof.Laws

/-- Settles O42: each memory and window is what its own law above says. -/
theorem memoryArrivals : Obligations.MemoryArrivals := by
  intro s q hq hc
  refine ⟨fun a len data r n hf hu hon hw h0 => ?bank, fun a len data k hf h0 => ?cmem, fun a len data hh h0 => ?hbm,
    fun a len data ext e d1 h0 h3 hl => ?host, fun a len e k d1 h0 he hk => ?fabric⟩
  case bank =>
    have hp : s.dev.PortOpen s.spine r n a.toNat := { fence := hf, unit := hu, on := hon, waiting := hw }
    exact ⟨paletteRead_ok s q a r n hq hp h0 len hc, fun h1 hs => ⟨paletteWrite_ok s q a r n hq hp h0 data hc h1 hs,
      fun kind => paletteWrite_refused s q a r n hq hp h0 data kind h1 hs⟩⟩
  case cmem => exact ⟨coreMemoryRead s q a k hq hc hf h0 len, coreMemoryWrite s q a k hq hc hf h0 data⟩
  case hbm => exact ⟨bar2Write s a hh h0 hc data, bar2Read s a hh h0 hc len⟩
  case host => exact ⟨hostWindowRead s q a hq len ext e d1 h0 h3 hl, hostWindowWrite s q a hq data ext e d1 h0 h3 hl⟩
  case fabric =>
    exact ⟨fabricWindowRead_down s q a hq len e k d1 h0 he hk, fabricWindowRead_up s q a hq len e k d1 h0 he hk⟩

end Sys2Proof.Proofs

/-! Proofs of the statements about boot, modes, mailbox, registers of the air, fronthaul and host link: O33, O36, O37, O38,
O47, O50 and O57. -/

namespace Sys2Proof.Machine
open Sys2Proof.Laws

/-! ## Register values at reset -/

/-- The reset value of a register in a block whose rows alone give it. -/
theorem cellReset_row (a o n : Nat) (b : Blk) (hb : blkOf a = some (b, o)) (ha : a < 0x40000000000)
    (hf : (findReg (blkRegs b) o).map (·.1.reset) = some n)
    (hp : (match b with
      | .palr _ | .eslr _ | .evt => false
      | _ => true) = true) : cellReset a = BitVec.ofNat 32 n := by
  obtain ⟨⟨r, i⟩, hr, rfl⟩ := Option.map_eq_some_iff.mp hf
  unfold cellReset regReset
  rw [if_neg (by omega), hb]
  simp only [hr]
  cases b with
  | palr | eslr | evt => simp at hp
  | _ => rfl

theorem blkBase_palr (r : Nat) : blkBase (.palr r) = 0x01000000000 + r * 0x10000000 + 0x0F060000 := rfl

theorem findReg_owner (n : Nat) (hn : n < 52) : ∃ r, findReg palrRegs (n * 4) = some r := by
  simp only [palrRegs, palrRegs0, List.cons_append, findReg]
  rw [if_pos (by omega)]
  exact ⟨_, rfl⟩

/-- A bank's owner at reset is its region's dispatcher (R245). -/
theorem cellReset_palr (a r o : Nat) (x : RegSpec × Nat) (hb : blkOf a = some (.palr r, o)) (ha : a < 0x40000000000)
    (hf : findReg palrRegs o = some x) (ho : o < 0xD0) : cellReset a = BitVec.ofNat 32 (dispatcherUid r) := by
  unfold cellReset regReset
  rw [if_neg (by omega), hb]
  simp only [blkRegs, hf]
  rw [if_pos ho]

theorem cellReset_owner (r n : Nat) (hr : r < 16) (hn : n < 52) :
    cellReset (blkBase (.palr r) + n * 4) = BitVec.ofNat 32 (dispatcherUid r) := by
  obtain ⟨x, hf⟩ := findReg_owner n hn
  have ha := blkBase_palr r
  exact cellReset_palr _ r (n * 4) x (blkOf_palr r (n * 4) hr (by omega)) (by omega) hf (by omega)

theorem cellReset_core (k o n : Nat) (hk : k < 384) (ho : o < 0x1000)
    (hf : (findReg coreRegs o).map (·.1.reset) = some n) : cellReset (coreBase k + o) = BitVec.ofNat 32 n := by
  refine cellReset_row _ o n (.core k) (Proofs.blkOf_core k o hk ho) ?_ hf rfl
  unfold coreBase regionBase
  rw [if_pos hk]
  omega

theorem findReg_func (n : Nat) (hn : n < 134) : (findReg gsoRegs (0x1000 + n * 4)).map (·.1.reset) = some 0 := by
  simp only [gsoRegs, gsoRegs0, gsoRegs1, List.cons_append, List.nil_append, findReg]
  repeat rw [if_neg (by omega)]
  rw [if_pos (by omega)]
  rfl

theorem cellReset_func (n : Nat) (hn : n < 134) : cellReset (F.GSO_FUNC_STATE n).addr = 0 := by
  have ha : (F.GSO_FUNC_STATE n).addr = 0x02010000000 + 0x1000 + n * 4 := rfl
  exact cellReset_row _ (0x1000 + n * 4) 0 .gso
    (blkOf_hub_at (0x1000 + n * 4) _ _ _ (by omega) (by omega) (by omega) (by rw [if_pos (by omega)])) (by omega)
    (findReg_func n hn) rfl
theorem dispatcherUid_lt (r : Nat) (hr : r < 16) : dispatcherUid r < 2 ^ 12 := mkUid_lt _ _ _ _ (by omega) (by omega) (by omega) (by omega)

/-- A field of a register whose reset value is known. -/
theorem f_reset (x : Fld) (v : Word) (n : Nat) (h : cellReset x.addr = v) (hv : bitsOf v.toNat x.lo x.w = n) :
    Dev.reset.f x = n := by
  subst h hv
  rfl
end Sys2Proof.Machine

namespace Sys2Proof.Proofs
open Sys2Proof.Machine Sys2Proof.Laws

/-- A bank's owner and pending bit at reset. -/
theorem reset_owner (r : Fin 16) (n : Fin 52) : Dev.reset.f (F.PAL_OWNER_OWNER r n) = dispatcherUid r ∧
    Dev.reset.f (F.PAL_OWNER_PEND r n) = 0 := by
  obtain ⟨u, hu, hd⟩ : ∃ u : Nat, u < 2 ^ 12 ∧ dispatcherUid r = u := ⟨_, dispatcherUid_lt r r.isLt, rfl⟩
  rw [hd]
  have h := cellReset_owner r n r.isLt n.isLt
  rw [hd] at h
  have hv : (BitVec.ofNat 32 u).toNat = u := Nat.mod_eq_of_lt (by omega)
  exact ⟨f_reset (F.PAL_OWNER_OWNER r n) _ _ h (by simp only [F.PAL_OWNER_OWNER, bitsOf, hv]; omega),
    f_reset (F.PAL_OWNER_PEND r n) _ _ h (by simp only [F.PAL_OWNER_PEND, bitsOf, hv]; omega)⟩

/-- A core at reset: VL 64, halted, at M level. -/
theorem reset_core (k : Fin 384) : Dev.reset.f (F.VEC_VL_VL k) = 64 ∧ Dev.reset.fb (F.CORE_CTRL_HALTED k) = true ∧
    Dev.reset.f (F.CORE_STATUS_PRIV k) = 3 := by
  have h := fun o n ho hf => cellReset_core k o n k.isLt ho hf
  exact ⟨f_reset (F.VEC_VL_VL k) _ _ (h 0x400 0x40 (by omega) rfl) (by simp [bitsOf, F.VEC_VL_VL]),
    beq_iff_eq.mpr (f_reset (F.CORE_CTRL_HALTED k) _ _ (h 4 2 (by omega) rfl) (by simp [bitsOf, F.CORE_CTRL_HALTED])),
    f_reset (F.CORE_STATUS_PRIV k) _ _ (h 8 3 (by omega) rfl) (by simp [bitsOf, F.CORE_STATUS_PRIV])⟩

/-- Settles O57: the named registers hold what their blocks' rows reset them to. -/
theorem resetState : Obligations.ResetState := by
  refine ⟨rfl, rfl, rfl, rfl, rfl, by decide, by decide, by decide, by decide, reset_core, fun n => ?_, fun i => rfl, reset_owner⟩
  exact f_reset (F.GSO_FUNC_STATE n) _ _ (cellReset_func n n.isLt) (by simp [bitsOf])
end Sys2Proof.Proofs

namespace Sys2Proof.Machine
open Sys2Proof.Laws

/-! ## Commands that complete with the spine as it was -/

/-- What a command on the whole block answers that leaves the spine. -/
theorem wholeCmd_to (s : State) (f : Whole → Whole) (d : Dev) (h : f (s.spine, s.dev) = (s.spine, d)) : wholeCmd s f = s.to d :=
  wholeCmd_whole s f _ _ h
/-- Hub firmware acts while no package fault holds the device. -/
theorem firmware_acts (w : Whole) (f : Whole → Whole) (h : w.1.contain.pkg = 0) : firmware w f = f w := if_pos h

/-! ## What keeps the boot's state -/

/-- A fold of steps that each keep something keeps it. -/
theorem foldl_keeps {α β γ : Type} (g : β → γ) (f : β → α → β) (l : List α) (b : β) (h : ∀ b, ∀ x ∈ l, g (f b x) = g b) :
    g (l.foldl f b) = g b := by
  induction l generalizing b with
  | nil => rfl
  | cons x l ih =>
    exact (ih (f b x) fun c y hy => h c y (.tail _ hy)).trans (h b x (.head _))

section
variable (sp : Spine) (d : Dev)
@[simp] theorem servoState_boot (n : Nat) : (d.servoState n).boot = d.boot := by
  unfold Dev.servoState
  dsimp only
  split_ifs <;> rfl
@[simp] theorem setRate_boot (y : Int) : (d.setRate y).boot = d.boot := by
  unfold Dev.setRate
  dsimp only
  split <;> rfl
@[simp] theorem setCause_boot (n : Nat) : (d.setCause n).boot = d.boot := by
  unfold Dev.setCause
  split <;> simp
@[simp] theorem acquire_boot : (d.acquire sp).boot = d.boot := servoState_boot _ _
@[simp] theorem clearCause_boot (n : Nat) : (d.clearCause sp n).boot = d.boot := by
  unfold Dev.clearCause
  dsimp only
  generalize (if bitAt (d.f F.TB_STATUS_HCAUSE) n then _ else _ : Nat) = h
  split
  · exact acquire_boot _ _
  · rfl
@[simp] theorem refLost_boot : d.refLost.boot = d.boot := setCause_boot _ _
@[simp] theorem synce_boot (link : Bool) : (d.synce link).boot = d.boot := by
  unfold Dev.synce
  dsimp only
  split_ifs <;> simp
@[simp] theorem showSafe_boot : d.showSafe.boot = d.boot := by
  unfold Dev.showSafe
  dsimp only
  split <;> rfl
@[simp] theorem modAgain_boot (m : Nat) : (d.modAgain sp m).boot = d.boot := by
  unfold Dev.modAgain
  split <;> rfl
end

/-- The functions that may run in DORMANT are the ports, the servo and the trim outputs (R80). -/
theorem fnMayRun_dormant (n : Nat) (h : fnMayRun n 0 = true) : 112 ≤ n ∧ n ≠ 129 := by
  have ht : fnTraffic n = false := by
    by_contra hc
    simp [fnMayRun, hc, within] at h
  simp only [fnTraffic, Bool.or_eq_false_iff, decide_eq_false_iff_not, beq_eq_false_iff_ne] at ht
  omega

/-- The start of a port, the servo or a trim output keeps the boot's state. -/
theorem tryStart_boot (sp : Spine) (d : Dev) (n : Nat) (h : 112 ≤ n ∧ n ≠ 129) : (d.tryStart sp n).2.boot = d.boot := by
  have hc : d.startCheck n = (true, d) := by
    unfold Dev.startCheck
    rw [if_neg (by omega), if_neg (by omega), if_neg h.2]
  have hs : (d.fnStart sp n).boot = d.boot := by
    unfold Dev.fnStart
    rw [if_neg (by omega), if_neg (by omega)]
    dsimp only
    split_ifs
    · exact synce_boot _ _
    · exact clearCause_boot _ _ _
    · exact absurd ‹n = 129› h.2
    · rfl
  unfold Dev.tryStart
  split
  · rw [hc]
    unfold Dev.startFn
    dsimp only
    rw [if_pos rfl]
    split_ifs
    · rfl
    · rfl
    · exact hs
  · rfl

theorem autoFns_boot (sp : Spine) (d : Dev) : (d.autoFns sp).boot = d.boot := by
  refine (showSafe_boot _).trans (foldl_keeps Dev.boot _ _ _ fun e n _ => ?_)
  split
  next h =>
    simp only [Bool.and_eq_true] at h
    obtain ⟨⟨hm, -⟩, -⟩ := h
    exact tryStart_boot _ _ _ (fnMayRun_dormant n hm)
  next => rfl

/-! ## The steps of the boot -/

section
variable (sp : Spine) (d : Dev)
theorem powerGood_off (latch key : Bool) (h0 : d.boot.at_ = .off) (h1 : d.boot.again = false) (h2 : d.boot.rstLow = false) :
    d.powerGood sp latch key = ((d.setF F.LC_STATUS_LATCH (b2n latch)).setF F.LC_STATUS_KEY (b2n key)).bootStart sp.now := by
  unfold Dev.powerGood
  rw [if_pos ⟨h0, h1⟩, if_neg (by simp [h2])]

theorem resetRelease_off (h0 : d.boot.at_ = .off) (h1 : d.boot.rstLow = true) : d.resetRelease sp =
    ({ d with boot := { d.boot with rstLow := false } } : Dev).bootStart (if d.boot.again then d.boot.since else sp.now) := by
  unfold Dev.resetRelease
  rw [if_pos h1, if_pos h0]

/-- A full reset starts where the device has left power-up and none has started: its cause and its time are recorded. -/
theorem startReset_boot (cause : Nat) (h0 : d.boot.at_ ≠ .off) (h1 : d.boot.rst = none) :
    (d.startReset sp cause).boot = { d.boot with rst := some cause, due := false, since := sp.now } := by
  unfold Dev.startReset
  rw [if_neg (by simp [h0, h1])]
  simp

theorem candidate_accepts (c : Nat) (err : Option Nat) (h0 : d.boot.at_ = .load c) (hv : d.verify (d.candSlot c) err = none) :
    d.candidate err = d.candAccept c (d.candSlot c) := by
  unfold Dev.candidate
  simp only [h0, hv]
theorem candidate_rejects (c code off : Nat) (err : Option Nat) (h0 : d.boot.at_ = .load c)
    (hv : d.verify (d.candSlot c) err = some (code, off)) : d.candidate err =
      (let d1 := (d.clearSegms (imgBase (d.candSlot c)) off).imgReject code
       if 2 ≤ c then d1.noImage else { d1 with boot := { d1.boot with at_ := .load (c + 1) } }) := by
  unfold Dev.candidate
  simp only [h0, hv]

theorem f_withBoot (b : Boot) (x : Fld) : ({ d with boot := b } : Dev).f x = d.f x := rfl

/-- Once the layers are applied the boot stands behind them, and PHASE shows it. -/
theorem layerApply_verified (h : d.boot.at_ = .verified) :
    d.layerApply.boot.at_ = .layers ∧ d.layerApply.f F.GSO_BOOT_STATUS_PHASE = 5 := by
  unfold Dev.layerApply
  rw [if_pos h]
  refine ⟨rfl, ?_⟩
  rw [f_withBoot, f_setF_same _ _ _ (by decide)]
  rfl

theorem dormantReached_layers (h : d.boot.at_ = .layers) : (d.dormantReached sp).boot.at_ = .dormant := by
  unfold Dev.dormantReached
  rw [if_pos h]
  dsimp only
  rw [autoFns_boot, foldl_keeps Dev.boot _ _ _ fun e m _ => modAgain_boot sp e m, raise_boot,
    foldl_keeps Dev.boot _ _ _ fun e n _ => by split <;> rfl]

theorem autoStart_due (h0 : d.boot.autoDue = true) (h1 : d.servoGood = true) (h2 : d.mode = 0)
    (h3 : d.fb F.HST_STATUS_DORMANT = true) : d.autoStart sp =
      d.enterRunning sp (if d.fb F.GSO_POLICY_COMMISSION_AT_START then 1 else d.runMode) true := by
  unfold Dev.autoStart
  rw [if_pos (by simp [h0, h1, h2, h3])]
  split <;> rfl

theorem fullReset_started (x : Nat) (h : d.boot.rst = some x) : fullReset (sp, d) =
    ({ sp with contain := Contain.none }, if d.aonKept.boot.rstLow then d.aonKept else d.aonKept.bootStart d.boot.since) := by
  unfold fullReset
  rw [if_pos (by simp [h])]
end

end Sys2Proof.Machine

namespace Sys2Proof.Proofs
open Sys2Proof.Machine Sys2Proof.Laws

/-- Settles O36: each step of the boot from the state in which it acts; a full reset starts as its trigger records it. -/
theorem bootSteps : Obligations.BootSteps := by
  intro s
  refine ⟨fun latch key h0 h1 h2 => congrArg s.to (powerGood_off _ _ latch key h0 h1 h2),
    fun h0 h1 => congrArg s.to (resetRelease_off _ _ h0 h1), fun h0 h1 => ?resetAssert,
    fun c err h0 => ⟨fun hv => congrArg s.to (candidate_accepts _ c _ h0 hv),
      fun code off hv => congrArg s.to (candidate_rejects _ c code off _ h0 hv)⟩,
    fun h => ⟨_, rfl, layerApply_verified _ h⟩, fun h => ⟨_, rfl, dormantReached_layers _ _ h⟩,
    fun hp h0 h1 h2 h3 => ?autoStart, fun hp hf h0 h1 => ?timer, fun hd h0 h1 => ?delay,
    fun x h => wholeCmd_whole s _ _ _ (fullReset_started _ _ x h), ⟨_, rfl, rfl, rfl, rfl, rfl, rfl, rfl⟩⟩
  case resetAssert =>
    have hb := startReset_boot s.spine { s.dev with boot := { s.dev.boot with rstLow := true } } 1 h0 h1
    exact ⟨_, rfl, congrArg Boot.rst hb, congrArg Boot.since hb⟩
  case autoStart =>
    exact wholeCmd_to s _ _ ((firmware_acts _ _ hp).trans (congrArg (Prod.mk _) (autoStart_due _ _ h0 h1 h2 h3)))
  case timer =>
    have he : Dev.pkgReset s.spine s.dev = s.dev.startReset s.spine 4 := if_pos ⟨hp, hf⟩
    exact ⟨_, rfl, congrArg Boot.rst ((congrArg Dev.boot he).trans (startReset_boot s.spine s.dev 4 h0 h1))⟩
  case delay =>
    have he : Dev.resetDelay s.spine s.dev = Dev.startReset _ _ 2 := if_pos hd
    have hb := (congrArg Dev.boot he).trans
      (startReset_boot s.spine { s.dev with boot := { s.dev.boot with due := false } } 2 h0 h1)
    exact ⟨_, rfl, congrArg Boot.rst hb, congrArg Boot.due hb⟩

end Sys2Proof.Proofs

namespace Sys2Proof.Machine
open Sys2Proof.Laws

/-! ## Mailbox commands -/

/-- The device has reached DORMANT where it answers the host in full. -/
theorem dormant_of_full (sp : Spine) (d : Dev) (h : hostFull (sp, d) = true) : d.fb F.HST_STATUS_DORMANT = true := by
  simp only [hostFull, Bool.and_eq_true] at h
  obtain ⟨⟨-, hd⟩, -⟩ := h
  exact hd

/-- The command at the front of the mailboxes, with no stray argument, ends with what it answers. -/
theorem mbCmd_ends (s : State) (f cmd : Nat) (run : Spine → Nat → Dev → Nat × List Nat × Dev) (status : Nat) (res : List Nat)
    (e : Dev) (ho : hostFull (s.spine, s.dev) = true) (hf : s.dev.mbFront cmd = some f ∧ s.dev.mbArgsOk f cmd = true)
    (hr : run s.spine f s.dev = (status, res, e)) : mbCmd cmd run s = s.to ((e.mbDone f status res).mbSettle 18) := by
  obtain ⟨hfront, hargs⟩ := hf
  have hm : mbOpen s.spine s.dev cmd = true := by simp [mbOpen, ho]
  refine congrArg s.to ?_
  unfold Dev.mbRun
  simp only [hfront, hargs, hm, if_true, hr]

section
variable (sp : Spine) (d : Dev) (f n : Nat)

theorem stageImage_next (chunk : List Byte) (hc : d.boot.committed = false) (h0 : 0 < d.mbArg f 3) (hm : d.mbArg f 3 ≤ 2 ^ 24)
    (ha : d.mbArg f 3 % 256 = 0) (h1 : bitAt (d.mbArg f 4) 0 = false) (ho : d.mbArg f 2 = d.f F.HST_STAGE_BYTES)
    (hs : d.mbArg f 2 + d.mbArg f 3 ≤ slotSize) : d.stageImage f chunk false =
      (let off := d.mbArg f 2
       let len := d.mbArg f 3
       let b := imgBase d.stageSlot
       let d2 : Dev := { d with
         boot := { d.boot with staged := d.stageSlot }
         sent := d.sent ++ [.hostRead f (d.mbArg f 0 + d.mbArg f 1 * 2 ^ 32) len false false] }
       let d3 := (d2.flashProg (b + off) (fitBytes len chunk)).setF F.HST_STAGE_BYTES (off + len)
       (0, [off + len], if d3.hdr b 0xC 4 ≤ off + len then d3.setF F.HST_STAGE_COMPLETE 1 else d3)) := by
  unfold Dev.stageImage
  simp only [hc, h1, Bool.false_eq_true, if_false]
  rw [if_neg (by omega)]

theorem commitImage_verified (err : Option Nat) (h0 : d.fb F.HST_STAGE_COMPLETE = true) (h1 : d.boot.committed = false)
    (h2 : d.markFull = false) (hv : d.verify d.boot.staged err = none) : d.commitImage false err =
      (let d1 := (d.writeMark d.boot.staged).setF F.HST_STAGE_COMPLETE 0
       (0, [d.newestSeq + 1], { d1 with boot := { d1.boot with committed := true } })) := by
  unfold Dev.commitImage
  simp [h0, h1, h2, hv]

/-- A mode other than the present running one is entered through DRAIN (R70). -/
theorem modeRequest_drains (h : d.fb F.HST_STATUS_DORMANT = true) (hn : n < 6) (hm : n ≠ d.mode) (h0 : d.mode ≠ 0)
    (h5 : d.mode ≠ 5) (hg : n = 0 ∨ n = 5 ∨ d.servoGood = true) (hh : d.f F.GSO_MODE_HOLD_DRAIN = 0) (h1 : n ≠ 1) :
    d.modeRequest sp n = (0, d.enterDrain sp n (if n = 5 then 1 else 0)) := by
  have hw : (within 1 4 n && !d.servoGood) = false := by
    rcases hg with rfl | rfl | hg
    · rfl
    · rfl
    · simp [hg]
  have hd : d.fb F.GSO_MODE_HOLD_DRAIN = false := by simp [Dev.fb, hh]
  unfold Dev.modeRequest
  dsimp only
  rw [if_neg (by omega), if_neg (by simp [h, hw, hd, h0, h1]), if_neg (by simp [h5]), if_neg (Ne.symm hm), if_neg h5, if_neg h0]

theorem functionStop_running (h : d.fb F.HST_STATUS_DORMANT = true) (hn : n < 134) (hs : d.fnState n = 3) :
    d.functionStop sp n = (0, ((d.setF (F.GSO_FUNC_RESUME n) 0).fnStopping sp n).carrSettle sp) := by
  unfold Dev.functionStop
  rw [if_neg (by omega), if_neg (by simp [h, hs, Dev.fnActive, within]), if_neg (by omega)]

theorem functionStart_passes (e : Dev) (h : d.fb F.HST_STATUS_DORMANT = true) (hn : n < 134) (hs : d.fnState n = 1)
    (hm : fnMayRun n d.mode = true) (h5 : d.mode ≠ 5) (hc : d.startCheck n = (true, e)) :
    d.functionStart sp n = (0, e.startFn sp n) := by
  unfold Dev.functionStart
  rw [if_neg (by omega), if_neg (by simp [h, hs, hm, h5]), hc]
  rfl

/-- The read of a FUNCTION_CONFIG's records is sent, if there are any. -/
theorem configRead_open (how cnt : Nat) (hn : n < 134) (hh : how < 2) (hc : cnt ≤ 4096) (hs : d.fnState n < 2) :
    d.configRead f n how cnt = if cnt = 0 then d
      else { d with sent := d.sent ++ [.hostRead f (d.mbArg f 2 + d.mbArg f 3 * 2 ^ 32) (16 * cnt) false false] } := by
  unfold Dev.configRead
  by_cases h0 : cnt = 0
  · rw [if_neg (by omega), if_pos h0]
  · rw [if_pos ⟨hn, hh, hc, hs, h0⟩, if_neg h0]

/-- FUNCTION_CONFIG of a function that is ABSENT or STOPPED: the host's memory fails, a record names another field, or the
records are applied. -/
theorem functionConfig_open (how cnt : Nat) (recs : List Byte) (fail : Bool) (h : d.fb F.HST_STATUS_DORMANT = true) (hn : n < 134)
    (hh : how < 2) (hc : cnt ≤ 4096) (hs : d.fnState n < 2) : d.functionConfig n how cnt recs fail =
      if fail then (5, 0, d)
      else
        (let l := recsOf cnt recs
         let done := l.foldl (fun e r => e.cfgWrite r.addr (r.onto (e.reg r.addr))) (if d.fnState n = 0 then d.setFnState n 1 else d)
         if l.all fun r => d.recOfFn n r then (0, cnt, if how = 1 then done.setFnState n 0 else done) else (3, 0, d)) := by
  unfold Dev.functionConfig
  rw [if_neg (by omega), if_neg (by simp [h]; omega)]

theorem traceControl_esl (h : bitAt (d.mbArg f 0) 1 = false) : d.traceControl f =
    (0, [], { d.plainWrite F.ESL_TRC_CTRL_EN.addr (BitVec.ofNat 32 (d.mbArg f 0)) with tracePair := d.mbArg f 1 }) := by
  unfold Dev.traceControl
  simp only [h, Bool.false_eq_true, false_and, if_false]

theorem triggerSet_inRange (h0 : d.f F.HST_TRIG_RANGE_FIRST ≤ d.mbArg f 0)
    (h1 : d.mbArg f 0 < d.f F.HST_TRIG_RANGE_FIRST + d.f F.HST_TRIG_RANGE_COUNT) (h2 : d.mbArg f 0 < 256) : d.triggerSet sp f =
      (let n := d.mbArg f 0
       let w := fun (d : Dev) (x : Fld) (v : Nat) => d.plainWrite x.addr (BitVec.ofNat 32 v)
       let d1 := w (w (w (d.trigDisarm n) (F.TB_TRIG_SEC_LO_SEC n) (d.mbArg f 1)) (F.TB_TRIG_SEC_HI_SEC n) (d.mbArg f 2))
         (F.TB_TRIG_NS_NS n) (d.mbArg f 3)
       let d2 := w (w (w (w d1 (F.TB_TRIG_ARG_CODE n) (d.mbArg f 5)) (F.TB_TRIG_LATE_NS n) (d.mbArg f 6))
         (F.TB_TRIG_PERIOD_PERIOD_NS n) (d.mbArg f 7)) (F.TB_TRIG_CTRL_EN n) (d.mbArg f 4)
       let d3 := if bitAt (d.mbArg f 4) 0 then d2.trigArm sp n else d2
       (0, [(d3.reg (F.TB_TRIG_STAT_STATE n).addr).toNat], d3)) := by
  unfold Dev.triggerSet
  exact if_neg (by omega)

theorem attest_chain (h3 : d.mbArg f 3 = 0) (h2 : Config.certChain.length ≤ d.mbArg f 2) : d.attest f false false =
    (0, [Config.certChain.length], { d with
      sent := d.sent ++ [.hostWrite f (d.mbArg f 0 + d.mbArg f 1 * 2 ^ 32) false false Config.certChain] }) := by
  unfold Dev.attest
  simp [h3, Nat.not_lt.mpr h2]
end

end Sys2Proof.Machine

namespace Sys2Proof.Proofs
open Sys2Proof.Machine Sys2Proof.Laws

section
variable (s : State) (f : Nat) (ho : hostFull (s.spine, s.dev) = true) (recs : List Byte)
  (hf : s.dev.mbFront 7 = some f ∧ s.dev.mbArgsOk f 7 = true) (hn : s.dev.mbArg f 0 < 134) (hh : s.dev.mbArg f 1 < 2)
  (hc : s.dev.mbArg f 4 ≤ 4096) (hs : s.dev.fnState (s.dev.mbArg f 0) < 2) (e : Dev)
  (he : s.dev.configRead f (s.dev.mbArg f 0) (s.dev.mbArg f 1) (s.dev.mbArg f 4) = e)
include ho hf hn hh hc hs he

/-- FUNCTION_CONFIG of a function that is ABSENT or STOPPED, after the read of its records. -/
theorem functionConfig_ends (fail : Bool) (st cnt : Nat) (e' : Dev) (hx : (if fail then (5, 0, e) else
      (let n := s.dev.mbArg f 0
       let l := recsOf (s.dev.mbArg f 4) (fitBytes (16 * s.dev.mbArg f 4) recs)
       let done := l.foldl (fun e r => e.cfgWrite r.addr (r.onto (e.reg r.addr)))
         (if s.dev.fnState n = 0 then e.setFnState n 1 else e)
       if l.all fun r => e.recOfFn n r then
         (0, s.dev.mbArg f 4, if s.dev.mbArg f 1 = 1 then done.setFnState n 0 else done) else (3, 0, e))) = (st, cnt, e')) :
    exec (.functionConfig recs fail) s = s.to ((e'.mbDone f st [cnt]).mbSettle 18) := by
  have hr : e.regs = s.dev.regs := by
    subst he
    unfold Dev.configRead
    split <;> rfl
  have hst : ∀ n, e.fnState n = s.dev.fnState n := fun n => f_congr _ _ hr _
  have hd : e.fb F.HST_STATUS_DORMANT = true := (fb_congr _ _ hr _).trans (dormant_of_full _ _ ho)
  show execFunctionConfig recs fail s = _
  rw [execFunctionConfig]
  refine mbCmd_ends s f 7 _ _ _ _ ho hf ?_
  dsimp only
  rw [he, functionConfig_open _ _ _ _ _ _ hd hn hh hc (by rw [hst]; exact hs), hst, hx]

/-- Its three ends: the host's memory fails, a record names another field, or the records are applied. -/
theorem functionConfig_three : exec (.functionConfig recs true) s = s.to ((e.mbDone f 5 [0]).mbSettle 18) ∧
    (let n := s.dev.mbArg f 0
     let l := recsOf (s.dev.mbArg f 4) (fitBytes (16 * s.dev.mbArg f 4) recs)
     let done := l.foldl (fun e r => e.cfgWrite r.addr (r.onto (e.reg r.addr)))
       (if s.dev.fnState n = 0 then e.setFnState n 1 else e)
     ((∃ r ∈ l, e.recOfFn n r = false) →
       exec (.functionConfig recs false) s = s.to ((e.mbDone f 3 [0]).mbSettle 18)) ∧
     ((∀ r ∈ l, e.recOfFn n r = true) → exec (.functionConfig recs false) s =
       s.to (((if s.dev.mbArg f 1 = 1 then done.setFnState n 0 else done).mbDone f 0 [s.dev.mbArg f 4]).mbSettle 18))) := by
  have ends := functionConfig_ends s f ho recs hf hn hh hc hs e he
  refine ⟨ends true _ _ _ (if_pos rfl), ?_, ?_⟩
  · rintro ⟨r, hr, hbad⟩
    exact ends false _ _ _ ((if_neg (by decide)).trans (if_neg fun ha => by
      simp [List.all_eq_true.mp ha r hr] at hbad))
  · intro hok
    exact ends false _ _ _ ((if_neg (by decide)).trans (if_pos (List.all_eq_true.mpr hok)))
end

/-- Settles O37: each command is at the front, may act, and ends with what its own law answers. -/
theorem mailboxCommands : Obligations.MailboxCommands := by
  intro s f ho
  have hd := dormant_of_full _ _ ho
  refine ⟨fun hf => ?status,
    fun chunk hf hc h0 hm ha h1 hof hsz => ?stage, fun err hf h0 h1 h2 hv => ?commit,
    fun hf hn hm h0 h5 hg hh h1 => ?mode, fun hf hn hs => ?stop, fun e hf hn hs hm h5 hc => ?start,
    fun recs hf hn hh hc hs => ?config, fun hf => ?reset, fun hf h => ?trace,
    fun hf h0 h1 h2 => ?trigger, fun hf h3 h2 => ?attest⟩
  case status =>
    show execGetStatus s = _
    rw [execGetStatus]
    exact mbCmd_ends s f 1 _ _ _ _ ho hf rfl
  case stage =>
    show execStageImage chunk false s = _
    rw [execStageImage]
    exact mbCmd_ends s f 2 _ _ _ _ ho hf (stageImage_next _ f chunk hc h0 hm ha h1 hof hsz)
  case commit =>
    show execCommitImage false err s = _
    rw [execCommitImage]
    exact mbCmd_ends s f 3 _ _ _ _ ho hf (commitImage_verified _ _ h0 h1 h2 hv)
  case mode =>
    show execModeRequest s = _
    rw [execModeRequest]
    refine mbCmd_ends s f 4 _ _ _ _ ho hf ?_
    dsimp only
    rw [modeRequest_drains s.spine s.dev _ hd hn hm h0 h5 hg hh h1]
  case stop =>
    show execFunctionStop s = _
    rw [execFunctionStop]
    refine mbCmd_ends s f 5 _ _ _ _ ho hf ?_
    dsimp only
    rw [functionStop_running s.spine s.dev _ hd hn hs]
  case start =>
    show execFunctionStart s = _
    rw [execFunctionStart]
    refine mbCmd_ends s f 6 _ _ _ _ ho hf ?_
    dsimp only
    rw [functionStart_passes s.spine s.dev _ e hd hn hs hm h5 hc]
  case config =>
    exact functionConfig_three s f ho recs hf hn hh hc hs _ (configRead_open s.dev f _ _ _ hn hh hc hs)
  case reset =>
    show execFullReset s = _
    rw [execFullReset]
    exact mbCmd_ends s f 8 _ _ _ _ ho hf rfl
  case trace =>
    show execTraceControl s = _
    rw [execTraceControl]
    exact mbCmd_ends s f 9 _ _ _ _ ho hf (traceControl_esl _ f h)
  case trigger =>
    show execTriggerSet s = _
    rw [execTriggerSet]
    exact mbCmd_ends s f 10 _ _ _ _ ho hf (triggerSet_inRange s.spine _ f h0 h1 h2)
  case attest =>
    show execAttest false false s = _
    rw [execAttest]
    exact mbCmd_ends s f 11 _ _ _ _ ho hf (attest_chain _ f h3 h2)

end Sys2Proof.Proofs

namespace Sys2Proof.Machine
open Sys2Proof.Laws

section
variable (sp : Spine) (d : Dev)

/-! ## Drain and the watchdogs -/

/-- The completion of a drain that no step of the time waits for: the target is entered at once. -/
theorem drainComplete_enters (h : (((d.setF F.GSO_MODE_DRAINING 0).raise evGsoDrainDone gsoUid).clearCause sp 2).fb
      F.TB_STATUS_JUMP_PEND = false) : drainComplete sp d =
      (sp, (((d.setF F.GSO_MODE_DRAINING 0).raise evGsoDrainDone gsoUid).clearCause sp 2).enterTarget sp) := by
  unfold drainComplete
  dsimp only
  rw [h]
  rfl

theorem drainLate_iff : d.drainLate sp = true ↔ d.f F.GSO_DRAIN_TIMEOUT_TIMEOUT_MS ≠ 0 ∧
    d.modes.drainAt + d.f F.GSO_DRAIN_TIMEOUT_TIMEOUT_MS * 1000000 * nsUnit ≤ sp.now := by
  simp [Dev.drainLate]

/-- The drain timeout stops the functions that still stop, and the drain completes. -/
theorem drainTimeout_late (h5 : d.mode = 5) (hd : d.fb F.GSO_MODE_DRAINING = true) (ht : d.traffic = true)
    (hl : d.drainLate sp = true) : drainTimeout sp d = drainComplete sp ((trafficFns.foldl (fun d n =>
      if d.fnState n == 4 then ((d.killTasksOf sp n).cutShort n).fnStopped sp n else d) d).raise evGsoDrainTimeout gsoUid) := by
  unfold drainTimeout
  rw [if_pos ⟨h5, hd, ht, hl⟩]
theorem drainTimeout_early (hl : d.drainLate sp = false) : drainTimeout sp d = (sp, d) := by
  unfold drainTimeout
  rw [if_neg (by simp [hl])]

theorem wdogFn_late (n : Nat) (ha : d.fnActive n = true) (hl : SMap.get d.prog n 0 + 3 * d.wdInterval n ≤ sp.now) :
    d.wdogFn sp n = d.wedge sp n := by
  unfold Dev.wdogFn
  rw [if_pos (by simp [ha, hl])]

/-! ## Power failure -/

/-- A fall of PWRFAIL_N with no flush or erase under way starts a flush. -/
theorem pwrFall_idle (h0 : d.pf.low = false) (h1 : d.pf.flush = none) (h2 : d.pf.erase = none) : d.pwrFall sp =
    (({ d with pf := { d.pf with low := true } } : Dev).raise evPwrfail aonUid).flushStart d.logOrder (timeNs sp) := by
  unfold Dev.pwrFall
  simp [h0, h1, h2]

theorem flushDone_some (i : Nat) (l : List (List Byte)) (h : d.pf.flush = some (i, l)) : d.flushDone =
    (let d1 := (d.flashProg (flushAt i + 32) l.flatten).flashProg (flushAt i + 28) [0]
     { d1 with pf := { d1.pf with flush := none, erase := if d.pf.back then some d1.nextFlush else none } }) := by
  unfold Dev.flushDone
  rw [h]

/-- PWRFAIL_N that rises during a flush leaves the erase to the end of the flush. -/
theorem pwrRise_flushing (h0 : d.pf.low = true) (h1 : d.pf.flush.isSome = true) :
    d.pwrRise.pf = { d.pf with low := false, back := true } := by
  unfold Dev.pwrRise
  rw [if_pos h0, if_pos h1]
  rfl

theorem flushErased_free (i : Nat) (h0 : d.pf.erase = some i) (h1 : d.pf.wait = none) : d.flushErased =
    { d.flashErase (flushAt i) 4096 with pf := { (d.flashErase (flushAt i) 4096).pf with erase := none } } := by
  unfold Dev.flushErased
  rw [h0, h1]

/-! ## Temperature and the core voltage -/

theorem thermReport_five (t0 t1 t2 t3 t4 : Nat) : d.thermReport [t0, t1, t2, t3, t4] =
    ((((d.thermOf 0 t0).thermOf 1 t1).thermOf 2 t2).thermOf 3 t3).thermOf 4 t4 := by
  simp only [Dev.thermReport, List.zipIdx_cons, List.zipIdx_nil, List.foldl_cons, List.foldl_nil, Nat.reduceAdd]

theorem throttleEntry_hot (die t : Nat) (h0 : d.f (F.GSO_THERM_THROT die) = 0) (ht : d.throttleC ≤ sx 8 t) :
    d.throttleEntry die t = (d.setF (F.GSO_THERM_THROT die) 1).raise (evThrottle die) (regionUid (4 * die) 14) := by
  unfold Dev.throttleEntry
  exact if_pos ⟨h0, ht⟩
theorem throttleDeepen_hot (die t : Nat) (h1 : d.f (F.GSO_THERM_THROT die) = 1) (ht : d.throttleC ≤ sx 8 t) :
    d.throttleDeepen die t = d.setF (F.GSO_THERM_THROT die) 2 := by
  unfold Dev.throttleDeepen
  exact if_pos ⟨h1, ht⟩
theorem throttleExit_cool (die t : Nat) (h0 : d.f (F.GSO_THERM_THROT die) ≠ 0) (ht : sx 8 t < d.throttleC - d.hystC) :
    d.throttleExit die t = (d.setF (F.GSO_THERM_THROT die) 0).raise (evThrottle die) (regionUid (4 * die) 14) := by
  unfold Dev.throttleExit
  exact if_pos ⟨h0, ht⟩

/-- The voltage has settled on its target: the clocks rise. -/
theorem avsSettle_settled (clk : Nat) (hr : d.pwr.rise = some clk)
    (ht : d.pwr.since + max 1 (d.f F.GSO_AVS_SETTLE_US) * (1000 * nsUnit) ≤ sp.now) :
    avsSettle (d.f F.GSO_AVS_STAT_TARGET_MV) false (sp, d) = (sp, { d with pwr := { d.pwr with clk := clk, rise := none } }) := by
  unfold avsSettle
  simp [hr, Nat.not_lt.mpr ht]
end

/-- The target voltage, as the monitor's word for it spells it. -/
theorem targetMv_toNat (d : Dev) : (BitVec.ofNat 11 (d.f F.GSO_AVS_STAT_TARGET_MV)).toNat = d.f F.GSO_AVS_STAT_TARGET_MV := by
  have h : d.f F.GSO_AVS_STAT_TARGET_MV < 2 ^ 10 := bitsOf_lt _ _ _
  rw [BitVec.toNat_ofNat]
  omega

end Sys2Proof.Machine

namespace Sys2Proof.Proofs
open Sys2Proof.Machine Sys2Proof.Laws

section
variable (s : State)

/-- What hub firmware does in a state without a package fault. -/
theorem firmware_whole (f : Whole → Whole) (sp : Spine) (d : Dev) (hp : s.spine.contain.pkg = 0)
    (h : f (s.spine, s.dev) = (sp, d)) : wholeCmd s (fun w => firmware w f) = s.whole sp d :=
  wholeCmd_whole s _ sp d ((firmware_acts _ f hp).trans h)
theorem firmware_retried (f : Whole → Whole) (sp : Spine) (d : Dev) (hp : s.spine.contain.pkg = 0)
    (h : f (s.spine, s.dev) = (sp, d)) : wholeCmd s (fun w => firmware w fun w => retrySubmits (f w)) = s.retried sp d := by
  have he : firmware (s.spine, s.dev) (fun w => retrySubmits (f w)) = retrySubmits (sp, d) :=
    (firmware_acts _ _ hp).trans (congrArg retrySubmits h)
  exact wholeCmd_whole s _ _ _ he
end

/-- Settles O38: each step from the state in which it acts. -/
theorem modeAndPowerSteps : Obligations.ModeAndPowerSteps := by
  intro s
  refine ⟨fun hp => ⟨fun hd hj => ?drain, fun h5 hd ht => ⟨fun hms hl => ?late, fun he => ?early⟩, fun n ha hl => ?watchdog⟩,
    fun h0 h1 h2 => congrArg s.to (pwrFall_idle _ _ h0 h1 h2), fun i l h => congrArg s.to (flushDone_some _ i l h),
    fun h0 h1 => ⟨_, rfl, pwrRise_flushing _ h0 h1⟩, fun i h0 h1 => congrArg s.to (flushErased_free _ i h0 h1),
    fun t0 t1 t2 t3 t4 => congrArg s.to (thermReport_five _ _ _ _ _ _), fun k t => ⟨fun h0 ht => congrArg s.to (throttleEntry_hot _ _ _ h0 ht),
      fun h1 ht => congrArg s.to (throttleDeepen_hot _ _ _ h1 ht), fun h0 ht => congrArg s.to (throttleExit_cool _ _ _ h0 ht)⟩,
    fun hp => ⟨⟨_, rfl, packageFault_here 7 0 (s.spine, s.dev) rfl hp⟩,
      fun rail => ⟨_, rfl, packageFault_here 8 rail (s.spine, s.dev) rfl hp⟩⟩, fun clk hr ht => ?avs⟩
  case drain =>
    exact firmware_whole s _ _ _ hp ((if_pos hd).trans (drainComplete_enters _ _ hj))
  case late =>
    exact firmware_retried s (fun w => drainTimeout w.1 w.2) _ _ hp
      (drainTimeout_late _ _ h5 hd ht ((drainLate_iff _ _).mpr ⟨hms, hl⟩))
  case early =>
    have hn : s.dev.drainLate s.spine = false := by
      rw [Bool.eq_false_iff, Ne, drainLate_iff]
      omega
    exact firmware_retried s (fun w => drainTimeout w.1 w.2) _ _ hp (drainTimeout_early _ _ hn)
  case watchdog =>
    exact firmware_whole s _ _ _ hp (congrArg (Prod.mk _) (wdogFn_late _ _ n ha hl))
  case avs =>
    refine wholeCmd_to s _ _ ?_
    rw [targetMv_toNat]
    exact avsSettle_settled _ _ clk hr ht

end Sys2Proof.Proofs

namespace Sys2Proof.Machine
open Sys2Proof.Laws

/-! ## The host's writes through BAR0 -/

/-- Four bytes spell one word. -/
theorem wordsOf_leBytes (n : Nat) (h : n < 2 ^ 32) : wordsOf (leBytes 4 n) (leBytes 4 n).length = [BitVec.ofNat 32 n] := by
  have hn : ofLeBytes ((leBytes 4 n).take 4) = n := by
    simp only [leBytes, ofLeBytes, List.take, BitVec.toNat_ofNat]
    omega
  show (if (leBytes 4 n).length < 4 then [] else
    BitVec.ofNat 32 (ofLeBytes ((leBytes 4 n).take 4)) :: wordsOf ((leBytes 4 n).drop 4) 3) = _
  rw [hn]
  rfl

/-- The host's write of a word of its view of the HST_ block. -/
theorem hostWriteBytes_hst (f off n : Nat) (w : Whole) (h4 : off % 4 = 0) (ho : off < 0x10000) (hn : n < 2 ^ 32)
    (hl : hstListed off = true) (ht : hostTaken f off w = true) :
    hostWriteBytes f off (leBytes 4 n) w = (w.1, w.2.hostHst f off off (BitVec.ofNat 32 n)) := by
  have ha : bar0Addr off = 0x02010000000 + (0x50000 + off) := by
    unfold bar0Addr
    rw [if_pos ho]
    show 0x02010050000 + off = _
    omega
  have hb : blkOf (bar0Addr off) = some (.hst, off) :=
    blkOf_hub_at (0x50000 + off) _ .hst off ha (by omega) (by omega) (by
      rw [show (0x50000 + off) / 0x10000 = 5 by omega]
      rfl)
  have hh : regHole (bar0Addr off) = false := by
    unfold regHole
    rw [hb]
    simp [hl]
  unfold hostWriteBytes
  rw [if_pos ⟨h4, Nat.le_refl 4⟩, wordsOf_leBytes n hn]
  show hostWriteWord f off _ w = _
  unfold hostWriteWord
  simp only [ht, hh, hb, Bool.true_eq_false, Bool.false_eq_true, if_false]

theorem hostTaken_low (sp : Spine) (d : Dev) (f off : Nat) (ho : off < 0x10000) (hu : hostUp sp = true)
    (h : f = 0 ∨ hostFull (sp, d) = true ∧ d.fnEnabled f = true) : hostTaken f off (sp, d) = true := by
  unfold hostTaken
  rcases h with rfl | ⟨hf, he⟩
  · simp [hu, ho]
  · split <;> simp [hf, he]

/-- A write of a doorbell by the function that has the pair. -/
theorem hostHst_door (d : Dev) (f k o off v : Nat) (b : Bool) (hk : k < 256) (ho : o = 0xD000 + 8 * k + if b then 4 else 0)
    (hv : v < 2 ^ 16) (hf : d.f (F.HST_RING_CFG_FN k) = f) :
    d.hostHst f o off (BitVec.ofNat 32 v) = if b then d.doorHead k v else d.doorTail k v := by
  have hw : (BitVec.ofNat 32 v).toNat % 2 ^ 16 = v := by
    rw [BitVec.toNat_ofNat]
    omega
  have hi : (o - 0xD000) / 8 = k := by
    cases b <;> simp at ho <;> omega
  have hr : o % 8 = if b then 4 else 0 := by
    cases b <;> simp at ho ⊢ <;> omega
  have hs : 0xD000 ≤ o ∧ o < 0xD800 := by
    cases b <;> simp at ho <;> omega
  unfold Dev.hostHst
  rw [if_neg (by omega), if_pos hs]
  dsimp only
  rw [hi, if_neg (not_not.mpr hf), hw, hr]
  cases b
  · rw [if_pos (if_neg Bool.false_ne_true), if_neg Bool.false_ne_true]
  · rw [if_neg (by decide), if_pos rfl]

section
variable (d : Dev)

/-! ## Link and function resets -/

theorem perstFall_high (h : d.perst = false) : d.perstFall = { d.linkReset.raise evHstLink hostUid with perst := true } :=
  if_neg (by simp [h])
theorem linkDown_up (h : d.fb F.HST_STATUS_LINK_UP = true) : d.linkDown = d.linkReset.raise evHstLink hostUid := if_pos h
theorem linkUp_down (gen lanes : Nat) (hp : d.perst = false) (h : d.fb F.HST_STATUS_LINK_UP = false) : d.linkUp gen lanes =
    (((d.setF F.HST_STATUS_LINK_UP 1).setF F.HST_STATUS_SPEED gen).setF F.HST_STATUS_WIDTH lanes).raise evHstLink hostUid :=
  if_neg (by simp [hp, h])
theorem fnReset_there (f : Nat) (h : d.fnEnabled f = true) : d.fnReset f = d.flr f := if_pos h
theorem flr_pf : d.flr 0 =
    { (List.range 17).foldl (fun e i => e.clearMb i) (d.disablePairs fun _ => true) with fn := [] } := if_pos rfl
theorem flr_vf (f : Nat) (h : f ≠ 0) : d.flr f = ((d.disablePairs fun x => x == f).clearMb f).resetFn f := if_neg h

/-! ## Configuration requests -/

section
variable (f : Nat) (hp : d.perst = false) (he : d.fnEnabled f = true)
include hp he
theorem cfgReq_msix (en mask : Bool) :
    d.cfgReq f (.msix en mask) = (d.setFn f { d.fnCfg f with msixEn := en, msixMask := mask }).msixFlush :=
  if_neg (by simp [hp, he])
theorem cfgReq_power (d3 : Bool) : d.cfgReq f (.power d3) = (d.setFn f { d.fnCfg f with d3 := d3 }).msixFlush :=
  if_neg (by simp [hp, he])
theorem cfgReq_sriov (n : BitVec 5) (h0 : f = 0) : d.cfgReq f (.sriov n) = d.vfEnable n.toNat :=
  (if_neg (by simp [hp, he])).trans (if_pos h0)
/-- The vendor and the device. -/
theorem cfgReq_id (h0 : f = 0) : d.cfgReq f (.read 0) = { d with
    sent := d.sent ++ [.cfgRead 0 0 (BitVec.ofNat 32 (Config.vendorId % 65536 + 0x9416 * 65536))] } := by
  subst h0
  unfold Dev.cfgReq
  rw [if_neg (by simp [hp, he])]
  simp [Dev.cfgWord]
end

/-! ## Ring entries -/

section
variable (sp : Spine) (k : Nat)
/-- The ring engine acts while the PCI Express function is in service. -/
theorem ringActs_here (f : Spine → Dev → Dev) (h : sp.contain.out hostUid = false) : ringActs f sp d = f sp d :=
  if_neg (by simp [h])

/-- An H2D entry that waits is read; what it holds is a task or a message. -/
theorem h2dEntry_waits (e : List Byte) (fail : Bool) (hw : d.ringWorks k 1 = true ∨ d.ringWorks k 2 = true)
    (hf : d.ringFill k ≠ 0) : d.h2dEntry sp k e fail =
      (let d1 : Dev := { d with
         sent := d.sent ++ [.hostRead (d.f (F.HST_RING_CFG_FN k)) (d.h2dAddr k (d.ringAt k).head) 64 false false] }
       if fail then d1.ringFail k 2
       else if d.f (F.HST_RING_CFG_TYPE k) = 1 then d1.taskEntry sp k (fitBytes 64 e) else d1.msgEntry k (fitBytes 64 e)) := by
  have hn : (!(d.ringWorks k 1 || d.ringWorks k 2) || d.ringFill k == 0) = false := by
    rcases hw with h | h <;> simp [h, hf]
  unfold Dev.h2dEntry
  rw [if_neg (by rw [hn]; decide)]

/-- A D2H entry is written, its PHASE last, while the ring has room. -/
theorem d2hEntry_room (fail : Bool) (e : List Byte) (d1 : Dev)
    (hr : (d.f (F.HST_DB_HEAD_DTAIL k) + 65536 - d.f (F.HST_DB_HEAD_HEAD k)) % 65536 < d.ringLen k)
    (hn : d.nextOut k = some (e, d1)) : d.d2hEntry k fail =
      if fail then d.ringFail k 3
      else
        (let tail := d.f (F.HST_DB_HEAD_DTAIL k)
         let f := d.f (F.HST_RING_CFG_FN k)
         let a := d.d2hAddr k tail
         let d2 : Dev := d1.setF (F.HST_DB_HEAD_DTAIL k) (tail + 1)
         let d3 : Dev := { d2 with sent := d1.sent ++ [.hostWrite f a false false e,
                                     .hostWrite f (a + 63) false false [if tail / d.ringLen k % 2 = 0 then 1 else 0]] }
         if d.fb (F.HST_RING_CFG_IRQ_EN k) then d3.msixSend (d.f (F.HST_RING_CFG_VEC k)) else d3) := by
  unfold Dev.d2hEntry
  simp only [hr, hn, if_true]
end
end

end Sys2Proof.Machine

namespace Sys2Proof.Proofs
open Sys2Proof.Machine Sys2Proof.Laws

/-- A configuration request whose effect on the device is known. -/
theorem configurationRequest_written (s : State) (f : Fin 17) (op : CfgOp) (d : Dev) (h : s.dev.cfgReq f op = d) :
    exec (.configurationRequest f op) s = s.written s.spine d :=
  wholeCmd_written s (fun w => (w.1, w.2.cfgReq f op)) _ _ (congrArg (Prod.mk _) h)

section
variable (s : State) (f : Fin 17) (k : Fin 256) (v : BitVec 16) (hf : s.dev.f (F.HST_RING_CFG_FN k) = f.val)
  (hu : hostUp s.spine = true) (hm : f = 0 ∨ hostFull (s.spine, s.dev) = true ∧ s.dev.fnEnabled f = true)
include hf hu hm

/-- A doorbell's word of its pair: the tail's, or the head's. -/
theorem doorbell_written (b : Bool) :
    hostWriteBytes f (0xD000 + 8 * k.val + if b then 4 else 0) (leBytes 4 v.toNat) (s.spine, s.dev) =
      (s.spine, if b then s.dev.doorHead k v.toNat else s.dev.doorTail k v.toNat) := by
  have hv := v.isLt
  have hb : (if b then 4 else 0) % 4 = 0 ∧ (if b then 4 else 0) < 8 := by cases b <;> decide
  obtain ⟨o, ho⟩ : ∃ o, o = 0xD000 + 8 * k.val + if b then 4 else 0 := ⟨_, rfl⟩
  have hl : hstListed o = true := by
    have h1 : 0xD000 ≤ o := by omega
    have h2 : o < 0xD800 := by omega
    simp [hstListed, h1, h2]
  rw [← ho, hostWriteBytes_hst f o v.toNat _ (by omega) (by omega) (by omega) hl
    (hostTaken_low _ _ f o (by omega) hu (hm.imp_left fun h => by rw [h]; rfl)),
    hostHst_door s.dev f k o o v.toNat b k.isLt ho hv hf]

theorem doorbellTail_rings : exec (.doorbellTail f k v) s = s.whole s.spine (s.dev.doorTail k v.toNat) := by
  have h := doorbell_written s f k v hf hu hm false
  rw [if_neg Bool.false_ne_true, if_neg Bool.false_ne_true, Nat.add_zero] at h
  exact wholeCmd_whole s (hostWriteBytes f (0xD000 + 8 * k.val) (leBytes 4 v.toNat)) _ _ h
theorem doorbellHead_rings : exec (.doorbellHead f k v) s = s.whole s.spine (s.dev.doorHead k v.toNat) := by
  have h := doorbell_written s f k v hf hu hm true
  rw [if_pos rfl, if_pos rfl, Nat.add_right_comm] at h
  exact wholeCmd_whole s (hostWriteBytes f (0xD004 + 8 * k.val) (leBytes 4 v.toNat)) _ _ h
end

/-- Settles O50: each step of the host link from the state in which it acts. -/
theorem hostSteps : Obligations.HostSteps := by
  intro s
  refine ⟨fun h => congrArg s.to (perstFall_high _ h), rfl, fun h => congrArg s.to (linkDown_up _ h),
    fun gen lanes hp h => congrArg s.to (linkUp_down _ _ _ hp h), fun f he => ⟨fun h0 => ?flrPf, fun h0 => ?flrVf, fun hp => ?config⟩,
    fun f k v hf hu hm => ⟨doorbellTail_rings s f k v hf hu hm, doorbellHead_rings s f k v hf hu hm⟩,
    fun ho k => ⟨fun e fail hw hn => ?h2d, fun e d1 hr hn => ?d2h⟩, fun vec => rfl⟩
  case flrPf =>
    subst h0
    exact congrArg s.to ((fnReset_there _ 0 he).trans (flr_pf _))
  case flrVf =>
    exact congrArg s.to ((fnReset_there _ f he).trans (flr_vf _ f (fun h => h0 (Fin.ext h))))
  case config =>
    exact ⟨fun en mask => configurationRequest_written s f _ _ (cfgReq_msix _ f hp he en mask),
      fun d3 => configurationRequest_written s f _ _ (cfgReq_power _ f hp he d3),
      fun h0 n => configurationRequest_written s f _ _ (cfgReq_sriov _ f hp he n (congrArg Fin.val h0)),
      fun h0 => configurationRequest_written s f _ _ (cfgReq_id _ f hp he (congrArg Fin.val h0))⟩
  case h2d =>
    have h := (ringActs_here s.dev s.spine (fun sp d => d.h2dEntry sp k e fail) ho).trans
      (h2dEntry_waits s.dev s.spine k e fail hw hn)
    refine ⟨fun hf => ?_, fun hf ht => ?_, fun hf ht => ?_⟩
    · exact congrArg s.to (h.trans (if_pos hf))
    · exact congrArg s.to (h.trans ((if_neg (by simp [hf])).trans (if_pos ht)))
    · exact congrArg s.to (h.trans ((if_neg (by simp [hf])).trans (if_neg ht)))
  case d2h =>
    have h := fun fail => (ringActs_here s.dev s.spine (fun _ d => d.d2hEntry k fail) ho).trans
      (d2hEntry_room s.dev k fail e d1 hr hn)
    exact ⟨congrArg s.to ((h true).trans (if_pos rfl)), congrArg s.to ((h false).trans (if_neg (by decide)))⟩

end Sys2Proof.Proofs

namespace Sys2Proof.Machine
open Sys2Proof.Laws

section
variable (d : Dev) (sp : Spine)

/-- A step of a port acts while the port is in service. -/
theorem portActs_here (p : Nat) (f : Spine → Dev → Dev) (h : sp.contain.out (portUid p) = false) : portActs p f sp d = f sp d :=
  if_neg (by simp [h])
/-- A step of a queue position acts while the port that has it is in service. -/
theorem queueActs_here (q : Nat) (f : Spine → Dev → Dev) (h : sp.contain.out (portUid (d.portOf q)) = false) :
    queueActs q f sp d = f sp d := portActs_here d sp (d.portOf q) f h

/-! ## Frames received -/

section
variable (p : Nat) (fcs ptpIp : Bool) (err : Int) (f : List Byte)
theorem fhFrame_unlinked (h : d.portLinked p = false) : d.fhFrame sp p fcs ptpIp err f = (.none, d) := if_pos (.inl h)
theorem fhFrame_badFcs (hl : d.portLinked p = true) (hr : d.loopRuns p = false) :
    d.fhFrame sp p false ptpIp err f = (.none, d.unmatched p) :=
  (if_neg (by simp [hl, hr])).trans (if_pos rfl)

theorem fhReceive_none (d1 : Dev) (ho : sp.contain.out (portUid p) = false) (h : d.fhFrame sp p fcs ptpIp err f = (.none, d1)) :
    fhReceive p fcs ptpIp err f (sp, d) = (sp, d1) := by
  unfold fhReceive
  rw [if_neg (by simp [ho]), h]
theorem fhReceive_euril (b : List Byte) (d1 : Dev) (ho : sp.contain.out (portUid p) = false)
    (h : d.fhFrame sp p fcs ptpIp err f = (.euril b, d1)) : fhReceive p fcs ptpIp err f (sp, d) = eurFrame p b (sp, d1) := by
  unfold fhReceive
  rw [if_neg (by simp [ho]), h]
end

/-! ## Management frames sent -/

section
variable (p : Nat)
/-- The frame at the read offset of the transmit window, and its timestamp. -/
def txFrame (err : Int) : List Byte :=
  let rd := (d.fhPort p).txRd
  let b := fun i => (d.byte (fhTxWin p + (rd + i) % 8192)).toNat
  let f := d.winGet (fhTxWin p) (rd + 16) (b 0 + 256 * b 1)
  if bitAt (b 2) 1 then oneStep f (d.tsTx sp p err).toNat else f
/-- The device once that frame is sent. -/
def txSent (err : Int) : Dev :=
  let rd := (d.fhPort p).txRd
  let b := fun i => (d.byte (fhTxWin p + (rd + i) % 8192)).toNat
  { d.mapFh p (fun x => { x with txRd := (rd + roundUp (16 + (b 0 + 256 * b 1)) 8) % 8192 }) with
    sent := d.sent ++ [.frame p (txFrame d sp p err)] }

/-- A frame that does not hold is sent; one that asks for a two-step timestamp puts it in the queue, while there is room. -/
theorem mgmtTx_sends (err : Int) (hl : d.portLinked p = true) (hp : (d.fhPort p).txRd ≠ d.f (F.FH_MGMT_PTR_TX p) % 8192)
    (hh : bitAt (d.byte (fhTxWin p + ((d.fhPort p).txRd + 2) % 8192)).toNat 4 = false) :
    d.mgmtTx sp p err =
      if bitAt (d.byte (fhTxWin p + ((d.fhPort p).txRd + 2) % 8192)).toNat 2 then
        if (d.fhPort p).txts.length < 64 then (txSent d sp p err).mapFh p fun x =>
          { x with txts := x.txts ++ [((d.byte (fhTxWin p + ((d.fhPort p).txRd + 3) % 8192)).toNat, (d.tsTx sp p err).toNat)] }
        else (txSent d sp p err).countF (F.FH_PTP_TXTS_TAG_LOST p) 1
      else txSent d sp p err := by
  unfold Dev.mgmtTx
  exact if_neg (by simp [hl, hp, hh])

/-! ## Links, timestamps and service -/

theorem fhLinkDown_up (h : d.fb (F.FH_PORT_STATUS_LINK p) = true) : d.fhLinkDown p =
    (let d1 := ((d.setF (F.FH_PORT_STATUS_LINK p) 0).setF (F.FH_PORT_STATUS_TS_VALID p) 0).raise (evFh p 0) (portUid p)
     ((d1.positions p).foldl (fun e q => e.mapQ q fun x =>
       { x with tx := x.tx.map fun (t : TxSym) => if 0 < t.sent then { t with fin := true, data := [] } else t }) d1).synce
         (d.f (F.FH_SYNCE_PORT 0) == p)) := if_pos h
theorem fhLinkUp_down (hl : d.portLive p = true) (h : d.fb (F.FH_PORT_STATUS_LINK p) = false) :
    d.fhLinkUp p = ((d.setF (F.FH_PORT_STATUS_LINK p) 1).raise (evFh p 0) (portUid p)).synce false := if_pos (by simp [hl, h])
theorem tsMeasured_first (rx tx : Nat) (hl : d.fb (F.FH_PORT_STATUS_LINK p) = true)
    (h : d.fb (F.FH_PORT_STATUS_TS_VALID p) = false) : d.tsMeasured p rx tx =
      ((d.setF (F.FH_TS_VAR_RX_V p) (min rx (2 ^ 20))).setF (F.FH_TS_VAR_TX_V p) (min tx (2 ^ 20))).setF
        (F.FH_PORT_STATUS_TS_VALID p) 1 := if_pos (by simp [hl, h])
theorem fhService_active (h2 : 2 ≤ d.fnState (fnPort p)) (h4 : d.fnState (fnPort p) ≤ 4) : d.fhService sp p =
    (let d1 := d.progress sp (fnPort p)
     (if d1.fnState (fnPort p) = 4 then d1.fnStopped sp (fnPort p) else d1).carrSettle sp) := by
  unfold Dev.fhService
  refine (if_pos (by simp [within, h2, h4])).trans ?_
  simp only [beq_iff_eq]
end

/-! ## Symbols -/

section
variable (q : Nat)
theorem symbolClose_due (t : Int) (c k : Nat) (h : d.rxHead q = some (t, c, k)) (ht : t ≤ now3 sp) :
    d.symbolClose sp q = d.emit q (some (c, k)) emitFuel := by
  unfold Dev.symbolClose
  rw [h]
  exact if_pos ht

section
variable (c : Nat) (tie : Bool) (x : FhFlow) (t : Int) (hx : d.flowOf q c = some x) (ht : d.txSendAt q c x.dl = some t)
  (hok : x.dnOk x.dl = true) (hn : t - (2000 * ns3 : Nat) ≤ now3 sp) (hp : d.probeOnly c = false)
include hx ht hok hn hp
/-- A carrier-symbol with no doorbell is late. -/
theorem readiness_late (hb : (d.txSym q c x.dl).bell = none) : d.readiness sp q c tie =
    ((((d.setTx q { d.txSym q c x.dl with chk := some false, data := [] }).setFlow q c (some { x with dl := x.dl + 1 })).fhCount
      F.FH_TX_LATE_COUNT (d.portOf q) 1).raise (evFh (d.portOf q) 2) (portUid (d.portOf q))) := by
  unfold Dev.readiness
  simp only [hx, ht]
  rw [if_pos (by rw [hok, decide_eq_true hn]; rfl)]
  simp [hp, hb]
/-- A carrier-symbol whose doorbell has come is ready. -/
theorem readiness_ready (b : Nat) (hb : (d.txSym q c x.dl).bell = some b) (htie : tie = false ∨ b ≠ sp.now) (hw : d.fnState c ≠ 5) :
    d.readiness sp q c tie =
      (d.setTx q { d.txSym q c x.dl with chk := some true }).setFlow q c (some { x with dl := x.dl + 1 }) := by
  have hbell : (!(tie && b == sp.now)) = true := by
    rcases htie with h | h <;> simp [h]
  have hlive : (d.fnState c != 5) = true := bne_iff_ne.mpr hw
  unfold Dev.readiness
  simp only [hx, ht]
  rw [if_pos (by rw [hok, decide_eq_true hn]; rfl)]
  simp only [hp, hb, hbell, hlive, Bool.or_false, Bool.true_and, Bool.false_eq_true, if_true, if_false]
end

section
variable (t : TxSym) (ht : d.sendHead sp q = some t)
include ht
theorem symbolSend_unlinked (h : d.portLinked (d.portOf q) = false) :
    d.symbolSend sp q = d.setTx q { t with fin := true, data := [] } := by
  unfold Dev.symbolSend
  simp [ht, h]
/-- The next stream-symbol of a carrier-symbol that failed its check, or of a wedged carrier, is zero-power IQ. -/
theorem symbolSend_zero (i : Nat) (h : d.portLinked (d.portOf q) = true) (hi : (d.entries q t.c 1)[t.sent]? = some i)
    (hg : t.chk = some false ∨ d.fnState t.c = 5) : d.symbolSend sp q =
      (let whole := t.sent + 1 == (d.entries q t.c 1).length
       let z := d.inject q i t.k (List.replicate (d.dabCount q i t.k) zeroDab) 0
       ((d.countF F.GLZ_CNT_SAT_COUNT z.2).sendStream q i t.c t.k z.1).setTx q
         { t with sent := t.sent + 1, fin := whole, data := if whole then [] else t.data }) := by
  have hgood : (t.chk == some true && d.fnState t.c != 5) = false := by
    rcases hg with h | h <;> simp [h]
  unfold Dev.symbolSend
  simp [ht, h, hi, hgood]
end
end
end

end Sys2Proof.Machine

namespace Sys2Proof.Proofs
open Sys2Proof.Machine Sys2Proof.Laws

/-- A step of a port in service, of which the effect on the device is known. -/
theorem portStep_to (s : State) (p : Nat) (f : Spine → Dev → Dev) (d : Dev) (ho : s.spine.contain.out (portUid p) = false)
    (h : f s.spine s.dev = d) : devCmd s (portActs p f) = s.to d :=
  congrArg s.to ((portActs_here s.dev s.spine p f ho).trans h)
theorem queueStep_to (s : State) (q : Nat) (f : Spine → Dev → Dev) (d : Dev)
    (ho : s.spine.contain.out (portUid (s.dev.portOf q)) = false) (h : f s.spine s.dev = d) : devCmd s (queueActs q f) = s.to d :=
  congrArg s.to ((queueActs_here s.dev s.spine q f ho).trans h)

/-- A frame that a port in service does not pass to the fabric. -/
theorem fhRxFrame_kept (s : State) (p : Fin 16) (fcs ptpIp : Bool) (err : BitVec 18) (f : List Byte) (ecc : Ecc) (d1 : Dev)
    (ho : s.spine.contain.out (portUid p) = false)
    (h : (s.dev.upset ecc).fhFrame s.spine p fcs ptpIp err.toInt f = (.none, d1)) :
    exec (.fhRxFrame p fcs ptpIp err f ecc) s = s.whole s.spine d1 :=
  congrArg (fun w : Whole => s.whole w.1 w.2) (fhReceive_none (s.dev.upset ecc) s.spine p fcs ptpIp err.toInt f d1 ho h)

/-- Settles O47: each step of a port or of a queue position acts, since the port is in service, as its equation above says. -/
theorem fronthaulSteps : Obligations.FronthaulSteps := by
  unfold Obligations.FronthaulSteps
  intro s
  refine ⟨fun p ho => ⟨fun fcs ptpIp err f ecc => ⟨fun h => ?_, fun hl hr => ?_, fun d1 h => ?_, fun b d1 h => ?_⟩,
    fun err hl hp hh => ⟨fun h2 => ?_, fun h2 h64 => ?_, fun h2 h64 => ?_⟩, fun h => ?_, fun hl h => ?_, fun rx tx hl h => ?_,
    fun h2 h4 => ?_⟩, fun q ho => ⟨fun t c k h ht => ?_,
    fun c tie x t hx ht hok hn hp => ⟨fun hb => ?_, fun b hb htie hw => ?_⟩, fun t ht => ⟨fun h => ?_, fun i h hi hg => ?_⟩⟩⟩
  · exact fhRxFrame_kept s p fcs ptpIp err f ecc _ ho (fhFrame_unlinked _ _ p fcs ptpIp _ f h)
  · exact fhRxFrame_kept s p false ptpIp err f ecc _ ho (fhFrame_badFcs _ _ p ptpIp _ f hl hr)
  · exact fhRxFrame_kept s p fcs ptpIp err f ecc d1 ho h
  · exact congrArg (fun w : Whole => s.whole w.1 w.2)
      (fhReceive_euril (s.dev.upset ecc) s.spine p fcs ptpIp err.toInt f b d1 ho h)
  · exact portStep_to s p _ _ ho ((mgmtTx_sends s.dev s.spine p err.toInt hl hp hh).trans (if_neg (by simp [h2])))
  · exact portStep_to s p _ _ ho
      ((mgmtTx_sends s.dev s.spine p err.toInt hl hp hh).trans ((if_pos h2).trans (if_pos h64)))
  · exact portStep_to s p _ _ ho
      ((mgmtTx_sends s.dev s.spine p err.toInt hl hp hh).trans ((if_pos h2).trans (if_neg h64)))
  · exact portStep_to s p _ _ ho (fhLinkDown_up s.dev p h)
  · exact portStep_to s p _ _ ho (fhLinkUp_down s.dev p hl h)
  · exact portStep_to s p _ _ ho (tsMeasured_first s.dev p rx.toNat tx.toNat hl h)
  · exact portStep_to s p _ _ ho (fhService_active s.dev s.spine p h2 h4)
  · exact queueStep_to s q _ _ ho (symbolClose_due s.dev s.spine q t c k h ht)
  · exact queueStep_to s q _ _ ho (readiness_late s.dev s.spine q c tie x t hx ht hok hn hp hb)
  · exact queueStep_to s q _ _ ho (readiness_ready s.dev s.spine q c tie x t hx ht hok hn hp b hb htie hw)
  · exact queueStep_to s q _ _ ho (symbolSend_unlinked s.dev s.spine q t ht h)
  · exact queueStep_to s q _ _ ho (symbolSend_zero s.dev s.spine q t ht i h hi hg)

end Sys2Proof.Proofs

namespace Sys2Proof.Machine
open Sys2Proof.Laws

/-! ## Registers that a block has -/

/-- A register whose row the block has is found. -/
theorem findReg_row (l : List RegSpec) (o n stride count : Nat)
    (h : ∃ r ∈ l, r.off = o ∧ r.stride = stride ∧ r.count = count) (hs : 0 < stride) (hn : n < count) :
    (findReg l (o + n * stride)).isSome = true := by
  obtain ⟨r, hr, rfl, rfl, rfl⟩ := h
  have hd : r.off + n * r.stride - r.off = n * r.stride := by omega
  have hrow : r.off ≤ r.off + n * r.stride ∧ (r.off + n * r.stride - r.off) % r.stride = 0 ∧
      (r.off + n * r.stride - r.off) / r.stride < r.count := by
    rw [hd, Nat.mul_mod_left, Nat.mul_div_cancel n hs]
    exact ⟨by omega, rfl, hn⟩
  generalize r.off + n * r.stride = off at hrow
  induction l with
  | nil => cases hr
  | cons r' t ih =>
    by_cases h : r'.off ≤ off ∧ (off - r'.off) % r'.stride = 0 ∧ (off - r'.off) / r'.stride < r'.count
    · rw [findReg_here r' t off h]
      rfl
    · rw [findReg_skip r' t off h]
      rcases List.mem_cons.mp hr with rfl | ht
      · exact absurd hrow h
      · exact ih ht

section
variable (s : State) (q : Req) (a o : Nat) (v : Word) (h : Fw s q) (h4 : o % 4 = 0)
include h h4

/-- A write of a register of the `NCE` block by M-level hub firmware. -/
theorem regStep_nce (e : a = blkBase .nce + o) (ho : o < 0x100000) (hf : (findReg nceRegs o).isSome = true) :
    wholeCmd s (regStep q a v) = s.written s.spine ((s.dev.given q a v).nceWrite s.spine q o a v) := by
  obtain ⟨r, hr⟩ := Option.isSome_iff_exists.mp hf
  subst e
  have hb := blkOf_nce o ho
  have ha : blkBase .nce + o = 0x02010200000 + o := rfl
  exact regStep_fw s q _ v .nce o _ _ h (by omega) (fencedDie_hub _ _ (by omega))
    (regBad_of q _ .nce o r.1.fields hb (by omega) (by rw [blkRegs, hr]; rfl) rfl).1 hb rfl

/-- A write of a register of the `GLZ` block by M-level hub firmware. -/
theorem regStep_glz (e : a = blkBase .glz + o) (ho : o < 0x100000) (hf : (findReg glzRegs o).isSome = true) :
    wholeCmd s (regStep q a v) = s.written s.spine ((s.dev.given q a v).glzWrite s.spine q o a v) := by
  obtain ⟨r, hr⟩ := Option.isSome_iff_exists.mp hf
  subst e
  have hb := blkOf_glz o ho
  have ha : blkBase .glz + o = 0x02010300000 + o := rfl
  exact regStep_fw s q _ v .glz o _ _ h (by omega) (fencedDie_hub _ _ (by omega))
    (regBad_of q _ .glz o r.1.fields hb (by omega) (by rw [blkRegs, hr]; rfl) rfl).1 hb rfl

/-- A write of a register of the `FH` block of a port by M-level hub firmware. -/
theorem regStep_fh (p : Nat) (e : a = blkBase (.fh p) + o) (hp : p < 16) (ho : o < 0x10000) (hn : o ≠ 0x70)
    (hf : (findReg fhRegs o).isSome = true) :
    wholeCmd s (regStep q a v) = s.written s.spine ((s.dev.given q a v).fhWrite s.spine q p o a v) := by
  obtain ⟨r, hr⟩ := Option.isSome_iff_exists.mp hf
  subst e
  have hb := blkOf_fh p o hp ho
  have ha : blkBase (.fh p) + o = 0x02010100000 + p * 0x10000 + o := rfl
  have hfs : fieldsAt (blkBase (.fh p) + o) = some r.1.fields := by
    rw [fieldsAt, if_neg (by omega), hb]
    simp [hn, blkRegs, hr]
  exact regStep_fw s q _ v (.fh p) o _ _ h (by omega) (fencedDie_hub _ _ (by omega))
    (regBad_gen q _ (.fh p) o hb rfl (by simp [hfs])) hb rfl
end

section
variable (d : Dev) (sp : Spine) (q : Req) (v : Word)

theorem given_glzOn (a : Nat) : (d.given q a v).glzOn = d.glzOn := given_get Dev.glzOn (fun _ _ => rfl) d q a v
theorem given_fnUp (a n : Nat) : (d.given q a v).fnUp n = d.fnUp n := given_get (fun d => d.fnUp n) (fun _ _ => rfl) d q a v

/-! ## Writes of the narrowband engine -/

/-- A channel in FRAME or PAYLOAD queues the record of its frame and goes idle. -/
theorem nceAbort_frame (n : Nat) (x : NceFrame) (hx : (d.nce n).frame = some x) (hst : d.chSt n = 2 ∨ d.chSt n = 3) :
    d.nceAbort n = (d.queueRec n 3 x x.soft none none (d.symTime n (d.nce n).m x.phase / 65536)).chIdle n := by
  unfold Dev.nceAbort
  rcases hst with h | h <;> simp [h, hx]

section
variable (hq : reqFw q = true)
include hq
theorem nceWrite_chCmd (a n : Nat) (hn : n = v.toNat % 2 ^ 11) (hc : n < 1536) (hv : bitAt v.toNat 16 = true) :
    d.nceWrite sp q 0xC a v = d.nceAbort n := by
  unfold Dev.nceWrite
  rw [if_neg (by omega), if_neg (by simp [hq]), if_pos rfl, Dev.nceCmd, ← hn]
  exact if_pos (by simp [hq, hv, hc])

theorem nceWrite_bt0Hi (a n : Nat) (hn : n < 1536) :
    d.nceWrite sp q (0x10014 + n * 0x20) a v = (d.plainWrite a v).schedule n := by
  have hs : nceSharedAt (0x10014 + n * 0x20) = none := by
    unfold nceSharedAt
    repeat rw [if_neg (by omega)]
  have hi : (0x10014 + n * 0x20 - 0x10000) / 0x20 = n := by omega
  unfold Dev.nceWrite
  rw [if_neg (by omega), if_neg (by simp [hq]), if_neg (by omega), hs]
  exact (if_pos (by omega)).trans (by rw [hi])

theorem nceWrite_txCfg (a k : Nat) (hk : k < 4) : d.nceWrite sp q (0x200 + k * 0x20) a v = d.strmCfg sp true k v := by
  have hs : nceSharedAt (0x200 + k * 0x20) = some (.tx k) := by
    unfold nceSharedAt
    rw [if_neg (by omega), if_pos (by omega)]
    congr 2
    omega
  have hi : (0x200 + k * 0x20) % 0x100 / 0x20 = k := by omega
  have ht : decide (0x200 ≤ 0x200 + k * 0x20) = true := decide_eq_true (by omega)
  unfold Dev.nceWrite
  rw [if_neg (by omega), if_neg (by simp [hq]), if_neg (by omega), hs]
  exact (if_pos (by omega)).trans (by rw [hi, ht])

theorem nceWrite_capCfg (a k : Nat) (hk : k < 4) : d.nceWrite sp q (0x100 + k * 0x20) a v = d.strmCfg sp false k v := by
  have hs : nceSharedAt (0x100 + k * 0x20) = some (.cap k) := by
    unfold nceSharedAt
    rw [if_pos (by omega)]
    congr 2
    omega
  have hi : (0x100 + k * 0x20) % 0x100 / 0x20 = k := by omega
  have ht : decide (0x200 ≤ 0x100 + k * 0x20) = false := decide_eq_false (by omega)
  unfold Dev.nceWrite
  rw [if_neg (by omega), if_neg (by simp [hq]), if_neg (by omega), hs]
  exact (if_pos (by omega)).trans (by rw [hi, ht])
end

/-- The two spellings of a bit of a word. -/
theorem getLsbD_eq_bitAt (i : Nat) : v.getLsbD i = bitAt v.toNat i := by
  rw [Bool.eq_iff_iff]
  simp [bitAt, BitVec.getLsbD, Nat.testBit_eq_decide_div_mod_eq]

/-- A stream that is enabled begins anew. -/
def strmBegun (tx : Bool) (k a : Nat) : Dev :=
  (d.plainWrite a v).mapStrm tx k fun _ =>
    { NceStrm.idle with mant := (d.strm tx k).mant, exps := (d.strm tx k).exps, mantAt := sp.now, expsAt := sp.now
                        satAt := (d.strm tx k).satAt }

section
variable (k : Nat) (hv : bitAt v.toNat 0 = true)
include hv
theorem strmCfg_tx (hs : d.sharedFree (.tx k) = true) : d.strmCfg sp true k v =
    ((strmBegun d sp v true k (F.NCE_TX_CFG_EN k).addr).setF (F.NCE_TX_CNT_LO_CNT k) 0).setF (F.NCE_TX_CNT_HI_CNT k) 0 :=
  (if_pos hs).trans (if_pos ((getLsbD_eq_bitAt v 0).trans hv))
theorem strmCfg_cap (hs : d.sharedFree (.cap k) = true) : d.strmCfg sp false k v =
    (((strmBegun d sp v false k (F.NCE_CAP_CFG_EN k).addr).setF (F.NCE_CAP_CNT_LO_CNT k) 0).setF
      (F.NCE_CAP_CNT_HI_CNT k) 0).capFlow sp k :=
  (if_pos hs).trans (if_pos ((getLsbD_eq_bitAt v 0).trans hv))
end

/-! ## Writes of a fronthaul port -/

theorem fhWrite_txrdy (p a : Nat) (hq : reqFw q = true) : d.fhWrite sp q p 0x40 a v = d.doorbell sp p v :=
  (if_pos rfl).trans (if_pos (by simp [hq]))
/-- The first doorbell of a carrier-symbol is held. -/
theorem doorbell_first (p k : Nat) (hk : d.bellSym sp p v = some k)
    (hb : (d.txSym (p + bitsOf v.toNat 6 2) (bitsOf v.toNat 0 6) k).bell = none) :
    d.doorbell sp p v = d.setTx (p + bitsOf v.toNat 6 2)
      { d.txSym (p + bitsOf v.toNat 6 2) (bitsOf v.toNat 0 6) k with bell := some sp.now } := by
  unfold Dev.doorbell
  simp [hk, hb]

theorem fhWrite_tscap (p a : Nat) (hq : reqFw q = true) : d.fhWrite sp q p 0x50 a v = d.tscapArm p v :=
  (if_neg (by decide)).trans ((if_neg (by simp [hq])).trans (if_pos rfl))
/-- ARM with an index that names an uplink entry. -/
theorem tscapArm_uplink (p i j : Nat) (hv : bitAt v.toNat 9 = true) (he : d.entryOf p (v.toNat % 512) = some (i, j))
    (hd : d.f (F.FH_STRM_CFG_DIR i j) = 0) : d.tscapArm p v =
      ((d.setF (F.FH_TSCAP_CTRL_ENTRY p) (v.toNat % 512)).setF (F.FH_TSCAP_CTRL_VALID p) 0).mapFh p fun x =>
        { x with cap := some (v.toNat % 512) } := by
  unfold Dev.tscapArm
  dsimp only
  rw [if_pos hv, he]
  simp [hd]

/-! ## Writes of Glaze -/

section
variable (hq : reqFw q = true)
include hq
theorem glzWrite_estCmd (a : Nat) : d.glzWrite sp q 0x14 a v = d.estimateCommand v :=
  (if_neg (by simp [hq])).trans (if_pos rfl)
theorem glzWrite_captCmd (a : Nat) : d.glzWrite sp q 0x18 a v = d.captureCommand sp v :=
  (if_neg (by simp [hq])).trans ((if_neg (by decide)).trans (if_pos rfl))
theorem glzWrite_nextTHi (a c : Nat) (hc : c < 48) : d.glzWrite sp q (0x42C + c * 0x40) a v = d.nextTWrite c v := by
  have hi : (0x42C + c * 0x40 - 0x400) / 0x40 = c := by omega
  unfold Dev.glzWrite
  rw [if_neg (by simp [hq]), if_neg (by omega), if_neg (by omega), if_pos (by omega), hi]
end

theorem estimateCommand_go (hg : bitAt v.toNat 8 = true) (hon : d.glzOn = true) (he : d.glz.est = none)
    (hc : bitsOf v.toNat 0 6 < 48) : d.estimateCommand v =
      ({ d with glz := { d.glz with est := some (bitsOf v.toNat 0 6, bitsOf v.toNat 6 1, bitAt v.toNat 7) } } : Dev).setF
        F.GLZ_EST_CMD_BUSY 1 :=
  if_pos (by simp [hg, hon, he, hc])

/-- A capture that is accepted, in a write that leaves OVF. -/
theorem captureCommand_go (hg : bitAt v.toNat 21 = true) (hon : d.glzOn = true) (hu : d.fnUp 129 = true)
    (hb : bitAt (d.f F.GLZ_CAPT_CMD_BUSY) (bitsOf v.toNat 19 2) = false) (hn : 0 < bitsOf v.toNat 10 4)
    (hr : d.fb (F.GLZ_ROUND_EN (bitsOf v.toNat 15 4)) = true) (ho : bitsOf v.toNat 26 4 = 0) :
    d.captureCommand sp v =
      (let k := bitsOf v.toNat 19 2
       let d0 := d.setF F.GLZ_CAPT_CMD_OVF (d.f F.GLZ_CAPT_CMD_OVF)
       ((d0.mapCapt k fun _ => { GlzCapt.idle with
           wait := true, region := bitsOf v.toNat 15 4, map := bitsOf v.toNat 0 10, blocks := bitsOf v.toNat 10 4
           same := bitAt v.toNat 14, out := (d0.capt k).out }).setF
         F.GLZ_CAPT_CMD_BUSY (setBits (d.f F.GLZ_CAPT_CMD_BUSY) k 1 1)).captStart sp k) := by
  have hovf : d.f F.GLZ_CAPT_CMD_OVF - Nat.land (d.f F.GLZ_CAPT_CMD_OVF) 0 = d.f F.GLZ_CAPT_CMD_OVF := by
    rw [show Nat.land (d.f F.GLZ_CAPT_CMD_OVF) 0 = 0 from Nat.and_zero _, Nat.sub_zero]
  have hbusy (n : Nat) : (d.setF F.GLZ_CAPT_CMD_OVF n).f F.GLZ_CAPT_CMD_BUSY = d.f F.GLZ_CAPT_CMD_BUSY :=
    f_setF_apart d _ _ n rfl (by decide) (by decide)
  unfold Dev.captureCommand
  dsimp only
  rw [if_pos (by simp [hg, hon, hu, hb, hn, hr]), ho, hovf, hbusy]

/-- The high word of NEXT_T: a slot that starts then is awaited; another time is a miss. -/
theorem nextTWrite_up (c : Nat) (hon : d.glzOn = true) (hu : d.fnUp 129 = true) : d.nextTWrite c v =
    (let d1 := d.setF (F.GLZ_CARR_NEXT_T_HI_T c) v.toNat
     if (d1.slotAtNs c (d1.nextT c)).isSome then d1.setF (F.GLZ_CARR_STAT_PEND c) 1
     else (d1.setF (F.GLZ_CARR_STAT_PEND c) 0).raise evGlzSwapMiss glzUid) := by
  refine (if_pos (by simp [hon, hu])).trans ?_
  dsimp only
  generalize Dev.slotAtNs _ _ _ = x
  cases x with
  | none => rfl
  | some k => rfl

/-! ## The target of a drain -/

/-- A mode request that is granted while a drain is in progress changes its target. -/
theorem modeRequest_retargets (t : Nat) (ht : t < 6) (hd : d.fb F.HST_STATUS_DORMANT = true)
    (hs : t = 0 ∨ t = 5 ∨ d.servoGood = true) (hh : d.f F.GSO_MODE_HOLD_DRAIN = 0 ∨ t = 5)
    (hr : t = 1 → ∀ n < 134, d.f (F.GSO_FUNC_RESUME n) = 0) (hm : d.mode = 5) (hg : d.f F.GSO_MODE_DRAINING = 1) :
    d.modeRequest sp t = (0, d.setF F.GSO_MODE_TARGET t) := by
  have hservo : (within 1 4 t && !d.servoGood) = false := by
    rcases hs with rfl | rfl | h
    · rfl
    · rfl
    · simp [h]
  have hhold : (d.fb F.GSO_MODE_HOLD_DRAIN && t != 5) = false := by
    rcases hh with h | rfl
    · simp [Dev.fb, h]
    · simp
  have hres : (t == 1 && (List.range 134).any fun n => d.fb (F.GSO_FUNC_RESUME n)) = false := by
    by_cases h1 : t = 1
    · simp only [Bool.and_eq_false_iff, List.any_eq_false, List.mem_range]
      exact .inr fun n hn => by simp [Dev.fb, hr h1 n hn]
    · simp [h1]
  unfold Dev.modeRequest
  rw [if_neg (by omega), if_neg (by rw [hd, hservo, hhold, hres, hm]; simp), if_pos ⟨hm, by simp [Dev.fb, hg]⟩]
end

end Sys2Proof.Machine

namespace Sys2Proof.Proofs
open Sys2Proof.Machine Sys2Proof.Laws

/-! ## Register writes by M-level hub firmware -/

section
variable (s : State) (q : Req) (v : Word) (h : Fw s q)
include h

theorem abort_written (n : Nat) (hn : n = v.toNat % 2 ^ 11) (hc : n < 1536) (hv : bitAt v.toNat 16 = true) :
    exec (.abort q v) s = s.written s.spine ((s.dev.given q F.NCE_CH_CMD_CHANNEL.addr v).nceAbort n) :=
  (regStep_nce s q _ 0xC v h rfl rfl (by decide) (by decide)).trans
    (congrArg (s.written s.spine) (nceWrite_chCmd _ s.spine q v h.fw _ n hn hc hv))

theorem bt0HiWrite_written (n : Fin 1536) :
    exec (.bt0HiWrite q n v) s = s.written s.spine
      (((s.dev.given q (F.NCE_CH_BT0_HI_BT0 n).addr v).plainWrite (F.NCE_CH_BT0_HI_BT0 n).addr v).schedule n) :=
  (regStep_nce s q _ (0x10014 + n * 0x20) v h (by omega) (Nat.add_assoc _ _ _) (by omega)
    (findReg_row _ _ _ 0x20 1536 (by decide) (by decide) n.isLt)).trans
    (congrArg (s.written s.spine) (nceWrite_bt0Hi _ s.spine q v h.fw _ n n.isLt))

theorem txStream_written (k : Fin 4) :
    exec (.captureStreamEnable q true k v) s = s.written s.spine
      ((s.dev.given q (F.NCE_TX_CFG_EN k).addr v).strmCfg s.spine true k v) :=
  (regStep_nce s q _ (0x200 + k * 0x20) v h (by omega) (Nat.add_assoc _ _ _) (by omega)
    (findReg_row _ _ _ 0x20 4 (by decide) (by decide) k.isLt)).trans
    (congrArg (s.written s.spine) (nceWrite_txCfg _ s.spine q v h.fw _ k k.isLt))
theorem capStream_written (k : Fin 4) :
    exec (.captureStreamEnable q false k v) s = s.written s.spine
      ((s.dev.given q (F.NCE_CAP_CFG_EN k).addr v).strmCfg s.spine false k v) :=
  (regStep_nce s q _ (0x100 + k * 0x20) v h (by omega) (Nat.add_assoc _ _ _) (by omega)
    (findReg_row _ _ _ 0x20 4 (by decide) (by decide) k.isLt)).trans
    (congrArg (s.written s.spine) (nceWrite_capCfg _ s.spine q v h.fw _ k k.isLt))

theorem txrdyWrite_written (p : Fin 16) :
    exec (.txrdyWrite q p v) s = s.written s.spine ((s.dev.given q (F.FH_TXRDY_CARRIER p).addr v).doorbell s.spine p v) :=
  (regStep_fh s q _ 0x40 v h rfl p rfl p.isLt (by decide) (by decide) (by decide)).trans
    (congrArg (s.written s.spine) (fhWrite_txrdy _ s.spine q v p _ h.fw))
theorem tscapArm_written (p : Fin 16) :
    exec (.tscapArm q p v) s = s.written s.spine ((s.dev.given q (F.FH_TSCAP_CTRL_ENTRY p).addr v).tscapArm p v) :=
  (regStep_fh s q _ 0x50 v h rfl p rfl p.isLt (by decide) (by decide) (by decide)).trans
    (congrArg (s.written s.spine) (fhWrite_tscap _ s.spine q v p _ h.fw))

theorem captureCommand_written :
    exec (.captureCommand q v) s = s.written s.spine ((s.dev.given q F.GLZ_CAPT_CMD_GO.addr v).captureCommand s.spine v) :=
  (regStep_glz s q _ 0x18 v h rfl rfl (by decide) (by decide)).trans
    (congrArg (s.written s.spine) (glzWrite_captCmd _ s.spine q v h.fw _))
theorem estimateCommand_written :
    exec (.estimateCommand q v) s = s.written s.spine ((s.dev.given q F.GLZ_EST_CMD_GO.addr v).estimateCommand v) :=
  (regStep_glz s q _ 0x14 v h rfl rfl (by decide) (by decide)).trans
    (congrArg (s.written s.spine) (glzWrite_estCmd _ s.spine q v h.fw _))
theorem nextTWrite_written (c : Fin 48) :
    exec (.nextTWrite q c v) s = s.written s.spine ((s.dev.given q (F.GLZ_CARR_NEXT_T_HI_T c).addr v).nextTWrite c v) :=
  (regStep_glz s q _ (0x42C + c * 0x40) v h (by omega) (Nat.add_assoc _ _ _) (by omega)
    (findReg_row _ _ _ 0x40 48 (by decide) (by decide) c.isLt)).trans
    (congrArg (s.written s.spine) (glzWrite_nextTHi _ s.spine q v h.fw _ c c.isLt))

/-- A write of the target whose mode request is granted. -/
theorem targetWrite_written (d : Dev)
    (hr : (s.dev.given q F.GSO_MODE_TARGET.addr v).modeRequest s.spine (bitsOf v.toNat 4 3) = (0, d)) :
    exec (.targetWrite q v) s = s.written s.spine d := by
  have ha : F.GSO_MODE_TARGET.addr = 0x02010000000 + 0 := rfl
  have hb : blkOf F.GSO_MODE_TARGET.addr = some (.gso, 0) := blkOf_hub_at 0 _ .gso 0 ha (by decide) rfl rfl
  obtain ⟨r, hrow⟩ := Option.isSome_iff_exists.mp (show (findReg gsoRegs 0).isSome = true by decide)
  refine regStep_fw s q _ v .gso 0 _ _ h (by omega) (fencedDie_hub _ _ (by omega))
    (regBad_of q _ .gso 0 r.1.fields hb (by omega) (by rw [blkRegs, hrow]; rfl) rfl).1 hb (congrArg (Prod.mk s.spine) ?_)
  refine (if_neg (by simp [h.fw])).trans ((if_pos rfl).trans ((if_pos h.fw).trans ?_))
  rw [hr]
  rfl
end

/-- Settles O33: each write is the write of its block's register, on the device that the write is given to; what its
effect reads of that device is as before, since only the cores' write buffers differ. -/
theorem airRegisterWrites : Obligations.AirRegisterWrites := by
  unfold Obligations.AirRegisterWrites
  intro s q v h
  refine ⟨fun n hn hv x hx hst => ?_, fun n => ?_, fun k hv => ⟨fun hs => ?_, fun hs => ?_⟩, fun p k hk hb => ?_,
    fun p i j hv he hd => ?_, fun hon => ⟨fun hg hu hb hn hr ho => ?_, fun hg he hc => ?_, fun c hu => ⟨fun hslot => ?_,
    fun hslot => ?_⟩⟩, fun ht hd hs hh hr hm hg => ?_⟩
  · refine (abort_written s q v h n hn n.isLt hv).trans (congrArg (s.written s.spine) (nceAbort_frame _ n x ?_ ?_))
    · exact (given_get (fun d => (d.nce n).frame) (fun _ _ => rfl) _ _ _ _).trans hx
    · simpa only [Dev.chSt, given_f] using hst
  · exact bt0HiWrite_written s q v h n
  · exact (txStream_written s q v h k).trans (congrArg (s.written s.spine) (strmCfg_tx _ s.spine v k hv
      ((given_get (fun d => d.sharedFree (.tx k)) (fun _ _ => rfl) _ _ _ _).trans hs)))
  · exact (capStream_written s q v h k).trans (congrArg (s.written s.spine) (strmCfg_cap _ s.spine v k hv
      ((given_get (fun d => d.sharedFree (.cap k)) (fun _ _ => rfl) _ _ _ _).trans hs)))
  · have ht : (s.dev.given q (F.FH_TXRDY_CARRIER p).addr v).txSym (p + bitsOf v.toNat 6 2) (bitsOf v.toNat 0 6) k =
        s.dev.txSym (p + bitsOf v.toNat 6 2) (bitsOf v.toNat 0 6) k :=
      given_get (fun d => d.txSym (p + bitsOf v.toNat 6 2) (bitsOf v.toNat 0 6) k) (fun _ _ => rfl) _ _ _ _
    refine (txrdyWrite_written s q v h p).trans (congrArg (s.written s.spine) ?_)
    rw [← ht] at hb ⊢
    exact doorbell_first _ s.spine v p k
      ((given_get (fun d => d.bellSym s.spine p v) (fun _ _ => rfl) _ _ _ _).trans hk) hb
  · exact (tscapArm_written s q v h p).trans (congrArg (s.written s.spine) (tscapArm_uplink _ v p i j hv
      ((given_get (fun d => d.entryOf p (v.toNat % 512)) (fun _ _ => rfl) _ _ _ _).trans he) ((given_f _ _ _ _ _).trans hd)))
  · refine (captureCommand_written s q v h).trans (congrArg (s.written s.spine) ?_)
    rw [captureCommand_go _ s.spine v hg ((given_glzOn _ q v _).trans hon)
      ((given_fnUp _ q v _ 129).trans hu) (by rw [given_f]; exact hb) hn
      ((given_fb _ _ _ _ _).trans hr) ho]
    simp only [given_f]
  · exact (estimateCommand_written s q v h).trans (congrArg (s.written s.spine) (estimateCommand_go _ v hg
      ((given_glzOn _ q v _).trans hon)
      ((given_get (fun d => d.glz.est) (fun _ _ => rfl) _ _ _ _).trans he) hc))
  · exact (nextTWrite_written s q v h c).trans (congrArg (s.written s.spine) ((nextTWrite_up _ v c
      ((given_glzOn _ q v _).trans hon)
      ((given_fnUp _ q v _ 129).trans hu)).trans (if_pos hslot)))
  · exact (nextTWrite_written s q v h c).trans (congrArg (s.written s.spine) ((nextTWrite_up _ v c
      ((given_glzOn _ q v _).trans hon)
      ((given_fnUp _ q v _ 129).trans hu)).trans (if_neg (by simp [hslot]))))
  · refine targetWrite_written s q v h _ (modeRequest_retargets _ s.spine _ ht ((given_fb _ _ _ _ _).trans hd) ?_ ?_ ?_ ?_ ?_)
    · rwa [show (s.dev.given q F.GSO_MODE_TARGET.addr v).servoGood = s.dev.servoGood from
        given_get Dev.servoGood (fun _ _ => rfl) _ _ _ _]
    · rwa [given_f]
    · simpa only [given_f] using hr
    · exact (given_get Dev.mode (fun _ _ => rfl) _ _ _ _).trans hm
    · exact (given_f _ _ _ _ _).trans hg

end Sys2Proof.Proofs

/-! Proofs of the statements about the AK core (chapter 04): O1 to O10, O13, O21, O27, O28 and O53. -/

namespace Sys2Proof.Proofs
open Sys2Proof.Machine Sys2Proof.Laws

/-! ## A lone instruction by its meaning -/

/-- Outside loops and delay slots no rule of sequence is broken (R140). -/
theorem seqBad_alone (sp : Spine) (d : Dev) (k : Nat) (b : List Instr) (x : Sem) (ha : Alone sp d k) :
    (held d k b).seqBad k x = false := by
  simp only [Dev.seqBad, held_core, held_fb, ha.ds, ha.la, ha.ra]
  cases x.seq <;> rfl

/-- Outside loops and delay slots the exception of an instruction is its own, if it acts. -/
theorem trapOf_ready (sp : Spine) (d : Dev) (k : Nat) (b : List Instr) (x : Sem) (ha : Alone sp d k) :
    (held d k b).trapOf k x = if x.run then x.trap else none := by
  simp only [Dev.trapOf, seqBad_alone sp d k b x ha]
  cases x.run <;> rfl

section
variable {s : State} {i : Instr} {h : Hd} {x : Sem} (hr : Ready s h) (hh : headOf i = some h)
include hr hh

/-- A guarded instruction that only has results. -/
theorem guarded_of_sem {h' : Hd} {l : List (RegWr × Nat × Bool)} (hs : semOf s.spine (held s.dev h.k [i]) i = some (h, x))
    (hk : h'.k = h.k) (hg : x.run = s.dev.guard h') (ht : x.trap = none) (he : x.eff = wrs l) (hl : ∀ y ∈ l, 1 ≤ y.2.1) :
    coreInstr i s = s.guarded h' l := by
  rw [State.guarded, State.results, hk, ← hg]
  refine issued s i _ (instr_lone s.spine s.dev i h x _ hh hr.last hr.alone hs ?_ ?_ ?_)
  · rw [trapOf_ready s.spine _ _ _ _ hr.alone, ht, ite_self]
  · cases x.run
    · rfl
    · exact he
  · split
    · exact hl
    · simp

/-- An instruction without a guard that only has results. -/
theorem results_of_sem {l : List (RegWr × Nat × Bool)} (hs : semOf s.spine (held s.dev h.k [i]) i = some (h, x))
    (hx : x.run = true) (ht : x.trap = none) (he : x.eff = wrs l) (hl : ∀ y ∈ l, 1 ≤ y.2.1) :
    coreInstr i s = s.results h l := by
  refine issued s i _ (instr_lone s.spine s.dev i h x _ hh hr.last hr.alone hs ?_ ?_ hl)
  · rw [trapOf_ready s.spine _ _ _ _ hr.alone, ht, ite_self]
  · rw [hx, if_pos rfl, he]

/-! ## Scalar arithmetic -/

/-- An instruction that computes one general register. -/
theorem semG_runs {h' : Hd} {word : Nat} {rd : Reg} {srcs : List Reg} {lat : Nat} {v w : Word} (hk : h'.k = h.k) (hlat : 1 ≤ lat)
    (hs : semOf s.spine (held s.dev h.k [i]) i = some (h, semG (held s.dev h.k [i]) h' word rd srcs lat v)) (hv : v = w) :
    coreInstr i s = s.guarded h' [(.g rd w, lat, false)] :=
  guarded_of_sem hr hh hs hk (by rw [semG, ← hk, held_guard]) rfl (by rw [semG, hv]; rfl) (by simpa using hlat)

/-- A register-to-register instruction of the ALU reads its sources as they stand. -/
theorem semAlu_runs {minor : Nat} {rd rs1 rs2 : Reg} {op : Word → Word → Word} {v : Word}
    (hs : semOf s.spine (held s.dev h.k [i]) i = some (h, semAlu (held s.dev h.k [i]) h minor rd rs1 rs2 op))
    (hv : op (s.dev.g h.k rs1) (s.dev.g h.k rs2) = v) : coreInstr i s = s.guarded h [(.g rd v, 1, false)] :=
  semG_runs hr hh rfl Nat.one_pos hs (by rw [held_g, held_g, hv])

/-- An instruction that computes a whole predicate. -/
theorem semP_runs {h' : Hd} {word : Nat} {pd : PReg} {srcs : List Reg} {b c : Bool} (hk : h'.k = h.k)
    (hs : semOf s.spine (held s.dev h.k [i]) i = some (h, semP (held s.dev h.k [i]) h' word pd srcs b)) (hb : b = c) :
    coreInstr i s = s.guarded h' [(.p (s.dev.pp h.k pd) (predOf c), 1, false)] :=
  guarded_of_sem hr hh hs hk (by rw [semP, ← hk, held_guard]) rfl (by rw [semP, hk, held_pp, hb]; rfl) (by simp)

/-- A register-to-register compare reads its sources as they stand. -/
theorem semCmp_runs {minor : Nat} {pd : PReg} {rs1 rs2 : Reg} {op : Word → Word → Bool} {b : Bool}
    (hs : semOf s.spine (held s.dev h.k [i]) i = some (h, semCmp (held s.dev h.k [i]) h minor pd rs1 rs2 op))
    (hb : op (s.dev.g h.k rs1) (s.dev.g h.k rs2) = b) :
    coreInstr i s = s.guarded h [(.p (s.dev.pp h.k pd) (predOf b), 1, false)] :=
  semP_runs hr hh rfl hs (by rw [held_g, held_g, hb])

end

/-- Settles O1: each is one result of the ALU, or of one source. -/
theorem scalarAluResults : Obligations.ScalarAluResults := by
  intro s h rd rs1 rs2 hr
  exact ⟨semAlu_runs hr rfl rfl rfl, semAlu_runs hr rfl rfl rfl, semAlu_runs hr rfl rfl rfl, semAlu_runs hr rfl rfl rfl,
    semAlu_runs hr rfl rfl rfl, semAlu_runs hr rfl rfl rfl, semAlu_runs hr rfl rfl rfl, semAlu_runs hr rfl rfl rfl,
    semAlu_runs hr rfl rfl rfl, semAlu_runs hr rfl rfl rfl, semAlu_runs hr rfl rfl rfl, semAlu_runs hr rfl rfl rfl,
    semG_runs hr rfl rfl Nat.one_pos rfl (by rw [held_g]),
    semG_runs hr rfl rfl Nat.one_pos rfl (by simp [clz32, BitVec.toNat_eq])⟩

/-- Settles O2: each is one result of a source and its immediate, guarded as its format has it. -/
theorem scalarImmediateResults : Obligations.ScalarImmediateResults := by
  intro s h rd rs1 imm sh i16 hr
  exact ⟨semG_runs hr rfl rfl Nat.one_pos rfl (by rw [held_g]), semG_runs hr rfl rfl Nat.one_pos rfl (by rw [held_g]),
    semG_runs hr rfl rfl Nat.one_pos rfl (by rw [held_g]), semG_runs hr rfl rfl Nat.one_pos rfl (by rw [held_g]),
    semG_runs hr rfl rfl Nat.one_pos rfl (by rw [held_g]), semG_runs hr rfl rfl Nat.one_pos rfl (by rw [held_g]),
    semG_runs hr rfl rfl Nat.one_pos rfl (by rw [held_g]), semG_runs hr rfl rfl Nat.one_pos rfl rfl,
    semG_runs hr rfl rfl Nat.one_pos rfl (by rw [held_g, if_pos rfl])⟩

/-- Settles O3: each writes one whole predicate. -/
theorem scalarCompareResults : Obligations.ScalarCompareResults := by
  intro s h pd rs1 rs2 imm hr
  exact ⟨semCmp_runs hr rfl rfl rfl, semCmp_runs hr rfl rfl rfl, semCmp_runs hr rfl rfl rfl, semCmp_runs hr rfl rfl rfl,
    semCmp_runs hr rfl rfl rfl, semCmp_runs hr rfl rfl rfl, semP_runs hr rfl rfl rfl (by rw [held_g]; rfl),
    semP_runs hr rfl rfl rfl (by rw [held_g]; rfl), semP_runs hr rfl rfl rfl (by rw [held_g]; rfl),
    semP_runs hr rfl rfl rfl (by rw [held_g]; rfl)⟩

/-- Settles O4: each is one result of latency 2; a shift to 16 raises nothing. -/
theorem multiplyAndNarrowResults : Obligations.MultiplyAndNarrowResults := by
  intro s h rd rs1 rs2 as sh hr
  have reads : ((held s.dev h.k [.anarrow h rd as sh]).core h.k).ra as = (s.dev.core h.k).ra as := by
    rw [held_core]; rfl
  refine ⟨semG_runs hr rfl rfl (by decide) rfl (by rw [held_g, held_g]),
    semG_runs hr rfl rfl (by decide) rfl (by rw [held_g, held_g]),
    semG_runs hr rfl rfl (by decide) rfl (by rw [held_g, held_g]), fun h16 => ?narrow,
    semG_runs hr rfl rfl (by decide) rfl (by rw [held_core]; rfl)⟩
  exact guarded_of_sem hr rfl rfl rfl (held_guard _ _ _) (if_neg (Nat.not_lt.mpr h16))
    (by rw [semAnarrow, semG, reads]; rfl) (by simp)

end Sys2Proof.Proofs

namespace Sys2Proof.Proofs
open Sys2Proof.Machine Sys2Proof.Laws

/-! ## Accumulators and searches -/

/-- The signed value of the low bits of a number is that of the bit vector which they make. -/
theorem sx_eq_toInt (w x : Nat) (hw : 0 < w) : sx w x = (BitVec.ofNat w x).toInt := by
  obtain ⟨n, rfl⟩ := Nat.exists_eq_add_of_lt hw
  rw [BitVec.toInt_eq_toNat_cond, BitVec.toNat_ofNat, sx]
  have hp : 2 ^ (0 + n + 1) = 2 * 2 ^ (0 + n + 1 - 1) := by rw [Nat.add_sub_cancel, Nat.pow_succ, Nat.mul_comm]
  split <;> split <;> omega

/-- The signed bits of a word from bit `lo`. -/
theorem sx_extract (w lo : Nat) (a : Word) (hw : 0 < w) : sx w (a.toNat / 2 ^ lo) = (a.extractLsb' lo w).toInt := by
  rw [sx_eq_toInt _ _ hw, ← Nat.shiftRight_eq_div_pow]
  rfl

theorem sx_setWidth (w : Nat) (a : Word) (hw : 0 < w) : sx w a.toNat = (a.setWidth w).toInt := by
  rw [sx_eq_toInt _ _ hw, ← BitVec.ofNat_toNat]

/-- A register number is odd where its last bit is 1. -/
theorem odd_eq (r : Reg) : Reg.odd r = decide (r.toNat % 2 = 1) := Nat.testBit_zero _

/-- With no accumulation under way an accumulating instruction reads its accumulator as it stands. -/
theorem accSrc_held {s : State} {h : Hd} (hr : Ready s h) (b : List Instr) (ad : AReg) :
    accSrc (held s.dev h.k b) h.k ad = ((s.dev.core h.k).ra ad).toInt := by
  rw [accSrc, held_core, hr.alone.inflight]
  rfl

section
variable {s : State} {i : Instr} {h : Hd} (hr : Ready s h) (hh : headOf i = some h)
include hr hh

/-- An accumulating instruction writes the low bits of its exact value, and sets AOV where the value does not fit. -/
theorem semAcc_runs {word : Nat} {ad : AReg} {srcs : List Reg} {x y : Int} (hen : s.dev.fb (F.CORE_STATUS_AOV_EN h.k) = false)
    (hs : semOf s.spine (held s.dev h.k [i]) i = some (h, semAcc (held s.dev h.k [i]) h word ad srcs x)) (hx : x = y) :
    coreInstr i s = if s.dev.guard h then
        s.flagged h [(.a ad (BitVec.ofInt 48 y), 2, true)] (accOverflow y) Dev.setAov
      else s.results h [] := by
  subst hx
  have hg : (semAcc (held s.dev h.k [i]) h word ad srcs x).run = s.dev.guard h := held_guard _ _ _
  have ht := trapOf_ready s.spine s.dev h.k [i] (semAcc (held s.dev h.k [i]) h word ad srcs x) hr.alone
  rw [show (semAcc (held s.dev h.k [i]) h word ad srcs x).trap = none from rfl, ite_self] at ht
  split
  case isTrue hrun =>
    refine issued s i _ ((instr_flag s.spine s.dev i h _ [(.a ad (BitVec.ofInt 48 x), 2, true)]
      (if accOverflow x then [.aov ad.toNat] else []) hh hr.last hr.alone hs ht ?_ (by simp) ?_ (.inr hen) (.inl ?_)).trans ?_)
    · rw [hg, hrun, if_pos rfl]; rfl
    · split <;> simp [flagEff]
    · split <;> simp
    · split <;> rfl
  case isFalse hrun =>
    exact issued s i _ (instr_lone s.spine s.dev i h _ [] hh hr.last hr.alone hs ht (by rw [hg, if_neg hrun]; rfl) (by simp))

/-- A search keeps the better of two values, or of equal ones that of the lower index, with its index. -/
theorem semIdx_runs {minor : Nat} {rd rs1 rs2 : Reg} {better : Word → Word → Bool} {b : Bool} (hodd : Reg.odd rd = false)
    (hs : semOf s.spine (held s.dev h.k [i]) i = some (h, semIdx (held s.dev h.k [i]) h minor rd rs1 rs2 better))
    (hb : better (s.dev.g h.k rs1) (s.dev.g h.k rd) = b) :
    let v := s.dev.g h.k rd
    let n := s.dev.g h.k (rd + 1)
    let nv := s.dev.g h.k rs1
    let ni := s.dev.g h.k rs2
    let take := b || (nv == v && decide (ni.toNat < n.toNat))
    coreInstr i s = s.guarded h [(.g rd (if take then nv else v), 2, true), (.g (rd + 1) (if take then ni else n), 2, true)] := by
  have hi := hr.alone.inflight
  have read : ∀ r, chainG ((held s.dev h.k [i]).core h.k).inflight r (((held s.dev h.k [i]).core h.k).rg r) = s.dev.g h.k r := by
    intro r
    rw [held_core, hi]
    rfl
  subst hb
  refine guarded_of_sem hr hh hs rfl (held_guard _ _ _) (by rw [semIdx, hodd]; rfl) ?_ (by simp)
  rw [semIdx]
  simp only [read, held_g]
  rfl

end

/-- Settles O5: each accumulates its exact value. -/
theorem accumulatorResults : Obligations.AccumulatorResults := by
  intro s h ad rs1 rs2 hr hen
  refine ⟨semAcc_runs hr rfl hen rfl ?_, semAcc_runs hr rfl hen rfl ?_, semAcc_runs hr rfl hen rfl ?_,
    semAcc_runs hr rfl hen rfl rfl, semAcc_runs hr rfl hen rfl (by rw [held_g])⟩
  · simp only [accSrc_held hr, held_g, halfProduct, sx_setWidth 16 _ (by decide)]
  · simp only [accSrc_held hr, held_g, halfProduct, sx_setWidth 16 _ (by decide)]
  · simp only [accSrc_held hr, held_g, byteDot, sx_setWidth 8 _ (by decide), sx_extract 8 _ _ (by decide), Int.add_assoc]

/-- Settles O6: each is a search by its own order. -/
theorem indexSearchResults : Obligations.IndexSearchResults := by
  intro s h rd rs1 rs2 hr heven
  have hodd : Reg.odd rd = false := by rw [odd_eq, heven]; rfl
  exact ⟨semIdx_runs hr rfl hodd rfl rfl, semIdx_runs hr rfl hodd rfl rfl, semIdx_runs hr rfl hodd rfl rfl,
    semIdx_runs hr rfl hodd rfl rfl⟩

end Sys2Proof.Proofs

namespace Sys2Proof.Proofs
open Sys2Proof.Machine Sys2Proof.Laws

/-! ## Little-endian numbers -/

theorem ofLeBytes_append (l m : List Byte) : ofLeBytes (l ++ m) = ofLeBytes l + 256 ^ l.length * ofLeBytes m := by
  induction l with
  | nil => simp [ofLeBytes]
  | cons b t ih =>
    rw [List.cons_append, ofLeBytes, ih, ofLeBytes, List.length_cons, Nat.pow_succ]
    ring

theorem ofLeBytes_lt (l : List Byte) : ofLeBytes l < 256 ^ l.length := by
  induction l with
  | nil => simp [ofLeBytes]
  | cons b t ih =>
    have hb := b.isLt
    rw [ofLeBytes, List.length_cons, Nat.pow_succ]
    omega

/-- The two words of eight bytes. -/
theorem ofLeBytes_halves (l : List Byte) (hl : 4 ≤ l.length) :
    BitVec.ofNat 32 (ofLeBytes (l.take 4)) = BitVec.ofNat 32 (ofLeBytes l) ∧ ofLeBytes (l.drop 4) = ofLeBytes l / 2 ^ 32 := by
  have hlen : (l.take 4).length = 4 := List.length_take_of_le hl
  have hlt := ofLeBytes_lt (l.take 4)
  have hsum := ofLeBytes_append (l.take 4) (l.drop 4)
  rw [List.take_append_drop, hlen] at hsum
  rw [hlen] at hlt
  refine ⟨BitVec.eq_of_toNat_eq ?_, by omega⟩
  rw [BitVec.toNat_ofNat, BitVec.toNat_ofNat]
  omega

@[simp] theorem bytes_length (d : Dev) (a n : Nat) : (d.bytes a n).length = n := by simp [Dev.bytes]

/-! ## Scalar loads and stores -/

/-- Where the data of a scalar load goes. -/
def ldDst (rd : Reg) (m : MForm) : LdDst := if m.sz = 3 then .pair rd else .g rd (mSize m) (!m.u)

/-- The base update of a post-increment, as a result. -/
def baseRes (m : MForm) (rb : Reg) (o : AddrOut) : List (RegWr × Nat × Bool) :=
  if m.pi then [(.g rb (BitVec.ofNat 32 o.base), 1, false)] else []

theorem baseUpdate_eq (m : MForm) (rb : Reg) (o : AddrOut) : baseUpdate m.pi rb o = wrs (baseRes m rb o) := by
  unfold baseUpdate baseRes
  split <;> rfl

theorem baseRes_late (m : MForm) (rb : Reg) (o : AddrOut) : ∀ x ∈ baseRes m rb o, 1 ≤ x.2.1 := by
  unfold baseRes
  split <;> simp

/-- The results of a scalar load that brings the number `x`. -/
def ldRes (rd : Reg) (m : MForm) (x : Nat) : List (RegWr × Nat × Bool) :=
  if m.sz = 3 then [(.g rd (BitVec.ofNat 32 x), 4, false), (.g (rd + 1) (BitVec.ofNat 32 (x / 2 ^ 32)), 4, false)]
  else [(.g rd (if m.u then BitVec.ofNat 32 x else BitVec.ofInt 32 (sx (8 * 2 ^ m.sz.toNat) x)), 4, false)]

/-- The register writes of a scalar load. -/
theorem loadWr_ldDst (rd : Reg) (m : MForm) (es : List Elem) (l : List Byte) (hl : l.length = 2 ^ m.sz.toNat) :
    (loadWr (ldDst rd m) es [l]).map (fun r => (r, 4, false)) = ldRes rd m (ofLeBytes l) := by
  have hf : [l].flatten = l := by simp
  unfold ldDst ldRes
  split
  case isTrue h3 =>
    obtain ⟨hlo, hhi⟩ := ofLeBytes_halves l (by rw [hl, h3]; decide)
    rw [loadWr, hf, hlo, hhi]
    rfl
  case isFalse h3 =>
    rw [loadWr, hf]
    cases m.u <;> rfl

/-- The access of a scalar load or store. -/
def scalarElem (o : AddrOut) (m : MForm) (da : Nat) (p : Path) (data : List Byte) : Elem :=
  { ca := o.addr, da := da, path := p, size := mSize m, unit := mSize m, lane := 0, data := data }

/-- The number that a scalar store writes. -/
def stValue (s : State) (h : Hd) (rd : Reg) (m : MForm) : Nat :=
  (s.dev.g h.k rd).toNat + (if m.sz = 3 then (s.dev.g h.k (rd + 1)).toNat * 2 ^ 32 else 0)

section
variable {s : State} {i : Instr} {h : Hd} {x : Sem} (hr : Ready s h) (hh : headOf i = some h)
  (hs : semOf s.spine (held s.dev h.k [i]) i = some (h, x))
include hr hh hs

/-- An instruction that its guard is against has no effect. -/
theorem idle_of_sem (hx : x.run = false) : coreInstr i s = s.results h [] := by
  refine issued s i _ (instr_lone s.spine s.dev i h x [] hh hr.last hr.alone hs ?_ (by rw [hx]; rfl) (by simp))
  rw [trapOf_ready s.spine _ _ _ _ hr.alone, hx, if_neg Bool.false_ne_true]

/-- A load of the data scratch that raises nothing. -/
theorem loads_of_sem {dst : LdDst} {es : List Elem} {lat : Nat} {u : List (RegWr × Nat × Bool)} (hb : s.dev.bad = [])
    (hx : x.run = true) (ht : x.trap = none) (he : x.eff = .ld dst es lat :: wrs u) (hlat : 1 ≤ lat) (hu : ∀ y ∈ u, 1 ≤ y.2.1)
    (hes : ∀ e ∈ es, e.path = .scratch) :
    coreInstr i s = s.results h (((loadWr dst (es.map fun e => { e with data := s.dev.bytes e.da e.size })
      (es.map fun e => s.dev.bytes e.da e.size)).map fun r => (r, lat, false)) ++ u) := by
  refine issued s i _ (instr_ld s.spine s.dev i h x dst es lat u hh hr.last hr.alone hb hs ?_ ?_ hlat hu hes)
  · rw [trapOf_ready s.spine _ _ _ _ hr.alone, ht, ite_self]
  · rw [hx, if_pos rfl, he]

/-- A store to the data scratch that raises nothing. -/
theorem stores_of_sem {es : List Elem} {u : List (RegWr × Nat × Bool)} (hc : Clean s.dev)
    (hx : x.run = true) (ht : x.trap = none) (he : x.eff = .st es :: wrs u) (hu : ∀ y ∈ u, 1 ≤ y.2.1)
    (hes : ∀ e ∈ es, e.path = .scratch) : coreInstr i s = s.to ((stored s.dev es).lone h.k u) := by
  refine issued s i _ (instr_st s.spine s.dev i h x es u hh hr.last hr.alone hc hs ?_ ?_ hu hes)
  · rw [trapOf_ready s.spine _ _ _ _ hr.alone, ht, ite_self]
  · rw [hx, if_pos rfl, he]

end

section
variable {s : State} {h : Hd} {rd rb : Reg} {m : MForm} {da : Nat} {p : Path} {o : AddrOut}

/-- A scalar access in a good window, aligned and mapped, raises nothing. -/
theorem memTrap_none (word : Nat) (v : Word) (hodd : ¬ (m.sz = 3 ∧ rd.toNat % 2 = 1)) (hb : o.bad = false)
    (ha : o.addr % 2 ^ m.sz.toNat = 0) : memTrap word m rd o v (some (da, p)) = none := by
  rw [memTrap, odd_eq, if_neg (by simpa using hodd), hb, if_neg Bool.false_ne_true, mSize, if_neg (not_not.mpr ha)]
  rfl

section
variable (b : List Instr)
  (ho : s.dev.address h.k (s.dev.g h.k rb).toNat (m.imm.toInt * ((2 ^ m.sz.toNat : Nat) : Int)) m.pi m.cwe m.cw.toNat = o)
include ho

/-- What a scalar load does: it raises nothing and loads its one access. -/
theorem semLd_parts (hodd : ¬ (m.sz = 3 ∧ rd.toNat % 2 = 1)) (hb : o.bad = false) (ha : o.addr % 2 ^ m.sz.toNat = 0)
    (hm : s.dev.mapAddr h.k o.addr false = some (da, p)) :
    let x := semLd (held s.dev h.k b) h rd rb m
    x.run = s.dev.guard h.noGn ∧ x.trap = none ∧
      x.eff = .ld (ldDst rd m) [scalarElem o m da p []] 4 :: wrs (baseRes m rb o) := by
  have ho' : s.dev.address h.k (s.dev.g h.k rb).toNat (m.imm.toInt * (mSize m : Int)) m.pi m.cwe m.cw.toNat = o := ho
  refine ⟨held_guard _ _ h.noGn, ?_, ?_⟩
  · simp only [semLd, held_g, held_address, held_mapAddr, ho', hm]
    exact memTrap_none _ _ hodd hb ha
  · simp only [semLd, held_g, held_address, held_mapAddr, ho', hm, baseUpdate_eq]
    rfl

/-- What a scalar store does: it raises nothing and stores its one access. -/
theorem semSt_parts (hodd : ¬ (m.sz = 3 ∧ rd.toNat % 2 = 1)) (hb : o.bad = false) (ha : o.addr % 2 ^ m.sz.toNat = 0)
    (hm : s.dev.mapAddr h.k o.addr true = some (da, p)) :
    let x := semSt (held s.dev h.k b) h rd rb m
    x.run = s.dev.guard h.noGn ∧ x.trap = none ∧
      x.eff = .st [scalarElem o m da p (leBytes (mSize m) (stValue s h rd m))] :: wrs (baseRes m rb o) := by
  have ho' : s.dev.address h.k (s.dev.g h.k rb).toNat (m.imm.toInt * (mSize m : Int)) m.pi m.cwe m.cw.toNat = o := ho
  have hv : (if m.sz = 3 then (s.dev.g h.k rd).toNat + (s.dev.g h.k (Reg.next rd)).toNat * 2 ^ 32
      else (s.dev.g h.k rd).toNat) = stValue s h rd m := by
    unfold stValue Reg.next
    split <;> rfl
  refine ⟨held_guard _ _ h.noGn, ?_, ?_⟩
  · simp only [semSt, held_g, held_address, held_mapAddr, ho', hm]
    exact memTrap_none _ _ hodd hb ha
  · simp only [semSt, held_g, held_address, held_mapAddr, ho', hm, baseUpdate_eq, hv]
    rfl

end
end

/-- Settles O7: with its guard against it neither has an effect; else the load's one access brings its bytes, and the store's
one access writes them. -/
theorem scratchLoadStoreResults : Obligations.ScratchLoadStoreResults := by
  intro s h rd rb m da hr hc hodd n o upd x got v hb ha
  refine ⟨fun hm => ?load, fun hm => ?store⟩
  case load =>
    obtain ⟨hrun, htrap, heff⟩ := semLd_parts [.ld h rd rb m] rfl hodd hb ha hm
    rw [State.guarded]
    split
    case isTrue hg =>
      refine (loads_of_sem hr (i := .ld h rd rb m) rfl rfl hc.bad (hrun.trans hg) htrap heff (by decide) (baseRes_late _ _ _)
        (by simp [scalarElem])).trans ?_
      exact congrArg (fun l => s.results h (l ++ upd)) (loadWr_ldDst rd m _ (s.dev.bytes da n) (bytes_length _ _ _))
    case isFalse hg => exact idle_of_sem (h := h) hr (i := .ld h rd rb m) rfl rfl (hrun.trans (Bool.eq_false_iff.mpr hg))
  case store =>
    obtain ⟨hrun, htrap, heff⟩ := semSt_parts [.st h rd rb m] rfl hodd hb ha hm
    split
    case isTrue hg =>
      exact stores_of_sem hr (i := .st h rd rb m) rfl rfl hc (hrun.trans hg) htrap heff (baseRes_late _ _ _)
        (by simp [scalarElem])
    case isFalse hg => exact idle_of_sem hr (i := .st h rd rb m) rfl rfl (hrun.trans (Bool.eq_false_iff.mpr hg))

end Sys2Proof.Proofs

namespace Sys2Proof.Proofs
open Sys2Proof.Machine Sys2Proof.Laws

/-! ## Branches, loops and returns -/

/-- An effect that ends in no exception at its bundle's end. -/
def quietEff (e : Eff) : Bool :=
  match e with
  | .aov _ | .vov | .trapEnd _ => false
  | _ => true

theorem endTrap_quiet (d0 d : Dev) (k epc : Nat) (e : Eff) (he : quietEff e = true) : d0.endTrap d k epc [e] = d := by
  cases e with
  | aov _ | vov | trapEnd _ => cases he
  | _ => exact endTrap_off _ _ _ _ _ rfl (.inl rfl) (.inl rfl)

section
variable {s : State} {i : Instr} {h : Hd} {x : Sem} (hr : Ready s h) (hh : headOf i = some h)
  (hs : semOf s.spine (held s.dev h.k [i]) i = some (h, x)) (hx : x.run = true) (ht : x.trap = none)
include hr hh hs hx ht

/-- An instruction with results and one effect beside them, which leads to the device `w`. -/
theorem one_of_sem {l : List (RegWr × Nat × Bool)} {e : Eff} {w : Dev} (he : x.eff = wrs l ++ [e]) (hl : ∀ y ∈ l, 1 ≤ y.2.1)
    (h1 : oneEff e = true) (hq : quietEff e = true)
    (hw : fxLate h.k (s.dev.f (F.CORE_STATUS_PRIV h.k)) (s.spine, landed s.dev h.k [i] l) e = (s.spine, w)) :
    coreInstr i s = s.to ((w.advance h.k ((s.dev.core h.k).pc.toNat + 4) [e]).bundleDone h.k) := by
  refine issued s i _ ((instr_one s.spine s.dev i h x l e hh hr.last hr.alone hs ?_ (by rw [hx, if_pos rfl, he]) hl h1).trans ?_)
  · rw [trapOf_ready s.spine _ _ _ _ hr.alone, ht, ite_self]
  · simp only [hw, endTrap_quiet _ _ _ _ _ hq]

end

/-- A change of a core that does not meet what the end of a bundle clears. -/
def KeepsEnd (f : Core → Core) : Prop :=
  (∀ c : Core, f { c with bundle := [], stall := .none, got := [], fills := [], emitted := 0, eslDone := none }
      = { f c with bundle := [], stall := .none, got := [], fills := [], emitted := 0, eslDone := none }) ∧
  ∀ c : Core, (f c).step = c.step

/-- What is done to a core after its results have landed is done to the device that its lone bundle leaves. -/
theorem landed_then (d : Dev) (k n : Nat) (b : List Instr) (l : List (RegWr × Nat × Bool)) (f : Core → Core) (hs : Still d k)
    (hn : n = (d.core k).pc.toNat + 4) (hf : KeepsEnd f) :
    (((landed d k b l).setPc k n).mapCore k f).bundleDone k = (d.lone k l).mapCore k f := by
  subst hn
  obtain ⟨g, a, p, v, hc⟩ := (applyWrs_issue d k (l.filter fun x => x.2.1 == 1)).core
  have hstep : (((landed d k b l).setPc k ((d.core k).pc.toNat + 4)).core k).step = false := by
    simp [Dev.setPc, landed, hc, hs.step]
  rw [done_map _ _ _ hf.1 hstep ((hf.2 _).trans hstep), landed_done d k b l hs]

theorem setPc_setPc (d : Dev) (k m n : Nat) : (d.setPc k m).setPc k n = d.setPc k n := by
  simp only [Dev.setPc, mapCore_mapCore]

section
variable {s : State} {i : Instr} {h : Hd} {x : Sem} (hr : Ready s h) (hh : headOf i = some h)
  (hs : semOf s.spine (held s.dev h.k [i]) i = some (h, x)) (hx : x.run = true) (ht : x.trap = none)
include hr hh hs hx ht

/-- A branch that is not taken has no effect but its results. -/
theorem stays_of_sem {l : List (RegWr × Nat × Bool)} (he : x.eff = wrs l ++ [.branch none]) (hl : ∀ y ∈ l, 1 ≤ y.2.1) :
    coreInstr i s = s.results h l := by
  obtain ⟨c1, c2, c3⟩ := landed_core s.dev h.k [i] l (still_of s.spine _ _ hr.alone)
  rw [one_of_sem hr hh hs hx ht he hl rfl rfl rfl, State.results]
  refine congrArg s.to ?_
  rw [Dev.advance, show goesOf [Eff.branch none] = none from rfl]
  exact (congrArg (Dev.bundleDone · h.k) (goOn_plain _ _ _ c1 c2 c3)).trans
    (landed_done s.dev h.k [i] l (still_of s.spine _ _ hr.alone))

/-- A taken branch goes to its target after three delay slots. -/
theorem branches_of_sem {l : List (RegWr × Nat × Bool)} {t : BitVec 16} (he : x.eff = wrs l ++ [.branch (some t)])
    (hl : ∀ y ∈ l, 1 ≤ y.2.1) :
    coreInstr i s = s.to ((s.dev.lone h.k l).mapCore h.k fun c => { c with ds := 3, target := some t }) := by
  rw [one_of_sem hr hh hs hx ht he hl rfl rfl rfl]
  exact congrArg s.to (landed_then _ _ _ _ _ _ (still_of s.spine _ _ hr.alone) rfl ⟨fun _ => rfl, fun _ => rfl⟩)

/-- A loop that is skipped goes on after its body. -/
theorem skips_of_sem {n : Nat} (he : x.eff = [.skip n]) : coreInstr i s = s.to ((s.dev.lone h.k []).setPc h.k n) := by
  rw [one_of_sem (l := []) hr hh hs hx ht he (by simp) rfl rfl rfl]
  refine congrArg s.to (Eq.trans ?_ (landed_then _ _ _ [i] [] (fun c => { c with pc := BitVec.ofNat 16 n })
    (still_of s.spine _ _ hr.alone) rfl ⟨fun _ => rfl, fun _ => rfl⟩))
  exact congrArg (Dev.bundleDone · h.k) (setPc_setPc _ _ _ _).symm

/-- A repeat starts. -/
theorem repeats_of_sem {n : Nat} (he : x.eff = [.rpt n]) : coreInstr i s =
    s.to (((s.dev.lone h.k []).setF (F.CORE_RC_RC h.k) n).setF (F.CORE_STATUS_RA h.k) 1) := by
  rw [one_of_sem (l := []) hr hh hs hx ht he (by simp) rfl rfl rfl]
  exact congrArg (fun d => s.to ((Dev.setF d _ n).setF _ 1)) (landed_done _ _ [i] [] (still_of s.spine _ _ hr.alone))

/-- What ERET leaves. -/
theorem returns_of_sem (he : x.eff = [.eret]) : coreInstr i s = s.to ((s.dev.lone h.k []).trapReturn h.k) := by
  have hst := still_of s.spine _ _ hr.alone
  rw [one_of_sem (l := []) hr hh hs hx ht he (by simp) rfl rfl rfl, landed_nil _ _ _ hst.inflight]
  refine congrArg s.to ?_
  show ((held s.dev h.k [i]).trapReturn h.k).bundleDone h.k = _
  simp only [Dev.trapReturn, held, Dev.lone, List.filter_nil, List.foldl_nil, List.map_nil, f_mapCore, setF_mapCore,
    Dev.bundleDone, mapCore_mapCore]
  refine mapCore_eq _ _ _ _ ?_
  simp [hst.bundle, hst.stall, hst.got, hst.fills, hst.emitted, hst.eslDone, hst.step, hst.inflight]

end

/-- A SYS instruction at a level that may run it raises nothing (R123). -/
theorem sysTrap_none (d : Dev) (h : Hd) (b : List Instr) (word : Nat) (priv : Bool) (hp : priv = true → d.level h.k ≠ .u) :
    (if priv && (held d h.k b).level h.k == .u then some (tPriv, word) else none) = none := by
  rw [held_level]
  refine if_neg fun hc => ?_
  obtain ⟨h1, h2⟩ := Bool.and_eq_true_iff.mp hc
  exact hp h1 (eq_of_beq h2)

/-- What a return leaves in the status register. -/
theorem trapReturn_status (d : Dev) (k : Nat) :
    let t := d.trapReturn k
    t.f (F.CORE_STATUS_PRIV k) = d.f (F.CORE_STATUS_PPRIV k) ∧ t.f (F.CORE_STATUS_IE k) = d.f (F.CORE_STATUS_PIE k) ∧
    t.f (F.CORE_STATUS_LA k) = d.f (F.CORE_ESTATE_LA k) ∧ t.f (F.CORE_STATUS_RA k) = d.f (F.CORE_ESTATE_RA k) := by
  have p1 := f_lt d (F.CORE_STATUS_PPRIV k)
  have p2 := f_lt d (F.CORE_STATUS_PIE k)
  have p3 := f_lt d (F.CORE_ESTATE_LA k)
  have p4 := f_lt d (F.CORE_ESTATE_RA k)
  simp only [F.CORE_STATUS_PPRIV, F.CORE_STATUS_PIE, F.CORE_ESTATE_LA, F.CORE_ESTATE_RA] at p1 p2 p3 p4
  refine ⟨?_, ?_, ?_, ?_⟩ <;>
  · simp [Dev.trapReturn, f_setF_cases, F.CORE_STATUS_PRIV, F.CORE_STATUS_IE, F.CORE_STATUS_PPRIV, F.CORE_STATUS_PIE,
      F.CORE_STATUS_LA, F.CORE_STATUS_RA, F.CORE_ESTATE_LA, F.CORE_ESTATE_RA]
    omega

/-- Settles O13: the device after ERET is that of the lone bundle, returned. -/
theorem eretRestores : Obligations.EretRestores := by
  intro s h hr hl k ds
  have hrun := returns_of_sem hr (i := .eret h) rfl rfl rfl (sysTrap_none _ _ _ _ true fun _ => hl) rfl
  obtain ⟨h1, h2, h3, h4⟩ := trapReturn_status (s.dev.lone h.k []) h.k
  have hc : ((s.dev.lone h.k []).trapReturn h.k).core h.k =
      { s.dev.core h.k with
        pc := BitVec.ofNat 16 (s.dev.f (F.CORE_EPC_EPC h.k) * 4), ds := s.dev.f (F.CORE_ESTATE_DS h.k), inflight := []
        target := if s.dev.f (F.CORE_ESTATE_DS h.k) = 0 then none else some (BitVec.ofNat 16 (s.dev.f (F.CORE_EBT_EBT h.k) * 4)) } := by
    simp [Dev.trapReturn, Dev.lone]
  exact ⟨_, hrun, h1, h2, h3, h4, congrArg Core.pc hc, congrArg Core.ds hc, congrArg Core.target hc,
    fun r => (congrArg (Core.rg · r) hc :), rfl, rfl⟩

end Sys2Proof.Proofs

namespace Sys2Proof.Proofs
open Sys2Proof.Machine Sys2Proof.Laws

/-! ## Branches -/

/-- Where bundles lie does not hang on what the core holds. -/
theorem held_bundleAt (d : Dev) (k a n : Nat) (b : List Instr) : (held d k b).bundleAt k a n = d.bundleAt k a n := by
  induction n generalizing a with
  | zero => rfl
  | succ n ih => exact ih _

/-- The bundle after a lone one. -/
theorem held_nextPc (d : Dev) (k : Nat) (i : Instr) : (held d k [i]).nextPc k = (d.core k).pc.toNat + 4 := by
  rw [Dev.nextPc, held_core]
  rfl

theorem held_linkPc (d : Dev) (k : Nat) (i : Instr) :
    (held d k [i]).linkPc k = BitVec.ofNat 32 (d.bundleAt k ((d.core k).pc.toNat + 4) 3) := by
  rw [Dev.linkPc, held_nextPc, held_bundleAt]

section
variable {s : State} {i : Instr} {h : Hd} (hr : Ready s h) (hh : headOf i = some h) {word : Nat} {sq : Seq} {taken : Bool}
  {t u : Int} {dests : List DReg} {srcs : List Reg} {l : List (RegWr × Nat × Bool)}
  (hs : semOf s.spine (held s.dev h.k [i]) i = some (h, semBranch word sq taken t dests srcs (wrs l)))
include hr hh hs

theorem branch_idle (hg : taken = false) : coreInstr i s = s.results h [] := by
  subst hg
  exact stays_of_sem (l := []) hr hh hs rfl rfl rfl (by simp)

theorem branch_goes (hg : taken = true) (ht : t = u) (hu : 0 ≤ u ∧ u < 65536) (hl : ∀ y ∈ l, 1 ≤ y.2.1) :
    coreInstr i s = s.to ((s.dev.lone h.k l).mapCore h.k fun c =>
      { c with ds := 3, target := some (BitVec.ofNat 16 (u.toNat / 4 * 4)) }) := by
  subst hg ht
  refine branches_of_sem hr hh hs rfl (if_neg ?_) rfl hl
  simp only [Bool.true_and, Bool.or_eq_true, decide_eq_true_eq, not_or, not_lt, not_le]
  exact hu

end

/-- Settles O8: by the guard, and by where the target lies. -/
theorem branchResults : Obligations.BranchResults := by
  intro s h off far rd rs1 hr pc link go ok
  have hpc : ∀ i, (((held s.dev h.k [i]).core h.k).pc.toNat : Int) = pc := fun i => by rw [held_core]
  refine ⟨fun hg => ⟨?_, ?_, ?_⟩, fun hg => ⟨fun ht => ?_, fun ht => ⟨?_, ?_⟩⟩, fun ht => ?_⟩
  · exact branch_idle (l := []) hr (i := .br h off) rfl rfl ((held_guard _ _ _).trans hg)
  · exact branch_idle (l := []) hr (i := .jr h rs1) rfl rfl ((held_guard _ _ _).trans hg)
  · exact branch_idle (l := [(.g rd _, 1, false)]) hr (i := .jalr h rd rs1) rfl rfl ((held_guard _ _ _).trans hg)
  · exact branch_goes (l := []) hr (i := .br h off) rfl rfl ((held_guard _ _ _).trans hg) (by rw [hpc]) ht (by simp)
  · exact branch_goes (l := []) hr (i := .jr h rs1) rfl rfl ((held_guard _ _ _).trans hg) (by rw [held_g]) ht (by simp)
  · rw [show link = _ from (held_linkPc s.dev h.k (.jalr h rd rs1)).symm]
    exact branch_goes (l := [(.g rd _, 1, false)]) hr (i := .jalr h rd rs1) rfl rfl ((held_guard _ _ _).trans hg)
      (by rw [held_g]) ht (by simp)
  · rw [show link = _ from (held_linkPc s.dev h.k (.call h far)).symm]
    exact branch_goes (l := [(.g 31 _, 1, false)]) hr (i := .call h far) rfl rfl rfl (by rw [hpc]) ht (by simp)

/-! ## Loops -/

/-- The device in which a loop has started after a lone bundle. -/
def loopStarted (d : Dev) (k n next le : Nat) (info : LoopInfo) : Dev :=
  ((((d.setF (F.CORE_LC_LC k) n).setF (F.CORE_LS_LS k) (next / 4)).setF (F.CORE_LE_LE k) (le % 2 ^ 16 / 4)).setF
    (F.CORE_STATUS_LA k) 1).mapCore k fun c => { c with loops := SMap.set c.loops (next / 4) (some info) none }

section
variable {s : State} {i : Instr} {h : Hd} {x : Sem} (hr : Ready s h) (hh : headOf i = some h)
  (hs : semOf s.spine (held s.dev h.k [i]) i = some (h, x)) (hx : x.run = true) (ht : x.trap = none)
include hr hh hs hx ht

/-- A loop starts, and turns its stages where it has any. -/
theorem loops_of_sem {n le : Nat} {info : LoopInfo} (he : x.eff = [.loop n le info]) : coreInstr i s =
    s.to (let d := loopStarted (s.dev.lone h.k []) h.k n ((s.dev.core h.k).pc.toNat + 4) le info
      if info.stg = 0 then d else d.rotate h.k info.stg) := by
  have hst := still_of s.spine _ _ hr.alone
  rw [one_of_sem (l := []) hr hh hs hx ht he (by simp) rfl rfl rfl, landed_nil _ _ _ hst.inflight]
  refine congrArg s.to ?_
  have hgo : goesOf [Eff.loop n le info] = some (.loop n le info) := rfl
  simp only [Dev.advance, hgo]
  split <;>
  · simp only [loopStarted, Dev.setPc, Dev.rotate, Dev.applyWr, held, Dev.lone, List.filter_nil, List.foldl_nil, List.map_nil,
      f_mapCore, setF_mapCore, Dev.bundleDone, mapCore_mapCore]
    refine mapCore_eq _ _ _ _ ?_
    simp [hst.bundle, hst.stall, hst.got, hst.fills, hst.emitted, hst.eslDone, hst.step, hst.inflight]

end

theorem loopTrap_none (d : Dev) (k : Nat) (b : List Instr) (r : Bool) (n total : Nat) (hn : r = true → n ≤ 65536)
    (hc : d.fb (F.CORE_STATUS_IE k) = false ∨ d.f (F.CORE_LOOP_CEIL_CEIL k) = 0 ∨ total ≤ d.f (F.CORE_LOOP_CEIL_CEIL k)) :
    loopTrap (held d k b) k r n total = none := by
  have h1 : ¬ (r = true ∧ 65536 < n) := fun h => Nat.not_lt.mpr (hn h.1) h.2
  have h2 : ¬ (d.fb (F.CORE_STATUS_IE k) = true ∧ d.f (F.CORE_LOOP_CEIL_CEIL k) ≠ 0 ∧ d.f (F.CORE_LOOP_CEIL_CEIL k) < total) := by
    rintro ⟨hie, hne, hlt⟩
    rcases hc with h | h | h
    · exact Bool.false_ne_true (h.symm.trans hie)
    · exact hne h
    · exact Nat.not_lt.mpr h hlt
  simp only [loopTrap, held_fb, held_f, if_neg h1, if_neg h2]

/-- The effect of a loop's start after a lone bundle. -/
theorem held_loopEff (d : Dev) (k : Nat) (i : Instr) (n len stg : Nat) : (held d k [i]).loopEff k n len stg =
    (let next := (d.core k).pc.toNat + 4
     if n = 0 then .skip (d.bundleAt k next len)
     else .loop n (d.bundleAt k next (len - 1)) { tail := d.bundleAt k next (len - 3), stg := stg }) := by
  simp only [Dev.loopEff, held_nextPc, held_bundleAt]

theorem held_loopCount (d : Dev) (k : Nat) (b : List Instr) (r : Bool) (cnt : BitVec 14) : loopCount (held d k b) k r cnt =
    if r then (d.g k (cnt.setWidth 5)).toNat else cnt.toNat := by
  rw [loopCount, held_g]

/-- Settles O9: by whether the count is 0, and whether the loop has stages. -/
theorem loopStarts : Obligations.LoopStarts := by
  intro s h stg len1 r cnt hr k n next bundle free d start hn
  have hcount : ∀ i, loopCount (held s.dev h.k [i]) h.k r cnt = n := fun i => held_loopCount _ _ _ _ _
  refine ⟨fun hf => ?loop, fun hf => ?loopS, fun hf => ?rpt⟩
  case loop =>
    have ht : (semLoop (held s.dev h.k [.loop h len1 r cnt]) h len1 r cnt).trap = none := by
      simp only [semLoop, hcount]
      exact loopTrap_none _ _ _ _ _ _ hn hf
    have he : (semLoop (held s.dev h.k [.loop h len1 r cnt]) h len1 r cnt).eff =
        [if n = 0 then .skip (bundle (len1.toNat + 1))
         else .loop n (bundle len1.toNat) { tail := bundle (len1.toNat + 1 - 3), stg := 0 }] := by
      simp only [semLoop, hcount, held_loopEff]
      rfl
    split
    next h0 => exact skips_of_sem hr (i := .loop h len1 r cnt) rfl rfl rfl ht (by rw [he, if_pos h0])
    next h0 => exact loops_of_sem hr (i := .loop h len1 r cnt) rfl rfl rfl ht (by rw [he, if_neg h0])
  case loopS =>
    have ht : (semLoopS (held s.dev h.k [.loopS h stg len1 r cnt]) h stg len1 r cnt).trap = none := by
      simp only [semLoopS, hcount]
      exact loopTrap_none _ _ _ _ _ _ hn hf
    have he : (semLoopS (held s.dev h.k [.loopS h stg len1 r cnt]) h stg len1 r cnt).eff =
        [if (if n = 0 then 0 else n + stg.toNat) = 0 then .skip (bundle (len1.toNat + 1))
         else .loop (if n = 0 then 0 else n + stg.toNat) (bundle len1.toNat)
          { tail := bundle (len1.toNat + 1 - 3), stg := stg.toNat }] := by
      simp only [semLoopS, hcount, held_loopEff]
      rfl
    split
    next h0 =>
      rw [if_pos h0] at he
      exact skips_of_sem hr (i := .loopS h stg len1 r cnt) rfl rfl rfl ht he
    next h0 =>
      rw [if_neg h0, if_neg (by omega)] at he
      refine (loops_of_sem hr (i := .loopS h stg len1 r cnt) rfl rfl rfl ht he).trans (congrArg s.to ?_)
      by_cases h1 : stg = 0
      · subst h1
        rfl
      · exact (if_neg fun h2 => h1 (BitVec.eq_of_toNat_eq h2)).trans (if_neg h1).symm
  case rpt =>
    have ht : (semRpt (held s.dev h.k [.rpt h r cnt]) h r cnt).trap = none := by
      simp only [semRpt, hcount]
      exact loopTrap_none _ _ _ _ _ _ hn hf
    have he : (semRpt (held s.dev h.k [.rpt h r cnt]) h r cnt).eff = [if n = 0 then .skip (bundle 1) else .rpt n] := by
      simp only [semRpt, hcount, held_nextPc, held_bundleAt]
      rfl
    split
    next h0 => exact skips_of_sem hr (i := .rpt h r cnt) rfl rfl rfl ht (by rw [he, if_pos h0])
    next h0 => exact repeats_of_sem hr (i := .rpt h r cnt) rfl rfl rfl ht (by rw [he, if_neg h0])

end Sys2Proof.Proofs

namespace Sys2Proof.Proofs
open Sys2Proof.Machine Sys2Proof.Laws

/-! ## Fences, cache instructions and WFI -/

/-- Fences and cache instructions: what acts on the lines of the L1, or on nothing. -/
def lineEff (e : Eff) : Bool :=
  match e with
  | .fence | .cache _ _ _ | .cacheAll _ => true
  | _ => false

/-- What these effects do not do. -/
structure LineOnly (e : Eff) : Prop where
  loads : loadAccs [e] [] = []
  stores : storeAccs [e] = []
  esl : eslOf [e] = none
  load : ∀ x : Sem, x.eff = [e] → loadOf x = none
  own : ownEff e = true
  res : resOf [e] = []
  goes : goesOf [e] = none
  quiet : quietEff e = true
  late : ∀ k lvl w, fxLate k lvl w e = w
  flag : ∀ k d, fxFlag k d e = d

theorem lineEff_only (e : Eff) (h : lineEff e = true) : LineOnly e := by
  have hload : ∀ (f : Eff), (∀ dst es lat, f ≠ .ld dst es lat) → ∀ x : Sem, x.eff = [f] → loadOf x = none := by
    intro f hf x hx
    rw [loadOf, hx]
    cases f with
    | ld dst es lat => exact absurd rfl (hf dst es lat)
    | _ => rfl
  cases e with
  | fence | cache _ _ _ | cacheAll _ =>
    exact ⟨rfl, rfl, rfl, hload _ (by simp), rfl, rfl, rfl, rfl, fun _ _ _ => rfl, fun _ _ => rfl⟩
  | _ => cases h

/-- A core with another L1. -/
def withL1 (m : SMap (Option Line)) (c : Core) : Core := { c with l1 := m }

theorem still_withL1 (d : Dev) (k : Nat) (m : SMap (Option Line)) (h : Still d k) : Still (d.mapCore k (withL1 m)) k := by
  have hc : (d.mapCore k (withL1 m)).core k = withL1 m (d.core k) := core_mapCore_same _ _ _
  exact { bundle := hc ▸ h.bundle, stall := hc ▸ h.stall, got := hc ▸ h.got, fills := hc ▸ h.fills, emitted := hc ▸ h.emitted
          eslDone := hc ▸ h.eslDone, inflight := hc ▸ h.inflight, ds := hc ▸ h.ds, step := hc ▸ h.step
          la := (fb_mapCore _ _ _ _).trans h.la, ra := (fb_mapCore _ _ _ _).trans h.ra
          tries := by rw [csSeen_mapCore, h.tries] }

section
variable {s : State} {i : Instr} {h : Hd} {x : Sem} (hr : Ready s h) (hh : headOf i = some h)
  (hs : semOf s.spine (held s.dev h.k [i]) i = some (h, x)) (hx : x.run = true) (ht : x.trap = none)
include hr hh hs hx ht

/-- An instruction that acts on the lines of the L1 alone, where none of them has to wait. -/
theorem lines_of_sem {e : Eff} {m : SMap (Option Line)} (he : x.eff = [e]) (hl : lineEff e = true)
    (hf : fences [e] = true → s.dev.fabWrites (coreUid h.k) 0 = false)
    (hp : ∀ lvl, putAll h.k lvl [e] (held s.dev h.k [i]) = (true, held (s.dev.mapCore h.k (withL1 m)) h.k [i])) :
    coreInstr i s = s.to ((s.dev.lone h.k []).mapCore h.k (withL1 m)) := by
  have hst := still_of s.spine _ _ hr.alone
  have hst1 := still_withL1 s.dev h.k m hst
  obtain ⟨hla, hsa, hesl, hload, hown1, hres, hgo, hquiet, hlate, hflag⟩ := lineEff_only e hl
  have hld := hload x he
  have hfar : ∀ c : Core, c.far [e] = false := fun c => by simp [Core.far, hla, hsa]
  have hown : ∀ y ∈ [e], ownEff y = true := fun y hy => by rw [List.mem_singleton.mp hy, hown1]
  have hed : ((held s.dev h.k [i]).core h.k).eslDone = none := by rw [held_core]; exact hst.eslDone
  have hre : ∀ (d : Dev) got, resolve d got 0 [] [] [x] = ([e], none) := fun d got => by
    simp only [resolve, hld, he, List.nil_append]
  have htrap := trapOf_ready s.spine s.dev h.k [i] x hr.alone
  rw [ht, ite_self] at htrap
  refine issued s i _ ((issue_lone s.spine s.dev i h x hh hr.last hr.alone hs htrap (by rw [hx, if_pos rfl, he]; exact hf)
    (by rw [hx, if_pos rfl, he]; exact hfar _)).trans ?_)
  rw [hx, if_pos rfl]
  unfold issueGo
  simp only [List.flatMap_singleton, he, hsa, hla, fetchLines, storeFirst, List.any_nil, Bool.false_and, Bool.false_eq_true,
    if_false, Bool.not_true, Bool.or_self, fetchElems, hre, Core.regWaits, List.map_nil, hed, hesl, Option.isNone_none,
    Bool.and_self, if_true, Option.getD_none, issueEnd, hp]
  rw [commit_own s.spine _ h.k [i] [e] hst1.tries hst1.inflight hown (by rw [hres]; simp), hres]
  obtain ⟨c1, c2, c3⟩ := landed_core _ h.k [i] [] hst1
  simp only [List.foldl_cons, List.foldl_nil, hlate, hflag, Dev.advance, hgo, endTrap_quiet _ _ _ _ _ hquiet]
  rw [goOn_plain _ _ _ c1 c2 c3, landed_done _ h.k [i] [] hst1]
  refine congrArg _ ?_
  simp only [Dev.lone, List.filter_nil, List.foldl_nil, mapCore_mapCore]
  rfl

end

/-- One line of the L1, once a cache instruction has passed it. -/
def keepStep (p : Nat → Bool) (inval : Bool) (m : SMap (Option Line)) (x : Nat × Option Line) : SMap (Option Line) :=
  match x.2 with
  | none => m
  | some ln => if p ln.addr then SMap.set m x.1 (if inval then none else some { ln with dirty := false }) none else m

theorem cacheKeep_eq (p : Nat → Bool) (inval : Bool) (l : SMap (Option Line)) :
    cacheKeep p inval l = l.foldl (keepStep p inval) l := (rfl)

/-- A cache instruction that cleans no dirty line waits for nothing. -/
theorem cacheOp_clean (k lvl : Nat) (clean inval : Bool) (hit : Nat → Bool) (l : SMap (Option Line)) (d : Dev) (f : Core → Core)
    (hc : clean = true → ∀ x ∈ l, ∀ ln, x.2 = some ln → hit ln.addr = true → ln.dirty = false) :
    cacheOp k lvl clean inval hit l (d.mapCore k f) =
      (true, d.mapCore k fun c => { f c with l1 := l.foldl (keepStep hit inval) (f c).l1 }) := by
  induction l generalizing f with
  | nil => rfl
  | cons x t ih =>
    obtain ⟨n, v⟩ := x
    have hct := fun e y hy => hc e y (List.mem_cons_of_mem _ hy)
    cases v with
    | none => exact ih f hct
    | some ln =>
      rw [cacheOp]
      by_cases hl : hit ln.addr = true
      · have hd : (clean && ln.dirty) = false := by
          cases hcl : clean with
          | false => rfl
          | true => exact hc hcl _ List.mem_cons_self ln rfl hl
        have := ih (fun c => { f c with
          l1 := SMap.set (f c).l1 n (if inval then none else some { ln with dirty := false }) none }) hct
        simp only [hl, hd, if_true, Bool.false_eq_true, if_false, mapCore_mapCore, List.foldl_cons, keepStep]
        exact this
      · simp only [hl, List.foldl_cons, keepStep]
        exact ih f hct

/-- A bundle whose one effect is no store places its lines and then acts on those of the L1. -/
theorem putAll_lines (k lvl : Nat) (d : Dev) (e : Eff) (he : storeAccs [e] = []) : putAll k lvl [e] d =
    (let r := fillAll k lvl (d.core k).fills d
     if r.1 then
       match e with
       | .cache clean inval rs =>
         cacheOp k lvl clean inval (fun a => rs.any fun x => decide (a < x.1 + x.2) && decide (x.1 < a + 64)) (r.2.core k).l1 r.2
       | .cacheAll inval => cacheOp k lvl true inval (fun _ => true) (r.2.core k).l1 r.2
       | _ => r
     else r) := by
  simp only [putAll, he, List.drop_nil, storeAll, List.foldl_cons, List.foldl_nil]
  obtain ⟨ok, d1⟩ := fillAll k lvl (d.core k).fills d
  cases ok
  · rfl
  · cases e <;> rfl

/-- The lines, stores and cache operations of a bundle that has but a cache instruction. -/
theorem putAll_cache (d : Dev) (k lvl : Nat) (b : List Instr) (e : Eff) (clean inval : Bool) (hit : Nat → Bool)
    (hf : (d.core k).fills = [])
    (he : ∀ w, putAll k lvl [e] w = (let r := fillAll k lvl (w.core k).fills w
      if r.1 then cacheOp k lvl clean inval hit (r.2.core k).l1 r.2 else r))
    (hc : clean = true → ∀ x ∈ (d.core k).l1, ∀ ln, x.2 = some ln → hit ln.addr = true → ln.dirty = false) :
    putAll k lvl [e] (held d k b) = (true, held (d.mapCore k (withL1 (cacheKeep hit inval (d.core k).l1))) k b) := by
  have hf1 : ((held d k b).core k).fills = [] := by rw [held_core]; exact hf
  have hl1 : ((held d k b).core k).l1 = (d.core k).l1 := by rw [held_core]
  rw [he, hf1]
  simp only [fillAll, if_true, hl1]
  rw [held, cacheOp_clean k lvl clean inval hit _ d _ hc, held, mapCore_mapCore, cacheKeep_eq]
  exact congrArg _ (mapCore_eq _ _ _ _ rfl)

theorem held_cacheRanges (d : Dev) (k lo n : Nat) (b : List Instr) :
    cacheRanges (held d k b) k lo n = cacheRanges d k lo n := (rfl)

/-- The lines that a cache instruction names by address. -/
def lineHit (rs : List (Nat × Nat)) (a : Nat) : Bool := rs.any fun x => decide (a < x.1 + x.2) && decide (x.1 < a + 64)

/-- The device of a lone cache instruction that names the lines `p`. -/
def linesKept (s : State) (h : Hd) (p : Nat → Bool) (inval : Bool) : Out :=
  s.to ((s.dev.lone h.k []).mapCore h.k fun c => { c with l1 := cacheKeep p inval c.l1 })

section
variable {s : State} {i : Instr} {h : Hd} (hr : Ready s h) (hh : headOf i = some h) {priv cl iv : Bool}
  (hp : priv = true → s.dev.level h.k ≠ .u)
include hr hh hp

/-- A cache instruction that cleans no dirty line keeps, marks clean or drops the lines it names. -/
theorem cacheEff_runs {word : Nat} {srcs : List Reg} {e : Eff} {p : Nat → Bool}
    (hs : semOf s.spine (held s.dev h.k [i]) i = some (h, semSys (held s.dev h.k [i]) h word priv srcs [e]))
    (hl : lineEff e = true) (hf : fences [e] = false)
    (he : ∀ lvl w, putAll h.k lvl [e] w = (let r := fillAll h.k lvl (w.core h.k).fills w
      if r.1 then cacheOp h.k lvl cl iv p (r.2.core h.k).l1 r.2 else r))
    (hc : cl = true → ∀ x ∈ (s.dev.core h.k).l1, ∀ ln, x.2 = some ln → p ln.addr = true → ln.dirty = false) :
    coreInstr i s = linesKept s h p iv := by
  refine (lines_of_sem hr hh hs rfl (sysTrap_none _ _ _ _ _ hp) rfl hl (by simp [hf])
    fun lvl => putAll_cache s.dev h.k lvl [i] e cl iv p hr.alone.fills (he lvl) hc).trans (congrArg s.to ?_)
  refine mapCore_eq _ _ _ _ ?_
  rw [Dev.lone, core_mapCore_same]
  rfl

theorem cache_runs {minor : Nat} {rs1 rs2 : Reg} {rs : List (Nat × Nat)}
    (hrs : cacheRanges s.dev h.k (s.dev.g h.k rs1).toNat (s.dev.g h.k rs2).toNat = rs)
    (hs : semOf s.spine (held s.dev h.k [i]) i = some (h, semCache (held s.dev h.k [i]) h minor priv cl iv rs1 rs2))
    (hc : cl = true → ∀ x ∈ (s.dev.core h.k).l1, ∀ ln, x.2 = some ln → lineHit rs ln.addr = true → ln.dirty = false) :
    coreInstr i s = linesKept s h (lineHit rs) iv := by
  rw [semCache, held_g, held_g, held_cacheRanges, hrs] at hs
  exact cacheEff_runs hr hh hp hs rfl rfl (fun lvl w => putAll_lines h.k lvl w _ rfl) hc

theorem cacheAll_runs {word : Nat}
    (hs : semOf s.spine (held s.dev h.k [i]) i = some (h, semSys (held s.dev h.k [i]) h word priv [] [.cacheAll iv]))
    (hc : ∀ x ∈ (s.dev.core h.k).l1, ∀ ln, x.2 = some ln → true = true → ln.dirty = false) :
    coreInstr i s = linesKept s h (fun _ => true) iv := by
  exact cacheEff_runs (cl := true) hr hh hp hs rfl rfl (fun lvl w => putAll_lines h.k lvl w _ rfl) fun _ => hc

/-- WFI stops its core. -/
theorem wfi_runs {word : Nat} (hs : semOf s.spine (held s.dev h.k [i]) i = some (h, semSys (held s.dev h.k [i]) h word priv [] [.wfi])) :
    coreInstr i s = s.to ((s.dev.lone h.k []).mapCore h.k fun c => { c with mode := .wfi }) := by
  have hst := still_of s.spine _ _ hr.alone
  obtain ⟨c1, c2, c3⟩ := landed_core s.dev h.k [i] [] hst
  have hgo : goesOf [Eff.wfi] = none := rfl
  rw [one_of_sem (l := []) hr hh hs rfl (sysTrap_none _ _ _ _ _ hp) rfl (by simp) rfl rfl rfl]
  refine congrArg s.to (Eq.trans ?_ (landed_then s.dev h.k _ [i] [] (fun c => { c with mode := .wfi }) hst rfl
    ⟨fun _ => rfl, fun _ => rfl⟩))
  simp only [Dev.advance, hgo]
  rw [goOn_plain _ _ _ (by rw [core_mapCore_same]; exact c1) (by rw [fb_mapCore]; exact c2) (by rw [fb_mapCore]; exact c3)]
  simp only [Dev.setPc, mapCore_mapCore]
end

/-- FENCE.W with nothing to wait for only moves on. -/
theorem fence_runs {s : State} {i : Instr} {h : Hd} (hr : Ready s h) (hh : headOf i = some h) {word : Nat}
    (hf : s.dev.fabWrites (coreUid h.k) 0 = false)
    (hs : semOf s.spine (held s.dev h.k [i]) i = some (h, semSys (held s.dev h.k [i]) h word false [] [.fence])) :
    coreInstr i s = s.results h [] := by
  have hsame : ∀ d : Dev, (d.lone h.k []).mapCore h.k (withL1 (d.core h.k).l1) = d.lone h.k [] := fun d => by
    rw [Dev.lone, mapCore_mapCore]
    exact mapCore_eq _ _ _ _ rfl
  refine (lines_of_sem hr hh hs rfl rfl rfl rfl (fun _ => hf) fun lvl => ?_).trans (congrArg s.to (hsame s.dev))
  have hfi : ((held s.dev h.k [i]).core h.k).fills = [] := by rw [held_core]; exact hr.alone.fills
  rw [putAll_lines _ _ _ _ rfl, hfi, held, held, mapCore_mapCore]
  exact congrArg _ (mapCore_eq _ _ _ _ rfl)

/-- Settles O10: none of them waits, and each acts on the lines it names, on a predicate, or on nothing. -/
theorem systemResults : Obligations.SystemResults := by
  intro s h rs1 rs2 pd hr k rs hit clean lines
  refine ⟨?_, fun hf => ?_, fun hc => ?_, ?_, fun hl => ⟨?_, fun hc => ?_, fun hc => ⟨?_, ?_⟩, ?_⟩⟩
  · exact results_of_sem hr (i := .nop h) rfl rfl rfl rfl rfl (by simp)
  · exact fence_runs hr (i := .fenceW h) rfl hf rfl
  · exact cache_runs hr (i := .clean h rs1 rs2) rfl (by simp) rfl rfl fun _ => hc
  · exact results_of_sem hr (i := .pclr h pd) rfl rfl rfl rfl rfl (by simp)
  · exact cache_runs hr (i := .inval h rs1 rs2) rfl (fun _ => hl) rfl rfl (by simp)
  · exact cache_runs hr (i := .flush h rs1 rs2) rfl (fun _ => hl) rfl rfl fun _ => hc
  · exact cacheAll_runs hr (i := .cleanAll h) rfl (fun _ => hl) rfl hc
  · exact cacheAll_runs hr (i := .flushAll h) rfl (fun _ => hl) rfl hc
  · exact wfi_runs hr (i := .wfi h) rfl (fun _ => hl) rfl

end Sys2Proof.Proofs

namespace Sys2Proof.Proofs
open Sys2Proof.Machine Sys2Proof.Laws

/-! ## What a core does between bundles -/

theorem setEvents_lt (d : Dev) (ev : Nat) (h : ev ∈ d.setEvents) : ev < 1024 := by
  rw [Dev.setEvents, List.mem_filter, List.mem_range] at h
  exact h.1

/-- The lines asserted at a core hang on its kill line and the event block alone. -/
theorem pendMask_congr (d e : Dev) (k : Nat) (hk : (e.core k).kill = (d.core k).kill)
    (hf : ∀ y : Fld, blkBase .evt ≤ y.addr → y.addr < blkBase .evt + 0x10000 → e.f y = d.f y) : e.pendMask k = d.pendMask k := by
  have hcfg : ∀ ev < 1024, e.f (F.EVT_CFG_LINE ev) = d.f (F.EVT_CFG_LINE ev) ∧ e.f (F.EVT_CFG_ROUTE ev) = d.f (F.EVT_CFG_ROUTE ev) ∧
      e.f (F.EVT_CFG_CLUSTER ev) = d.f (F.EVT_CFG_CLUSTER ev) := fun ev hev => by
    refine ⟨hf _ ?_ ?_, hf _ ?_ ?_, hf _ ?_ ?_⟩ <;> simp only [F.EVT_CFG_LINE, F.EVT_CFG_ROUTE, F.EVT_CFG_CLUSTER] <;> omega
  have hset : e.setEvents = d.setEvents := by
    refine List.filter_congr fun ev hev => ?_
    have hlt := List.mem_range.mp hev
    have hst : e.f (F.EVT_STAT_STAT (ev / 32)) = d.f (F.EVT_STAT_STAT (ev / 32)) := by
      refine hf _ ?_ ?_ <;> simp only [F.EVT_STAT_STAT] <;> omega
    simp only [Dev.evBit, hst]
  unfold Dev.pendMask
  rw [hset, hk]
  refine List.foldl_ext _ _ _ fun m ev hev => ?_
  obtain ⟨h1, h2, h3⟩ := hcfg ev (setEvents_lt d ev hev)
  have hr : e.routesTo ev (coreController k) (d.f (F.EVT_CFG_LINE ev)) = d.routesTo ev (coreController k) (d.f (F.EVT_CFG_LINE ev)) := by
    simp only [Dev.routesTo, h1, h2, h3]
  rw [h1, hr]

/-- A core's loop and repeat, left where their counts have run out. -/
def leftLoops (d : Dev) (k : Nat) : Dev := (d.loopEnd k).rptEnd k

theorem leftLoops_core (d : Dev) (k j : Nat) : (leftLoops d k).core j = d.core j := by
  unfold leftLoops Dev.rptEnd Dev.loopEnd
  split <;> split <;> rfl
theorem leftLoops_mem (d : Dev) (k : Nat) : (leftLoops d k).mem = d.mem := by
  unfold leftLoops Dev.rptEnd Dev.loopEnd
  split <;> split <;> rfl

/-- Leaving a loop or repeat changes but the two loop flags. -/
theorem leftLoops_f (d : Dev) (k : Nat) (y : Fld) (hy : y.addr ≠ coreBase k + 8 ∨ y.lo + y.w ≤ 16) :
    (leftLoops d k).f y = d.f y := by
  have hset : ∀ (d : Dev) (x : Fld), x.addr = coreBase k + 8 → 16 ≤ x.lo → x.lo + x.w ≤ 32 → (d.setF x 0).f y = d.f y := by
    intro d x hx hlo hw
    by_cases ha : y.addr = x.addr
    · exact f_setF_apart _ _ _ _ ha hw (.inr ((hy.resolve_left (not_not.mpr (ha.trans hx))).trans hlo))
    · exact f_setF_ne _ _ _ _ ha
  have hla : ∀ d : Dev, (d.setF (F.CORE_STATUS_LA k) 0).f y = d.f y := fun d =>
    hset d _ rfl (by simp [F.CORE_STATUS_LA]) (by simp [F.CORE_STATUS_LA])
  have hra : ∀ d : Dev, (d.setF (F.CORE_STATUS_RA k) 0).f y = d.f y := fun d =>
    hset d _ rfl (by simp [F.CORE_STATUS_RA]) (by simp [F.CORE_STATUS_RA])
  unfold leftLoops Dev.rptEnd Dev.loopEnd
  split <;> split <;> simp only [hla, hra]

/-- The status of a core is not in the event block. -/
theorem status_apart (k : CoreIx) (a : Nat) (h1 : blkBase .evt ≤ a) (h2 : a < blkBase .evt + 0x10000) : a ≠ coreBase k + 8 := by
  have hk := k.isLt
  have hb : blkBase .evt = 0x02010010000 := rfl
  unfold coreBase regionBase
  split <;> omega

theorem leftLoops_linesOn (d : Dev) (k : CoreIx) : (leftLoops d k).linesOn k = d.linesOn k := by
  have hp : (leftLoops d k).pendMask k = d.pendMask k :=
    pendMask_congr _ _ _ (by rw [leftLoops_core]) fun y h1 h2 => leftLoops_f _ _ _ (.inl (status_apart k _ h1 h2))
  have hi : ∀ n, (leftLoops d k).f (F.CORE_IEN_IEN k n) = d.f (F.CORE_IEN_IEN k n) := fun n => by
    refine leftLoops_f _ _ _ (.inl ?_)
    show coreBase k + 0x58 + n * 0x4 ≠ coreBase k + 8
    omega
  rw [Dev.linesOn, hp, hi, hi, Dev.linesOn]

theorem lowestLine_lt (m : Nat) : lowestLine m < 64 := by
  unfold lowestLine
  cases h : (List.range 64).find? fun i => bitAt m i with
  | none => decide
  | some i => exact List.mem_range.mp (List.mem_of_find?_eq_some h)

/-- An interrupt saves no value. -/
theorem trapSave_noValue (d : Dev) (k epc code : Nat) (int eob : Bool) (ds : Nat) (tg : Option (BitVec 16)) (y : Fld)
    (hy : y.addr ≠ (F.CORE_TVAL_TVAL k).addr) :
    (d.trapSave k epc int code none eob ds tg).f y = (d.trapSave k epc int code (some 0) eob ds tg).f y :=
  (f_setF_ne _ _ _ _ hy).symm

/-- What an interrupt leaves in the registers. -/
theorem interrupt_saves (d : Dev) (k n code : Nat) (hi : (d.core k).inflight = []) (hn : n < 2 ^ 16) (hcode : code < 64) :
    let t := d.trapEnter k n true code none false
    t.f (F.CORE_STATUS_PPRIV k) = d.f (F.CORE_STATUS_PRIV k) ∧ t.f (F.CORE_STATUS_PIE k) = d.f (F.CORE_STATUS_IE k) ∧
    t.f (F.CORE_STATUS_PRIV k) = 3 ∧ t.f (F.CORE_STATUS_IE k) = 0 ∧ t.f (F.CORE_CAUSE_INT k) = 1 ∧
    t.f (F.CORE_CAUSE_CODE k) = code ∧ t.f (F.CORE_EPC_EPC k) = n / 4 ∧ (t.core k).stall = .none := by
  have hsave : ∀ y : Fld, (d.trapEnter k n true code none false).f y =
      (d.trapSave k n true code none false (d.core k).ds (d.core k).target).f y := fun y => by
    simp only [Dev.trapEnter, landAll_nil d k 7 hi, trapSave_mapCore, f_mapCore, core_mapCore_same]
  obtain ⟨a1, a2, a3, a4, -, -⟩ := trapSave_status d k n true code none false (d.core k).ds (d.core k).target
  obtain ⟨-, -, -, -, b5, b6, b7, -⟩ := trapSave_saved d k n true code 0 false (d.core k).ds (d.core k).target
  rw [← trapSave_noValue _ _ _ _ _ _ _ _ _ (by simp [F.CORE_TVAL_TVAL, F.CORE_EPC_EPC])] at b5
  rw [← trapSave_noValue _ _ _ _ _ _ _ _ _ (by simp [F.CORE_TVAL_TVAL, F.CORE_CAUSE_CODE])] at b6
  rw [← trapSave_noValue _ _ _ _ _ _ _ _ _ (by simp [F.CORE_TVAL_TVAL, F.CORE_CAUSE_INT])] at b7
  rw [← hsave] at a1 a2 a3 a4 b5 b6 b7
  refine ⟨a1, a2, a3, a4, b7, b6.trans (Nat.mod_eq_of_lt hcode), b5.trans (Nat.mod_eq_of_lt (by omega)), ?_⟩
  rw [Dev.trapEnter, core_mapCore_same]

/-- What an interrupt that a core takes leaves, beside the loops that it has left. -/
def Taken (s : State) (k : Nat) (t : State) : Prop :=
  t.dev.f (F.CORE_STATUS_PPRIV k) = s.dev.f (F.CORE_STATUS_PRIV k) ∧ t.dev.f (F.CORE_STATUS_PIE k) = 1 ∧
  t.dev.f (F.CORE_STATUS_PRIV k) = 3 ∧ t.dev.f (F.CORE_STATUS_IE k) = 0 ∧ t.dev.f (F.CORE_CAUSE_INT k) = 1 ∧
  t.dev.f (F.CORE_CAUSE_CODE k) = lowestLine (s.dev.linesOn k) ∧
  t.dev.f (F.CORE_EPC_EPC k) = (s.dev.core k).pc.toNat / 4 ∧ (t.dev.core k).mode = .run ∧
  (t.dev.core k).pc = BitVec.ofNat 16 (s.dev.f (F.CORE_TVEC_BASE k) * 64 + 0x40) ∧ (t.dev.core k).stall = .none ∧
  (∀ r, t.dev.g k r = s.dev.g k r) ∧ t.dev.mem = s.dev.mem ∧ t.spine = s.spine

theorem taken_of_trapEnter (s : State) (k : CoreIx) (hi : (s.dev.core k).inflight = []) (hie : s.dev.f (F.CORE_STATUS_IE k) = 1) :
    Taken s k (s.withDev ((leftLoops s.dev k).trapEnter k (s.dev.core k).pc.toNat true (lowestLine (s.dev.linesOn k)) none false)) := by
  have hc := leftLoops_core s.dev k k
  have hi' : ((leftLoops s.dev k).core k).inflight = [] := by rw [hc, hi]
  have hpriv := leftLoops_f s.dev k (F.CORE_STATUS_PRIV k) (.inr (by simp [F.CORE_STATUS_PRIV]))
  have hien := leftLoops_f s.dev k (F.CORE_STATUS_IE k) (.inr (by simp [F.CORE_STATUS_IE]))
  have htvec := leftLoops_f s.dev k (F.CORE_TVEC_BASE k) (.inl (by simp [F.CORE_TVEC_BASE, blkBase]))
  obtain ⟨a1, a2, a3, a4, a5, a6, a7, a8⟩ := interrupt_saves (leftLoops s.dev k) k (s.dev.core k).pc.toNat
    (lowestLine (s.dev.linesOn k)) hi' (s.dev.core k).pc.isLt (lowestLine_lt _)
  obtain ⟨hg, -, -, -, hpc, -, hmode, hmem, -⟩ := trapEnter_keeps (leftLoops s.dev k) k (s.dev.core k).pc.toNat true
    (lowestLine (s.dev.linesOn k)) none false hi'
  generalize (leftLoops s.dev k).trapEnter k (s.dev.core k).pc.toNat true (lowestLine (s.dev.linesOn k)) none false = t at *
  refine ⟨a1.trans hpriv, a2.trans (hien.trans hie), a3, a4, a5, a6, a7, hmode, hpc.trans (by rw [htvec, if_pos rfl]), a8,
    fun r => ?_, hmem.trans (leftLoops_mem _ _), rfl⟩
  show SMap.get (t.core k).g r.toNat 0 = SMap.get (s.dev.core k).g r.toNat 0
  rw [hg, hc]

/-- An interrupt enters the trap of its line, where the core may take it. -/
theorem interrupt_goes (s : State) (k : CoreIx) (hi : (s.dev.core k).inflight = []) (hie : s.dev.f (F.CORE_STATUS_IE k) = 1)
    (i : Instr) (g : Whole → Whole) (hx : exec i s = wholeCmd s g)
    (hg : g (s.spine, s.dev) = (s.spine, (leftLoops s.dev k).trapEnter k (s.dev.core k).pc.toNat true
      (lowestLine (s.dev.linesOn k)) none false)) : ∃ t, exec i s = .next t ∧ Taken s k t :=
  ⟨_, hx.trans (wholeCmd_whole s g _ _ hg), taken_of_trapEnter s k hi hie⟩

/-- Between bundles a core that stands ready may take a line. -/
theorem interrupt_ready (sp : Spine) (d : Dev) (k : CoreIx) (ha : Alone sp d k) (hie : d.f (F.CORE_STATUS_IE k) = 1)
    (hl : d.linesOn k ≠ 0) :
    interrupt k (sp, d) = (sp, (leftLoops d k).trapEnter k (d.core k).pc.toNat true (lowestLine (d.linesOn k)) none false) := by
  have hleft : leftLoops d k = d := by rw [leftLoops, loopEnd_off _ _ ha.la, rptEnd_off _ _ ha.ra]
  have his := ha.issues
  simp only [Dev.issues, Bool.and_eq_true, beq_iff_eq, Bool.not_eq_true'] at his
  have hheld : d.heldOff k = false := by simp [Dev.heldOff, ha.ds, ha.la, ha.ra]
  rw [leftLoops] at hleft
  simp [interrupt, leftLoops, hleft, hheld, Dev.fb, hie, hl, ha.bundle, his]

/-- What ends a WFI: a line that is taken, or only leaves the wait. -/
theorem wfiWake_eq (sp : Spine) (d : Dev) (k : CoreIx) (hm : (d.core k).mode = .wfi) (ho : sp.contain.out (coreUid k) = false)
    (hp : sp.contain.pkg = 0) (hl : d.linesOn k ≠ 0) :
    wfiWake k (sp, d) = if d.f (F.CORE_STATUS_IE k) = 1 ∧ (leftLoops d k).heldOff k = false
      then (sp, (leftLoops d k).trapEnter k (d.core k).pc.toNat true (lowestLine (d.linesOn k)) none false)
      else (sp, (leftLoops d k).mapCore k fun c => { c with mode := .run }) := by
  have hien : (leftLoops d k).fb (F.CORE_STATUS_IE k) = (d.f (F.CORE_STATUS_IE k) == 1) :=
    congrArg (· == 1) (leftLoops_f d k _ (.inr (by simp [F.CORE_STATUS_IE])))
  have hlines := leftLoops_linesOn d k
  unfold leftLoops at *
  simp [wfiWake, hm, ho, hp, hl, hien, hlines]

/-- Settles O28: by what the core does, and whether it may take its line. -/
theorem coreEvents : Obligations.CoreEvents := by
  intro s k f left taken
  have hfb : ∀ y, (s.dev.fb y = true) = (f y = 1) := fun y => propext beq_iff_eq
  refine ⟨fun ho hm => congrArg s.to ?run, congrArg s.to ?loop, congrArg s.to ?rpt,
    fun hi hie hl => ⟨fun ha => ?taken, fun hm ho hp hh => ?woken⟩, fun hm ho hp hh hl => ?ends⟩
  case run => exact (if_neg (by rw [ho]; exact Bool.false_ne_true)).trans (if_pos hm)
  case loop => simp only [Dev.loopEnd, hfb, f]
  case rpt => simp only [Dev.rptEnd, hfb, f]
  case taken => exact interrupt_goes s k hi hie _ _ rfl (interrupt_ready _ _ k ha hie hl)
  case woken => exact interrupt_goes s k hi hie _ _ rfl ((wfiWake_eq _ _ k hm ho hp hl).trans (if_pos ⟨hie, hh⟩))
  case ends =>
    refine wholeCmd_to s (wfiWake k) _ ((wfiWake_eq _ _ k hm ho hp hl).trans (if_neg fun ⟨hie, hno⟩ => ?_))
    rcases hh with h0 | hon
    · exact absurd (h0.symm.trans hie) (by decide)
    · exact Bool.false_ne_true (hno.symm.trans hon)

end Sys2Proof.Proofs

namespace Sys2Proof.Proofs
open Sys2Proof.Machine Sys2Proof.Laws

/-! ## Bundles -/

/-- An instruction of a core's bundle is issued there. -/
theorem exec_of_head (s : State) (i : Instr) (h : Hd) (hh : headOf i = some h) : exec i s = coreInstr i s := by
  cases i <;> cases hh <;> rfl

/-- An instruction that is not the last of its bundle joins it. -/
theorem issueInstr_joins (sp : Spine) (d : Dev) (i : Instr) (h : Hd) (hh : headOf i = some h) (hl : h.last = false)
    (hi : d.issues sp h.k = true) (hb : (d.core h.k).bundle = []) : issueInstr i (sp, d) = (sp, held d h.k [i]) := by
  have e : (d.mapCore h.k fun c => { c with bundle := c.bundle ++ [i] }) = held d h.k [i] :=
    mapCore_eq _ _ _ _ (by rw [hb]; rfl)
  simp [issueInstr, hh, hi, hb, hl, e]

/-- The device whose core holds this bundle, with these results in flight. -/
def flying (d : Dev) (k : Nat) (b : List Instr) (fl : List InFlight) : Dev :=
  d.mapCore k fun c => { c with bundle := b, inflight := fl }

section
variable (d : Dev) (k : Nat) (b : List Instr) (fl : List InFlight)

@[simp] theorem flying_core : (flying d k b fl).core k = { d.core k with bundle := b, inflight := fl } := core_mapCore_same _ _ _
@[simp] theorem flying_fb (x : Fld) : (flying d k b fl).fb x = d.fb x := fb_mapCore d k _ x
@[simp] theorem flying_g (r : Reg) : (flying d k b fl).g k r = d.g k r := by simp [Dev.g, Core.rg]
theorem flying_guard (h : Hd) (hk : (h.k : Nat) = k) : (flying d k b fl).guard h = d.guard h := by
  subst hk
  simp [flying, Dev.guard, Dev.p, Core.rp, Dev.pp]

theorem flying_tries (h : d.csSeen k = d) : (flying d k b fl).csSeen k = flying d k b fl := by rw [flying, csSeen_mapCore, h]
theorem flying_issues (sp : Spine) : (flying d k b fl).issues sp k = d.issues sp k := by simp [Dev.issues]; rfl

/-- An instruction of a bundle that is listed means what it says. -/
theorem flying_listed (n : Nat) : (flying d k b fl).listedAt k n = d.listedAt k n := by simp only [Dev.listedAt, flying_core]; rfl
end

theorem firstTrap_none (d : Dev) (k n : Nat) (l : List Sem) (h : ∀ x ∈ l, d.trapOf k x = none) : d.firstTrap k l n = none := by
  induction l generalizing n with
  | nil => rfl
  | cons x t ih => rw [Dev.firstTrap, h x List.mem_cons_self, ih _ fun y hy => h y (List.mem_cons_of_mem _ hy)]

/-- Instructions that load nothing have the effects that they name. -/
theorem resolve_plain (d : Dev) (got : SMap (Option (List Byte))) (n : Nat) (l : List Sem) (acc st : List Eff)
    (h : ∀ x ∈ l, ∀ e ∈ x.eff, plainEff e = true) : resolve d got n acc st l = (acc ++ l.flatMap (·.eff), none) := by
  induction l generalizing acc st with
  | nil => rw [resolve, List.flatMap_nil, List.append_nil]
  | cons x t ih =>
    rw [resolve, plain_load x (h x List.mem_cons_self), List.flatMap_cons, ← List.append_assoc]
    exact ih _ _ fun y hy => h y (List.mem_cons_of_mem _ hy)

/-- An instruction that acts, is in sequence, raises nothing, and reaches no memory and no other unit. -/
structure PlainSem (x : Sem) : Prop where
  run : x.run = true
  seq : x.seq = .none
  trap : x.trap = none
  eff : ∀ e ∈ x.eff, plainEff e = true

/-- A whole bundle of such instructions takes effect at once. -/
theorem issue_plain (sp : Spine) (d : Dev) (k : Nat) (b : List Instr) (fl : List InFlight) (l : List Sem) (ha : Alone sp d k)
    (hw : ((b.getLast?.bind headOf).map (·.last)).getD false = true) (hs : semsOf sp (flying d k b fl) k = l)
    (hb : bundleBad l = false) (hx : ∀ x ∈ l, PlainSem x) :
    issue k none (sp, flying d k b fl) = commit k (4 * b.length) (l.flatMap (·.eff)) [] none (sp, flying d k b fl) := by
  have hL : (flying d k b fl).loopEnd k = flying d k b fl := loopEnd_off _ _ (by rw [flying_fb, ha.la])
  have hR : (flying d k b fl).rptEnd k = flying d k b fl := rptEnd_off _ _ (by rw [flying_fb, ha.ra])
  have hscb := scbHit_none ((flying d k b fl).core k) l (by rw [flying_core]; exact ha.cx)
  have htrap : (flying d k b fl).firstTrap k l 0 = none := firstTrap_none _ _ _ _ fun x hm => by
    simp [Dev.trapOf, Dev.seqBad, (hx x hm).run, (hx x hm).seq, (hx x hm).trap]
  have hact : actsOf l none = l := List.filter_eq_self.mpr fun x hm => (hx x hm).run
  have he : ∀ e ∈ l.flatMap (·.eff), plainEff e = true := fun e hm => by
    obtain ⟨x, hl, hm⟩ := List.mem_flatMap.mp hm
    exact (hx x hl).eff e hm
  have hgo : issueGo k (4 * b.length) l none [] (sp, flying d k b fl) =
      commit k (4 * b.length) (l.flatMap (·.eff)) [] none (sp, flying d k b fl) := by
    have hre : ∀ D got, resolve D got 0 [] [] l = (l.flatMap (·.eff), none) := fun D got =>
      resolve_plain D got 0 l [] [] fun x hm => (hx x hm).eff
    have hed : ((flying d k b fl).core k).eslDone = none := by rw [flying_core]; exact ha.eslDone
    have hput : ∀ lvl, putAll k lvl (l.flatMap (·.eff)) (flying d k b fl) = (true, flying d k b fl) :=
      fun lvl => putAll_plain k lvl _ _ he (by rw [flying_core]; exact ha.fills)
    unfold issueGo
    simp only [plain_loads _ _ he, plain_stores _ he, fetchLines, storeFirst, List.any_nil, Bool.false_and, Bool.false_eq_true,
      if_false, Bool.not_true, Bool.or_self, fetchElems, hre, Core.regWaits, List.map_nil, hed, own_esl _ (plain_own _ he),
      Option.isNone_none, Bool.and_self, if_true, Option.getD_none, issueEnd, hput]
  have hbun : ((flying d k b fl).core k).bundle = b := by rw [flying_core]
  unfold issue
  simp only [hbun, flying_issues, ha.issues, hw, Bool.and_self, if_true, hL, hR, hs, hb, Bool.not_false, hscb,
    Bool.false_eq_true, if_false, htrap, Option.map_none, hact, plain_fences _ he, Bool.false_and, plain_far _ _ he,
    Bool.and_false, Option.getD_none]
  exact hgo

/-- A result is written beside the bundle that is held and the results in flight. -/
theorem flying_applyWr (d : Dev) (k : Nat) (b : List Instr) (fl : List InFlight) (x : RegWr) :
    (flying d k b fl).applyWr k x = flying (d.applyWr k x) k b fl := by
  cases x with
  | vl n => rfl
  | _ => simp only [Dev.applyWr, flying, mapCore_mapCore] <;> rfl

/-- Results written in order. -/
def wrote (d : Dev) (k : Nat) (l : List InFlight) : Dev := l.foldl (fun d x => d.applyWr k x.wr) d

theorem flying_wrote (d : Dev) (k : Nat) (b : List Instr) (fl l : List InFlight) :
    wrote (flying d k b fl) k l = flying (wrote d k l) k b fl := by
  induction l generalizing d with
  | nil => rfl
  | cons x t ih => exact (congrArg (wrote · k t) (flying_applyWr d k b fl x.wr)).trans (ih _)

theorem wrote_issue (d : Dev) (k : Nat) (l : List InFlight) : SameIssue d (wrote d k l) k := by
  have h := applyWrs_issue d k (l.map fun x => (x.wr, 0, false))
  rwa [List.foldl_map] at h

/-- The results in flight once a bundle has put its own there. -/
def pending (fl : List InFlight) (l : List (RegWr × Nat × Bool)) : List InFlight :=
  (fl.map fun (y : InFlight) => { y with fresh := false }) ++ l.map fun y => inFlight y.1 y.2.1 y.2.2

/-- The results in flight at the end of that bundle. -/
def nearer (fl : List InFlight) (l : List (RegWr × Nat × Bool)) : List InFlight :=
  (pending fl l).map fun x => { x with rem := x.rem - 1 }

/-- Of results one bundle nearer, those that are due, and the others. -/
def dueOf (l : List InFlight) : List InFlight := l.filter fun x => x.rem == 0
def leftOf (l : List InFlight) : List InFlight := l.filter fun x => x.rem != 0

/-- The end of a bundle writes the results that are due. -/
theorem flying_lands (d : Dev) (k : Nat) (b : List Instr) (fl : List InFlight) (l : List (RegWr × Nat × Bool)) :
    (flying d k b (pending fl l)).landStep k = flying (wrote d k (dueOf (nearer fl l))) k b (leftOf (nearer fl l)) := by
  have hw := flying_wrote d k b (pending fl l) (dueOf (nearer fl l))
  have e : (flying d k b (pending fl l)).landStep k = (wrote (flying d k b (pending fl l)) k (dueOf (nearer fl l))).mapCore k
      fun c => { c with inflight := leftOf (nearer fl l) } := by
    rw [Dev.landStep, flying_core]
    rfl
  rw [e, hw]
  simp only [flying, mapCore_mapCore]

/-- Where a bundle of results leaves its core. -/
theorem flying_ends (d e : Dev) (k n : Nat) (b : List Instr) (fl : List InFlight) (hs : Still d k) (he : SameIssue d e k) :
    ((flying e k b fl).goOn k n).bundleDone k = e.mapCore k fun c => { c with pc := BitVec.ofNat 16 n, inflight := fl } := by
  obtain ⟨g, a, p, v, hc⟩ := he.core
  rw [goOn_plain _ _ _ (by rw [flying_core, hc]; exact hs.ds) (by rw [flying_fb, he.la, hs.la]) (by rw [flying_fb, he.ra, hs.ra])]
  simp only [flying, Dev.setPc, Dev.bundleDone, mapCore_mapCore]
  refine mapCore_eq _ _ _ _ ?_
  simp [hc, hs.bundle, hs.stall, hs.got, hs.fills, hs.emitted, hs.eslDone, hs.step]

theorem flag_cases (e : Eff) (h : flagEff e = true) : (∃ a, e = .aov a) ∨ e = .vov ∨ e = .qsat := by
  cases e with
  | aov a => exact .inl ⟨a, rfl⟩
  | vov => exact .inr (.inl rfl)
  | qsat => exact .inr (.inr rfl)
  | _ => cases h

/-- Beside their flags, sticky flags have no effect. -/
theorem flags_only (fl : List Eff) (h : ∀ e ∈ fl, flagEff e = true) :
    (∀ e ∈ fl, plainEff e = true) ∧ resOf fl = [] ∧ (∀ k lvl w, fl.foldl (fxLate k lvl) w = w) ∧ goesOf fl = none ∧
      trapEndOf fl = none := by
  refine ⟨fun e m => ?_, List.flatMap_eq_nil_iff.mpr fun e m => ?_, fun k lvl w => foldl_idle _ _ _ fun e m => ?_,
    List.find?_eq_none.mpr fun e m => ?_, List.findSome?_eq_none_iff.mpr fun e m => ?_⟩
  all_goals rcases flag_cases e (h e m) with ⟨a, rfl⟩ | rfl | rfl <;> simp [plainEff, fxLate]

/-- A bundle of results and sticky flags whose exceptions are disabled. -/
theorem issue_results (sp : Spine) (d : Dev) (k : Nat) (b : List Instr) (fl : List InFlight) (ss : List Sem) (ha : Alone sp d k)
    (hw : ((b.getLast?.bind headOf).map (·.last)).getD false = true) (hs : semsOf sp (flying d k b fl) k = ss)
    (hb : bundleBad ss = false) (hx : ∀ x ∈ ss, PlainSem x) (l : List (RegWr × Nat × Bool)) (flags : List Eff)
    (he : ss.flatMap (·.eff) = wrs l ++ flags) (hf : ∀ e ∈ flags, flagEff e = true)
    (h1 : d.fb (F.CORE_STATUS_AOV_EN k) = false ∨ flags = []) (h2 : Eff.vov ∉ flags) :
    issue k none (sp, flying d k b fl) = (sp, (flags.foldl (fxFlag k) (wrote d k (dueOf (nearer fl l)))).mapCore k fun c =>
      { c with pc := BitVec.ofNat 16 ((d.core k).pc.toNat + 4 * b.length), inflight := leftOf (nearer fl l) }) := by
  have hst := still_of sp d k ha
  obtain ⟨hplain, hno, hlate, hgo, hte⟩ := flags_only flags hf
  have hown : ∀ e ∈ wrs l ++ flags, ownEff e = true := fun e hm =>
    (List.mem_append.mp hm).elim (plain_own _ (wrs_plain l) e) (plain_own _ hplain e)
  have hres : resOf (wrs l ++ flags) = l := by rw [resOf_append, resOf_wrs, hno, List.append_nil]
  obtain ⟨hcore, hmap, hfb⟩ := fxFlags_keep k flags (wrote d k (dueOf (nearer fl l)))
  have hsame : SameIssue d (flags.foldl (fxFlag k) (wrote d k (dueOf (nearer fl l)))) k := by
    obtain ⟨⟨g, a, p, v, hc⟩, hla, hra⟩ := wrote_issue d k (dueOf (nearer fl l))
    exact ⟨⟨g, a, p, v, (hcore k).trans hc⟩, (hfb _ (.inl rfl)).trans hla, (hfb _ (.inr rfl)).trans hra⟩
  have hpend : ((flying d k b fl).mapCore k fun c => { c with inflight :=
      (c.inflight.map fun (y : InFlight) => { y with fresh := false }) ++ l.map fun y => inFlight y.1 y.2.1 y.2.2 })
      = flying d k b (pending fl l) := by
    simp only [flying, mapCore_mapCore, pending]
  have hadv : ∀ (e : Dev) m, e.advance k m (wrs l ++ flags) = e.goOn k m := fun e m => by
    rw [advance_wrs, Dev.advance, hgo]
  have hend : ∀ e m, (flying d k b fl).endTrap e k m (wrs l ++ flags) = e := fun e m => by
    rw [endTrap_wrs]
    exact endTrap_off _ _ _ _ flags hte (h1.symm.imp (fun h => by rw [h]; rfl) fun h => by rw [flying_fb, h])
      (.inl (by simpa using h2))
  have hmap' : flags.foldl (fxFlag k) (flying (wrote d k (dueOf (nearer fl l))) k b (leftOf (nearer fl l)))
      = flying (flags.foldl (fxFlag k) (wrote d k (dueOf (nearer fl l)))) k b (leftOf (nearer fl l)) := hmap _ _
  rw [issue_plain sp d k b fl ss ha hw hs hb hx, he]
  unfold commit
  simp only [own_esl _ hown, own_fx _ _ hown, flying_tries d k b fl hst.tries, List.nil_append, hres, hpend, flying_lands,
    List.foldl_append, fxLate_wrs, fxFlag_wrs, hlate, hmap', hadv, hend]
  rw [flying_ends d _ k _ b _ hst hsame, flying_core]

/-- The last instruction of a bundle issues it. -/
theorem issueInstr_ends (sp : Spine) (d : Dev) (i : Instr) (h : Hd) (b : List Instr) (fl : List InFlight) (hh : headOf i = some h)
    (hl : h.last = true) (hi : d.issues sp h.k = true) (hw : ((b.getLast?.bind headOf).map (·.last)).getD false = false) :
    issueInstr i (sp, flying d h.k b fl) = issue h.k none (sp, flying d h.k (b ++ [i]) fl) := by
  have e : ((flying d h.k b fl).mapCore h.k fun c => { c with bundle := c.bundle ++ [i] }) = flying d h.k (b ++ [i]) fl := by
    simp only [flying, mapCore_mapCore]
  have hb : ((flying d h.k b fl).core h.k).bundle = b := by rw [flying_core]
  simp only [issueInstr, hh, flying_issues, hi, hb, hw, hl, e, Bool.not_false, Bool.and_self, if_true]

/-- A bundle of results and sticky flags, by the meaning of its instructions. -/
theorem bundle_of_sems {s : State} {i : Instr} {h : Hd} (b : List Instr) (fl : List InFlight) (ss : List Sem)
    (l : List (RegWr × Nat × Bool)) (flags : List Eff) (hr : Ready s h) (hh : headOf i = some h)
    (hw : ((b.getLast?.bind headOf).map (·.last)).getD false = false)
    (hs : semsOf s.spine (flying s.dev h.k (b ++ [i]) fl) h.k = ss) (hb : bundleBad ss = false) (hx : ∀ x ∈ ss, PlainSem x)
    (he : ss.flatMap (·.eff) = wrs l ++ flags) (hf : ∀ e ∈ flags, flagEff e = true)
    (h1 : s.dev.fb (F.CORE_STATUS_AOV_EN h.k) = false ∨ flags = []) (h2 : Eff.vov ∉ flags) :
    coreInstr i (s.withDev (flying s.dev h.k b fl)) =
      s.to ((flags.foldl (fxFlag h.k) (wrote s.dev h.k (dueOf (nearer fl l)))).mapCore h.k fun c =>
        { c with pc := BitVec.ofNat 16 ((s.dev.core h.k).pc.toNat + 4 * (b.length + 1)), inflight := leftOf (nearer fl l) }) := by
  have hlast : (((b ++ [i]).getLast?.bind headOf).map (·.last)).getD false = true := by
    rw [List.getLast?_concat, Option.bind_some, hh]
    exact hr.last
  refine issued _ _ _ ((issueInstr_ends _ _ _ h _ _ hh hr.last hr.alone.issues hw).trans
    ((issue_results _ _ _ _ _ _ hr.alone hlast hs hb hx l flags he hf h1 h2).trans ?_))
  rw [List.length_append, List.length_singleton]
  rfl

/-- What a bundle leaves that only wrote results: it is a change of the device which the writes leave. -/
theorem wrote_moves (d : Dev) (k n : Nat) (l : List InFlight) (hi : (d.core k).inflight = []) :
    ((wrote d k l).mapCore k fun c => { c with pc := BitVec.ofNat 16 ((d.core k).pc.toNat + n), inflight := [] }) =
      (wrote d k l).mapCore k fun c => { c with pc := BitVec.ofNat 16 (c.pc.toNat + n) } := by
  obtain ⟨g, a, p, v, hc⟩ := (wrote_issue d k l).core
  exact mapCore_eq _ _ _ _ (by rw [hc, hi])

/-- What the instructions of a bundle of one or two mean, where their words are listed. -/
theorem semsOf_one (sp : Spine) (d : Dev) (k : Nat) (i : Instr) (fl : List InFlight) (h : Hd) (x : Sem) (hl : d.listedAt k 0 = true)
    (hi : semOf sp (flying d k [i] fl) i = some (h, x)) : semsOf sp (flying d k [i] fl) k = [x] := by
  have hb : ((flying d k [i] fl).core k).bundle = [i] := by rw [flying_core]
  simp [semsOf, hi, flying_listed, hl]
theorem semsOf_two (sp : Spine) (d : Dev) (k : Nat) (i j : Instr) (fl : List InFlight) (g h : Hd) (x y : Sem)
    (h0 : d.listedAt k 0 = true) (h1 : d.listedAt k 1 = true) (hi : semOf sp (flying d k [i, j] fl) i = some (g, x))
    (hj : semOf sp (flying d k [i, j] fl) j = some (h, y)) : semsOf sp (flying d k [i, j] fl) k = [x, y] := by
  have hb : ((flying d k [i, j] fl).core k).bundle = [i, j] := by rw [flying_core]
  simp [semsOf, hi, hj, flying_listed, h0, h1]

section
variable (d : Dev) (k : Nat) (b : List Instr) (fl : List InFlight) (h : Hd) (minor : Nat) (rd rs1 rs2 : Reg)
  (op : Word → Word → Word) (hk : (h.k : Nat) = k)
include hk

/-- An ALU instruction whose guard allows it acts, and raises nothing. -/
theorem plainSem_alu (hg : d.guard h = true) : PlainSem (semAlu (flying d k b fl) h minor rd rs1 rs2 op) :=
  ⟨(flying_guard d k b fl h hk).trans hg, rfl, rfl, fun e m => by rw [List.mem_singleton.mp m]; rfl⟩

/-- An ALU instruction reads what is written, not what is in flight. -/
theorem semAlu_eff : (semAlu (flying d k b fl) h minor rd rs1 rs2 op).eff = [.wr (.g rd (op (d.g k rs1) (d.g k rs2))) 1 false] := by
  subst hk
  simp only [semAlu, semG, flying_g]
end

/-- An accumulating instruction whose guard allows it acts, and raises nothing before its bundle's end. -/
theorem plainSem_acc (d : Dev) (h : Hd) (word : Nat) (ad : AReg) (srcs : List Reg) (x : Int) (hg : d.guard h = true) :
    PlainSem (semAcc d h word ad srcs x) := by
  refine ⟨hg, rfl, rfl, ?_⟩
  rw [semAcc]
  split <;> simp [plainEff]

/-- An accumulating instruction reads the accumulation of the bundle before it. -/
theorem accSrc_chained (d : Dev) (k : Nat) (b : List Instr) (ad : AReg) (v : BitVec 48) :
    accSrc (flying d k b [inFlight (.a ad v) 1 true]) k ad = v.toInt := by
  rw [accSrc, flying_core]
  simp [chainA, inFlight]

/-- Two ALU instructions with different destinations may share a bundle (R117). -/
theorem bundleBad_alu (d : Dev) (g h : Hd) (m n : Nat) (ra rb x y z w : Reg) (f f' : Word → Word → Word) (hne : ra ≠ rb) :
    bundleBad [semAlu d g m ra x y f, semAlu d h n rb z w f'] = false := by
  have hd : destsClash [[DReg.g ra], [DReg.g rb]] = false := by
    simp only [destsClash, List.any_cons, List.any_nil, List.contains_cons, List.contains_nil, Bool.or_false, beq_eq_false_iff_ne]
    simpa using hne
  simp only [bundleBad, semAlu, semG, List.map_cons, List.map_nil, hd]
  rfl

/-- Settles O53: a bundle reads the device that it is issued at, and its end writes what is due, in order. -/
theorem bundleRules : Obligations.BundleRules := by
  refine ⟨fun s i h hh hl hi hb => ?joins, fun s g h ra rb x y z w hr hk hg hne hgg hgh hl1 => ?reads,
    fun s h r rd v hr hg => ?later, fun s h ad v x hr hg hen => ?chained⟩
  case joins => exact (exec_of_head s i h hh).trans (issued s i _ (issueInstr_joins _ _ i h hh hl hi hb))
  case reads =>
    have ha := hr.alone
    have e : (s.dev.mapCore h.k fun c => { c with bundle := [.add g ra x y] }) = flying s.dev h.k [.add g ra x y] [] :=
      mapCore_eq _ _ _ _ (by rw [ha.inflight])
    intro k
    rw [e]
    refine (bundle_of_sems [.add g ra x y] [] _
      [(.g ra (s.dev.g k x + s.dev.g k y), 1, false), (.g rb (s.dev.g k z - s.dev.g k w), 1, false)] [] hr rfl hg
      (semsOf_two _ _ _ _ _ _ g h _ _ ha.listed hl1 rfl rfl) (bundleBad_alu _ _ _ _ _ _ _ _ _ _ _ _ _ hne)
      ?_ ?_ (by simp) (.inr rfl) (by simp)).trans (congrArg s.to (wrote_moves s.dev h.k 8 _ ha.inflight))
    · rintro x (_ | ⟨_, _ | ⟨_, ⟨⟩⟩⟩)
      · exact plainSem_alu _ _ _ _ _ _ _ _ _ _ (congrArg _ hk) hgg
      · exact plainSem_alu _ _ _ _ _ _ _ _ _ _ rfl hgh
    · simp only [semAdd, List.flatMap_cons, List.flatMap_nil, semAlu_eff _ _ _ _ g _ _ _ _ _ (congrArg _ hk),
        semAlu_eff _ _ _ _ h _ _ _ _ _ rfl]
      rfl
  case later =>
    have ha := hr.alone
    intro k
    have e : (s.dev.mapCore h.k fun c => { c with inflight := [inFlight (.g r v) 1 false] }) =
        flying s.dev h.k [] [inFlight (.g r v) 1 false] := mapCore_eq _ _ _ _ (by rw [ha.bundle])
    rw [e]
    refine (bundle_of_sems [] [inFlight (.g r v) 1 false] _ [(.g rd (s.dev.g k r + s.dev.g k r), 1, false)] [] hr rfl rfl
      (semsOf_one _ _ _ _ _ h _ ha.listed rfl) (bundleBad_one _) ?_ ?_ (by simp) (.inr rfl) (by simp)).trans
      (congrArg s.to (wrote_moves s.dev h.k 4 _ ha.inflight))
    · rintro x (_ | ⟨_, ⟨⟩⟩)
      exact plainSem_alu _ _ _ _ _ _ _ _ _ _ rfl hg
    · rw [List.flatMap_singleton]
      exact semAlu_eff _ _ _ _ h _ _ _ _ _ rfl
  case chained =>
    have ha := hr.alone
    intro k flying' p
    have e : (s.dev.mapCore h.k fun c => { c with inflight := [inFlight (.a ad v) 1 true] }) =
        flying s.dev h.k [] [inFlight (.a ad v) 1 true] := mapCore_eq _ _ _ _ (by rw [ha.bundle])
    have hrun := bundle_of_sems (i := .macaHh h ad x x) [] [inFlight (.a ad v) 1 true] _ [(.a ad (BitVec.ofInt 48 (v.toInt + p)), 2, true)]
      (if accOverflow (v.toInt + p) then [.aov ad.toNat] else []) hr rfl rfl (semsOf_one _ _ _ _ _ h _ ha.listed rfl)
      (bundleBad_one _) ?_ ?_ ?_ (.inl hen) ?_
    · rw [← e] at hrun
      exact ⟨_, hrun, congrArg Core.inflight (core_mapCore_same _ _ _)⟩
    · rintro x (_ | ⟨_, ⟨⟩⟩)
      exact plainSem_acc _ _ _ _ _ _ ((flying_guard _ _ _ _ h rfl).trans hg)
    · rw [List.flatMap_singleton]
      simp only [semMacaHh, semAcc, accSrc_chained, flying_g, halfProduct, sx_setWidth 16 _ (by decide)]
      rfl
    · split <;> simp [flagEff]
    · split <;> simp

end Sys2Proof.Proofs

namespace Sys2Proof.Proofs
open Sys2Proof.Machine Sys2Proof.Laws

/-! ## Memory instructions whose data may come later -/

/-- The core stalls so, has these bytes of its loads, and this many of its store's accesses have left. -/
def waiting (st : Stall) (got : SMap (Option (List Byte))) (n : Nat) (c : Core) : Core := { c with stall := st, got := got, emitted := n }

/-- An effect of a memory instruction. -/
def memEff (e : Eff) : Bool :=
  match e with
  | .wr _ _ _ | .ld _ _ _ | .st _ | .vstart _ => true
  | _ => false

/-- What the effects of memory instructions do not do. -/
theorem memEffs_only (l : List Eff) (h : ∀ e ∈ l, memEff e = true) : (∀ e ∈ l, ownEff e = true) ∧
    (∀ k d, l.foldl (fxFlag k) d = d) ∧ goesOf l = none ∧ aovOf l = none ∧ l.contains Eff.vov = false ∧ trapEndOf l = none := by
  have each : ∀ e, memEff e = true →
      (∃ r n a, e = .wr r n a) ∨ (∃ t es n, e = .ld t es n) ∨ (∃ es, e = .st es) ∨ ∃ n, e = .vstart n := by
    intro e he
    cases e with
    | wr r n a => exact .inl ⟨r, n, a, rfl⟩
    | ld t es n => exact .inr (.inl ⟨t, es, n, rfl⟩)
    | st es => exact .inr (.inr (.inl ⟨es, rfl⟩))
    | vstart n => exact .inr (.inr (.inr ⟨n, rfl⟩))
    | _ => cases he
  refine ⟨fun e m => ?_, fun k d => foldl_idle _ _ _ fun e m => ?_, List.find?_eq_none.mpr fun e m => ?_,
    List.findSome?_eq_none_iff.mpr fun e m => ?_, Bool.eq_false_iff.mpr fun hc => ?_, List.findSome?_eq_none_iff.mpr fun e m => ?_⟩
  case refine_5 => exact Bool.false_ne_true (h _ (List.contains_iff_mem.mp hc))
  all_goals rcases each e (h e m) with ⟨r, n, a, rfl⟩ | ⟨t, es, n, rfl⟩ | ⟨es, rfl⟩ | ⟨n, rfl⟩ <;> simp [ownEff, fxFlag]

/-- The element that a gather or scatter starts at, where it is set anew. -/
def restart (o : Option Nat) : List Eff := (o.map Eff.vstart).toList
def started (d : Dev) (k : Nat) (o : Option Nat) : Dev := o.elim d fun n => d.setF (F.VEC_VSTART_VSTART k) n

theorem fxLate_restart (k lvl : Nat) (o : Option Nat) (w : Whole) : (restart o).foldl (fxLate k lvl) w = (w.1, started w.2 k o) := by
  cases o <;> rfl

theorem started_mapCore (d : Dev) (k : Nat) (o : Option Nat) (f : Core → Core) :
    started (d.mapCore k f) k o = (started d k o).mapCore k f := by
  cases o <;> rfl

theorem started_core (d : Dev) (k : Nat) (o : Option Nat) : (started d k o).core k = d.core k := by cases o <;> rfl

theorem started_fb (d : Dev) (k : Nat) (o : Option Nat) (y : Fld) (hy : y.addr ≠ (F.VEC_VSTART_VSTART k).addr) :
    (started d k o).fb y = d.fb y := by
  cases o with
  | none => rfl
  | some n => exact fb_flag_ne _ _ _ _ hy

/-- What a memory instruction leaves does not hang on how its accesses went on. -/
theorem commit_waiting (sp : Spine) (d : Dev) (k : Nat) (b : List Instr) (effs : List Eff) (l : List (RegWr × Nat × Bool))
    (o : Option Nat) (st : Stall) (g : SMap (Option (List Byte))) (n : Nat) (hs : Still d k) (he : ∀ e ∈ effs, memEff e = true)
    (hr : resOf effs = l) (hl : ∀ x ∈ l, 1 ≤ x.2.1) (hlate : ∀ lvl w, effs.foldl (fxLate k lvl) w = (w.1, started w.2 k o)) :
    commit k 4 effs [] none (sp, (held d k b).mapCore k (waiting st g n)) = (sp, started (d.lone k l) k o) := by
  subst hr
  obtain ⟨hown, hflag, hgo, haov, hvov, hte⟩ := memEffs_only effs he
  have e0 : (held d k b).mapCore k (waiting st g n) = held (d.mapCore k (waiting st g n)) k b := by
    simp only [held, mapCore_mapCore]
    rfl
  have ht : (d.mapCore k (waiting st g n)).csSeen k = d.mapCore k (waiting st g n) := by rw [csSeen_mapCore, hs.tries]
  have el : landed (d.mapCore k (waiting st g n)) k b (resOf effs) = (landed d k b (resOf effs)).mapCore k (waiting st g n) := by
    have e1 : d.mapCore k (waiting st g n) = d.mapCore k (coreWith (waiting st g n (d.core k))) := mapCore_eq _ _ _ _ rfl
    obtain ⟨g', a, p, v, hc⟩ := (applyWrs_issue d k ((resOf effs).filter fun x => x.2.1 == 1)).core
    simp only [landed]
    rw [e1, applyWrs_around, core_mapCore_same]
    simp only [mapCore_mapCore]
    exact mapCore_eq _ _ _ _ (by rw [hc]; rfl)
  obtain ⟨c1, c2, c3⟩ := landed_core d k b (resOf effs) hs
  rw [e0, commit_own sp _ k b effs ht (by simp [waiting, hs.inflight]) hown hl, el]
  simp only [hlate, hflag, started_mapCore]
  unfold Dev.advance
  rw [hgo]
  simp only []
  rw [goOn_plain _ _ _ (by rw [core_mapCore_same, started_core]; exact c1)
    (by rw [fb_mapCore, started_fb _ _ _ _ (by simp [F.CORE_STATUS_LA, F.VEC_VSTART_VSTART]), c2])
    (by rw [fb_mapCore, started_fb _ _ _ _ (by simp [F.CORE_STATUS_RA, F.VEC_VSTART_VSTART]), c3]),
    endTrap_off _ _ _ _ effs hte (.inl haov) (.inl hvov), ← landed_done d k b (resOf effs) hs]
  refine congrArg _ ?_
  simp only [Dev.setPc, Dev.bundleDone, mapCore_mapCore, started_mapCore, core_mapCore_same, waiting]

/-- Loads outside register space are not made with those of register space. -/
theorem fetch_late (k lvl i : Nat) (l : List (Elem × List (Nat × List Byte))) (hs : ∀ e ∈ l, e.1.path ≠ .regs) (ext : List Byte)
    (w : Whole) : fetchElems k lvl true l i ext w = (false, w) := by
  induction l generalizing i with
  | nil => rfl
  | cons e t ih =>
    have h1 : (e.1.path == Path.regs) = false := beq_eq_false_iff_ne.mpr (hs e List.mem_cons_self)
    have h2 := ih (i + 1) fun x hx => hs x (List.mem_cons_of_mem _ hx)
    simp [fetchElems, h1, h2]

/-- The accesses of a load, once they have brought their bytes. -/
theorem bring_brought (f : Elem → List Byte) (es : List Elem) :
    bring (brought f 0 es []) 0 es = es.map fun e => { e with data := f e } := by
  refine List.ext_getElem (by simp [bring]) fun j h1 h2 => ?_
  have := (brought_get f 0 es [] none).2 j (by simpa using h2)
  simp only [bring, List.getElem_mapIdx, List.getElem_map, this, Option.getD_some]

/-- The bytes that a load brings are those of its own accesses. -/
theorem withElems_plain (es : List Elem) (e : Eff) (h : plainEff e = true) : Eff.withElems es e = e := by
  cases e with
  | ld _ _ _ => cases h
  | _ => rfl

/-- Loads need no room. -/
theorem putAll_ld (k lvl : Nat) (dst : LdDst) (es : List Elem) (lat : Nat) (m : List Eff) (d : Dev) :
    putAll k lvl (.ld dst es lat :: m) d = putAll k lvl m d := by
  have hs : storeAccs (.ld dst es lat :: m) = storeAccs m := rfl
  simp only [putAll, hs, List.foldl_cons, ite_self]

/-- A load whose accesses have all brought their bytes takes effect. -/
theorem issueGo_load (sp : Spine) (d e : Dev) (k : Nat) (x : Sem) (dst : LdDst) (es : List Elem) (lat : Nat) (m : List Eff)
    (ext : List Byte) (f : Elem → List Byte) (hx : x.eff = .ld dst es lat :: m) (hm : ∀ e ∈ m, plainEff e = true)
    (hp : ∀ e ∈ es, e.path ≠ .regs)
    (hfetch : ∀ lvl, fetchElems k lvl false (es.map fun e => (e, [])) 0 ext (sp, d) = (false, sp, e))
    (hgot : (e.core k).got = brought f 0 es []) (hfills : (e.core k).fills = []) (hesl : (e.core k).eslDone = none) :
    issueGo k 4 [x] none ext (sp, d) =
      commit k 4 (.ld dst (es.map fun e => { e with data := f e }) lat :: m) [] none (sp, e) := by
  have hla : loadAccs x.eff [] = es.map fun e => (e, []) := by rw [hx, loadAccs, plain_loads m [] hm, List.append_nil]
  have hsa : storeAccs x.eff = [] := by rw [hx]; exact plain_stores m hm
  have hsf : storeFirst x.eff = false := by simp [storeFirst, hla]
  have hmap : (es.map fun e => (e, ([] : List (Nat × List Byte)))).map (·.1) = es := by
    rw [List.map_map]
    exact List.map_id es
  have hregs : (e.core k).regWaits es = false := List.any_eq_false.mpr fun y hy => by simp [hp y hy]
  have hown : ∀ y ∈ x.eff, ownEff y = true := by
    rw [hx]
    rintro y (_ | ⟨_, hy⟩)
    · rfl
    · exact plain_own m hm y hy
  have hall : ((List.range es.length).find? fun j => SMap.get (brought f 0 es []) (0 + j) (some []) == none) = none :=
    List.find?_eq_none.mpr fun j hj => by
      rw [(brought_get f 0 es [] (some [])).2 j (List.mem_range.mp hj)]
      exact Bool.false_ne_true
  have hwith : x.eff.map (Eff.withElems (es.map fun e => { e with data := f e })) =
      .ld dst (es.map fun e => { e with data := f e }) lat :: m := by
    rw [hx, List.map_cons]
    refine congrArg _ ((List.map_congr_left fun y hy => withElems_plain _ y (hm y hy)).trans (List.map_id m))
  have hres : resolve e (e.core k).got 0 [] [] [x] = (.ld dst (es.map fun e => { e with data := f e }) lat :: m, none) := by
    have hld : loadOf x = some (dst, es, lat) := by rw [loadOf, hx]; rfl
    simp only [resolve, hld, hgot, bring_brought, hall, hwith, List.nil_append]
  have hput : ∀ lvl, putAll k lvl (.ld dst (es.map fun e => { e with data := f e }) lat :: m) e = (true, e) := fun lvl =>
    (putAll_ld _ _ _ _ _ _ _).trans (putAll_plain k lvl m e hm hfills)
  have hlate := fun lvl w => fetch_late k lvl 0 (es.map fun e => (e, ([] : List (Nat × List Byte))))
    (fun y hy => by obtain ⟨z, hz, rfl⟩ := List.mem_map.mp hy; exact hp z hz) ([] : List Byte) w
  unfold issueGo
  simp only [List.flatMap_singleton, hsa, fetchLines, hsf, Bool.false_and, Bool.false_eq_true, if_false, Bool.not_true, Bool.or_self,
    hla, hfetch, hres, hmap, hregs, hesl, own_esl _ hown, Option.isNone_none, Bool.and_self, if_true, Option.getD_none, issueEnd,
    hlate, hput]

/-- The issue of a core's one instruction that acts, raises nothing, and waits for no write: it stalls for data from beyond the
core, or takes effect. -/
theorem issue_held (sp : Spine) (d : Dev) (i : Instr) (h : Hd) (x : Sem) (back : Option (List Byte)) (hh : headOf i = some h)
    (hl : h.last = true) (hiss : d.issues sp h.k = true) (hb : (d.core h.k).bundle = [i])
    (hcx : (d.core h.k).cx = []) (hla : d.fb (F.CORE_STATUS_LA h.k) = false) (hra : d.fb (F.CORE_STATUS_RA h.k) = false)
    (hs : semsOf sp d h.k = [x]) (hx : x.run = true) (hseq : x.seq = .none) (ht : x.trap = none) (hf : fences x.eff = false) :
    issue h.k back (sp, d) = if back.isNone && (d.core h.k).far x.eff then (sp, d.stallAt h.k .load)
      else issueGo h.k 4 [x] none (back.getD []) (sp, d) := by
  have hact : actsOf [x] none = [x] := by simp [actsOf, hx]
  have htrap : d.firstTrap h.k [x] 0 = none := firstTrap_none _ _ _ _ fun y hy => by
    rw [List.mem_singleton.mp hy, Dev.trapOf, hx, Dev.seqBad, hseq, ht]
    rfl
  unfold issue
  simp only [hb, hiss, loopEnd_off _ _ hla, rptEnd_off _ _ hra, hs, bundleBad_one, htrap, hact, scbHit_none _ _ hcx,
    List.getLast?_singleton, Option.bind_some, hh, Option.map_some, hl, Option.getD_some, Bool.and_self, if_true, Option.map_none,
    List.flatMap_singleton, hf, Bool.not_false, Bool.and_false, Bool.false_and, Bool.false_eq_true, if_false, List.length_singleton]

/-- A lone instruction of a core that stands ready is issued. -/
theorem issueInstr_alone (sp : Spine) (d : Dev) (i : Instr) (h : Hd) (hh : headOf i = some h) (hl : h.last = true)
    (ha : Alone sp d h.k) : issueInstr i (sp, d) = issue h.k none (sp, held d h.k [i]) := by
  have hm : (d.mapCore h.k fun c => { c with bundle := c.bundle ++ [i] }) = held d h.k [i] :=
    mapCore_eq _ _ _ _ (by rw [ha.bundle]; rfl)
  simp [issueInstr, hh, ha.issues, hl, hm, ha.bundle]

/-- A sound read of the HBM brings its bytes, and changes nothing. -/
theorem busRead_hbm (q : Req) (a n : Nat) (ext : List Byte) (sp : Spine) (d : Dev) (ht : tgtOf a = .hbm) (hb : d.bad = []) :
    busRead q a n ext (sp, d) = (.ok (d.bytes a n), sp, d) := by
  simp only [busRead, busAcc, ht, portOn, Dev.unitAcc, memAcc_clean d a n hb]

/-- The one access of a load from the HBM, uncached, brings its bytes. -/
theorem fetch_hbm (k lvl : Nat) (e : Elem) (ext : List Byte) (sp : Spine) (d : Dev) (hp : e.path = .uncached)
    (ht : tgtOf e.da = .hbm) (hb : d.bad = []) (hw : (d.core k).wb = []) (hg : (d.core k).got = []) :
    fetchElems k lvl false ([e].map fun e => (e, [])) 0 ext (sp, d) =
      (false, sp, d.mapCore k fun c => { c with got := brought (fun e => d.bytes e.da e.size) 0 [e] [] }) := by
  have hwait : (d.core k).waits e = false := by rw [Core.waits, hp, hw]; rfl
  have hone : fetchElem k lvl e [] ext (sp, d) = (.ok (d.bytes e.da e.size), sp, d) := by
    simp only [fetchElem, hwait, Bool.false_eq_true, if_false, hp, busRead_hbm _ _ _ _ _ _ ht hb]
    rfl
  have hpath : ((e.path == Path.regs) != false) = false := by rw [hp]; rfl
  have hput : (d.mapCore k fun c => { c with got := SMap.put c.got 0 (some (d.bytes e.da e.size)) }) =
      d.mapCore k fun c => { c with got := brought (fun e => d.bytes e.da e.size) 0 [e] [] } :=
    mapCore_eq _ _ _ _ (by rw [hg]; rfl)
  simp only [List.map_cons, List.map_nil, fetchElems, hpath, hg, List.any_nil, Bool.or_self, Bool.false_eq_true, if_false, hone, hput]

/-- A core's device, stalled by a load. -/
def stalled (d : Dev) (k : Nat) : Dev := d.mapCore k fun c => { c with stall := .load }

theorem held_stalled (d : Dev) (k : Nat) (b : List Instr) (hs : Still d k) :
    held (stalled d k) k b = (held d k b).mapCore k (waiting .load [] 0) := by
  simp only [held, stalled, mapCore_mapCore]
  exact mapCore_eq _ _ _ _ (by simp [waiting, hs.got, hs.emitted])
theorem stallAt_held (d : Dev) (k : Nat) (b : List Instr) : (held d k b).stallAt k .load = held (stalled d k) k b := by
  simp only [Dev.stallAt, held, stalled, mapCore_mapCore]

section
variable {sp : Spine} {d : Dev} {i : Instr} {h : Hd} {x : Sem} {dst : LdDst} {e : Elem} {lat : Nat} {u : List (RegWr × Nat × Bool)}
  (hh : headOf i = some h) (hl : h.last = true) (ha : Alone sp d h.k) (hx : x.run = true) (hseq : x.seq = .none)
  (ht : x.trap = none) (he : x.eff = .ld dst [e] lat :: wrs u) (hp : e.path = .uncached)
include hh hl ha hx hseq ht he hp

/-- A load that must leave the core stalls with its bundle held. -/
theorem issue_stalls (hs : semOf sp (held d h.k [i]) i = some (h, x)) : issueInstr i (sp, d) = (sp, held (stalled d h.k) h.k [i]) := by
  have hfence : fences x.eff = false := by rw [he]; exact plain_fences (wrs u) (wrs_plain u)
  have hfar : ((held d h.k [i]).core h.k).far x.eff = true := by
    have hla : loadAccs x.eff [] = [(e, [])] := by rw [he, loadAccs, plain_loads (wrs u) [] (wrs_plain u)]; rfl
    simp [Core.far, hla, Core.near, hp, ha.got]
  have hiss : (held d h.k [i]).issues sp h.k = true := by simpa [Dev.issues, held] using ha.issues
  rw [issueInstr_alone sp d i h hh hl ha, issue_held sp _ i h x none hh hl hiss (by rw [held_core]) (by rw [held_core]; exact ha.cx)
    (by rw [held_fb, ha.la]) (by rw [held_fb, ha.ra]) (semsOf_lone sp d i h x ha.listed hs) hx hseq ht hfence, hfar,
    ← stallAt_held]
  rfl

/-- The load completes when its data returns. -/
theorem issue_returns (ext : List Byte) (hs : semOf sp (held (stalled d h.k) h.k [i]) i = some (h, x))
    (htgt : tgtOf e.da = .hbm) (hb : d.bad = []) (hlat : 1 ≤ lat) (hu : ∀ y ∈ u, 1 ≤ y.2.1) :
    issue h.k (some ext) (sp, held (stalled d h.k) h.k [i]) =
      (sp, d.lone h.k ((loadWr dst [{ e with data := d.bytes e.da e.size }] [d.bytes e.da e.size]).map
        (fun r => (r, lat, false)) ++ u)) := by
  have hst := still_of sp d h.k ha
  have hcore : (held (stalled d h.k) h.k [i]).core h.k = { d.core h.k with bundle := [i], stall := .load } := by
    simp [stalled]
  have hfb : ∀ y, (held (stalled d h.k) h.k [i]).fb y = d.fb y := fun y => by rw [held_fb, stalled, fb_mapCore]
  have hiss : (held (stalled d h.k) h.k [i]).issues sp h.k = true := by simpa [Dev.issues, held, stalled] using ha.issues
  have hlisted : (stalled d h.k).listedAt h.k 0 = true := by
    rw [← ha.listed, Dev.listedAt, stalled, core_mapCore_same]
    rfl
  have hfence : fences x.eff = false := by rw [he]; exact plain_fences (wrs u) (wrs_plain u)
  rw [issue_held sp _ i h x (some ext) hh hl hiss (by rw [hcore]) (by rw [hcore]; exact ha.cx) (by rw [hfb, ha.la])
    (by rw [hfb, ha.ra]) (semsOf_lone sp _ i h x hlisted hs) hx hseq ht hfence]
  have hwb : ((held (stalled d h.k) h.k [i]).core h.k).wb = [] := by rw [hcore]; exact ha.wb
  have hgot : ((held (stalled d h.k) h.k [i]).core h.k).got = [] := by rw [hcore]; exact ha.got
  have hfills : ((held (stalled d h.k) h.k [i]).core h.k).fills = [] := by rw [hcore]; exact ha.fills
  have hesl : ((held (stalled d h.k) h.k [i]).core h.k).eslDone = none := by rw [hcore]; exact ha.eslDone
  have hend : (held (stalled d h.k) h.k [i]).mapCore h.k
        (fun c => { c with got := brought (fun e => (held (stalled d h.k) h.k [i]).bytes e.da e.size) 0 [e] [] }) =
      (held d h.k [i]).mapCore h.k (waiting .load (brought (fun e => d.bytes e.da e.size) 0 [e] []) 0) := by
    rw [held_stalled d h.k [i] hst, mapCore_mapCore]
    rfl
  refine (issueGo_load sp (held (stalled d h.k) h.k [i]) _ h.k x dst [e] lat (wrs u) ext _ he (wrs_plain u) (by simp [hp])
    (fun lvl => fetch_hbm h.k lvl e ext sp (held (stalled d h.k) h.k [i]) hp htgt hb hwb hgot) (by rw [core_mapCore_same])
    (by rw [core_mapCore_same]; exact hfills) (by rw [core_mapCore_same]; exact hesl)).trans ?_
  rw [hend]
  refine commit_waiting sp d h.k [i] _ _ none .load _ 0 hst ?_ ?_ ?_ ?_
  · rintro y (_ | ⟨_, hy⟩)
    · rfl
    · exact wrs_all u (fun y => memEff y = true) (fun _ _ _ => rfl) y hy
  · rw [← List.singleton_append, resOf_append, resOf_wrs, resOf, List.flatMap_singleton]
    rfl
  · intro y hy
    rcases List.mem_append.mp hy with hy | hy
    · obtain ⟨r, _, rfl⟩ := List.mem_map.mp hy
      exact hlat
    · exact hu y hy
  · exact fun lvl w => fxLate_wrs h.k lvl u w
end

/-- Settles O27: the load's one access is not near, so that the bundle stalls; its return brings the bytes. -/
theorem uncachedLoadReturns : Obligations.UncachedLoadReturns := by
  intro s h rd rb m da ext hr hbad hsz hg k n o x upd i waits hob halign hmap htgt
  have hodd : ¬ (m.sz = 3 ∧ rd.toNat % 2 = 1) := fun hc => hsz hc.1
  have hwaits : waits = held (stalled s.dev h.k) h.k [i] := by simp only [waits, k, held, stalled, mapCore_mapCore]
  rw [hwaits]
  constructor
  case left =>
    obtain ⟨hrun, htrap, heff⟩ := semLd_parts (s := s) [i] rfl hodd hob halign hmap
    exact issued s i _ (issue_stalls rfl hr.last hr.alone (hrun.trans hg) rfl htrap heff rfl rfl)
  case right =>
    have hrb : (stalled s.dev h.k).g h.k rb = s.dev.g h.k rb := by simp [stalled, Dev.g, Core.rg]
    have ho : (stalled s.dev h.k).address h.k ((stalled s.dev h.k).g h.k rb).toNat (m.imm.toInt * ((2 ^ m.sz.toNat : Nat) : Int)) m.pi
        m.cwe m.cw.toNat = o := by rw [hrb]; rfl
    have hguard : (stalled s.dev h.k).guard h.noGn = true := by
      rw [← hg]
      simp [stalled, Dev.guard, Dev.p, Core.rp, Dev.pp, Hd.noGn]
    obtain ⟨hrun, htrap, heff⟩ := semLd_parts (s := s.withDev (stalled s.dev h.k)) [i] ho hodd hob halign hmap
    have hret := issue_returns (i := i) rfl hr.last hr.alone (hrun.trans hguard) rfl htrap heff rfl ext rfl htgt hbad (by decide)
      (baseRes_late m rb o)
    have hstall : ((held (stalled s.dev h.k) h.k [i]).core h.k).stall = .load := by simp [stalled]
    refine (wholeCmd_whole (s.withDev (held (stalled s.dev h.k) h.k [i])) (fun w => loadReturn h.k ext (w.1, w.2.upset [])) s.spine _
      ((if_pos hstall).trans hret)).trans ?_
    exact congrArg (fun l => s.results h (l ++ upd)) ((loadWr_ldDst rd m _ (s.dev.bytes da n) (bytes_length _ _ _)).trans (if_neg hsz))

end Sys2Proof.Proofs

namespace Sys2Proof.Proofs
open Sys2Proof.Machine Sys2Proof.Laws

/-! ## Loads and stores that set VSTART -/

theorem restart_each (o : Option Nat) (e : Eff) (h : e ∈ restart o) : ∃ n, e = .vstart n := by
  cases o with
  | none => cases h
  | some n => exact ⟨n, List.mem_singleton.mp h⟩

/-- What may stand behind the access of a memory instruction: results, and a restart. -/
theorem behind_only (u : List (RegWr × Nat × Bool)) (o : Option Nat) :
    (∀ e ∈ wrs u ++ restart o, plainEff e = true ∧ memEff e = true) ∧ resOf (wrs u ++ restart o) = u ∧
      ∀ k lvl w, (wrs u ++ restart o).foldl (fxLate k lvl) w = (w.1, started w.2 k o) := by
  refine ⟨fun e m => ?_, ?_, fun k lvl w => ?_⟩
  · rcases List.mem_append.mp m with m | m
    · exact wrs_all u (fun e => plainEff e = true ∧ memEff e = true) (fun _ _ _ => ⟨rfl, rfl⟩) e m
    · obtain ⟨n, rfl⟩ := restart_each o e m
      exact ⟨rfl, rfl⟩
  · rw [resOf_append, resOf_wrs]
    cases o <;> exact List.append_nil u
  · rw [List.foldl_append, fxLate_wrs, fxLate_restart]

theorem lines_scratch (k lvl : Nat) (l : List Elem) (w : Whole) (hl : ∀ e ∈ l, e.path = .scratch) :
    fetchLines k lvl l [] w = (false, w) := by
  induction l with
  | nil => rfl
  | cons e t ih => simp [fetchLines, hl e List.mem_cons_self, ih fun x hx => hl x (List.mem_cons_of_mem _ hx)]

/-- A store to the data scratch takes effect at once. -/
theorem issueGo_store (sp : Spine) (d : Dev) (k : Nat) (b : List Instr) (x : Sem) (es : List Elem) (m : List Eff) (hst : Still d k)
    (hc : Clean d) (hx : x.eff = .st es :: m) (hm : ∀ e ∈ m, plainEff e = true) (hes : ∀ e ∈ es, e.path = .scratch) :
    issueGo k 4 [x] none [] (sp, held d k b) =
      commit k 4 (.st es :: m) [] none (sp, (held (stored d es) k b).mapCore k (progress [] es.length)) := by
  have hsa : storeAccs x.eff = es := by
    rw [hx]
    show es ++ storeAccs m = es
    rw [plain_stores m hm, List.append_nil]
  have hla : loadAccs x.eff [] = [] := by rw [hx]; exact plain_loads m _ hm
  have hown : ∀ e ∈ x.eff, ownEff e = true := by
    rw [hx]
    rintro e (_ | ⟨_, he⟩)
    · rfl
    · exact plain_own m hm e he
  have hld : loadOf x = none := by
    rw [loadOf, hx]
    exact plain_load { x with eff := m } hm
  have hres : ∀ (D : Dev) g, resolve D g 0 [] [] [x] = (.st es :: m, none) := fun D g => by
    simp only [resolve, hld, hx, List.nil_append]
  have hput : ∀ lvl, putAll k lvl (.st es :: m) (held d k b)
      = (true, (held (stored d es) k b).mapCore k (progress [] es.length)) := fun lvl => by
    have e1 : ((held d k b).core k).fills = [] := by rw [held_core]; exact hst.fills
    have e2 : ((held d k b).core k).emitted = 0 := by rw [held_core]; exact hst.emitted
    have e3 : storeAccs (.st es :: m) = es := by rw [← hx]; exact hsa
    have e4 := store_scratch k lvl 0 b es hes d hc
    rw [← held_progress d k b hst, Nat.zero_add] at e4
    simp only [putAll, e1, fillAll, Bool.not_true, Bool.false_eq_true, if_false, e2, e3, List.drop_zero, e4]
    refine foldl_idle _ _ _ fun e he => ?_
    rcases List.mem_cons.mp he with rfl | he
    · rfl
    · have hplain := hm e he
      cases e with
      | cache _ _ _ | cacheAll _ => cases hplain
      | _ => rfl
  have hesl : ((held d k b).core k).eslDone = none := by rw [held_core]; exact hst.eslDone
  unfold issueGo
  simp only [List.flatMap_singleton, hsa, lines_scratch _ _ es _ hes, storeFirst, hla, List.any_nil, Bool.false_and, Bool.false_eq_true,
    if_false, Bool.not_true, Bool.or_self, fetchElems, hres, Core.regWaits, List.map_nil, hesl, own_esl _ hown, Option.isNone_none,
    Bool.and_self, if_true, Option.getD_none, issueEnd, hput]

/-- Accesses of the data scratch are near. -/
theorem far_scratch (c : Core) (l : List Eff) (hl : ∀ y ∈ loadAccs l [], y.1.path = .scratch)
    (hs : ∀ y ∈ storeAccs l, y.path = .scratch) : c.far l = false := by
  rw [Core.far, Bool.or_eq_false_iff]
  refine ⟨Bool.eq_false_iff.mpr fun hc => ?_, List.any_eq_false.mpr fun y hy => by simp [hs y hy]⟩
  obtain ⟨j, hj, e⟩ := List.mem_mapIdx.mp (List.contains_iff_mem.mp hc)
  simp [Core.near, hl _ (List.getElem_mem hj)] at e

/-- A core that does not stall has gone on with its accesses so far. -/
theorem progress_waiting (d : Dev) (k : Nat) (b : List Instr) (g : SMap (Option (List Byte))) (n : Nat) (hs : Still d k) :
    (held d k b).mapCore k (progress g n) = (held d k b).mapCore k (waiting .none g n) :=
  mapCore_eq _ _ _ _ (by rw [held_core, progress, waiting, hs.stall])

section
variable {s : State} {i : Instr} {h : Hd} {x : Sem} (hr : Ready s h) (hh : headOf i = some h)
  (hs : semOf s.spine (held s.dev h.k [i]) i = some (h, x)) (hx : x.run = true) (ht : x.trap = none)
  {es : List Elem} {u : List (RegWr × Nat × Bool)} {o : Option Nat}
include hr hh hs hx ht

/-- A lone instruction that acts at once. -/
theorem acts_of_sem (d : Dev) (hf : fences x.eff = false) (hn : ∀ c : Core, c.far x.eff = false)
    (hgo : issueGo h.k 4 [x] none [] (s.spine, held s.dev h.k [i]) = (s.spine, d)) : coreInstr i s = s.to d := by
  have htrap : (held s.dev h.k [i]).trapOf h.k x = none := by rw [trapOf_ready s.spine _ _ _ _ hr.alone, ht, ite_self]
  have hlone := issue_lone s.spine s.dev i h x hh hr.last hr.alone hs htrap
  simp only [hx, if_true] at hlone
  exact issued s i d ((hlone (fun hc => absurd hc (by rw [hf]; exact Bool.false_ne_true)) (hn _)).trans hgo)

/-- A vector memory instruction with no active element. -/
theorem restarts_of_sem (he : x.eff = restart o) : coreInstr i s = s.to (started (s.dev.lone h.k []) h.k o) := by
  have hst := still_of s.spine _ _ hr.alone
  obtain ⟨hb, hres, hlate⟩ := behind_only [] o
  have hplain : ∀ e ∈ x.eff, plainEff e = true := fun e m => (hb e (he ▸ m)).1
  refine acts_of_sem hr hh hs hx ht _ (plain_fences _ hplain) (fun c => plain_far c _ hplain) ?_
  have hheld : held s.dev h.k [i] = (held s.dev h.k [i]).mapCore h.k (waiting .none [] 0) := by
    rw [← progress_waiting _ _ _ _ _ hst]
    exact held_progress _ _ _ hst
  rw [issueGo_plain s.spine s.dev h.k [i] x [x] (by rw [hx, if_pos rfl]) hst (by simpa using hplain), List.flatMap_singleton, he, hheld]
  exact commit_waiting _ _ _ _ _ [] o _ _ _ hst (fun e m => (hb e m).2) hres (by simp) (hlate h.k)

/-- A load of the data scratch that raises nothing, and may set VSTART. -/
theorem loadsStart_of_sem {dst : LdDst} {lat : Nat} (hb : s.dev.bad = []) (he : x.eff = .ld dst es lat :: (wrs u ++ restart o))
    (hlat : 1 ≤ lat) (hu : ∀ y ∈ u, 1 ≤ y.2.1) (hes : ∀ e ∈ es, e.path = .scratch) :
    coreInstr i s = s.to (started (s.dev.lone h.k (((loadWr dst (es.map fun e => { e with data := s.dev.bytes e.da e.size })
      (es.map fun e => s.dev.bytes e.da e.size)).map fun r => (r, lat, false)) ++ u)) h.k o) := by
  have hst := still_of s.spine _ _ hr.alone
  obtain ⟨hm, hres, hlate⟩ := behind_only u o
  have hplain : ∀ e ∈ wrs u ++ restart o, plainEff e = true := fun e m => (hm e m).1
  have hla : loadAccs x.eff [] = es.map fun e => (e, []) := by rw [he, loadAccs, plain_loads _ [] hplain, List.append_nil]
  have hsa : storeAccs x.eff = [] := by rw [he]; exact plain_stores (wrs u ++ restart o) hplain
  have hfar : ∀ c : Core, c.far x.eff = false := fun c => far_scratch c _
    (by rw [hla]; intro y hy; obtain ⟨e, m, rfl⟩ := List.mem_map.mp hy; exact hes e m)
    (by simp [hsa])
  refine acts_of_sem hr hh hs hx ht _ (by rw [he]; exact plain_fences (wrs u ++ restart o) hplain) hfar ?_
  have hfetch := fun lvl => fetch_scratch h.k lvl 0 0 es hes s.spine (held s.dev h.k [i]) hb [] (by simp)
  rw [← held_progress _ _ _ hst] at hfetch
  refine (issueGo_load s.spine (held s.dev h.k [i]) _ h.k x dst es lat _ [] _ he hplain (fun e m => by rw [hes e m]; decide) hfetch
    (by rw [core_mapCore_same]; rfl) (by rw [core_mapCore_same, held_core]; exact hst.fills)
    (by rw [core_mapCore_same, held_core]; exact hst.eslDone)).trans ?_
  rw [progress_waiting _ _ _ _ _ hst]
  refine commit_waiting _ _ _ _ _ _ o _ _ _ hst ?_ ?_ ?_ (hlate h.k)
  · rintro e (_ | ⟨_, m⟩)
    · rfl
    · exact (hm e m).2
  · rw [← List.singleton_append, resOf_append, hres, resOf, List.flatMap_singleton]
    refine congrArg (· ++ u) ?_
    show (loadWr _ _ ((es.map _).map _)).map _ = _
    rw [List.map_map]
    rfl
  · intro y hy
    rcases List.mem_append.mp hy with hy | hy
    · obtain ⟨r, _, rfl⟩ := List.mem_map.mp hy
      exact hlat
    · exact hu y hy

/-- A store to the data scratch that raises nothing, and may set VSTART. -/
theorem storesStart_of_sem (hc : Clean s.dev) (he : x.eff = .st es :: (wrs u ++ restart o)) (hu : ∀ y ∈ u, 1 ≤ y.2.1)
    (hes : ∀ e ∈ es, e.path = .scratch) : coreInstr i s = s.to (started ((stored s.dev es).lone h.k u) h.k o) := by
  have hst := still_of s.spine _ _ hr.alone
  have hst2 : Still (stored s.dev es) h.k := by rw [stored_eq]; exact still_mem _ _ _ hst
  obtain ⟨hm, hres, hlate⟩ := behind_only u o
  have hplain : ∀ e ∈ wrs u ++ restart o, plainEff e = true := fun e m => (hm e m).1
  have hsa : storeAccs x.eff = es := by
    rw [he]
    show es ++ storeAccs (wrs u ++ restart o) = es
    rw [plain_stores _ hplain, List.append_nil]
  have hla : loadAccs x.eff [] = [] := by rw [he]; exact plain_loads (wrs u ++ restart o) _ hplain
  have hfar : ∀ c : Core, c.far x.eff = false := fun c => far_scratch c _ (by simp [hla]) (by rw [hsa]; exact hes)
  refine acts_of_sem hr hh hs hx ht _ (by rw [he]; exact plain_fences (wrs u ++ restart o) hplain) hfar ?_
  rw [issueGo_store s.spine s.dev h.k [i] x es _ hst hc he hplain hes, progress_waiting _ _ _ _ _ hst2]
  refine commit_waiting _ _ _ _ _ u o _ _ _ hst2 ?_ hres hu (hlate h.k)
  rintro e (_ | ⟨_, m⟩)
  · rfl
  · exact (hm e m).2

end

/-! ## Lanes -/

/-- Numbers set side by side do not meet. -/
theorem lor_beside (w x y : Nat) (hx : x < 2 ^ w) : x ||| y * 2 ^ w = x + y * 2 ^ w := by
  rw [Nat.lor_comm, Nat.mul_comm, ← Nat.two_pow_add_eq_or_of_lt hx, Nat.add_comm]

/-- Fields of one width, at rising places, are joined by addition. -/
theorem foldl_lor_eq_add (w : Nat) (f : Nat → Nat) (l : List Nat) (acc : Nat) (hl : l.Pairwise (· < ·)) (hf : ∀ i ∈ l, f i < 2 ^ w)
    (hacc : ∀ i ∈ l, acc < 2 ^ (w * i)) :
    l.foldl (fun m i => m ||| f i * 2 ^ (w * i)) acc = l.foldl (fun m i => m + f i * 2 ^ (w * i)) acc := by
  induction l generalizing acc with
  | nil => rfl
  | cons i t ih =>
    obtain ⟨hi, ht⟩ := List.pairwise_cons.mp hl
    have h0 := hacc i List.mem_cons_self
    rw [List.foldl_cons, List.foldl_cons, lor_beside _ _ _ h0]
    refine ih _ ht (fun j hj => hf j (List.mem_cons_of_mem _ hj)) fun j hj => ?_
    have hlt := hf i List.mem_cons_self
    calc acc + f i * 2 ^ (w * i) < 2 ^ (w * i) + f i * 2 ^ (w * i) := Nat.add_lt_add_right h0 _
      _ = (f i + 1) * 2 ^ (w * i) := by ring
      _ ≤ 2 ^ w * 2 ^ (w * i) := Nat.mul_le_mul_right _ hlt
      _ = 2 ^ (w * (i + 1)) := by rw [← Nat.pow_add]; congr 1; ring
      _ ≤ 2 ^ (w * j) := Nat.pow_le_pow_right (by decide) (Nat.mul_le_mul_left w (hi j hj))

theorem active_rises (d : Dev) (k : Nat) (pm : PReg) (s n : Nat) : (d.active k pm s n).Pairwise (· < ·) :=
  List.pairwise_lt_range.filter _

/-- The byte lanes that an access sets, beside others. -/
def maskOr (m : Nat) (e : Elem) : Nat := m ||| (2 ^ e.size - 1) * 2 ^ e.lane
/-- The bytes that an access brings to its lanes, beside others. -/
def valOr (d : Dev) (m : Nat) (e : Elem) : Nat := m ||| ofLeBytes (d.bytes e.da e.size) * 2 ^ (8 * e.lane)

/-- The register write of a vector load. -/
theorem loadWr_v (d : Dev) (r : Reg) (es : List Elem) :
    loadWr (.v r) (es.map fun e => { e with data := d.bytes e.da e.size }) (es.map fun e => d.bytes e.da e.size) =
      [.v r (BitVec.ofNat 64 (es.foldl maskOr 0)) (BitVec.ofNat 512 (es.foldl (valOr d) 0))] := by
  rw [loadWr, List.zip_map', List.foldl_map, List.foldl_map]
  rfl

/-- A vector load that brings element after element writes them to their lanes. -/
theorem loadWr_lanes (d : Dev) (h : Hd) (vd : Reg) (s : Nat) (act : List Nat) (es : List Elem) (f : Nat → Nat)
    (hact : act.Pairwise (· < ·)) (hne : act ≠ []) (hf : ∀ i ∈ act, f i < 2 ^ (8 * s))
    (hm : es.foldl maskOr 0 = act.foldl (fun m i => m ||| (2 ^ s - 1) * 2 ^ (s * i)) 0)
    (hv : es.foldl (valOr d) 0 = act.foldl (fun m i => m ||| f i * 2 ^ (8 * s * i)) 0) :
    (loadWr (.v (d.pv h.k vd)) (es.map fun e => { e with data := d.bytes e.da e.size }) (es.map fun e => d.bytes e.da e.size)).map
      (fun r => (r, 5, false)) = d.laneRes h vd s 0 5 false act f := by
  have hmask : lanesAt s 0 act = BitVec.ofNat 64 (es.foldl maskOr 0) := by
    rw [hm, foldl_lor_eq_add _ _ _ _ hact (fun _ _ => Nat.sub_lt (Nat.two_pow_pos s) Nat.one_pos) fun _ _ => Nat.two_pow_pos _,
      lanesAt]
    simp only [Nat.zero_add]
  have hval : buildV s 0 act f = BitVec.ofNat 512 (es.foldl (valOr d) 0) := by
    rw [hv, foldl_lor_eq_add _ _ _ _ hact hf fun _ _ => Nat.two_pow_pos _, buildV]
    refine congrArg _ (List.foldl_ext _ _ _ fun m i hi => ?_)
    rw [Nat.mod_eq_of_lt (hf i hi), Nat.zero_add, Nat.mul_assoc]
  rw [loadWr_v, Dev.laneRes, if_neg hne, hmask, hval]
  rfl

end Sys2Proof.Proofs

namespace Sys2Proof.Proofs
open Sys2Proof.Machine Sys2Proof.Laws

/-! ## Accesses that lie side by side -/

/-- One access of what two accesses side by side reach. -/
def glue (e f : Elem) : Elem := { e with size := e.size + f.size, data := e.data ++ f.data }

/-- An access holds the bytes that it stores, or none if it loads. -/
def Fits (w : Bool) (e : Elem) : Prop := e.data.length = if w then e.size else 0

theorem fits_glue (w : Bool) (e f : Elem) (he : Fits w e) (hf : Fits w f) : Fits w (glue e f) := by
  unfold Fits at *
  simp only [glue, List.length_append, he, hf]
  cases w <;> rfl

/-- Part of what an element stores fits the part's access. -/
theorem part_fits (w : Bool) (data : List Byte) (s off n : Nat) (hd : data.length = if w then s else 0) (h : off + n ≤ s) :
    ((data.drop off).take n).length = if w then n else 0 := by
  rw [List.length_take, List.length_drop, hd]
  cases w
  · simp
  · simp only [if_true]
    omega

/-- What accesses do in order, whether those that lie side by side are one access or several. -/
structure Glues {α : Type} (w : Bool) (g : α → Elem → α) : Prop where
  same : ∀ a e f, e.da = f.da → e.size = f.size → e.lane = f.lane → e.data = f.data → g a e = g a f
  joint : ∀ a e f, Fits w e → Fits w f → e.da + e.size = f.da → e.lane + e.size = f.lane → g a (glue e f) = g (g a e) f

/-- Byte `j` of an element's access. -/
def bytePart (a lane j : Nat) (data : List Byte) : Elem :=
  { ca := 0, da := a, path := .scratch, size := 1, unit := 1, lane := lane + j, data := (data.drop j).take 1 }

theorem joins_beside (e f : Elem) (h : joins e f = true) : e.path = f.path ∧ e.da + e.size = f.da ∧ e.lane + e.size = f.lane := by
  simp only [joins, Bool.and_eq_true, beq_iff_eq] at h
  obtain ⟨⟨⟨⟨⟨hp, -⟩, -⟩, hd⟩, hl⟩, -⟩ := h
  exact ⟨hp, hd, hl⟩

/-- Joined accesses still fit. -/
theorem joinElems_keeps (w : Bool) (p : Path) (l : List Elem) (hl : ∀ e ∈ l, Fits w e ∧ e.path = p) :
    ∀ e ∈ joinElems l, Fits w e ∧ e.path = p := by
  induction l with
  | nil => exact hl
  | cons x t ih =>
    have hx := hl x List.mem_cons_self
    have ht := ih fun e he => hl e (List.mem_cons_of_mem _ he)
    rw [joinElems]
    cases hj : joinElems t with
    | nil => simpa using hx
    | cons f r =>
      rw [hj] at ht
      obtain ⟨hf, hr⟩ := List.forall_mem_cons.mp ht
      by_cases hjo : joins x f = true
      · simp only [hjo, if_true]
        exact List.forall_mem_cons.mpr ⟨⟨fits_glue w x f hx.1 hf.1, hx.2⟩, hr⟩
      · simp only [hjo]
        exact List.forall_mem_cons.mpr ⟨hx, ht⟩

section
variable {α : Type} {w : Bool} {g : α → Elem → α} (hg : Glues w g)
include hg

/-- Joining accesses changes nothing of what they do. -/
theorem Glues.joined (l : List Elem) (hl : ∀ e ∈ l, Fits w e ∧ e.path = .scratch) (a : α) :
    (joinElems l).foldl g a = l.foldl g a := by
  induction l generalizing a with
  | nil => rfl
  | cons x t ih =>
    obtain ⟨hx, ht⟩ := List.forall_mem_cons.mp hl
    have hkeep := joinElems_keeps w .scratch t ht
    rw [List.foldl_cons, ← ih ht, joinElems]
    cases hj : joinElems t with
    | nil => rfl
    | cons f r =>
      rw [hj] at hkeep
      by_cases hjo : joins x f = true
      · obtain ⟨-, hd, hl⟩ := joins_beside x f hjo
        simp only [hjo, if_true, List.foldl_cons]
        exact congrArg (r.foldl g) (hg.joint a x f hx.1 (hkeep f List.mem_cons_self).1 hd hl)
      · simp only [hjo]
        rfl

/-- An access does what the accesses of its bytes do. -/
theorem Glues.bytes (lane s off n : Nat) (A : Nat → Nat) (data : List Byte) (e : Elem) (hn : 1 ≤ n)
    (hdat : data.length = if w then s else 0) (hfit : off + n ≤ s)
    (hA : ∀ j < n, A (off + j) = A off + j)
    (hda : e.da = A off) (hsz : e.size = n) (hla : e.lane = lane + off) (hdata : e.data = (data.drop off).take n) (a : α) :
    g a e = (List.range n).foldl (fun a j => g a (bytePart (A (off + j)) lane (off + j) data)) a := by
  induction n, hn using Nat.le_induction generalizing e with
  | base =>
    refine hg.same a e _ hda hsz hla hdata
  | succ n hn ih =>
    have hlast : g a e = g (g a { e with size := n, data := (data.drop off).take n }) (bytePart (A (off + n)) lane (off + n) data) := by
      refine (hg.same a e (glue { e with size := n, data := (data.drop off).take n } (bytePart (A (off + n)) lane (off + n) data)) rfl
        hsz rfl ?_).trans (hg.joint a _ _ ?_ ?_ ?_ ?_)
      · rw [hdata, List.take_add, List.drop_drop]
        rfl
      · exact part_fits w data s off n hdat (by omega)
      · exact part_fits w data s (off + n) 1 hdat (by omega)
      · exact (congrArg (· + n) hda).trans (hA n (Nat.lt_succ_self n)).symm
      · exact (congrArg (· + n) hla).trans (Nat.add_assoc _ _ _)
    rw [hlast, List.range_succ, List.foldl_append, List.foldl_cons, List.foldl_nil]
    refine congrArg (g · _) (ih _ (by omega) (fun j hj => hA j (Nat.lt_succ_of_lt hj)) hda rfl hla rfl)
end

/-- Two fields side by side, above `l` bits. -/
theorem lor_fields (x y n l : Nat) (hx : x < 2 ^ n) : x * 2 ^ l ||| y * 2 ^ (l + n) = (x + y * 2 ^ n) * 2 ^ l := by
  rw [← lor_beside n x y hx, ← Nat.shiftLeft_eq (x ||| _), Nat.shiftLeft_or_distrib, Nat.shiftLeft_eq, Nat.shiftLeft_eq, Nat.mul_assoc,
    ← Nat.pow_add, Nat.add_comm n l]

theorem glues_maskOr : Glues false maskOr where
  same a e f _ hs hl _ := by rw [maskOr, maskOr, hs, hl]
  joint a e f _ _ _ hl := by
    have hx : 2 ^ e.size - 1 < 2 ^ e.size := Nat.sub_lt (Nat.two_pow_pos _) Nat.one_pos
    have hsum : 2 ^ e.size - 1 + (2 ^ f.size - 1) * 2 ^ e.size = 2 ^ (e.size + f.size) - 1 := by
      have h1 := Nat.two_pow_pos e.size
      have h2 : 2 ^ e.size ≤ 2 ^ f.size * 2 ^ e.size := Nat.le_mul_of_pos_left _ (Nat.two_pow_pos _)
      rw [Nat.sub_mul, Nat.one_mul, Nat.pow_add, Nat.mul_comm (2 ^ e.size)]
      omega
    rw [maskOr, maskOr, maskOr, ← hl, Nat.lor_assoc, lor_fields _ _ _ _ hx, hsum]
    rfl

theorem bytes_append (d : Dev) (a m n : Nat) : d.bytes a (m + n) = d.bytes a m ++ d.bytes (a + m) n := by
  simp only [Dev.bytes, List.range_add, List.map_append, List.map_map]
  refine congrArg _ (List.map_congr_left fun i _ => ?_)
  rw [Function.comp_apply, Nat.add_assoc]

theorem pow_bytes (n : Nat) : 256 ^ n = 2 ^ (8 * n) := by rw [Nat.pow_mul]

theorem ofLeBytes_lt_pow (l : List Byte) (n : Nat) (hn : l.length = n) : ofLeBytes l < 2 ^ (8 * n) := by
  rw [← pow_bytes, ← hn]
  exact ofLeBytes_lt l

theorem glues_valOr (d : Dev) : Glues false (valOr d) where
  same a e f ha hs hl _ := by rw [valOr, valOr, ha, hs, hl]
  joint a e f _ _ ha hl := by
    have hx := ofLeBytes_lt_pow (d.bytes e.da e.size) e.size (bytes_length _ _ _)
    have hsum : ofLeBytes (d.bytes e.da (e.size + f.size)) =
        ofLeBytes (d.bytes e.da e.size) + ofLeBytes (d.bytes f.da f.size) * 2 ^ (8 * e.size) := by
      rw [bytes_append, ofLeBytes_append, bytes_length, pow_bytes, ha, Nat.mul_comm]
    rw [valOr, valOr, valOr, ← hl, Nat.lor_assoc, Nat.mul_add, lor_fields _ _ _ _ hx, ← hsum]
    rfl

theorem setBytes_append (d : Dev) (a : Nat) (l m : List Byte) : d.setBytes a (l ++ m) = (d.setBytes a l).setBytes (a + l.length) m := by
  induction l generalizing d a with
  | nil => rfl
  | cons b t ih => rw [List.cons_append, Dev.setBytes, ih, Dev.setBytes, List.length_cons, Nat.add_assoc, Nat.add_comm 1]

/-- The store of an access. -/
def storeOne (d : Dev) (e : Elem) : Dev := d.setBytes e.da e.data

theorem glues_storeOne : Glues true storeOne where
  same a e f ha _ _ hd := by rw [storeOne, storeOne, ha, hd]
  joint a e f he _ ha _ := by
    rw [storeOne, storeOne, storeOne, ← ha, ← show e.data.length = e.size from he, ← setBytes_append]
    rfl

/-- The lanes and the bytes of an element's byte accesses. -/
theorem bytes_maskOr (A : Nat → Nat) (lane n m : Nat) (data : List Byte) :
    (List.range n).foldl (fun m j => maskOr m (bytePart (A j) lane j data)) m = m ||| (2 ^ n - 1) * 2 ^ lane := by
  induction n with
  | zero => simp
  | succ n ih =>
    have hx : 2 ^ n - 1 < 2 ^ n := Nat.sub_lt (Nat.two_pow_pos _) Nat.one_pos
    have hsum : 2 ^ n - 1 + (2 ^ 1 - 1) * 2 ^ n = 2 ^ (n + 1) - 1 := by
      have := Nat.two_pow_pos n
      omega
    rw [List.range_succ, List.foldl_append, ih, List.foldl_cons, List.foldl_nil, maskOr, Nat.lor_assoc]
    exact congrArg (m ||| ·) ((lor_fields _ _ _ _ hx).trans (congrArg (· * 2 ^ lane) hsum))
theorem bytes_valOr (d : Dev) (A : Nat → Nat) (lane n m : Nat) (data : List Byte) :
    (List.range n).foldl (fun m j => valOr d m (bytePart (A j) lane j data)) m =
      m ||| ofLeBytes ((List.range n).flatMap fun j => d.bytes (A j) 1) * 2 ^ (8 * lane) := by
  induction n with
  | zero => simp [ofLeBytes]
  | succ n ih =>
    have hlen : ((List.range n).flatMap fun j => d.bytes (A j) 1).length = n := by simp
    have hx := ofLeBytes_lt_pow _ n hlen
    rw [List.range_succ, List.foldl_append, ih, List.foldl_cons, List.foldl_nil, valOr, Nat.lor_assoc, List.flatMap_append,
      List.flatMap_singleton, ofLeBytes_append, hlen, pow_bytes, Nat.mul_comm (2 ^ (8 * n))]
    refine congrArg (m ||| ·) (Eq.trans ?_ (lor_fields _ _ _ _ hx))
    rw [← Nat.mul_add]
    rfl

end Sys2Proof.Proofs

namespace Sys2Proof.Proofs
open Sys2Proof.Machine Sys2Proof.Laws

/-! ## The bytes of an element in a window -/

/-- Addresses that wrap at nothing finer than a word: modulo 2^32, or in a window of whole words. -/
def Wordly (o : AddrOut) : Prop := ∀ b len, o.win = some (b, len) → 4 ∣ b ∧ 4 ∣ len ∧ 0 < len

theorem address_wordly (d : Dev) (k rb : Nat) (off : Int) (pi cwe : Bool) (cw : Nat) : Wordly (d.address k rb off pi cwe cw) := by
  intro b len hw
  unfold Dev.address at hw
  split at hw
  · dsimp only at hw
    split at hw
    next => cases hw
    next hin =>
      obtain ⟨rfl, rfl⟩ := Prod.mk.injEq .. ▸ Option.some.inj hw
      exact ⟨Dvd.intro_left _ rfl, Dvd.intro_left _ rfl, Nat.pos_of_ne_zero fun h => hin (.inl h)⟩
  · cases hw

/-- The parts of a word that an access may have. -/
theorem part_cases (n : Nat) (h : n ∣ 4) : n = 1 ∨ n = 2 ∨ n = 4 := by
  have hle := Nat.le_of_dvd (by decide) h
  interval_cases n <;> simp_all

section
variable {o : AddrOut} (ho : Wordly o) {n : Nat} (hn : n ∣ 4)
include ho hn

/-- The place of an address in its part of a word. -/
theorem at_mod : ∃ c, ∀ q, o.at q % n = (c + q) % n := by
  cases hw : o.win with
  | none =>
    refine ⟨o.addr, fun q => ?_⟩
    rw [AddrOut.at, hw]
    exact Nat.mod_mod_of_dvd _ (hn.trans (by decide))
  | some w =>
    obtain ⟨b, len⟩ := w
    obtain ⟨-, hlen, -⟩ := ho b len hw
    refine ⟨b + (o.addr - b), fun q => ?_⟩
    simp only [AddrOut.at, hw]
    rw [Nat.add_mod, Nat.mod_mod_of_dvd _ (hn.trans hlen), ← Nat.add_mod, Nat.add_assoc]

/-- An aligned part of a word does not wrap. -/
theorem at_next (q j : Nat) (ha : o.at q % n = 0) (hj : j < n) : o.at (q + j) = o.at q + j := by
  cases hw : o.win with
  | none =>
    simp only [AddrOut.at, hw] at ha ⊢
    rcases part_cases n hn with rfl | rfl | rfl <;> omega
  | some w =>
    obtain ⟨b, len⟩ := w
    obtain ⟨hb, hlen, hpos⟩ := ho b len hw
    simp only [AddrOut.at, hw] at ha ⊢
    have hlt := Nat.mod_lt (o.addr - b + q) hpos
    have hstep : (o.addr - b + q) % len + j < len := by
      rcases part_cases n hn with rfl | rfl | rfl <;> omega
    have hmod : j % len = j := Nat.mod_eq_of_lt (by omega)
    rw [← Nat.add_assoc (o.addr - b), Nat.add_mod_of_add_mod_lt (by rw [hmod]; exact hstep), hmod, Nat.add_assoc]
end

/-- The size of an element: one byte, or two equal parts of words. -/
theorem vSize_cases (sz : BitVec 2) : 2 ^ sz.toNat = 1 ∨ ∃ n, n ∣ 4 ∧ 2 ^ sz.toNat = n + n := by
  have hlt := sz.isLt
  interval_cases sz.toNat
  · exact .inl rfl
  · exact .inr ⟨1, by decide, rfl⟩
  · exact .inr ⟨2, by decide, rfl⟩
  · exact .inr ⟨4, by decide, rfl⟩

/-- Addresses in one block of a segment map side by side. -/
theorem mapAddr_next (d : Dev) (k a n j x y : Nat) (w : Bool) (p q : Path) (hn : n ∣ 8) (ha : a % n = 0) (hj : j < n)
    (hx : d.mapAddr k a w = some (x, p)) (hy : d.mapAddr k (a + j) w = some (y, q)) : y = x + j := by
  have hle := Nat.le_of_dvd (by decide) hn
  have hblk : (a + j) / 0x10000000 = a / 0x10000000 ∧ (a + j) % 0x10000000 = a % 0x10000000 + j := by
    interval_cases n <;> omega
  unfold Dev.mapAddr at hx hy
  simp only [hblk.1, hblk.2, Option.ite_some_none_eq_some, Prod.mk.injEq] at hx hy
  obtain ⟨-, rfl, -⟩ := hx
  obtain ⟨-, rfl, -⟩ := hy
  rw [Nat.add_assoc]

/-- An element that is aligned and mapped passes its check. -/
theorem elemPart_ok (d : Dev) (k : Nat) (write : Bool) (ca s lane : Nat) (data : List Byte) (off n at_ da : Nat) (ha : ca % s = 0)
    (hm : d.mapAddr k at_ write = some (da, .scratch)) : elemPart d k write ca s lane data off n at_ =
      .inr { ca := ca, da := da, path := .scratch, size := n, unit := s, lane := lane + off, data := (data.drop off).take n } := by
  rw [elemPart, if_neg (not_not.mpr ha), hm]

/-- Where the accesses of an element of `s` bytes at byte `p` start, and their sizes. -/
def partsAt (o : AddrOut) (p s : Nat) : List (Nat × Nat) :=
  if o.at (p + s / 2) = o.at p + s / 2 then [(0, s)] else [(0, s / 2), (s / 2, s / 2)]

/-- One of these accesses. -/
def partElem (o : AddrOut) (da : Nat → Nat) (p s lane : Nat) (data : List Byte) (x : Nat × Nat) : Elem :=
  { ca := o.at p, da := da (p + x.1), path := .scratch, size := x.2, unit := s, lane := lane + x.1
    data := (data.drop x.1).take x.2 }

section
variable {d : Dev} {k : Nat} {write : Bool} {o : AddrOut} {da : Nat → Nat} {p s : Nat}
  (hs : s = 1 ∨ ∃ n, n ∣ 4 ∧ s = n + n) (ha : o.at p % s = 0)
  (hm : ∀ j < s, d.mapAddr k (o.at (p + j)) write = some (da (p + j), .scratch))
include hs ha hm

/-- The checks of an element that is aligned and mapped let it through. -/
theorem windowElem_parts (lane : Nat) (data : List Byte) :
    windowElem d k write o p s lane data = ((partsAt o p s).map (partElem o da p s lane data)).map .inr := by
  have hpos : 0 < s := by
    rcases hs with rfl | ⟨n, hn, rfl⟩
    · exact Nat.one_pos
    · have := Nat.pos_of_dvd_of_pos hn (by decide)
      omega
  have hpart : ∀ off < s, ∀ n, elemPart d k write (o.at p) s lane data off n (o.at (p + off)) =
      .inr (partElem o da p s lane data (off, n)) :=
    fun off hoff n => elemPart_ok _ _ _ _ _ _ _ _ _ _ _ ha (hm off hoff)
  unfold windowElem partsAt
  split
  · exact congrArg (fun x => [x]) (hpart 0 hpos s)
  · simp only [List.map_cons, List.map_nil, hpart 0 hpos, hpart (s / 2) (Nat.div_lt_self hpos (by decide))]

/-- Each of the accesses lies in the element, and reaches addresses that lie side by side. -/
theorem partsAt_beside (ho : Wordly o) : ∀ x ∈ partsAt o p s,
    x.1 + x.2 ≤ s ∧ 1 ≤ x.2 ∧ ∀ j < x.2, da (p + (x.1 + j)) = da (p + x.1) + j := by
  rcases hs with rfl | ⟨n, hn, rfl⟩
  · intro x hx
    rw [partsAt, if_pos (show o.at (p + 1 / 2) = o.at p + 1 / 2 from rfl), List.mem_singleton] at hx
    subst hx
    refine ⟨Nat.le_refl _, Nat.le_refl _, fun j hj => ?_⟩
    rw [Nat.lt_one_iff.mp hj]
    rfl
  · have hhalf : (n + n) / 2 = n := by omega
    have hpos := Nat.pos_of_dvd_of_pos hn (by decide)
    have hlow : o.at p % n = 0 := Nat.mod_eq_zero_of_dvd ((Dvd.intro 2 (by ring)).trans (Nat.dvd_of_mod_eq_zero ha))
    have hhigh : o.at (p + n) % n = 0 := by
      obtain ⟨c, hc⟩ := at_mod ho hn
      rw [hc, ← Nat.add_assoc, Nat.add_mod_right, ← hc, hlow]
    have hbeside : ∀ off m, off + m ≤ n + n → m ∣ 8 → o.at (p + off) % m = 0 →
        (∀ j < m, o.at (p + (off + j)) = o.at (p + off) + j) → ∀ j < m, da (p + (off + j)) = da (p + off) + j := fun off m hle hm8 hal hat j hj =>
      mapAddr_next d k (o.at (p + off)) m j _ _ write _ _ hm8 hal hj (hm off (by omega))
        (by rw [← hat j hj]; exact hm (off + j) (by omega))
    have hn8 : n ∣ 8 := hn.trans (by decide)
    have hlows : ∀ j < n, o.at (p + (0 + j)) = o.at (p + 0) + j := fun j hj => by
      rw [Nat.zero_add]
      exact at_next ho hn p j hlow hj
    have hhighs : ∀ j < n, o.at (p + (n + j)) = o.at (p + n) + j := fun j hj => by
      rw [← Nat.add_assoc]
      exact at_next ho hn (p + n) j hhigh hj
    rw [partsAt, hhalf]
    split
    next hwhole =>
      intro x hx
      rw [List.mem_singleton.mp hx]
      refine ⟨(Nat.zero_add _).le, by omega, hbeside 0 (n + n) (by omega) ?_ ha fun j hj => ?_⟩
      · rcases part_cases n hn with rfl | rfl | rfl <;> decide
      · by_cases hjn : j < n
        · exact hlows j hjn
        · have := hhighs (j - n) (by omega)
          rw [show n + (j - n) = 0 + j by omega, hwhole] at this
          rw [this, Nat.add_zero]
          omega
    next =>
      intro x hx
      rcases List.mem_cons.mp hx with rfl | hx
      · exact ⟨by omega, hpos, hbeside 0 n (by omega) hn8 hlow hlows⟩
      · rw [List.mem_singleton.mp hx]
        exact ⟨Nat.le_refl _, hpos, hbeside n n (Nat.le_refl _) hn8 hhigh hhighs⟩

/-- The accesses of an element do what those of its bytes do. -/
theorem partsAt_bytes {α : Type} {w : Bool} {g : α → Elem → α} (hg : Glues w g) (ho : Wordly o) (lane : Nat) (data : List Byte)
    (hdat : data.length = if w then s else 0) (a : α) :
    ((partsAt o p s).map (partElem o da p s lane data)).foldl g a =
      (List.range s).foldl (fun a j => g a (bytePart (da (p + j)) lane j data)) a := by
  have hone : ∀ x ∈ partsAt o p s, ∀ a, g a (partElem o da p s lane data x) =
      (List.range x.2).foldl (fun a j => g a (bytePart (da (p + (x.1 + j))) lane (x.1 + j) data)) a := fun x hx a => by
    obtain ⟨hle, hpos, hb⟩ := partsAt_beside hs ha hm ho x hx
    exact hg.bytes lane s x.1 x.2 (fun j => da (p + j)) data _ hpos hdat hle hb rfl rfl rfl rfl a
  rw [List.foldl_map]
  by_cases hwhole : o.at (p + s / 2) = o.at p + s / 2
  · rw [partsAt, if_pos hwhole] at hone ⊢
    rw [List.foldl_cons, List.foldl_nil, hone _ List.mem_cons_self]
    simp only [Nat.zero_add]
  · obtain ⟨n, rfl⟩ : ∃ n, s = n + n := by
      rcases hs with rfl | ⟨n, -, h⟩
      · exact absurd rfl hwhole
      · exact ⟨n, h⟩
    have hhalf : (n + n) / 2 = n := by omega
    rw [partsAt, if_neg hwhole, hhalf] at hone ⊢
    rw [List.foldl_cons, List.foldl_cons, List.foldl_nil, hone _ List.mem_cons_self, hone _ (List.mem_cons_of_mem _ List.mem_cons_self),
      List.range_add, List.foldl_append, List.foldl_map]
    simp only [Nat.zero_add]

end

end Sys2Proof.Proofs

namespace Sys2Proof.Proofs
open Sys2Proof.Machine Sys2Proof.Laws

/-! ## Vector loads, stores, gathers and scatters -/

/-- A core outside the hub has the vector instructions. -/
theorem notHub_off {h : Hd} (hk : isHubCore h.k = false) (x : Sem) : notHub h x = x := if_neg (by rw [hk]; exact Bool.false_ne_true)

theorem leBytes_length (n x : Nat) : (leBytes n x).length = n := by
  induction n generalizing x with
  | zero => rfl
  | succ n ih => rw [leBytes, List.length_cons, ih]

/-- The accesses of a vector instruction, joined where they are of unit stride. -/
def accsOf (unit : Bool) (l : List Elem) : List Elem := if unit then joinElems l else l

theorem accsOf_keeps (unit w : Bool) (l : List Elem) (hl : ∀ e ∈ l, Fits w e ∧ e.path = .scratch) :
    ∀ e ∈ accsOf unit l, e.path = .scratch := by
  cases unit
  · exact fun e he => (hl e he).2
  · exact fun e he => (joinElems_keeps w .scratch l hl e he).2

theorem accsOf_foldl {α : Type} {w : Bool} {g : α → Elem → α} (hg : Glues w g) (unit : Bool) (l : List Elem)
    (hl : ∀ e ∈ l, Fits w e ∧ e.path = .scratch) (a : α) : (accsOf unit l).foldl g a = l.foldl g a := by
  cases unit
  · rfl
  · exact hg.joined l hl a

/-- Element after element, by what the accesses of each do. -/
theorem foldl_elems {α : Type} (g : α → Elem → α) (act : List Nat) (ps : Nat → List Elem) (f : α → Nat → α)
    (h : ∀ i ∈ act, ∀ a, (ps i).foldl g a = f a i) (a : α) : (act.flatMap ps).foldl g a = act.foldl f a := by
  rw [List.foldl_flatMap]
  exact List.foldl_ext _ _ _ fun a i hi => h i hi a

section
variable {s : State} {i : Instr} {h : Hd} {x : Sem} (hr : Ready s h) (hh : headOf i = some h)
  (hs : semOf s.spine (held s.dev h.k [i]) i = some (h, x)) (hx : x.run = true) (ht : x.trap = none)
  {act : List Nat} {ps : Nat → List Elem} {unit : Bool} {u : List (RegWr × Nat × Bool)} {o : Option Nat} (hu : ∀ y ∈ u, 1 ≤ y.2.1)
include hr hh hs hx ht hu

/-- A vector load whose elements' accesses bring `f`. -/
theorem vecLoad_runs {vd : Reg} {z : Nat} {f : Nat → Nat} (hb : s.dev.bad = []) (hne : act ≠ []) (hact : act.Pairwise (· < ·))
    (he : x.eff = .ld (.v (s.dev.pv h.k vd)) (accsOf unit (act.flatMap ps)) 5 :: (wrs u ++ restart o))
    (hfit : ∀ i ∈ act, ∀ e ∈ ps i, Fits false e ∧ e.path = .scratch) (hf : ∀ i ∈ act, f i < 2 ^ (8 * z))
    (hmask : ∀ i ∈ act, ∀ m, (ps i).foldl maskOr m = m ||| (2 ^ z - 1) * 2 ^ (z * i))
    (hval : ∀ i ∈ act, ∀ m, (ps i).foldl (valOr s.dev) m = m ||| f i * 2 ^ (8 * (z * i))) :
    coreInstr i s = s.to (started (s.dev.lone h.k (s.dev.laneRes h vd z 0 5 false act f ++ u)) h.k o) := by
  have hall : ∀ e ∈ act.flatMap ps, Fits false e ∧ e.path = .scratch := fun e m => by
    obtain ⟨i, hi, m⟩ := List.mem_flatMap.mp m
    exact hfit i hi e m
  rw [loadsStart_of_sem hr hh hs hx ht hb he (by decide) hu (accsOf_keeps unit false _ hall),
    loadWr_lanes s.dev h vd z act _ f hact hne hf]
  · exact (accsOf_foldl glues_maskOr unit _ hall 0).trans (foldl_elems _ _ _ _ hmask 0)
  · refine (accsOf_foldl (glues_valOr _) unit _ hall 0).trans ((foldl_elems _ _ _ _ hval 0).trans ?_)
    simp only [Nat.mul_assoc]

/-- A vector store whose elements' accesses write what `put` does. -/
theorem vecStore_runs {put : Dev → Nat → Dev} (hc : Clean s.dev)
    (he : x.eff = .st (accsOf unit (act.flatMap ps)) :: (wrs u ++ restart o))
    (hfit : ∀ i ∈ act, ∀ e ∈ ps i, Fits true e ∧ e.path = .scratch)
    (hput : ∀ i ∈ act, ∀ d, (ps i).foldl storeOne d = put d i) :
    coreInstr i s = s.to (started ((act.foldl put s.dev).lone h.k u) h.k o) := by
  have hall : ∀ e ∈ act.flatMap ps, Fits true e ∧ e.path = .scratch := fun e m => by
    obtain ⟨i, hi, m⟩ := List.mem_flatMap.mp m
    exact hfit i hi e m
  have hstored : stored s.dev (accsOf unit (act.flatMap ps)) = act.foldl put s.dev :=
    (accsOf_foldl glues_storeOne unit _ hall s.dev).trans (foldl_elems _ _ _ _ hput s.dev)
  rw [storesStart_of_sem hr hh hs hx ht hc he hu (accsOf_keeps unit true _ hall), hstored]

end

/-- Checks that let every element through. -/
theorem splitElems_ok (act : List Nat) (part : Nat → List (Nat × Nat ⊕ Elem)) (ps : Nat → List Elem)
    (h : ∀ i ∈ act, part i = (ps i).map .inr) :
    splitElems (act.flatMap fun i => (part i).map fun x => (i, x)) = (act.flatMap ps, none) := by
  have hone : ∀ (i : Nat) (l : List Elem) r,
      splitElems (((l.map Sum.inr).map fun x => (i, x)) ++ r) = (l ++ (splitElems r).1, (splitElems r).2) := by
    intro i l r
    induction l with
    | nil => rfl
    | cons e t ih => simp only [List.map_cons, List.cons_append, splitElems, ih]
  induction act with
  | nil => rfl
  | cons i t ih =>
    rw [List.flatMap_cons, h i List.mem_cons_self, hone, ih fun j hj => h j (List.mem_cons_of_mem _ hj), List.flatMap_cons]

section
variable (d : Dev) (h : Hd) (word : Nat) (write : Bool) (vd rb : Reg) (s : Nat) (pi : Bool)
  (part : Nat → List Byte → List (Nat × Nat ⊕ Elem)) (winBad : Bool) (upd : Nat) (srcs : List Reg) (unit : Bool)

/-- With no active element a vector access does nothing. -/
theorem semVecMem_idle (ha : d.active h.k h.pg s (64 / s) = []) :
    let x := semVecMem d h word write vd rb s pi part winBad upd srcs unit
    x.run = true ∧ x.trap = none ∧ x.eff = restart none := by
  simp only [semVecMem, ha, if_true]
  exact ⟨trivial, trivial, rfl⟩

/-- The access of a vector instruction to these elements. -/
def vecAccess (write : Bool) (r : Reg) (es : List Elem) : Eff := if write then .st es else .ld (.v r) es 5

/-- A vector access whose elements all pass their checks. -/
theorem semVecMem_runs (ps : Nat → List Elem) (ha : d.active h.k h.pg s (64 / s) ≠ []) (hw : winBad = false)
    (hp : ∀ i ∈ d.active h.k h.pg s (64 / s), part i (if write then storeData (d.v h.k vd) s i else []) = (ps i).map .inr) :
    let x := semVecMem d h word write vd rb s pi part winBad upd srcs unit
    x.run = true ∧ x.trap = none ∧
      x.eff = vecAccess write (d.pv h.k vd) (accsOf unit ((d.active h.k h.pg s (64 / s)).flatMap ps)) ::
        (wrs (if pi then [(.g rb (BitVec.ofNat 32 upd), 1, false)] else []) ++ restart none) := by
  simp only [semVecMem, if_neg ha, hw, splitElems_ok _ _ ps hp, Bool.false_eq_true, if_false]
  refine ⟨trivial, trivial, ?_⟩
  cases write <;> cases pi <;> rfl
end

/-- What the vector accesses read stands beside the bundle that is held. -/
theorem semVUnit_held (d : Dev) (h : Hd) (b : List Instr) (write : Bool) (vd rb : Reg) (m : VForm) :
    semVUnit (held d h.k b) h write vd rb m = semVUnit d h write vd rb m := by
  have hw : ∀ o p s l data, windowElem (held d h.k b) h.k write o p s l data = windowElem d h.k write o p s l data := fun _ _ _ _ _ => rfl
  have hk : h.noGn.k = h.k := rfl
  simp only [semVUnit, semVecMem, hk, held_active, held_v, held_vl, held_g, held_address, held_pv, hw]
theorem semVStride_held (d : Dev) (h : Hd) (b : List Instr) (write : Bool) (vd rb rx : Reg) (sz : BitVec 2) (pi : Bool) :
    semVStride (held d h.k b) h write vd rb rx sz pi = semVStride d h write vd rb rx sz pi := by
  have he : ∀ ca s l data, elemOf (held d h.k b) h.k write ca s l data = elemOf d h.k write ca s l data := fun _ _ _ _ => rfl
  have hk : h.noGn.k = h.k := rfl
  simp only [semVStride, semVecMem, hk, held_active, held_v, held_vl, held_g, held_pv, he]
theorem semVIndexed_held (d : Dev) (h : Hd) (b : List Instr) (write : Bool) (vd rb rx : Reg) (sz : BitVec 2) (x : Bool) (sc : BitVec 2) :
    semVIndexed (held d h.k b) h write vd rb rx sz x sc = semVIndexed d h write vd rb rx sz x sc := by
  have he : ∀ ca s l data, elemOf (held d h.k b) h.k write ca s l data = elemOf d h.k write ca s l data := fun _ _ _ _ => rfl
  simp only [semVIndexed, held_active, held_v, held_vl, held_g, held_pv, held_f, he]

/-- The one access of an element that is reached at its own address. -/
def wholeElem (ca da : Nat → Nat) (z : Nat) (data : Nat → List Byte) (i : Nat) : Elem :=
  { ca := ca i, da := da i, path := .scratch, size := z, unit := z, lane := z * i, data := (data i).take z }

theorem elemOf_ok (d : Dev) (k : Nat) (write : Bool) (ca da : Nat → Nat) (z i : Nat) (data : Nat → List Byte) (ha : ca i % z = 0)
    (hm : d.mapAddr k (ca i) write = some (da i, .scratch)) :
    elemOf d k write (ca i) z (z * i) (data i) = .inr (wholeElem ca da z data i) := elemPart_ok _ _ _ _ _ _ _ _ _ _ _ ha hm

/-- What an element stores, or nothing if it loads. -/
def elemData (write : Bool) (v : BitVec 512) (z i : Nat) : List Byte := if write then storeData v z i else []
theorem elemData_length (write : Bool) (v : BitVec 512) (z i : Nat) : (elemData write v z i).length = if write then z else 0 := by
  cases write
  · rfl
  · exact leBytes_length _ _

theorem wholeElem_fits (write : Bool) (ca da : Nat → Nat) (z i : Nat) (v : BitVec 512) :
    ∀ e ∈ [wholeElem ca da z (elemData write v z) i], Fits write e ∧ e.path = .scratch := by
  rintro e (_ | ⟨_, ⟨⟩⟩)
  refine ⟨?_, rfl⟩
  exact part_fits write _ z 0 z (elemData_length write v z i) (by omega)

end Sys2Proof.Proofs

namespace Sys2Proof.Proofs
open Sys2Proof.Machine Sys2Proof.Laws

/-! ## The three forms of vector access -/

/-- The base update of a vector access. -/
def vUpd (pi : Bool) (rb : Reg) (a : Nat) : List (RegWr × Nat × Bool) := if pi then [(.g rb (BitVec.ofNat 32 a), 1, false)] else []

theorem vUpd_late (pi : Bool) (rb : Reg) (a : Nat) : ∀ y ∈ vUpd pi rb a, 1 ≤ y.2.1 := by
  unfold vUpd
  split <;> simp

/-! ### Unit stride -/

section
variable (d : Dev) (h : Hd) (write : Bool) (vd rb : Reg) (m : VForm) (da : Nat → Nat)

/-- The active elements of a unit-stride access. -/
def unitAct : List Nat := d.active h.k h.pg (2 ^ m.sz.toNat) (64 / 2 ^ m.sz.toNat)

/-- Where a unit-stride access starts. -/
def unitAt : AddrOut := d.address h.k (d.g h.k rb).toNat
  (if m.pi then ((min (d.vl h.k) (64 / 2 ^ m.sz.toNat) * 2 ^ m.sz.toNat : Nat) : Int) else 0) m.pi m.cwe m.cw.toNat

/-- The accesses of element `i`. -/
def unitElems (i : Nat) : List Elem :=
  let z := 2 ^ m.sz.toNat
  (partsAt (unitAt d h rb m) (i * z) z).map (partElem (unitAt d h rb m) da (i * z) z (z * i) (elemData write (d.v h.k vd) z i))

/-- Element `i` is aligned, and its bytes are mapped to the scratch. -/
def UnitMapped (i : Nat) : Prop :=
  let z := 2 ^ m.sz.toNat
  (unitAt d h rb m).at (i * z) % z = 0 ∧
    ∀ j < z, d.mapAddr h.k ((unitAt d h rb m).at (i * z + j)) write = some (da (i * z + j), .scratch)

theorem semVUnit_idle (ha : unitAct d h m = []) :
    let x := semVUnit d h write vd rb m
    x.run = true ∧ x.trap = none ∧ x.eff = restart none := semVecMem_idle _ _ _ _ _ _ _ _ _ _ _ _ _ ha

variable (hm : ∀ i ∈ unitAct d h m, UnitMapped d h write rb m da i)
include hm

theorem semVUnit_runs (ha : unitAct d h m ≠ []) (hbad : (unitAt d h rb m).bad = false) :
    let x := semVUnit d h write vd rb m
    x.run = true ∧ x.trap = none ∧
      x.eff = vecAccess write (d.pv h.k vd) (accsOf true ((unitAct d h m).flatMap (unitElems d h write vd rb m da))) ::
        (wrs (vUpd m.pi rb (unitAt d h rb m).base) ++ restart none) :=
  semVecMem_runs _ _ _ _ _ _ _ _ _ _ _ _ _ _ ha hbad fun i hi => by
    obtain ⟨hal, hmap⟩ := hm i hi
    exact windowElem_parts (vSize_cases m.sz) hal hmap _ _

/-- The accesses of an active element do what those of its bytes do. -/
theorem unitElems_bytes {α : Type} {g : α → Elem → α} (hg : Glues write g) (i : Nat) (hi : i ∈ unitAct d h m) (a : α) :
    let z := 2 ^ m.sz.toNat
    (unitElems d h write vd rb m da i).foldl g a = (List.range z).foldl
      (fun a j => g a (bytePart (da (i * z + j)) (z * i) j (elemData write (d.v h.k vd) z i))) a := by
  obtain ⟨hal, hmap⟩ := hm i hi
  exact partsAt_bytes (vSize_cases m.sz) hal hmap hg (address_wordly _ _ _ _ _ _ _) _ _ (elemData_length _ _ _ _) a

theorem unitElems_fits (i : Nat) (hi : i ∈ unitAct d h m) :
    ∀ e ∈ unitElems d h write vd rb m da i, Fits write e ∧ e.path = .scratch := by
  obtain ⟨hal, hmap⟩ := hm i hi
  intro e he
  obtain ⟨x, hx, rfl⟩ := List.mem_map.mp he
  obtain ⟨hle, -, -⟩ := partsAt_beside (vSize_cases m.sz) hal hmap (address_wordly _ _ _ _ _ _ _) x hx
  exact ⟨part_fits _ _ _ _ _ (elemData_length _ _ _ _) hle, rfl⟩
end

/-- VLD reads each active element byte by byte. -/
theorem vld_runs {s : State} {h : Hd} (hr : ReadyV s h) (hc : Clean s.dev) (vd rb : Reg) (m : VForm) (da : Nat → Nat)
    (hbad : unitAct s.dev h m ≠ [] → (unitAt s.dev h rb m).bad = false)
    (hm : ∀ i ∈ unitAct s.dev h m, UnitMapped s.dev h false rb m da i) :
    let z := 2 ^ m.sz.toNat
    coreInstr (.vld h vd rb m) s = s.results h (if unitAct s.dev h m = [] then [] else
      s.dev.laneRes h vd z 0 5 false (unitAct s.dev h m)
          (fun i => ofLeBytes ((List.range z).flatMap fun j => s.dev.bytes (da (i * z + j)) 1)) ++
        vUpd m.pi rb (unitAt s.dev h rb m).base) := by
  have hs : semOf s.spine (held s.dev h.k [.vld h vd rb m]) (.vld h vd rb m) = some (h, semVUnit s.dev h false vd rb m) :=
    congrArg (fun y => some (h, y)) ((notHub_off hr.hub _).trans (semVUnit_held _ _ _ _ _ _ _))
  intro z
  split
  case isTrue hact =>
    obtain ⟨hrun, htrap, heff⟩ := semVUnit_idle s.dev h false vd rb m hact
    exact restarts_of_sem hr.toReady rfl hs hrun htrap heff
  case isFalse hact =>
    obtain ⟨hrun, htrap, heff⟩ := semVUnit_runs s.dev h false vd rb m da hm hact (hbad hact)
    exact vecLoad_runs hr.toReady rfl hs hrun htrap (vUpd_late _ _ _) hc.bad hact (active_rises _ _ _ _ _) heff
      (unitElems_fits s.dev h false vd rb m da hm) (fun i _ => ofLeBytes_lt_pow _ _ (by simp [z]))
      (fun i hi a => (unitElems_bytes s.dev h false vd rb m da hm glues_maskOr i hi a).trans (bytes_maskOr _ _ _ _ _))
      fun i hi a => (unitElems_bytes s.dev h false vd rb m da hm (glues_valOr _) i hi a).trans (bytes_valOr _ _ _ _ _ _)

/-- VST stores each active element byte by byte. -/
theorem vst_runs {s : State} {h : Hd} (hr : ReadyV s h) (hc : Clean s.dev) (vd rb : Reg) (m : VForm) (da : Nat → Nat)
    (hbad : unitAct s.dev h m ≠ [] → (unitAt s.dev h rb m).bad = false)
    (hm : ∀ i ∈ unitAct s.dev h m, UnitMapped s.dev h true rb m da i) :
    let z := 2 ^ m.sz.toNat
    coreInstr (.vst h vd rb m) s = s.to (((unitAct s.dev h m).foldl (fun d i => (List.range z).foldl (fun d j =>
        d.setBytes (da (i * z + j)) (((leBytes z (lane (s.dev.v h.k vd) z i)).drop j).take 1)) d) s.dev).lone h.k
      (if unitAct s.dev h m = [] then [] else vUpd m.pi rb (unitAt s.dev h rb m).base)) := by
  have hs : semOf s.spine (held s.dev h.k [.vst h vd rb m]) (.vst h vd rb m) = some (h, semVUnit s.dev h true vd rb m) :=
    congrArg (fun y => some (h, y)) ((notHub_off hr.hub _).trans (semVUnit_held _ _ _ _ _ _ _))
  intro z
  split
  case isTrue hact =>
    obtain ⟨hrun, htrap, heff⟩ := semVUnit_idle s.dev h true vd rb m hact
    rw [hact]
    exact restarts_of_sem hr.toReady rfl hs hrun htrap heff
  case isFalse hact =>
    obtain ⟨hrun, htrap, heff⟩ := semVUnit_runs s.dev h true vd rb m da hm hact (hbad hact)
    exact vecStore_runs hr.toReady rfl hs hrun htrap (vUpd_late _ _ _) hc heff (unitElems_fits s.dev h true vd rb m da hm)
      fun i hi d => unitElems_bytes s.dev h true vd rb m da hm glues_storeOne i hi d

/-! ### A stride from a register -/

/-- What an element's one access does to its lanes, and to memory. -/
theorem wholeElem_maskOr (ca da : Nat → Nat) (z i m : Nat) (data : Nat → List Byte) :
    [wholeElem ca da z data i].foldl maskOr m = m ||| (2 ^ z - 1) * 2 ^ (z * i) := (rfl)
theorem wholeElem_valOr (d : Dev) (ca da : Nat → Nat) (z i m : Nat) (data : Nat → List Byte) :
    [wholeElem ca da z data i].foldl (valOr d) m = m ||| ofLeBytes (d.bytes (da i) z) * 2 ^ (8 * (z * i)) := (rfl)
theorem wholeElem_storeOne (d : Dev) (ca da : Nat → Nat) (z i : Nat) (v : BitVec 512) :
    [wholeElem ca da z (elemData true v z) i].foldl storeOne d = d.setBytes (da i) (leBytes z (lane v z i)) :=
  congrArg (d.setBytes (da i)) (List.take_of_length_le (leBytes_length _ _).le)

section
variable (d : Dev) (h : Hd) (write : Bool) (vd rb rx : Reg) (sz : BitVec 2) (pi : Bool) (da : Nat → Nat)

/-- The address of element `i` at a stride. -/
def strideAt (i : Nat) : Nat := wrapInt 32 (((d.g h.k rb).toNat : Int) + (i : Int) * (d.g h.k rx).toInt)

/-- The active elements of an access of elements of one size. -/
def sizeAct : List Nat := d.active h.k h.pg (2 ^ sz.toNat) (64 / 2 ^ sz.toNat)

/-- The accesses of element `i`. -/
def strideElems (i : Nat) : List Elem :=
  [wholeElem (strideAt d h rb rx) da (2 ^ sz.toNat) (elemData write (d.v h.k vd) (2 ^ sz.toNat)) i]

theorem semVStride_idle (ha : sizeAct d h sz = []) :
    let x := semVStride d h write vd rb rx sz pi
    x.run = true ∧ x.trap = none ∧ x.eff = restart none := semVecMem_idle _ _ _ _ _ _ _ _ _ _ _ _ _ ha

theorem semVStride_runs (ha : sizeAct d h sz ≠ [])
    (hm : ∀ i ∈ sizeAct d h sz,
      strideAt d h rb rx i % 2 ^ sz.toNat = 0 ∧ d.mapAddr h.k (strideAt d h rb rx i) write = some (da i, .scratch)) :
    let x := semVStride d h write vd rb rx sz pi
    x.run = true ∧ x.trap = none ∧
      x.eff = vecAccess write (d.pv h.k vd) (accsOf false ((sizeAct d h sz).flatMap (strideElems d h write vd rb rx sz da))) ::
        (wrs (vUpd pi rb (strideAt d h rb rx (min (d.vl h.k) (64 / 2 ^ sz.toNat)))) ++ restart none) :=
  semVecMem_runs _ _ _ _ _ _ _ _ _ _ _ _ _ _ ha rfl fun i hi => by
    obtain ⟨hal, hmap⟩ := hm i hi
    exact congrArg (fun x => [x]) (elemOf_ok d h.k write _ da _ i (elemData write (d.v h.k vd) (2 ^ sz.toNat)) hal hmap)
end

section
variable {s : State} {h : Hd} (hr : ReadyV s h) (hc : Clean s.dev) (vd rb rx : Reg) (sz : BitVec 2) (pi : Bool) (da : Nat → Nat)
include hr hc

/-- VLDS reads each active element at its address. -/
theorem vlds_runs (hm : ∀ i ∈ sizeAct s.dev h sz,
      strideAt s.dev h rb rx i % 2 ^ sz.toNat = 0 ∧ s.dev.mapAddr h.k (strideAt s.dev h rb rx i) false = some (da i, .scratch)) :
    let z := 2 ^ sz.toNat
    coreInstr (.vlds h vd rb rx sz pi) s = s.results h (if sizeAct s.dev h sz = [] then [] else
      s.dev.laneRes h vd z 0 5 false (sizeAct s.dev h sz) (fun i => ofLeBytes (s.dev.bytes (da i) z)) ++
        vUpd pi rb (strideAt s.dev h rb rx (min (s.dev.vl h.k) (64 / z)))) := by
  have hs : semOf s.spine (held s.dev h.k [.vlds h vd rb rx sz pi]) (.vlds h vd rb rx sz pi) =
      some (h, semVStride s.dev h false vd rb rx sz pi) :=
    congrArg (fun y => some (h, y)) ((notHub_off hr.hub _).trans (semVStride_held _ _ _ _ _ _ _ _ _))
  intro z
  split
  case isTrue hact =>
    obtain ⟨hrun, htrap, heff⟩ := semVStride_idle s.dev h false vd rb rx sz pi hact
    exact restarts_of_sem hr.toReady rfl hs hrun htrap heff
  case isFalse hact =>
    obtain ⟨hrun, htrap, heff⟩ := semVStride_runs s.dev h false vd rb rx sz pi da hact hm
    exact vecLoad_runs hr.toReady rfl hs hrun htrap (vUpd_late _ _ _) hc.bad hact (active_rises _ _ _ _ _) heff
      (fun i _ => wholeElem_fits false _ _ _ i _) (fun i _ => ofLeBytes_lt_pow _ _ (bytes_length _ _ _))
      (fun i _ m => wholeElem_maskOr _ _ _ i m _) fun i _ m => wholeElem_valOr _ _ _ _ i m _

/-- VSTS stores each active element at its address. -/
theorem vsts_runs (hm : ∀ i ∈ sizeAct s.dev h sz,
      strideAt s.dev h rb rx i % 2 ^ sz.toNat = 0 ∧ s.dev.mapAddr h.k (strideAt s.dev h rb rx i) true = some (da i, .scratch)) :
    let z := 2 ^ sz.toNat
    coreInstr (.vsts h vd rb rx sz pi) s = s.to (((sizeAct s.dev h sz).foldl (fun d i =>
        d.setBytes (da i) (leBytes z (lane (s.dev.v h.k vd) z i))) s.dev).lone h.k
      (if sizeAct s.dev h sz = [] then [] else vUpd pi rb (strideAt s.dev h rb rx (min (s.dev.vl h.k) (64 / z))))) := by
  have hs : semOf s.spine (held s.dev h.k [.vsts h vd rb rx sz pi]) (.vsts h vd rb rx sz pi) =
      some (h, semVStride s.dev h true vd rb rx sz pi) :=
    congrArg (fun y => some (h, y)) ((notHub_off hr.hub _).trans (semVStride_held _ _ _ _ _ _ _ _ _))
  intro z
  split
  case isTrue hact =>
    obtain ⟨hrun, htrap, heff⟩ := semVStride_idle s.dev h true vd rb rx sz pi hact
    rw [hact]
    exact restarts_of_sem hr.toReady rfl hs hrun htrap heff
  case isFalse hact =>
    obtain ⟨hrun, htrap, heff⟩ := semVStride_runs s.dev h true vd rb rx sz pi da hact hm
    exact vecStore_runs hr.toReady rfl hs hrun htrap (vUpd_late _ _ _) hc heff (fun i _ => wholeElem_fits true _ _ _ i _)
      fun i _ d => wholeElem_storeOne d _ _ _ i _
end

end Sys2Proof.Proofs

namespace Sys2Proof.Proofs
open Sys2Proof.Machine Sys2Proof.Laws

/-! ### Gathers and scatters -/

section
variable (d : Dev) (h : Hd) (write : Bool) (vd rb rx : Reg) (sz : BitVec 2) (x : Bool) (sc : BitVec 2) (da : Nat → Nat)

/-- How many elements a gather or scatter may have. -/
def idxCount : Nat := min (64 / 2 ^ sz.toNat) (64 / (if x then 4 else 2))

/-- The active elements of a gather or scatter, and those that it has yet to reach. -/
def idxAll : List Nat := d.active h.k h.pg (2 ^ sz.toNat) (idxCount sz x)
def idxAct : List Nat := (idxAll d h sz x).filter fun i => decide (d.f (F.VEC_VSTART_VSTART h.k) ≤ i)

/-- The address of element `i`. -/
def idxAt (i : Nat) : Nat :=
  wrapInt 32 (((d.g h.k rb).toNat : Int) + laneS (d.v h.k rx) (if x then 4 else 2) i * ((2 ^ sc.toNat : Nat) : Int))

/-- The accesses of element `i`. -/
def idxElems (i : Nat) : List Elem :=
  [wholeElem (idxAt d h rb rx x sc) da (2 ^ sz.toNat) (elemData write (d.v h.k vd) (2 ^ sz.toNat)) i]

/-- Where the next gather or scatter starts, if that changes. -/
def idxRestart : Option Nat :=
  if idxAll d h sz x = [] ∧ d.f (F.VEC_VSTART_VSTART h.k) < min (d.vl h.k) (idxCount sz x) then none else some 0

theorem restart_idx : restart (idxRestart d h sz x) =
    if idxAll d h sz x = [] ∧ d.f (F.VEC_VSTART_VSTART h.k) < min (d.vl h.k) (idxCount sz x) then [] else [.vstart 0] := by
  unfold idxRestart
  split <;> rfl
theorem started_idx (e : Dev) : started e h.k (idxRestart d h sz x) =
    if idxAll d h sz x = [] ∧ d.f (F.VEC_VSTART_VSTART h.k) < min (d.vl h.k) (idxCount sz x) then e
    else e.setF (F.VEC_VSTART_VSTART h.k) 0 := by
  unfold idxRestart
  split <;> rfl

/-- A gather or scatter whose elements all pass their checks. -/
theorem semVIndexed_runs (hl : write = true ∨ vd ≠ rx ∨ idxAll d h sz x = [])
    (hm : ∀ i ∈ idxAct d h sz x, idxAt d h rb rx x sc i % 2 ^ sz.toNat = 0 ∧
      d.mapAddr h.k (idxAt d h rb rx x sc i) write = some (da i, .scratch)) :
    let y := semVIndexed d h write vd rb rx sz x sc
    y.run = true ∧ y.trap = none ∧
      y.eff = (if idxAct d h sz x = [] then [] else
          [vecAccess write (d.pv h.k vd) ((idxAct d h sz x).flatMap (idxElems d h write vd rb rx sz x sc da))]) ++
        restart (idxRestart d h sz x) := by
  have hillegal : (!write && vd == rx && !(idxAll d h sz x == [])) = false := by
    rcases hl with rfl | hne | hnil
    · rfl
    · rw [beq_eq_false_iff_ne.mpr hne, Bool.and_false, Bool.false_and]
    · rw [hnil]
      exact Bool.and_false _
  have hsplit : splitElems ((idxAct d h sz x).map fun i => (i, elemOf d h.k write (idxAt d h rb rx x sc i) (2 ^ sz.toNat) (2 ^ sz.toNat * i)
      (elemData write (d.v h.k vd) (2 ^ sz.toNat) i))) = ((idxAct d h sz x).flatMap (idxElems d h write vd rb rx sz x sc da), none) := by
    rw [List.map_eq_flatMap]
    exact splitElems_ok _ (fun i => [_]) _ fun i hi => congrArg (fun x => [x]) (elemOf_ok d h.k write _ da _ i _ (hm i hi).1 (hm i hi).2)
  refine ⟨rfl, ?_, ?_⟩
  · show (if (!write && vd == rx && !(idxAll d h sz x == [])) = true then _ else (splitElems _).2.map (·.2)) = none
    rw [hillegal, if_neg Bool.false_ne_true]
    exact congrArg (fun y : List Elem × Option (Nat × Nat × Nat) => y.2.map (·.2)) hsplit
  · refine (congrArg (fun y : List Elem × Option (Nat × Nat × Nat) =>
      (if idxAct d h sz x = [] then [] else if write then [Eff.st y.1] else [Eff.ld (.v (d.pv h.k vd)) y.1 5]) ++
        (if idxAll d h sz x = [] ∧ d.f (F.VEC_VSTART_VSTART h.k) < min (d.vl h.k) (idxCount sz x) then [] else [Eff.vstart 0]))
      hsplit).trans ?_
    rw [restart_idx]
    cases write <;> rfl
end

section
variable {s : State} {h : Hd} (hr : ReadyV s h) (hc : Clean s.dev) (vd rb rx : Reg) (sz : BitVec 2) (x : Bool) (sc : BitVec 2)
  (da : Nat → Nat)
include hr hc

/-- VLDX reads each active element from VSTART on at its address. -/
theorem vldx_runs (hl : vd ≠ rx ∨ idxAll s.dev h sz x = [])
    (hm : ∀ i ∈ idxAct s.dev h sz x, idxAt s.dev h rb rx x sc i % 2 ^ sz.toNat = 0 ∧
      s.dev.mapAddr h.k (idxAt s.dev h rb rx x sc i) false = some (da i, .scratch)) :
    let z := 2 ^ sz.toNat
    coreInstr (.vldx h vd rb rx sz x sc) s = s.to (started (s.dev.lone h.k
      (s.dev.laneRes h vd z 0 5 false (idxAct s.dev h sz x) fun i => ofLeBytes (s.dev.bytes (da i) z))) h.k (idxRestart s.dev h sz x)) := by
  have hs : semOf s.spine (held s.dev h.k [.vldx h vd rb rx sz x sc]) (.vldx h vd rb rx sz x sc) =
      some (h, semVIndexed s.dev h false vd rb rx sz x sc) :=
    congrArg (fun y => some (h, y)) ((notHub_off hr.hub _).trans (semVIndexed_held _ _ _ _ _ _ _ _ _ _))
  obtain ⟨hrun, htrap, heff⟩ := semVIndexed_runs s.dev h false vd rb rx sz x sc da (.inr hl) hm
  intro z
  by_cases hact : idxAct s.dev h sz x = []
  · rw [if_pos hact] at heff
    rw [Dev.laneRes, if_pos hact]
    exact restarts_of_sem hr.toReady rfl hs hrun htrap heff
  · rw [if_neg hact] at heff
    have hrises : (idxAct s.dev h sz x).Pairwise (· < ·) := (active_rises _ _ _ _ _).filter _
    refine (vecLoad_runs hr.toReady rfl hs hrun htrap (unit := false) (u := []) (by simp) hc.bad hact hrises heff
      (fun i _ => wholeElem_fits false _ _ _ i _) (fun i _ => ofLeBytes_lt_pow _ _ (bytes_length _ _ _))
      (fun i _ m => wholeElem_maskOr _ _ _ i m _) fun i _ m => wholeElem_valOr _ _ _ _ i m _).trans ?_
    rw [List.append_nil]

/-- VSTX stores each active element from VSTART on at its address. -/
theorem vstx_runs (hm : ∀ i ∈ idxAct s.dev h sz x, idxAt s.dev h rb rx x sc i % 2 ^ sz.toNat = 0 ∧
      s.dev.mapAddr h.k (idxAt s.dev h rb rx x sc i) true = some (da i, .scratch)) :
    let z := 2 ^ sz.toNat
    coreInstr (.vstx h vd rb rx sz x sc) s = s.to (started (((idxAct s.dev h sz x).foldl (fun d i =>
      d.setBytes (da i) (leBytes z (lane (s.dev.v h.k vd) z i))) s.dev).lone h.k []) h.k (idxRestart s.dev h sz x)) := by
  have hs : semOf s.spine (held s.dev h.k [.vstx h vd rb rx sz x sc]) (.vstx h vd rb rx sz x sc) =
      some (h, semVIndexed s.dev h true vd rb rx sz x sc) :=
    congrArg (fun y => some (h, y)) ((notHub_off hr.hub _).trans (semVIndexed_held _ _ _ _ _ _ _ _ _ _))
  obtain ⟨hrun, htrap, heff⟩ := semVIndexed_runs s.dev h true vd rb rx sz x sc da (.inl rfl) hm
  intro z
  by_cases hact : idxAct s.dev h sz x = []
  · rw [if_pos hact] at heff
    rw [hact]
    exact restarts_of_sem hr.toReady rfl hs hrun htrap heff
  · rw [if_neg hact] at heff
    exact vecStore_runs hr.toReady rfl hs hrun htrap (unit := false) (u := []) (by simp) hc heff
      (fun i _ => wholeElem_fits true _ _ _ i _) fun i _ d => wholeElem_storeOne d _ _ _ i _
end

/-- Settles O21: each form by what its elements' accesses bring or write. -/
theorem vectorMemoryResults : Obligations.VectorMemoryResults := by
  intro s h vd rb rx m sz sc pi x da hr hc k upd put got at_
  exact ⟨fun hbad => ⟨vld_runs hr hc vd rb m da hbad, vst_runs hr hc vd rb m da hbad⟩,
    ⟨vlds_runs hr hc vd rb rx sz pi da, vsts_runs hr hc vd rb rx sz pi da⟩,
    fun hl hm => (vldx_runs hr hc vd rb rx sz x sc da hl hm).trans (congrArg s.to (started_idx _ _ _ _ _)),
    fun hm => (vstx_runs hr hc vd rb rx sz x sc da hm).trans (congrArg s.to (started_idx _ _ _ _ _))⟩

end Sys2Proof.Proofs

/-! Proofs of the statements about the vector extension (chapter 05): O14 to O20. -/

namespace Sys2Proof.Proofs
open Sys2Proof.Machine Sys2Proof.Laws

/-! ## A lone vector instruction by its meaning -/

/-- A sticky flag of the vector unit: the effect that sets it, where that raises no exception, and what it writes
(R176, R183). -/
inductive VecFlag (d : Dev) (k : Nat) : Eff → (Dev → Nat → Dev) → Prop
  | vov (off : d.fb (F.CORE_STATUS_VOV_EN k) = false) : VecFlag d k .vov Dev.setVov
  | qsat : VecFlag d k .qsat Dev.setQsat

theorem VecFlag.flags {d : Dev} {k : Nat} {e : Eff} {flag : Dev → Nat → Dev} (h : VecFlag d k e flag) :
    flagEff e = true ∧ aovOf [e] = none ∧ (Eff.vov ∉ [e] ∨ d.fb (F.CORE_STATUS_VOV_EN k) = false) ∧
      ∀ d, fxFlag k d e = flag d k := by
  cases h with
  | vov off => exact ⟨rfl, rfl, .inr off, fun _ => rfl⟩
  | qsat => exact ⟨rfl, rfl, .inl (by simp), fun _ => rfl⟩

section
variable {s : State} {i : Instr} {h : Hd} {x y : Sem} (hr : ReadyV s h) (hh : headOf i = some h)
  (hs : semOf s.spine (held s.dev h.k [i]) i = some (h, notHub h x)) (hx : x = y)
include hr hs hx

/-- Outside the hub a vector instruction means what it says. -/
theorem semOf_vec : semOf s.spine (held s.dev h.k [i]) i = some (h, y) := by
  rw [hs, notHub_off hr.hub, hx]

include hh

/-- A vector instruction without a guard that only has results. -/
theorem vecResults_of_sem {l : List (RegWr × Nat × Bool)} (hrun : y.run = true) (ht : y.trap = none) (he : y.eff = wrs l)
    (hl : ∀ r ∈ l, 1 ≤ r.2.1) : coreInstr i s = s.results h l :=
  results_of_sem hr.toReady hh (semOf_vec hr hs hx) hrun ht he hl

/-- A vector instruction that has results and sets a sticky flag, if `on`. -/
theorem vecFlagged_of_sem {l : List (RegWr × Nat × Bool)} {on : Bool} {e : Eff} {flag : Dev → Nat → Dev} (hrun : y.run = true)
    (ht : y.trap = none) (he : y.eff = wrs l ++ if on then [e] else []) (hl : ∀ r ∈ l, 1 ≤ r.2.1)
    (hf : VecFlag s.dev h.k e flag) : coreInstr i s = s.flagged h l on flag := by
  obtain ⟨hflag, haov, hvov, hset⟩ := hf.flags
  cases on with
  | false => exact vecResults_of_sem hr hh hs hx hrun ht (he.trans (List.append_nil _)) hl
  | true =>
    refine issued s i _ ((instr_flag s.spine s.dev i h y l [e] hh hr.last hr.alone (semOf_vec hr hs hx) ?_ ?_ hl
      (List.forall_mem_singleton.mpr hflag) (.inl haov) hvov).trans (congrArg (Prod.mk s.spine) (hset _)))
    · rw [trapOf_ready s.spine _ _ _ _ hr.alone, ht, ite_self]
    · rw [hrun, if_pos rfl, he, if_pos rfl]

end

/-- The results of a vector instruction are late where its latency is. -/
theorem laneRes_late (d : Dev) (h : Hd) (vd : Reg) (z o lat : Nat) (acc : Bool) (act : List Nat) (f : Nat → Nat) (hlat : 1 ≤ lat) :
    ∀ r ∈ d.laneRes h vd z o lat acc act f, 1 ≤ r.2.1 := by
  unfold Dev.laneRes
  split
  · simp
  · simpa using hlat

/-- The effects of a vector instruction: its results, and its flags where an element is active. Its word and whether its
type is legal have no part in them. -/
theorem semVecAt_eff (d : Dev) (h : Hd) (word : Nat) (legal : Bool) (vd : Reg) (z o : Nat) (act : List Nat) (lat : Nat) (acc : Bool)
    (f : Nat → Nat) (flags : List Eff) :
    (semVecAt d h word legal vd z o act lat acc f flags).eff =
      wrs (d.laneRes h vd z o lat acc act f) ++ if act = [] then [] else flags := by
  unfold semVecAt Dev.laneRes
  dsimp only
  split <;> rfl

/-- A sticky flag where an active element is bad: with no active element none is. -/
theorem semVecAt_flagEff (d : Dev) (h : Hd) (word : Nat) (legal : Bool) (vd : Reg) (z o : Nat) (act : List Nat) (lat : Nat) (acc : Bool)
    (f : Nat → Nat) (bad : Nat → Bool) (e : Eff) :
    (semVecAt d h word legal vd z o act lat acc f (if act.any bad then [e] else [])).eff =
      wrs (d.laneRes h vd z o lat acc act f) ++ if act.any bad then [e] else [] := by
  rw [semVecAt_eff]
  cases act <;> rfl

section
variable {s : State} {i : Instr} {h : Hd} {x : Sem} (hr : ReadyV s h) (hh : headOf i = some h)
  (hs : semOf s.spine (held s.dev h.k [i]) i = some (h, notHub h x))
  {word : Nat} {legal : Bool} {vd : Reg} {z o lat : Nat} {act : List Nat} {acc : Bool} {f : Nat → Nat} (hl : legal = true)
include hr hh hs hl

/-- A vector instruction that computes its active elements. -/
theorem semVecAt_runs (hx : x = semVecAt s.dev h word legal vd z o act lat acc f []) (hlat : 1 ≤ lat) :
    coreInstr i s = s.results h (s.dev.laneRes h vd z o lat acc act f) := by
  refine vecResults_of_sem hr hh hs hx rfl (if_pos hl) ?_ (laneRes_late _ _ _ _ _ _ _ _ _ hlat)
  rw [semVecAt_eff, ite_self, List.append_nil]

/-- A vector instruction that computes its active elements, and sets a sticky flag where one of them is bad. -/
theorem semVecAt_flags {bad : Nat → Bool} {e : Eff} {flag : Dev → Nat → Dev}
    (hx : x = semVecAt s.dev h word legal vd z o act lat acc f (if act.any bad then [e] else [])) (hlat : 1 ≤ lat)
    (hf : VecFlag s.dev h.k e flag) :
    coreInstr i s = s.flagged h (s.dev.laneRes h vd z o lat acc act f) (act.any bad) flag := by
  exact vecFlagged_of_sem hr hh hs hx rfl (if_pos hl) (semVecAt_flagEff ..) (laneRes_late _ _ _ _ _ _ _ _ _ hlat) hf

end

/-! ## Types -/

theorem tInt_of_le {t : BitVec 3} (ht : t.toNat ≤ 2) : tInt t = true := decide_eq_true ht
theorem tFp_of_mem {t : BitVec 3} (ht : t = 5 ∨ t = 6) : tFp t = true := by
  obtain rfl | rfl := ht <;> rfl

/-! ## The vector ALU -/

theorem semVAlu_held (d : Dev) (h : Hd) (b : List Instr) (minor : Nat) (legal : Bool) (vd vs1 vs2 : Reg) (t : BitVec 3)
    (op : Nat → Nat → Nat) : semVAlu (held d h.k b) h minor legal vd vs1 vs2 t op = semVAlu d h minor legal vd vs1 vs2 t op := by
  simp only [semVAlu, semVec, semVecAt, held_v, held_active, held_pv]

theorem semVCmp_held (d : Dev) (h : Hd) (b : List Instr) (word : Nat) (legal : Bool) (pd : PReg) (z lat : Nat) (act : List Nat)
    (f : Nat → Bool) : semVCmp (held d h.k b) h word legal pd z lat act f = semVCmp d h word legal pd z lat act f := by
  simp only [semVCmp, held_pp]

theorem semVCmpI_held (d : Dev) (h : Hd) (b : List Instr) (minor : Nat) (pd : PReg) (vs1 vs2 : Reg) (t : BitVec 3)
    (op : Int → Int → Bool) : semVCmpI (held d h.k b) h minor pd vs1 vs2 t op = semVCmpI d h minor pd vs1 vs2 t op := by
  simp only [semVCmpI, semVCmp_held, held_v, held_active]

theorem semVfc_held (d : Dev) (h : Hd) (b : List Instr) (minor : Nat) (pd : PReg) (vs1 vs2 : Reg) (t : BitVec 3)
    (op : FVal → FVal → Bool) : semVfc (held d h.k b) h minor pd vs1 vs2 t op = semVfc d h minor pd vs1 vs2 t op := by
  simp only [semVfc, semVCmp_held, held_v, held_active]

section
variable {s : State} {i : Instr} {h : Hd} (hr : ReadyV s h) (hh : headOf i = some h)
include hr hh

/-- An instruction of the vector ALU reads its sources as they stand. -/
theorem semVAlu_runs {minor : Nat} {legal : Bool} {vd vs1 vs2 : Reg} {t : BitVec 3} {op : Nat → Nat → Nat} {f : Nat → Nat}
    (hs : semOf s.spine (held s.dev h.k [i]) i = some (h, notHub h (semVAlu (held s.dev h.k [i]) h minor legal vd vs1 vs2 t op)))
    (hl : legal = true)
    (hf : ∀ j, op (lane (s.dev.v h.k vs1) (tSize t) j) (lane (s.dev.v h.k vs2) (tSize t) j) = f j) :
    coreInstr i s = s.results h (s.dev.laneRes h vd (tSize t) 0 2 false (s.dev.active h.k h.pg (tSize t) (64 / tSize t)) f) :=
  (semVecAt_runs hr hh hs hl (semVAlu_held _ _ _ _ _ _ _ _ _ _) (by decide)).trans
    (congrArg (fun f => s.results h (s.dev.laneRes h vd _ 0 2 false _ f)) (funext hf))

/-- A vector compare writes a predicate, if an element is active. -/
theorem semVCmp_runs {x : Sem} {word : Nat} {legal : Bool} {pd : PReg} {z lat : Nat} {act : List Nat} {f : Nat → Bool}
    (hs : semOf s.spine (held s.dev h.k [i]) i = some (h, notHub h x)) (hx : x = semVCmp s.dev h word legal pd z lat act f)
    (hl : legal = true) (hlat : 1 ≤ lat) :
    coreInstr i s = s.results h (if act = [] then [] else [(.p (s.dev.pp h.k pd) (lanesAt z 0 (act.filter f)), lat, false)]) := by
  refine vecResults_of_sem hr hh hs hx rfl (if_pos hl) ?_ ?_
  · unfold semVCmp
    dsimp only
    split <;> rfl
  · split
    · simp
    · simpa using hlat

end

/-- Settles O14: each computes its active elements by its own operation. -/
theorem vectorAluResults : Obligations.VectorAluResults := by
  intro s h vd vs1 vs2 imm t hr z w put
  refine ⟨fun ht => ?_, fun ht => ?_⟩
  · have hl : tIntC t = true := decide_eq_true ht
    exact ⟨semVAlu_runs hr rfl rfl hl fun _ => rfl, semVAlu_runs hr rfl rfl hl fun _ => rfl,
      semVAlu_runs hr rfl rfl hl fun _ => rfl, semVAlu_runs hr rfl rfl hl fun _ => rfl, semVAlu_runs hr rfl rfl hl fun _ => rfl⟩
  · have hl := tInt_of_le ht
    exact ⟨semVAlu_runs hr rfl rfl hl fun _ => rfl, semVAlu_runs hr rfl rfl hl fun _ => rfl,
      semVAlu_runs hr rfl rfl hl fun _ => rfl, semVAlu_runs hr rfl rfl hl fun _ => rfl, semVAlu_runs hr rfl rfl hl fun _ => rfl,
      semVAlu_runs hr rfl rfl hl fun _ => rfl, semVAlu_runs hr rfl rfl hl fun _ => rfl, semVAlu_runs hr rfl rfl hl fun _ => rfl,
      semVAlu_runs hr rfl rfl hl fun _ => rfl⟩

/-- Settles O15: each writes the lanes of the active elements that its own compare picks. -/
theorem vectorCompareResults : Obligations.VectorCompareResults := by
  intro s h pd vs1 vs2 t hr z act a b put int fp
  refine ⟨fun ht => ?_, fun ht => ?_⟩
  · have hl := tInt_of_le ht
    exact ⟨semVCmp_runs hr rfl rfl (semVCmpI_held _ _ _ _ _ _ _ _ _) hl (by decide),
      semVCmp_runs hr rfl rfl (semVCmpI_held _ _ _ _ _ _ _ _ _) hl (by decide),
      semVCmp_runs hr rfl rfl (semVCmpI_held _ _ _ _ _ _ _ _ _) hl (by decide),
      semVCmp_runs hr rfl rfl (semVCmpI_held _ _ _ _ _ _ _ _ _) hl (by decide)⟩
  · have hl := tFp_of_mem ht
    exact ⟨semVCmp_runs hr rfl rfl (semVfc_held _ _ _ _ _ _ _ _ _) hl (by decide),
      semVCmp_runs hr rfl rfl (semVfc_held _ _ _ _ _ _ _ _ _) hl (by decide)⟩

end Sys2Proof.Proofs

namespace Sys2Proof.Proofs
open Sys2Proof.Machine Sys2Proof.Laws

/-! ## Products and the saturating instructions -/

/-- A vector accumulator as its instruction reads it stands beside the bundle that is held. -/
theorem held_vacc (d : Dev) (k : Nat) (b : List Instr) (r : Reg) : (held d k b).vacc k r = d.vacc k r := by
  simp only [Dev.vacc, held_core, held_pv]
  rfl

/-- With no accumulation under way an accumulating instruction reads its vector accumulator as it stands (R128). -/
theorem vacc_alone {s : State} {h : Hd} (hr : ReadyV s h) (r : Reg) : s.dev.vacc h.k r = s.dev.v h.k r := by
  rw [Dev.vacc, hr.alone.inflight]
  rfl

section
variable (d : Dev) (h : Hd) (b : List Instr) (vd vs1 vs2 : Reg) (t : BitVec 3)

theorem semVmul_held : semVmul (held d h.k b) h vd vs1 vs2 t = semVmul d h vd vs1 vs2 t := by
  simp only [semVmul, semVec, semVecAt, held_v, held_active, held_pv]
theorem semVmulw_held (hi : Bool) : semVmulw (held d h.k b) h hi vd vs1 vs2 t = semVmulw d h hi vd vs1 vs2 t := by
  simp only [semVmulw, semVec, semVecAt, held_v, held_active, held_pv]
theorem semVcmulw_held (hi cj : Bool) : semVcmulw (held d h.k b) h hi cj vd vs1 vs2 t = semVcmulw d h hi cj vd vs1 vs2 t := by
  simp only [semVcmulw, semVecAt, held_v, held_active, held_pv]
theorem semDot_held (minor z n : Nat) (legal acc : Bool) :
    semDot (held d h.k b) h minor z n legal acc vd vs1 vs2 t = semDot d h minor z n legal acc vd vs1 vs2 t := by
  simp only [semDot, semVecAt, held_v, held_vacc, held_active, held_pv]
theorem semCdot_held (hi cj acc : Bool) :
    semCdot (held d h.k b) h hi cj acc vd vs1 vs2 t = semCdot d h hi cj acc vd vs1 vs2 t := by
  simp only [semCdot, semVecAt, held_v, held_vacc, held_active, held_pv]
theorem semVdabX_held (hi : Bool) (gs : Reg) (sh : BitVec 4) :
    semVdabX (held d h.k b) h hi vd vs1 gs sh = semVdabX d h hi vd vs1 gs sh := by
  simp only [semVdabX, semVecAt, held_v, held_g, held_active, held_pv]
theorem semVq_held (minor lat : Nat) (op : Int → Int → Int) :
    semVq (held d h.k b) h minor lat vd vs1 vs2 t op = semVq d h minor lat vd vs1 vs2 t op := by
  simp only [semVq, semVecAt, held_v, held_active, held_pv]
theorem semVqnarrow_held (hi : Bool) (sh : BitVec 5) :
    semVqnarrow (held d h.k b) h hi vd vs1 sh t = semVqnarrow d h hi vd vs1 sh t := by
  simp only [semVqnarrow, semVecAt, held_v, held_active, held_pv]

end

/-- What cannot overflow sets no flag. -/
theorem results_eq_flagged (s : State) (h : Hd) (l : List (RegWr × Nat × Bool)) (act : List Nat) (flag : Dev → Nat → Dev) :
    s.results h l = s.flagged h l (act.any fun _ => false) flag := by
  have hany : act.any (fun _ => false) = false := List.any_eq_false.mpr fun _ _ => Bool.false_ne_true
  rw [hany]
  rfl

section
variable {s : State} {i : Instr} {h : Hd} (hr : ReadyV s h) (hh : headOf i = some h) {vd vs1 vs2 : Reg} {t : BitVec 3}
include hr hh

/-- A product that is exact in its lane, or wraps without a flag. -/
theorem semVecAt_unflagged {x : Sem} {word : Nat} {legal : Bool} {z o lat : Nat} {act : List Nat} {f : Nat → Nat}
    {flag : Dev → Nat → Dev} (hs : semOf s.spine (held s.dev h.k [i]) i = some (h, notHub h x)) (hl : legal = true)
    (hx : x = semVecAt s.dev h word legal vd z o act lat false f []) (hlat : 1 ≤ lat) :
    coreInstr i s = s.flagged h (s.dev.laneRes h vd z o lat false act f) (act.any fun _ => false) flag :=
  (semVecAt_runs hr hh hs hl hx hlat).trans (results_eq_flagged s h _ act flag)

section
variable (hen : s.dev.fb (F.CORE_STATUS_VOV_EN h.k) = false)
include hen

/-- A dot product, or one that accumulates, sums the exact products of each lane (R174). -/
theorem semDot_runs {minor z n : Nat} {legal acc : Bool}
    (hs : semOf s.spine (held s.dev h.k [i]) i = some (h, notHub h (semDot (held s.dev h.k [i]) h minor z n legal acc vd vs1 vs2 t)))
    (hl : legal = true) :
    let e := fun j => (if acc then laneS (s.dev.v h.k vd) 4 j else 0) + dotLane z n (s.dev.v h.k vs1) (s.dev.v h.k vs2) j
    coreInstr i s = s.flagged h (s.dev.laneRes h vd 4 0 3 acc (s.dev.active h.k h.pg 4 16) fun j => wrapInt 32 (e j))
      ((s.dev.active h.k h.pg 4 16).any fun j => laneOverflow 32 (e j)) Dev.setVov := by
  rw [← vacc_alone hr vd]
  exact semVecAt_flags hr hh hs hl (semDot_held _ _ _ _ _ _ _ _ _ _ _ _) (by decide) (.vov hen)

/-- A complex dot product, or one that accumulates, sums the exact products of each pair of lanes (R175). -/
theorem semCdot_runs {hi cj acc : Bool}
    (hs : semOf s.spine (held s.dev h.k [i]) i = some (h, notHub h (semCdot (held s.dev h.k [i]) h hi cj acc vd vs1 vs2 t)))
    (ht : t = 3) :
    let o := b2n hi * 16
    let old := s.dev.v h.k vd
    let p := fun j =>
      let a := c8Mul cj (s.dev.v h.k vs1) (s.dev.v h.k vs2) (o + 2 * j)
      let b := c8Mul cj (s.dev.v h.k vs1) (s.dev.v h.k vs2) (o + 2 * j + 1)
      ((if acc then laneS old 4 (2 * j) else 0) + a.1 + b.1, (if acc then laneS old 4 (2 * j + 1) else 0) + a.2 + b.2)
    coreInstr i s = s.flagged h
      (s.dev.laneRes h vd 8 0 3 acc (s.dev.active h.k h.pg 8 8) fun j => wrapInt 32 (p j).1 + wrapInt 32 (p j).2 * 2 ^ 32)
      ((s.dev.active h.k h.pg 8 8).any fun j => laneOverflow 32 (p j).1 || laneOverflow 32 (p j).2) Dev.setVov := by
  rw [← vacc_alone hr vd]
  exact semVecAt_flags hr hh hs (beq_iff_eq.mpr ht) (semCdot_held _ _ _ _ _ _ _ _ _ _) (by decide) (.vov hen)

/-- VDAB.X scales each value by its exponent and shift (R170). -/
theorem semVdabX_runs {hi : Bool} {gs : Reg} {sh : BitVec 4}
    (hs : semOf s.spine (held s.dev h.k [i]) i = some (h, notHub h (semVdabX (held s.dev h.k [i]) h hi vd vs1 gs sh))) :
    let e := bitsOf (s.dev.g h.k gs).toNat (if hi then 8 else 0) 4
    let q := fun j => laneS (s.dev.v h.k vs1) 1 (b2n hi * 32 + j) * ((2 ^ e : Nat) : Int) / ((2 ^ sh.toNat : Nat) : Int)
    coreInstr i s = s.flagged h (s.dev.laneRes h vd 2 0 3 false (s.dev.active h.k 0 2 32) fun j => wrapInt 16 (q j))
      ((s.dev.active h.k 0 2 32).any fun j => laneOverflow 16 (q j)) Dev.setVov := by
  have he : bitsOf (s.dev.g h.k gs).toNat (if hi then 8 else 0) 4 =
      if hi then bitsOf (s.dev.g h.k gs).toNat 8 4 else bitsOf (s.dev.g h.k gs).toNat 0 4 := apply_ite (bitsOf _ · 4) _ _ _
  rw [he]
  exact vecFlagged_of_sem hr hh hs (semVdabX_held _ _ _ _ _ _ _ _) rfl rfl (semVecAt_flagEff s.dev h 0 true ..)
    (laneRes_late _ _ _ _ _ _ _ _ _ (by decide)) (.vov hen)

end

/-- An instruction that saturates each active element (R180, R181). -/
theorem semVq_runs {minor lat : Nat} {op : Int → Int → Int} {x : Nat → Int} {y : Sem}
    (hs : semOf s.spine (held s.dev h.k [i]) i = some (h, notHub h y))
    (hy : y = semVq (held s.dev h.k [i]) h minor lat vd vs1 vs2 t op)
    (hl : tInt t = true) (hlat : 1 ≤ lat)
    (hx : ∀ j, op (laneS (s.dev.v h.k vs1) (tSize t) j) (laneS (s.dev.v h.k vs2) (tSize t) j) = x j) :
    let z := tSize t
    let act := s.dev.active h.k h.pg z (64 / z)
    coreInstr i s = s.flagged h (s.dev.laneRes h vd z 0 lat false act fun j => wrapInt (8 * z) (satLane (8 * z) (x j)))
      (act.any fun j => laneOverflow (8 * z) (x j)) Dev.setQsat := by
  obtain rfl := funext hx
  exact semVecAt_flags hr hh hs hl (hy.trans (semVq_held _ _ _ _ _ _ _ _ _ _)) hlat .qsat

end

/-- Settles O16: each writes its exact values, wrapped, and sets VOV where one of an active element does not fit. -/
theorem vectorProductResults : Obligations.VectorProductResults := by
  intro s h hi cj acc vd vs1 vs2 gs sh t hr hen x y old act half put dot
  exact ⟨fun ht => semVecAt_unflagged hr rfl rfl (tInt_of_le ht) (semVmul_held _ _ _ _ _ _ _) (by decide),
    semVecAt_unflagged hr rfl rfl rfl (semVmulw_held _ _ _ _ _ _ _ _) (by decide),
    semVecAt_flags hr rfl rfl rfl (semVcmulw_held _ _ _ _ _ _ _ _ _) (by decide) (.vov hen),
    semDot_runs hr rfl hen rfl rfl, semDot_runs hr rfl hen rfl rfl, semDot_runs hr rfl hen rfl rfl, semDot_runs hr rfl hen rfl rfl,
    semCdot_runs hr rfl hen rfl rfl, semVdabX_runs hr rfl hen rfl⟩

/-- A value that VQNARROW has shifted and rounded half up (R182). -/
def narrowed (n : Nat) (x : Int) : Int := if n = 0 then x else (x + ((2 ^ (n - 1) : Nat) : Int)) / ((2 ^ n : Nat) : Int)

/-- VQNARROW by an amount that its type allows raises nothing, and saturates each active element (R182). -/
theorem semVqnarrow_eq (d : Dev) (h : Hd) (hi : Bool) (vd vs1 : Reg) (sh : BitVec 5) (t : BitVec 3)
    (ht : t = 1 ∧ sh.toNat ≤ 15 ∨ t = 2) :
    let r := tSize t / 2
    let act := d.active h.k h.pg r (32 / r)
    let x := fun i => narrowed sh.toNat (laneS (d.v h.k vs1) (tSize t) i)
    semVqnarrow d h hi vd vs1 sh t = semVecAt d h (encV h 0x10 vd vs1 sh t (3 + b2n hi)) (t == 1 || t == 2) vd r (if hi then 32 else 0) act 2 false
      (fun i => wrapInt (8 * r) (satLane (8 * r) (x i))) (if act.any fun i => laneOverflow (8 * r) (x i) then [.qsat] else []) := by
  have hok : ∀ p q : Bool, ¬ (p && t == 1 && decide (15 < sh.toNat) && q) = true := by
    intro p q
    obtain ⟨-, hle⟩ | rfl := ht
    · simp [Nat.not_lt.mpr hle]
    · simp
  cases hi <;> exact if_neg (hok _ _)

/-- VQMUL rounds half up at the place of the product's fraction (R181). -/
theorem semVqmul_eq (d : Dev) (h : Hd) (vd vs1 vs2 : Reg) (t : BitVec 3) :
    semVqmul d h vd vs1 vs2 t = semVq d h 2 3 vd vs1 vs2 t fun a b =>
      (a * b + ((2 ^ (8 * tSize t - 2) : Nat) : Int)) / ((2 ^ (8 * tSize t - 1) : Nat) : Int) := by
  simp only [semVqmul, Nat.sub_sub]

/-- Settles O17: each saturates its active elements, and sets QSAT where one of them is out of range. -/
theorem saturatingResults : Obligations.SaturatingResults := by
  intro s h hi vd vs1 vs2 sh t hr z sat a b
  refine ⟨fun ht => ?_, fun ht => ?_⟩
  · have hl := tInt_of_le ht
    exact ⟨semVq_runs hr rfl rfl rfl hl (by decide) fun _ => rfl, semVq_runs hr rfl rfl rfl hl (by decide) fun _ => rfl,
      semVq_runs hr rfl rfl (semVqmul_eq _ _ _ _ _ _) hl (by decide) fun _ => rfl⟩
  · have hl : (t == 1 || t == 2) = true := by
      obtain ⟨rfl, -⟩ | rfl := ht <;> rfl
    exact semVecAt_flags hr rfl rfl hl ((semVqnarrow_held _ _ _ _ _ _ _ _).trans (semVqnarrow_eq _ _ _ _ _ _ _ ht)) (by decide)
      .qsat

end Sys2Proof.Proofs

namespace Sys2Proof.Proofs
open Sys2Proof.Machine Sys2Proof.Laws

/-! ## Moves and predicates -/

section
variable (d : Dev) (h : Hd) (b : List Instr) (vd vs1 vs2 gd gs : Reg) (t : BitVec 3)

theorem semVmov_held : semVmov (held d h.k b) h vd vs1 t = semVmov d h vd vs1 t := by
  simp only [semVmov, semVec, semVecAt, held_v, held_active, held_pv]
theorem semVsel_held : semVsel (held d h.k b) h vd vs1 vs2 t = semVsel d h vd vs1 vs2 t := by
  simp only [semVsel, semVecAt, held_v, held_p, held_active, held_pv]
theorem semVperm_held : semVperm (held d h.k b) h vd vs1 vs2 t = semVperm d h vd vs1 vs2 t := by
  simp only [semVperm, semVec, semVecAt, held_v, held_active, held_pv]
theorem semVbcast_held : semVbcast (held d h.k b) h vd gs t = semVbcast d h vd gs t := by
  simp only [semVbcast, semVec, semVecAt, held_g, held_active, held_pv]
theorem semVext_held : semVext (held d h.k b) h gd vs1 gs t = semVext d h gd vs1 gs t := by
  simp only [semVext, held_g, held_v]
theorem semVsetvl_held : semVsetvl (held d h.k b) h gd gs t = semVsetvl d h gd gs t := by
  simp only [semVsetvl, held_g]
theorem semPlog_held (minor : Nat) (pd ps1 ps2 : PReg) (op : BitVec 64 → BitVec 64 → BitVec 64) :
    semPlog (held d h.k b) h minor pd ps1 ps2 op = semPlog d h minor pd ps1 ps2 op := by
  simp only [semPlog, held_p, held_pp]

end

section
variable {s : State} {i : Instr} {h : Hd} (hr : ReadyV s h) (hh : headOf i = some h) {vd vs1 gd gs : Reg} {t : BitVec 3}
include hr hh

/-- VBCAST writes a general register to each active element. -/
theorem semVbcast_runs (hs : semOf s.spine (held s.dev h.k [i]) i = some (h, notHub h (semVbcast (held s.dev h.k [i]) h vd gs t)))
    (hl : (tInt t || tFp t) = true) :
    coreInstr i s = s.results h (s.dev.laneRes h vd (tSize t) 0 2 false (s.dev.active h.k h.pg (tSize t) (64 / tSize t))
      fun _ => (s.dev.g h.k gs).toNat) := by
  refine vecResults_of_sem hr hh hs (semVbcast_held _ _ _ _ _ _) rfl (if_pos hl) ?_ (laneRes_late _ _ _ _ _ _ _ _ _ (by decide))
  refine (semVecAt_eff s.dev h 0 true ..).trans ?_
  rw [ite_self, List.append_nil]

/-- VEXT brings the element that a general register names, modulo the count of elements. -/
theorem semVext_runs {v : Nat}
    (hs : semOf s.spine (held s.dev h.k [i]) i = some (h, notHub h (semVext (held s.dev h.k [i]) h gd vs1 gs t)))
    (hl : (tInt t || tFp t) = true)
    (hv : (let j := (s.dev.g h.k gs).toNat % (64 / tSize t)
      if tInt t then wrapInt 32 (laneS (s.dev.v h.k vs1) (tSize t) j) else lane (s.dev.v h.k vs1) (tSize t) j) = v) :
    coreInstr i s = s.results h [(.g gd (BitVec.ofNat 32 v), 2, false)] := by
  subst hv
  exact vecResults_of_sem hr hh hs (semVext_held _ _ _ _ _ _ _) rfl (if_pos hl) rfl (by simp)

/-- VSETVL writes the length that it sets to a general register too. -/
theorem semVsetvl_runs
    (hs : semOf s.spine (held s.dev h.k [i]) i = some (h, notHub h (semVsetvl (held s.dev h.k [i]) h gd gs t)))
    (hl : (t != 7 && h.pg == 0) = true) :
    let n := min (s.dev.g h.k gs).toNat (64 / tSize t)
    coreInstr i s = s.results h [(.g gd (BitVec.ofNat 32 n), 2, false), (.vl n, 2, false)] :=
  vecResults_of_sem hr hh hs (semVsetvl_held _ _ _ _ _ _) rfl (if_pos hl) rfl (by simp)

/-- The predicate logic acts on whole predicates, and under no mask. -/
theorem semPlog_runs {minor : Nat} {pd ps1 ps2 : PReg} {op : BitVec 64 → BitVec 64 → BitVec 64} {v : BitVec 64}
    (hs : semOf s.spine (held s.dev h.k [i]) i = some (h, notHub h (semPlog (held s.dev h.k [i]) h minor pd ps1 ps2 op)))
    (hv : op (s.dev.p h.k ps1) (s.dev.p h.k ps2) = v) :
    coreInstr i s = s.results h [(.p (s.dev.pp h.k pd) v, 2, false)] := by
  subst hv
  exact vecResults_of_sem hr hh hs (semPlog_held _ _ _ _ _ _ _ _) rfl rfl rfl (by simp)

end

theorem tInt_or_tFp {t : BitVec 3} (ht : t.toNat ≤ 2 ∨ t = 5 ∨ t = 6) : (tInt t || tFp t) = true := by
  obtain ht | ht := ht
  · rw [tInt_of_le ht, Bool.true_or]
  · rw [tFp_of_mem ht, Bool.or_true]

theorem tInt_of_fp {t : BitVec 3} (ht : t = 5 ∨ t = 6) : tInt t = false := by
  obtain rfl | rfl := ht <;> rfl

/-- Settles O18: each by what it writes; VSEL reads its mask as a choice, and VSETVL takes none. -/
theorem vectorMoveResults : Obligations.VectorMoveResults := by
  intro s h vd vs1 vs2 gd gs pd ps1 ps2 t hr z n put all act a b g setp p q
  refine ⟨fun ht => ?_, fun ht => ?_, fun ht => ?_, fun ht => ?_, ?_⟩
  · have hl : (t != 7) = true := bne_iff_ne.mpr ht
    refine ⟨semVecAt_runs hr rfl rfl hl (semVmov_held _ _ _ _ _ _) (by decide), fun hpg => ?_, fun hpg => ?_⟩
    · exact semVecAt_runs hr rfl rfl (by rw [hl, bne_iff_ne.mpr hpg]; rfl) (semVsel_held _ _ _ _ _ _ _) (by decide)
    · exact semVsetvl_runs hr rfl rfl (by rw [hl, hpg]; rfl)
  · have hl := tInt_of_le ht
    exact ⟨semVecAt_runs hr rfl rfl hl (semVperm_held _ _ _ _ _ _ _) (by decide),
      semVext_runs hr rfl rfl (tInt_or_tFp (.inl ht)) (if_pos hl)⟩
  · exact semVext_runs hr rfl rfl (tInt_or_tFp (.inr ht)) (if_neg (Bool.eq_false_iff.mp (tInt_of_fp ht)))
  · exact semVbcast_runs hr rfl rfl (tInt_or_tFp ht)
  · exact ⟨semPlog_runs hr rfl rfl rfl, semPlog_runs hr rfl rfl rfl, semPlog_runs hr rfl rfl rfl, semPlog_runs hr rfl rfl rfl⟩

end Sys2Proof.Proofs

namespace Sys2Proof.Proofs
open Sys2Proof.Machine Sys2Proof.Laws

/-! ## Searches and dabs -/

/-- What a search of these elements finds: the best of those that are not NaN, with its index, or a NaN if all are (R177, R179). -/
def bestPair (t : BitVec 3) (mx : Bool) (v : BitVec 512) (act : List Nat) : Option (Nat × Nat) :=
  match act with
  | [] => none
  | i0 :: _ => match bestOf t mx v act with
    | some i => some (laneToG t (lane v (tSize t) i), i)
    | none => some ((tFmt t).nanBits, i0)

/-- The results of a search: a value and its index, in a register pair. -/
def pairRes (gd : Reg) (r : Nat × Nat) : List (RegWr × Nat × Bool) :=
  [(.g gd (BitVec.ofNat 32 r.1), 4, false), (.g (gd + 1) (BitVec.ofNat 32 r.2), 4, false)]
/-- The results of a search that may have no element to search. -/
def searchRes (gd : Reg) (res : Option (Nat × Nat)) : List (RegWr × Nat × Bool) := res.elim [] (pairRes gd)

theorem searchRes_late (gd : Reg) (res : Option (Nat × Nat)) : ∀ y ∈ searchRes gd res, 1 ≤ y.2.1 := by
  cases res with
  | none => simp [searchRes]
  | some r => simp [searchRes, pairRes]

/-- A search of no elements finds nothing; else it finds the best element, or none that is a number. -/
theorem searchRes_bestPair (gd : Reg) (t : BitVec 3) (mx : Bool) (v : BitVec 512) (act : List Nat) :
    searchRes gd (bestPair t mx v act) = (bestOf t mx v act).elim
      (if act = [] then [] else pairRes gd ((tFmt t).nanBits, act.headD 0))
      fun i => pairRes gd (laneToG t (lane v (tSize t) i), i) := by
  cases act with
  | nil => rfl
  | cons i0 l =>
    rw [bestPair]
    cases bestOf t mx v (i0 :: l) <;> rfl

section
variable (d : Dev) (h : Hd) (b : List Instr) (gd vd vs1 vs2 gs : Reg) (t : BitVec 3) (minor : Nat) (mx : Bool)

theorem semVred_held : semVred (held d h.k b) h minor mx gd vs1 t =
    semSearchV (encV h 0x12 gd vs1 0 t minor) (tInt t || tFp t) gd []
      (bestPair t mx (d.v h.k vs1) (d.active h.k h.pg (tSize t) (64 / tSize t))) := by
  simp only [semVred, held_v, held_active]
  rfl
theorem semVcont_held : semVcont (held d h.k b) h minor mx gd vs1 gs t = semVcont d h minor mx gd vs1 gs t := by
  simp only [semVcont, held_v, held_g, held_active]
theorem semVdabN_held : semVdabN (held d h.k b) h vd vs1 vs2 gd = semVdabN d h vd vs1 vs2 gd := by
  simp only [semVdabN, held_v, held_f, held_pv]

end

section
variable {s : State} {i : Instr} {h : Hd} (hr : ReadyV s h) (hh : headOf i = some h) {vd vs1 vs2 gd gs : Reg} {t : BitVec 3}
include hr hh

/-- A search to an even register pair writes what it finds. -/
theorem semSearchV_runs {x : Sem} {word : Nat} {legal : Bool} {srcs : List Reg} {res : Option (Nat × Nat)}
    (hs : semOf s.spine (held s.dev h.k [i]) i = some (h, notHub h x)) (hx : x = semSearchV word legal gd srcs res)
    (hl : legal = true) (heven : gd.toNat % 2 = 0) : coreInstr i s = s.results h (searchRes gd res) := by
  have hodd : Reg.odd gd = false := by rw [odd_eq, heven]; rfl
  refine vecResults_of_sem hr hh hs hx rfl (if_pos ?_) ?_ (searchRes_late gd res)
  · rw [hl, hodd]
    rfl
  · cases res <;> rfl

/-- VMAXI and VMINI write the best of the active elements, or a NaN with the first index where all are NaN (R177, R179). -/
theorem semVred_runs {minor : Nat} {mx : Bool}
    (hs : semOf s.spine (held s.dev h.k [i]) i = some (h, notHub h (semVred (held s.dev h.k [i]) h minor mx gd vs1 t)))
    (hl : (tInt t || tFp t) = true) (heven : gd.toNat % 2 = 0) :
    let act := s.dev.active h.k h.pg (tSize t) (64 / tSize t)
    let v := s.dev.v h.k vs1
    coreInstr i s = (bestOf t mx v act).elim
      (if act = [] then s.results h [] else s.results h (pairRes gd ((tFmt t).nanBits, act.headD 0)))
      fun i => s.results h (pairRes gd (laneToG t (lane v (tSize t) i), i)) := by
  intro act v
  rw [semSearchV_runs hr hh hs (semVred_held _ _ _ _ _ _ _ _) hl heven, searchRes_bestPair, ← apply_ite (s.results h)]
  cases bestOf t mx v act <;> rfl

/-- VMAXI.C and VMINI.C go on from the running pair (R178). -/
theorem semVcont_runs {minor : Nat} {mx : Bool}
    (hs : semOf s.spine (held s.dev h.k [i]) i = some (h, notHub h (semVcont (held s.dev h.k [i]) h minor mx gd vs1 gs t)))
    (hl : (tInt t || tFp t) = true) (heven : gd.toNat % 2 = 0) :
    let act := s.dev.active h.k h.pg (tSize t) (64 / tSize t)
    coreInstr i s = if act = [] then s.results h [] else s.results h (pairRes gd
      (act.foldl (fun r i => contStep t mx r (lane (s.dev.v h.k vs1) (tSize t) i) (((s.dev.g h.k gs).toNat + i) % 2 ^ 32))
        ((s.dev.g h.k gd).toNat, (s.dev.g h.k (gd + 1)).toNat))) := by
  intro act
  refine (semSearchV_runs hr hh hs (semVcont_held _ _ _ _ _ _ _ _ _) hl heven).trans ?_
  split <;> rfl

end

/-- An integer wrapped to a width is the bit vector of it. -/
theorem ofNat_wrapInt (w : Nat) (x : Int) : BitVec.ofNat w (wrapInt w x) = BitVec.ofInt w x := by
  refine BitVec.eq_of_toNat_eq ?_
  rw [BitVec.toNat_ofNat, BitVec.toNat_ofInt, wrapInt, Nat.mod_eq_of_lt]
  have hpos := Nat.two_pow_pos w
  omega

/-- The 32 half words of a dab, and its values at its exponent (R171). -/
def dabHalves (v : BitVec 512) : List Int := (List.range 32).map (laneS v 2)
def dabScaled (v : BitVec 512) : List Byte :=
  (dabHalves v).map fun n => BitVec.ofInt 8 (n / ((2 ^ dabExp (dabHalves v) : Nat) : Int))

/-- VDAB.N normalises both of its sources. -/
theorem semVdabN_eff (d : Dev) (h : Hd) (vd vs1 vs2 gd : Reg) :
    let e := fun v => dabExp (dabHalves v) + d.f (F.VEC_DABCFG_NBIAS h.k)
    (semVdabN d h vd vs1 vs2 gd).eff = wrs
      [(.v (d.pv h.k vd) (BitVec.allOnes 64) (BitVec.ofNat 512 (ofLeBytes (dabScaled (d.v h.k vs1) ++ dabScaled (d.v h.k vs2)))), 4, false),
       (.g gd (BitVec.ofNat 32 (e (d.v h.k vs1) + e (d.v h.k vs2) * 2 ^ 8)), 4, false)] := by
  simp only [semVdabN, List.map_append, List.map_map, Function.comp_def, ofNat_wrapInt, dabScaled, dabHalves]
  rfl

/-- Settles O19: the searches by what they find, and VDAB.N by its two normalised dabs. -/
theorem vectorSearchResults : Obligations.VectorSearchResults := by
  intro s h gd gs vd vs1 vs2 t hr z act x pair one cont
  refine ⟨fun heven ht => ?_, ?_⟩
  · have hl := tInt_or_tFp ht
    have found : ∀ mx, (bestOf t mx x act).elim
        (if act = [] then s.results h [] else s.results h (pairRes gd ((tFmt t).nanBits, act.headD 0)))
        (fun i => s.results h (pairRes gd (laneToG t (lane x z i), i))) = one mx := fun mx => by
      simp only [one]
      cases bestOf t mx x act <;> rfl
    exact ⟨(semVred_runs hr rfl rfl hl heven).trans (found true), (semVred_runs hr rfl rfl hl heven).trans (found false),
      semVcont_runs hr rfl rfl hl heven,
      semVcont_runs hr rfl rfl hl heven⟩
  · exact vecResults_of_sem hr rfl rfl (semVdabN_held _ _ _ _ _ _ _) rfl rfl (semVdabN_eff _ _ _ _ _ _)
      (List.forall_mem_cons.mpr ⟨(by decide : 1 ≤ 4), List.forall_mem_singleton.mpr (by decide : 1 ≤ 4)⟩)

end Sys2Proof.Proofs

namespace Sys2Proof.Proofs
open Sys2Proof.Machine Sys2Proof.Laws

/-! ## Floating point -/

section
variable (d : Dev) (h : Hd) (b : List Instr) (vd vs1 vs2 gs : Reg) (t : BitVec 3)

theorem held_guard_noGn : (held d h.k b).guard h.noGn = d.guard h.noGn := held_guard d b h.noGn

theorem semVf_held (minor : Nat) (op : FVal → FVal → FVal) :
    semVf (held d h.k b) h minor vd vs1 vs2 t op = semVf d h minor vd vs1 vs2 t op := by
  simp only [semVf, semVec, semVecAt, held_v, held_active, held_pv]
theorem semVfma_held : semVfma (held d h.k b) h vd vs1 vs2 t = semVfma d h vd vs1 vs2 t := by
  simp only [semVfma, semVec, semVecAt, held_v, held_active, held_pv]
theorem semVfcvtFi_held : semVfcvtFi (held d h.k b) h vd vs1 t = semVfcvtFi d h vd vs1 t := by
  simp only [semVfcvtFi, semVec, semVecAt, held_v, held_active, held_pv]
theorem semVfcvtIf_held : semVfcvtIf (held d h.k b) h vd vs1 t = semVfcvtIf d h vd vs1 t := by
  simp only [semVfcvtIf, semVec, semVecAt, held_v, held_active, held_pv]
theorem semVfcvtW_held : semVfcvtW (held d h.k b) h vd vs1 t = semVfcvtW d h vd vs1 t := by
  simp only [semVfcvtW, semVec, semVecAt, held_v, held_active, held_pv]
theorem semVfcvtN_held : semVfcvtN (held d h.k b) h vd vs1 t = semVfcvtN d h vd vs1 t := by
  simp only [semVfcvtN, semVec, semVecAt, held_v, held_active, held_pv]
theorem semScalarForms_held (op : FOp) : semScalarForms (held d h.k b) h op vd vs1 vs2 t = semScalarForms d h op vd vs1 vs2 t := by
  simp only [semScalarForms, fWrite, held_v, held_pv, held_pp, held_guard_noGn]
theorem semFmvFg_held : semFmvFg (held d h.k b) h vd gs t = semFmvFg d h vd gs t := by
  simp only [semFmvFg, fWrite, held_g, held_pv, held_guard_noGn]
theorem semFmvGf_held : semFmvGf (held d h.k b) h vd vs1 t = semFmvGf d h vd vs1 t := by
  simp only [semFmvGf, held_v, held_guard_noGn]

end

/-- The lanes of element 0. -/
theorem lanesAt_zero (z : Nat) : lanesAt z 0 [0] = BitVec.ofNat 64 (2 ^ z - 1) := by simp [lanesAt]

section
variable {s : State} {i : Instr} {h : Hd} {x y : Sem} (hr : ReadyV s h) (hh : headOf i = some h)
  (hs : semOf s.spine (held s.dev h.k [i]) i = some (h, notHub h x))
include hr hh hs

/-- A scalar form of the vector unit, whose mask field is a guard without GN, and its one result. -/
theorem scalar_of_sem {r : RegWr × Nat × Bool} (hx : x = y) (hg : y.run = s.dev.guard h.noGn) (ht : y.trap = none)
    (he : y.eff = wrs [r]) (hl : 1 ≤ r.2.1) : coreInstr i s = s.guarded h.noGn [r] :=
  guarded_of_sem hr.toReady hh (semOf_vec hr hs hx) rfl hg ht he (List.forall_mem_singleton.mpr hl)

section
variable {op : FOp} {fd fs1 fs2 : Reg} {t : BitVec 3} (hx : x = semScalarForms (held s.dev h.k [i]) h op fd fs1 fs2 t)
  (hl : tFp t = true)
include hx hl

/-- A scalar form that is no compare, or compares into one of the eight predicates. -/
theorem semScalarForms_runs {r : RegWr × Nat × Bool}
    (hd : ((op == .cmpeq || op == .cmplt) && decide (8 ≤ fd.toNat)) = false)
    (he : (semScalarForms s.dev h op fd fs1 fs2 t).eff = wrs [r]) (hlat : 1 ≤ r.2.1) : coreInstr i s = s.guarded h.noGn [r] := by
  refine scalar_of_sem hr hh hs (hx.trans (semScalarForms_held _ _ _ _ _ _ _ _)) rfl (if_pos ?_) he hlat
  rw [hl, hd]
  rfl

/-- A scalar compare sets the bits of element 0, or clears the predicate. -/
theorem semScalarCompare_runs {c : Bool} (h8 : fd.toNat < 8)
    (he : (semScalarForms s.dev h op fd fs1 fs2 t).eff =
      wrs [(.p (s.dev.pp h.k (fd.setWidth 3)) (if c then lanesAt (tSize t) 0 [0] else 0), 4, false)]) :
    coreInstr i s = s.guarded h.noGn
      [(.p (s.dev.pp h.k (fd.setWidth 3)) (if c then BitVec.ofNat 64 (2 ^ tSize t - 1) else 0), 4, false)] := by
  rw [← lanesAt_zero]
  refine semScalarForms_runs hr hh hs hx hl ?_ he (by decide : 1 ≤ 4)
  rw [decide_eq_false (Nat.not_le.mpr h8), Bool.and_false]

end
end

/-- Settles O20: each computes on the exact values of its elements, and encodes what it finds once. -/
theorem floatingPointResults : Obligations.FloatingPointResults := by
  intro s h vd vs1 vs2 gs gd t hr z f a b c act act4 put hg fset fput fcmp
  have h4 : 1 ≤ 4 := by decide
  refine ⟨fun ht => ?_, ?_, ?_, ?_, ?_, ?_, ?_⟩
  · have hl := tFp_of_mem ht
    exact ⟨semVecAt_runs hr rfl rfl hl (semVf_held _ _ _ _ _ _ _ _ _) h4, semVecAt_runs hr rfl rfl hl (semVf_held _ _ _ _ _ _ _ _ _) h4,
      semVecAt_runs hr rfl rfl hl (semVf_held _ _ _ _ _ _ _ _ _) h4, semVecAt_runs hr rfl rfl hl (semVf_held _ _ _ _ _ _ _ _ _) h4,
      semVecAt_runs hr rfl rfl hl (semVf_held _ _ _ _ _ _ _ _ _) h4,
      semVecAt_runs hr rfl rfl hl (semVfma_held _ _ _ _ _ _ _) h4,
      semScalarForms_runs hr rfl rfl rfl hl rfl rfl h4, semScalarForms_runs hr rfl rfl rfl hl rfl rfl h4,
      semScalarForms_runs hr rfl rfl rfl hl rfl rfl h4, semScalarForms_runs hr rfl rfl rfl hl rfl rfl h4,
      semScalarForms_runs hr rfl rfl rfl hl rfl rfl h4, semScalarForms_runs hr rfl rfl rfl hl rfl rfl h4,
      fun h8 => ⟨semScalarCompare_runs hr rfl rfl rfl hl h8 rfl, semScalarCompare_runs hr rfl rfl rfl hl h8 rfl⟩⟩
  · exact semVecAt_runs hr rfl rfl rfl (semVfcvtFi_held _ _ _ _ _ _) h4
  · exact semVecAt_runs hr rfl rfl rfl (semVfcvtIf_held _ _ _ _ _ _) h4
  · exact semVecAt_runs hr rfl rfl rfl (semVfcvtW_held _ _ _ _ _ _) h4
  · exact semVecAt_runs hr rfl rfl rfl (semVfcvtN_held _ _ _ _ _ _) h4
  · exact scalar_of_sem hr rfl rfl (semFmvFg_held _ _ _ _ _ _) rfl rfl rfl (by decide : 1 ≤ 2)
  · exact scalar_of_sem hr rfl rfl (semFmvGf_held _ _ _ _ _ _) rfl rfl rfl (by decide : 1 ≤ 2)

end Sys2Proof.Proofs

/-! Proofs of the statements about the coprocessors (chapter 06): O22 to O25. -/

namespace Sys2Proof.Proofs
open Sys2Proof.Machine Sys2Proof.Laws

/-! ## The coprocessor of a core (CX) -/

/-- An even register number is not odd. -/
theorem odd_of_even {r : Reg} (h : r.toNat % 2 = 0) : Reg.odd r = false := by rw [odd_eq, h]; rfl

/-- A core to which its coprocessor owes these results alone. -/
def owes (res : List (Reg × Word)) (c : Core) : Core := { c with cx := [{ res := res }] }

theorem keepsEnd_owes (res : List (Reg × Word)) : KeepsEnd (owes res) := ⟨fun _ => rfl, fun _ => rfl⟩

/-- An instruction of the core's own coprocessor at the end of its bundle: the core is owed the results, and free values are
taken. -/
theorem late_cx (sp : Spine) (d : Dev) (k lvl n : Nat) (b : List Instr) (res : List (Reg × Word)) (hc : (d.core k).cx = []) :
    fxLate k lvl (sp, landed d k b []) (.cx res n) =
      (sp, { (landed d k b []).mapCore k (owes res) with free := d.free + n }) := by
  have e : ((landed d k b []).mapCore k fun c => { c with cx := c.cx ++ [{ res := res }] }) =
      (landed d k b []).mapCore k (owes res) :=
    mapCore_eq _ _ _ _ (by simp [landed, owes, hc])
  simp only [fxLate, e]
  rfl

/-- Free values are beside the end of a bundle that goes on. -/
theorem free_ends (d : Dev) (k n m : Nat) (e : Eff) (hg : goesOf [e] = none) (h0 : (d.core k).ds = 0)
    (hla : d.fb (F.CORE_STATUS_LA k) = false) (hra : d.fb (F.CORE_STATUS_RA k) = false) :
    ((({ d with free := n } : Dev).advance k m [e]).bundleDone k) = { ((d.setPc k m).bundleDone k) with free := n } := by
  rw [Dev.advance, hg]
  exact congrArg (Dev.bundleDone · k) (goOn_plain { d with free := n } k m h0 ((fb_congr _ d rfl _).trans hla)
    ((fb_congr _ d rfl _).trans hra))

/-- An instruction of an enabled CX, by its meaning. -/
theorem cx_of_sem {s : State} {i : Instr} {h : Hd} {x : Sem} {res : List (Reg × Word)} {n : Nat} (hr : ReadyV s h)
    (hh : headOf i = some h) (hs : semOf s.spine (held s.dev h.k [i]) i = some (h, notHub h x))
    (hg : x.run = s.dev.guard h) (ht : x.trap = none) (he : x.eff = [.cx res n]) :
    coreInstr i s = if s.dev.guard h then
        s.to { (s.dev.lone h.k []).mapCore h.k (owes res) with free := s.dev.free + n }
      else s.results h [] := by
  have hs' := semOf_vec hr hs rfl
  have hst := still_of s.spine _ _ hr.alone
  split
  case isTrue hon =>
    obtain ⟨c1, c2, c3⟩ := landed_core s.dev h.k [i] [] hst
    rw [one_of_sem hr.toReady hh hs' (hg.trans hon) ht (l := []) he (by simp) rfl rfl (late_cx _ _ _ _ n _ res hr.alone.cx)]
    refine congrArg s.to ?_
    rw [free_ends _ _ _ _ _ rfl (by rw [core_mapCore_same]; exact c1) (by rw [fb_mapCore, c2]) (by rw [fb_mapCore, c3])]
    have hswap : ((landed s.dev h.k [i] []).mapCore h.k (owes res)).setPc h.k ((s.dev.core h.k).pc.toNat + 4) =
        ((landed s.dev h.k [i] []).setPc h.k ((s.dev.core h.k).pc.toNat + 4)).mapCore h.k (owes res) := by
      simp only [Dev.setPc, mapCore_mapCore, owes]
    rw [hswap, landed_then _ _ _ _ _ _ hst rfl (keepsEnd_owes res)]
  case isFalse hoff => exact idle_of_sem hr.toReady hh hs' (hg.trans (Bool.eq_false_iff.mpr hoff))

/-- An instruction of an enabled CX, whose pairs, where it names any, are even. -/
theorem semCx_runs {s : State} {i : Instr} {h : Hd} {op n : Nat} {rd rs1 rs2 : Reg} {pairs : Bool} {srcs : List Reg}
    {res vals : List (Reg × Word)} (hr : ReadyV s h) (hon : s.dev.copOn h.k 0 = true) (hh : headOf i = some h)
    (hs : semOf s.spine (held s.dev h.k [i]) i = some (h, notHub h (semCx (held s.dev h.k [i]) h op rd rs1 rs2 pairs srcs res n)))
    (heven : (pairs && (Reg.odd rd || Reg.odd rs1 || Reg.odd rs2)) = false) (hres : res = vals) :
    exec i s = if s.dev.guard h then
        s.to { (s.dev.lone h.k []).mapCore h.k (owes vals) with free := s.dev.free + n }
      else s.results h [] := by
  subst hres
  have hcop : (held s.dev h.k [i]).copOn h.k 0 = true := hon
  refine (exec_of_head s i h hh).trans (cx_of_sem hr hh hs (held_guard s.dev [i] h) ?_ rfl)
  simp only [semCx, heven, hcop, Bool.false_eq_true, if_false, if_true]

/-- Settles O22: each has one effect on the core, to be owed what its function gives. -/
theorem privateCoprocessorStarts : Obligations.PrivateCoprocessorStarts := by
  intro s h rd rs1 rs2 hr hon k x y fr start one
  refine ⟨semCx_runs hr hon rfl rfl rfl ?rcp, semCx_runs hr hon rfl rfl rfl ?rsqrt, semCx_runs hr hon rfl rfl rfl ?atan2,
    semCx_runs hr hon rfl rfl rfl ?log2, semCx_runs hr hon rfl rfl rfl ?exp2,
    fun hd h1 h2 => semCx_runs hr hon rfl rfl ?even ?cdiv⟩
  case rcp | rsqrt | log2 | exp2 => rw [held_g]; rfl
  case atan2 => rw [held_g, held_g]; rfl
  case even => simp only [odd_of_even hd, odd_of_even h1, odd_of_even h2, Bool.or_self, Bool.and_false]
  case cdiv => simp only [held_g]; rfl

/-- Settles O23: with no write in flight the results are written, and the core, which does not stall, does nothing more. -/
theorem coprocessorResultWritten : Obligations.CoprocessorResultWritten := by
  intro s k rd x hst hout hfl hx
  refine wholeCmd_to s _ _ ?_
  have hwrote : ((x.res.foldl (fun d y => d.applyWr k (.g y.1 y.2))
      (s.dev.mapCore k fun c => { c with cx := c.cx.erase x })).core k).stall = .none := by
    have e := (applyWrs_issue (s.dev.mapCore k fun c => { c with cx := c.cx.erase x }) k
      (x.res.map fun y => (.g y.1 y.2, 0, false))).core
    rw [List.foldl_map] at e
    obtain ⟨g, a, p, v, hc⟩ := e
    rw [hc, core_mapCore_same]
    exact hst
  simp only [cxResult, hx, hfl, List.any_nil, hout, Bool.or_self, Bool.false_eq_true, if_false, retry, hwrote, if_true]

end Sys2Proof.Proofs

namespace Sys2Proof.Machine
open Sys2Proof.Laws

/-! ## A try at a shared coprocessor -/

/-- The unit holds the operation, and CSB is cleared for the core whose it is. -/
def Dev.csTaken (d : Dev) (k unit : Nat) (op : CsOp) (pd : PReg) (now prev : Nat) : Dev :=
  (d.setCs (coreCluster k) unit { op := some op, last := k % 4, tie := some { now := now, prev := prev, pd := pd } }).setCsb k false

/-- The core whose operation a unit took in this cycle finds that the unit was busy. -/
def Dev.csOusted (d : Dev) (o : CsOp) (t : CsTie) (unit : Nat) : Dev :=
  (d.applyWr o.core.val (.p t.pd (BitVec.allOnes 64))).csBusy o.core.val unit

/-- Does a try of core `k` come before that of the operation which the unit took in this cycle? -/
def csBefore (now k : Nat) (o : CsOp) (t : CsTie) : Prop :=
  t.now = now ∧ csPlace t.prev (k % 4) < csPlace t.prev (o.core.val % 4)

section
variable {d : Dev} {k unit : Nat} {op : CsOp} {pd : PReg} {now : Nat}

theorem csTry_idle (h : (d.csUnit (coreCluster k) unit).op = none) :
    csTry k unit op pd now d = (true, d.csTaken k unit op pd now (d.csUnit (coreCluster k) unit).last) := by
  simp only [csTry, h, Dev.csTaken]

theorem csTry_before {o : CsOp} {t : CsTie} (h : (d.csUnit (coreCluster k) unit).op = some o)
    (ht : (d.csUnit (coreCluster k) unit).tie = some t) (hb : csBefore now k o t) :
    csTry k unit op pd now d = (true, (d.csOusted o t unit).csTaken k unit op pd now t.prev) := by
  simp only [csTry, h, ht]
  exact if_pos hb

theorem csTry_busy {o : CsOp} (h : (d.csUnit (coreCluster k) unit).op = some o)
    (ht : ∀ t, (d.csUnit (coreCluster k) unit).tie = some t → ¬ csBefore now k o t) :
    csTry k unit op pd now d = (false, d.csBusy k unit) := by
  cases hx : (d.csUnit (coreCluster k) unit).tie with
  | none => simp only [csTry, h, hx]
  | some t =>
    simp only [csTry, h, hx]
    exact if_neg (ht t hx)

end

/-- A core does not come before itself. -/
theorem csBefore_core {now k : Nat} {o : CsOp} {t : CsTie} (h : csBefore now k o t) : o.core.val ≠ k := by
  rintro rfl
  exact Nat.lt_irrefl _ h.2

end Sys2Proof.Machine

namespace Sys2Proof.Proofs
open Sys2Proof.Machine Sys2Proof.Laws

/-! ## What leaves a core's issue as it is -/

theorem sameIssue_trans {d e f : Dev} {k : Nat} (h1 : SameIssue d e k) (h2 : SameIssue e f k) : SameIssue d f k := by
  obtain ⟨g, a, p, v, hc⟩ := h1.core
  obtain ⟨g', a', p', v', hc'⟩ := h2.core
  exact ⟨⟨g', a', p', v', hc'.trans (by rw [hc])⟩, h2.la.trans h1.la, h2.ra.trans h1.ra⟩

/-- A change of the device beside the issue of core `k`: the bundle that the core holds does not bear on it, and it changes
nothing that the issue keeps. -/
structure BesideIssue (k : Nat) (f : Dev → Dev) : Prop where
  bundle : ∀ d b, f (held d k b) = held (f d) k b
  issue : ∀ d, SameIssue d (f d) k

theorem BesideIssue.comp {k : Nat} {f g : Dev → Dev} (hf : BesideIssue k f) (hg : BesideIssue k g) :
    BesideIssue k fun d => g (f d) :=
  ⟨fun d b => by rw [hf.bundle, hg.bundle], fun d => sameIssue_trans (hf.issue d) (hg.issue _)⟩

theorem coreBase_aligned (k : Nat) : coreBase k % 0x1000 = 0 := by
  unfold coreBase regionBase
  split <;> omega

/-- A loop flag is left alone by the write of a field below it in a status register, or of one in another register. -/
theorem fb_setF_loop (d : Dev) (x y : Fld) (v k : Nat) (hw : x.lo + x.w ≤ 32) (hx : x.addr % 0x1000 ≠ 8 ∨ x.lo + x.w ≤ 16)
    (hy : y.addr = coreBase k + 8) (hl : 16 ≤ y.lo) : (d.setF x v).fb y = d.fb y := by
  by_cases ha : y.addr = x.addr
  · refine fb_flag_apart d x y v ha hw (.inl ((hx.resolve_left fun hn => hn ?_).trans hl))
    have := coreBase_aligned k
    omega
  · exact fb_flag_ne d x y v ha

theorem besideIssue_setF (k : Nat) (x : Fld) (v : Dev → Nat) (hv : ∀ d b, v (held d k b) = v d) (hw : x.lo + x.w ≤ 32)
    (hx : x.addr % 0x1000 ≠ 8 ∨ x.lo + x.w ≤ 16) : BesideIssue k fun d => d.setF x (v d) :=
  ⟨fun d b => by rw [hv, held_setF], fun d => ⟨⟨_, _, _, _, rfl⟩, fb_setF_loop d x _ _ k hw hx rfl (Nat.le_refl 16),
    fb_setF_loop d x _ _ k hw hx rfl (Nat.le_succ 16)⟩⟩

theorem besideIssue_setCsb (k j : Nat) (busy : Bool) : BesideIssue k fun d => d.setCsb j busy :=
  besideIssue_setF k (F.CORE_STATUS_CSB j) (fun _ => b2n busy) (fun _ _ => rfl) (Nat.le_of_ble_eq_true rfl)
    (.inr (Nat.le_of_ble_eq_true rfl))

theorem besideIssue_csBusy (k j unit : Nat) : BesideIssue k fun d => d.csBusy j unit := by
  have hbase := coreBase_aligned j
  have key : ∀ x : Fld, x.addr = coreBase j + 0x80C → x.lo + x.w ≤ 32 → BesideIssue k fun d => (d.setCsb j true).countF x 1 :=
    fun x ha hw => (besideIssue_setCsb k j true).comp
      (besideIssue_setF k x (fun d => satAdd x.w (d.f x) 1) (fun _ _ => rfl) hw (.inl (by omega)))
  unfold Dev.csBusy
  split
  · exact key _ rfl (Nat.le_of_ble_eq_true rfl)
  · exact key _ rfl (Nat.le_of_ble_eq_true rfl)

theorem besideIssue_setCs (k c u : Nat) (x : CsUnit) : BesideIssue k fun d => d.setCs c u x :=
  ⟨fun _ _ => rfl, fun _ => ⟨⟨_, _, _, _, rfl⟩, rfl, rfl⟩⟩

/-- Another core's predicate. -/
theorem besideIssue_otherP (k j : Nat) (r : PReg) (v : BitVec 64) (h : j ≠ k) : BesideIssue k fun d => d.applyWr j (.p r v) :=
  ⟨fun d b => mapCore_comm d k j (fun c => { c with bundle := b }) (fun c => { c with p := SMap.set c.p r.toNat v 0 }) h.symm,
    fun d => ⟨⟨_, _, _, _, core_mapCore_ne d j k _ h.symm⟩, fb_mapCore _ _ _ _, fb_mapCore _ _ _ _⟩⟩

theorem besideIssue_csTaken (k unit : Nat) (op : CsOp) (pd : PReg) (now prev : Nat) :
    BesideIssue k fun d => d.csTaken k unit op pd now prev :=
  (besideIssue_setCs k _ _ _).comp (besideIssue_setCsb k k false)

theorem besideIssue_csOusted (k unit : Nat) (o : CsOp) (t : CsTie) (h : o.core.val ≠ k) :
    BesideIssue k fun d => d.csOusted o t unit :=
  (besideIssue_otherP k _ _ _ h).comp (besideIssue_csBusy k _ unit)

/-! ## A lone try at a shared coprocessor -/

/-- What a try writes to its predicate: whether the unit was busy (R214). -/
def triedP (pd : PReg) (taken : Bool) : List (RegWr × Nat × Bool) := [(.p pd (if taken then 0 else BitVec.allOnes 64), 1, false)]

/-- What a lone bundle leaves, where a change beside its issue went before its results. -/
theorem lands_beside (d e : Dev) (k : Nat) (b : List Instr) (pd : PReg) (r : Bool) (hs : Still d k) (he : SameIssue d e k) :
    ((((held e k b).mapCore k fun c => { c with inflight := pending c.inflight (triedP pd r) }).landStep k).goOn k
      ((d.core k).pc.toNat + 4)).bundleDone k = e.lone k (triedP pd r) := by
  obtain ⟨g, a, p, v, hc⟩ := he.core
  have hfl : (e.core k).inflight = [] := by rw [hc]; exact hs.inflight
  have hpc : (e.core k).pc = (d.core k).pc := by rw [hc]
  have hfly : ((held e k b).mapCore k fun c => { c with inflight := pending c.inflight (triedP pd r) }) =
      flying e k b (pending [] (triedP pd r)) := by
    rw [held, mapCore_mapCore]
    exact mapCore_eq _ _ _ _ (by rw [hfl])
  obtain ⟨g', a', p', v', hc'⟩ := (wrote_issue e k (dueOf (nearer [] (triedP pd r)))).core
  rw [hfly, flying_lands, flying_ends d _ k _ b _ hs (sameIssue_trans he (wrote_issue e k _)), ← hpc]
  exact mapCore_eq (wrote e k (dueOf (nearer [] (triedP pd r)))) k _ _ (by rw [hc']; rfl)

/-- The end of a lone bundle that tries a shared coprocessor: the try goes before its result. -/
theorem commit_try (sp : Spine) (d e : Dev) (k unit : Nat) (b : List Instr) (op : CsOp) (pd : PReg) (r : Bool) (hs : Still d k)
    (ht : csTry k unit op pd sp.now (held d k b) = (r, held e k b)) (he : SameIssue d e k) :
    commit k 4 [.cs unit op pd] [] none (sp, held d k b) = (sp, e.lone k (triedP pd r)) := by
  have hgo : ∀ (D : Dev) n, D.advance k n [.cs unit op pd] = D.goOn k n := fun _ _ => rfl
  have hland := lands_beside d e k b pd r hs he
  have hesl : eslOf [.cs unit op pd] = none := rfl
  simp only [commit, List.foldl_cons, List.foldl_nil, held_tries d k b hs.tries, fxStep, ht, fxLate, fxFlag, hesl, hgo, held_core,
    endTrap_quiet _ _ _ _ (.cs unit op pd) rfl, List.nil_append]
  exact congrArg (Prod.mk sp) hland

/-- Such an instruction reaches no memory, and takes effect at once. -/
theorem issueGo_try (sp : Spine) (d : Dev) (k unit : Nat) (b : List Instr) (x : Sem) (op : CsOp) (pd : PReg) (hs : Still d k)
    (hx : x.eff = [.cs unit op pd]) :
    issueGo k 4 [x] none [] (sp, held d k b) = commit k 4 [.cs unit op pd] [] none (sp, held d k b) := by
  have hla : loadAccs [.cs unit op pd] [] = [] := rfl
  have hsa : storeAccs [.cs unit op pd] = [] := rfl
  have hesl : eslOf [.cs unit op pd] = none := rfl
  have hed : ((held d k b).core k).eslDone = none := by rw [held_core]; exact hs.eslDone
  have hre : ∀ (D : Dev) got, resolve D got 0 [] [] [x] = ([.cs unit op pd], none) := fun D got => by
    have hld : loadOf x = none := by rw [loadOf, hx]; rfl
    simp only [resolve, hld, hx, List.nil_append]
  have hput : ∀ lvl, putAll k lvl [.cs unit op pd] (held d k b) = (true, held d k b) := fun lvl => by
    have hf : ((held d k b).core k).fills = [] := by rw [held_core]; exact hs.fills
    simp only [putAll, hf, fillAll, hsa, List.drop_nil, storeAll, Bool.not_true, Bool.false_eq_true, if_false, List.foldl_cons,
      List.foldl_nil]
  unfold issueGo
  simp only [List.flatMap_singleton, hx, hsa, hla, fetchLines, storeFirst, List.any_nil, Bool.false_and, Bool.false_eq_true,
    if_false, Bool.not_true, Bool.or_self, fetchElems, hre, Core.regWaits, List.map_nil, hed, hesl, Option.isNone_none,
    Bool.and_self, if_true, Option.getD_none, issueEnd, hput]

/-- An instruction that tries a shared coprocessor, by what the try makes of the device. -/
theorem try_of_sem {s : State} {i : Instr} {h : Hd} {x : Sem} {unit : Nat} {op : CsOp} {pd : PReg} {r : Bool} {f : Dev → Dev}
    (hr : Ready s h) (hh : headOf i = some h) (hs : semOf s.spine (held s.dev h.k [i]) i = some (h, x)) (hx : x.run = true)
    (ht : x.trap = none) (he : x.eff = [.cs unit op pd])
    (hc : csTry h.k unit op pd s.spine.now (held s.dev h.k [i]) = (r, f (held s.dev h.k [i]))) (hf : BesideIssue h.k f) :
    coreInstr i s = s.to ((f s.dev).lone h.k (triedP pd r)) := by
  have hst := still_of s.spine _ _ hr.alone
  rw [hf.bundle] at hc
  exact acts_of_sem hr hh hs hx ht _ (by rw [he]; rfl) (fun _ => by rw [he]; rfl)
    ((issueGo_try _ _ _ _ _ x _ _ hst he).trans (commit_try _ _ _ _ _ _ _ _ _ hst hc (hf.issue _)))

/-- The operation that an instruction asks a shared coprocessor for (R213). -/
def csAsked (d : Dev) (h : Hd) (rc : Reg) (unit op src dst : Nat) : CsOp :=
  { core := h.k, op := op, ctl := d.g h.k rc, arg := d.g h.k (rc + 1), src := src, dst := dst
    len := (csSizes unit op (d.g h.k rc) (d.g h.k (rc + 1))).1, got := [] }

/-- The operands of a shared coprocessor's instruction are in order (R202, R212, R213, R228). -/
structure CsOrder (sp : Spine) (d : Dev) (h : Hd) (rc rs rt : Reg) (unit op src dst : Nat) : Prop where
  even : rc.toNat % 2 = 0
  on : d.copOn h.k (1 + unit) = true
  serves : sp.contain.units.contains (mkUid (h.k / 96) (h.k / 24 % 4) (h.k % 24 / 4) (4 + unit)) = false
  legal : csLegal unit op (d.g h.k rc) (d.g h.k (rc + 1)) = true
  src : csBlock d h.k (d.g h.k rs).toNat (csSizes unit op (d.g h.k rc) (d.g h.k (rc + 1))).1 = some src
  srcAligned : (d.g h.k rs).toNat % 8 = 0
  dst : csBlock d h.k (d.g h.k rt).toNat (csSizes unit op (d.g h.k rc) (d.g h.k (rc + 1))).2 = some dst
  dstAligned : (d.g h.k rt).toNat % 8 = 0

theorem held_csBlock (d : Dev) (k ca n : Nat) (b : List Instr) : csBlock (held d k b) k ca n = csBlock d k ca n := rfl

section
variable {sp : Spine} {d : Dev} {h : Hd} {rc rs rt : Reg} {unit op src dst : Nat} (ho : CsOrder sp d h rc rs rt unit op src dst)
include ho

/-- Which bundle the core holds does not bear on them. -/
theorem csOrder_held (b : List Instr) : CsOrder sp (held d h.k b) h rc rs rt unit op src dst :=
  ⟨ho.even, ho.on, ho.serves, by simpa only [held_g] using ho.legal, by simpa only [held_g, held_csBlock] using ho.src,
    by simpa only [held_g] using ho.srcAligned, by simpa only [held_g, held_csBlock] using ho.dst,
    by simpa only [held_g] using ho.dstAligned⟩

/-- Then the instruction raises nothing, and asks the unit. -/
theorem semCs_asks (pd : PReg) : (semCs sp d h unit op rc rs rt pd).trap = none ∧
    (semCs sp d h unit op rc rs rt pd).eff = [.cs unit (csAsked d h rc unit op src dst) (d.pp h.k pd)] := by
  have hn : Reg.next rc = rc + 1 := rfl
  constructor
  · simp only [semCs, csTrap, hn, odd_of_even ho.even, ho.on, ho.serves, ho.legal, ho.src, ho.dst, ho.srcAligned, ho.dstAligned,
      Bool.false_eq_true, if_false, Bool.not_true, Bool.or_self, Option.isNone_some, ne_eq, not_true_eq_false]
  · simp only [semCs, hn, ho.src, ho.dst, Option.getD_some, csAsked]

end

/-- An instruction of a shared coprocessor whose operands are in order, by what its try makes of the device. -/
theorem asks_runs {s : State} {i : Instr} {h : Hd} {rc rs rt : Reg} {pd : PReg} {unit op src dst : Nat} {r : Bool} {f : Dev → Dev}
    (hr : ReadyV s h) (hh : headOf i = some h)
    (hs : semOf s.spine (held s.dev h.k [i]) i = some (h, notHub h (semCs s.spine (held s.dev h.k [i]) h unit op rc rs rt pd)))
    (ho : CsOrder s.spine s.dev h rc rs rt unit op src dst)
    (hc : csTry h.k unit (csAsked s.dev h rc unit op src dst) (s.dev.pp h.k pd) s.spine.now (held s.dev h.k [i]) =
      (r, f (held s.dev h.k [i]))) (hf : BesideIssue h.k f) :
    exec i s = s.to ((f s.dev).lone h.k (triedP (s.dev.pp h.k pd) r)) := by
  obtain ⟨ht, he⟩ := semCs_asks (csOrder_held ho [i]) pd
  have hop : csAsked (held s.dev h.k [i]) h rc unit op src dst = csAsked s.dev h rc unit op src dst := by
    simp only [csAsked, held_g]
  rw [hop, held_pp] at he
  exact (exec_of_head s i h hh).trans (try_of_sem hr.toReady hh (semOf_vec hr hs rfl) rfl ht he hc hf)

/-- Settles O24: the unit takes the try where it is free, or where it comes before the one taken in this cycle. -/
theorem sharedCoprocessorTry : Obligations.SharedCoprocessorTry := by
  intro s h rc rs rt pd src dst hr hev k ctl arg cl run
  have all : ∀ (i : Instr) (unit op : Nat), headOf i = some h →
      semOf s.spine (held s.dev h.k [i]) i = some (h, notHub h (semCs s.spine (held s.dev h.k [i]) h unit op rc rs rt pd)) →
      run i unit op := by
    intro i unit op hh hs hon hu hl hsrc hsa hdst hda x take before
    have ho : CsOrder s.spine s.dev h rc rs rt unit op src dst := ⟨hev, hon, hu, hl, hsrc, hsa, hdst, hda⟩
    have runs := fun (r : Bool) (f : Dev → Dev) => asks_runs (r := r) (f := f) hr hh hs ho
    refine ⟨fun hx => ?idle, fun o t hx ht hb => ?before, fun o hx hb => ?busy⟩
    case idle => exact runs true _ (csTry_idle (d := held s.dev h.k [i]) hx) (besideIssue_csTaken _ _ _ _ _ _)
    case before =>
      exact runs true (fun d => (d.csOusted o t unit).csTaken k unit _ _ _ t.prev)
        (csTry_before (d := held s.dev h.k [i]) hx ht hb)
        ((besideIssue_csOusted k unit o t (csBefore_core hb)).comp (besideIssue_csTaken _ _ _ _ _ _))
    case busy => exact runs false _ (csTry_busy (d := held s.dev h.k [i]) hx hb) (besideIssue_csBusy _ _ _)
  exact ⟨all _ _ _ rfl rfl, all _ _ _ rfl rfl, all _ _ _ rfl rfl, all _ _ _ rfl rfl, all _ _ _ rfl rfl⟩

end Sys2Proof.Proofs

namespace Sys2Proof.Machine
open Sys2Proof.Laws

/-! ## The end of a shared coprocessor's operation -/

/-- A CS unit holds no operation. -/
def Dev.csFreed (d : Dev) (c u : Nat) : Dev := d.setCs c u { d.csUnit c u with op := none, tie := none }

/-- What an operation writes: its records, and then its header (R219). -/
def Dev.csPut (d : Dev) (o : CsOp) (recs head : List Byte) : Dev := ((d.memPut (o.dst + 8) recs).2.memPut o.dst head).2

/-- DONE (bit 1) or ERR (bit 2) of CS unit `u` at the core whose operation it held (R216). -/
def csStatBit (o : CsOp) (u bit : Nat) : Fld := ⟨coreBase o.core + 0x808, 4 * u + bit, 1⟩

@[simp] theorem csUnit_setCs_same (d : Dev) (c u : Nat) (x : CsUnit) : (d.setCs c u x).csUnit c u = x := by
  simp [Dev.csUnit, Dev.setCs]

/-- The operation after a unit has read more of its source. -/
theorem csTake_op (d : Dev) (c u m : Nat) (o : CsOp) (h : (d.csUnit c u).op = some o) :
    ((d.csTake c u m).csUnit c u).op = some { o with got := o.got ++ d.bytes (o.src + o.got.length) m } := by
  simp only [Dev.csTake, h, csUnit_setCs_same]

section
variable {d : Dev} {c u : Nat} {o : CsOp}

/-- The commit of CS_1: it reads what is left of its source, and writes what it found. -/
theorem csCommit_search (h : (d.csUnit c 1).op = some o) :
    csCommit c 1 d =
      (let m := o.len - o.got.length
       let o' := { o with got := o.got ++ d.bytes (o.src + o.got.length) m }
       (((d.csTake c 1 m).csPut o (cs1Result o').1 ([1, 0, 0, 0] ++ leBytes 4 (cs1Result o').2)).setF
         (csStatBit o 1 1) 1).csFreed c 1) := by
  simp only [csCommit, h, csTake_op _ _ _ _ _ h]
  rfl

/-- The commit of CS_0: its result may take free values. -/
theorem csCommit_matrix (h : (d.csUnit c 0).op = some o) :
    csCommit c 0 d =
      (let m := o.len - o.got.length
       let d1 := d.csTake c 0 m
       let r := cs0Result d1 { o with got := o.got ++ d.bytes (o.src + o.got.length) m }
       (((({ d1 with free := d1.free + r.2.2.2.2 } : Dev).csPut o r.1
         (leBytes 2 r.2.1 ++ leBytes 1 r.2.2.1 ++ [0] ++ leBytes 2 r.2.2.2.1 ++ [0, 0])).setF (csStatBit o 0 1) 1).csFreed c 0)) := by
  simp only [csCommit, h, csTake_op _ _ _ _ _ h]
  rfl

/-- An operation that is abandoned is done, with an error. -/
theorem csAbandon_holds (h : (d.csUnit c u).op = some o) :
    d.csAbandon c u = ((d.setF (csStatBit o u 1) 1).setF (csStatBit o u 2) 1).csFreed c u := by
  simp only [Dev.csAbandon, h]
  rfl

/-- A fault of a CS unit in service, with an operation. -/
theorem csFault_here (sp : Spine) (h : (d.csUnit c u).op = some o) (ho : sp.contain.out (csUid c u) = false) :
    csFault c u (sp, d) = (sp.addUnit (csUid c u), ((((d.setF (csStatBit o u 1) 1).setF (csStatBit o u 2) 1).csFreed c u).raise
      (evCoreQuar c) (csUid c u)).redirect (sp.addUnit (csUid c u))) := by
  unfold csFault
  rw [unitCase_here _ _ _ _ ho, csAbandon_holds h, csEvent]

end

end Sys2Proof.Machine

namespace Sys2Proof.Proofs
open Sys2Proof.Machine Sys2Proof.Laws

/-- A unit in service commits. -/
theorem csCommit_runs (s : State) (c : Fin 96) (unit : Bool) (d : Dev) (ho : s.spine.contain.out (csUid c (b2n unit)) = false)
    (hd : csCommit c (b2n unit) s.dev = d) : exec (.csCommit c unit) s = s.to d := by
  show State.to s (if s.spine.contain.out (csUid c (b2n unit)) then s.dev else csCommit c (b2n unit) s.dev) = s.to d
  rw [ho, if_neg Bool.false_ne_true, hd]

/-- Settles O25: each is what the end of the unit's operation is. -/
theorem sharedCoprocessorEnds : Obligations.SharedCoprocessorEnds := by
  intro s c unit o u csx free rest d put hop hout
  refine ⟨?search, ?matrix, ?fault⟩
  case search =>
    rintro rfl r rfl
    exact csCommit_runs s c true _ hout (csCommit_search hop)
  case matrix =>
    rintro rfl rec_ status eout ix n hres
    refine csCommit_runs s c false _ hout ((csCommit_matrix hop).trans ?_)
    have hres' : cs0Result (s.dev.csTake c 0 (o.len - o.got.length))
        { o with got := o.got ++ s.dev.bytes (o.src + o.got.length) (o.len - o.got.length) } = (rec_, status, eout, ix, n) := hres
    dsimp only
    rw [hres']
    rfl
  case fault =>
    have hu : b2n unit = u := by cases unit <;> rfl
    show wholeCmd s (csFault c (b2n unit)) = _
    rw [hu]
    exact wholeCmd_whole s _ _ _ (csFault_here s.spine hop hout)

end Sys2Proof.Proofs

/-! Proofs of the statements about memories and banks: O31 and O41. -/

namespace Sys2Proof.Machine
open Sys2Proof.Laws

/-! ## Writes of the `PAL` blocks -/

/-- No die fences a region's `PAL` block while the region's die stands. -/
theorem fencedDie_palr (sp : Spine) (r o : Nat) (hr : r < 16) (ho : o < 0x10000) (hd : sp.contain.dies.contains (r / 4) = false) :
    fencedDie sp (blkBase (.palr r) + o) = none :=
  fencedDie_region sp _ r (0x60000 + o) hr (by omega) (by have := blkBase_palr r; omega) hd

/-- The registers of a region's `PAL` block: of `PAL_NOLEND` a cluster bank has only the first word. -/
theorem fieldsAt_palr (r o : Nat) (hr : r < 16) (ho : o < 0x10000) (hf : (findReg palrRegs o).isSome = true)
    (hp : ¬ (0x400 ≤ o ∧ o < 0x1000 ∧ (o - 0x400) / 0x40 < 48 ∧ (o - 0x400) % 0x40 ≠ 0)) :
    (fieldsAt (blkBase (.palr r) + o)).isSome = true := by
  have ha := blkBase_palr r
  rw [fieldsAt, if_neg (by omega), blkOf_palr r o hr ho]
  simp only [decide_eq_false hp, Bool.false_eq_true, if_false]
  rwa [Option.isSome_map]

section
variable (s : State) (q : Req) (v : Word) (h : Fw s q)
include h

/-- A write of a register of a region's `PAL` block by M-level hub firmware, while the region's die stands. -/
theorem regStep_palr (a r o : Nat) (e : a = blkBase (.palr r) + o) (hr : r < 16) (ho : o < 0x10000) (h4 : o % 4 = 0)
    (hf : (findReg palrRegs o).isSome = true)
    (hp : ¬ (0x400 ≤ o ∧ o < 0x1000 ∧ (o - 0x400) / 0x40 < 48 ∧ (o - 0x400) % 0x40 ≠ 0))
    (hd : s.spine.contain.dies.contains (r / 4) = false) :
    wholeCmd s (regStep q a v) = s.written s.spine ((s.dev.given q a v).palrWrite s.spine q r o a v) := by
  subst e
  have ha := blkBase_palr r
  have hb := blkOf_palr r o hr ho
  have hs := fieldsAt_palr r o hr ho hf hp
  exact regStep_fw s q _ v (.palr r) o _ _ h (by omega) (fencedDie_palr _ r o hr ho hd)
    (regBad_gen q _ (.palr r) o hb rfl (by simp [Option.isNone_eq_false_iff, hs])) hb rfl

/-- A write of a register of the hub's `PAL` block by M-level hub firmware. -/
theorem regStep_palh (a o : Nat) (e : a = blkBase .palh + o) (ho : o < 0x10000) (h4 : o % 4 = 0)
    (hf : (findReg palhRegs o).isSome = true) :
    wholeCmd s (regStep q a v) = s.written s.spine ((s.dev.given q a v).palhWrite q o a v) := by
  obtain ⟨x, hx⟩ := Option.isSome_iff_exists.mp hf
  subst e
  have ha : blkBase .palh + o = 0x02010400000 + o := rfl
  have hb := blkOf_palh o ho
  exact regStep_fw s q _ v .palh o _ _ h (by omega) (fencedDie_hub _ _ (by omega))
    (regBad_of q _ .palh o x.1.fields hb (by omega) (by rw [blkRegs, hx]; rfl) rfl).1 hb rfl

/-- An invalidation of the extent map is queued (R243). -/
theorem extentInval_queues : exec (.extentInval q v) s = (let d := s.dev.given q F.PAL_EXT_INVAL_INDEX.addr v
    s.written s.spine { d.setF F.PAL_EXT_INVAL_BUSY 1 with
      extInval := d.extInval ++ [if bitAt v.toNat 30 then 2 ^ 20 else v.toNat % 2 ^ 20] }) := by
  refine (regStep_palh s q v h _ 0x10C rfl (by omega) rfl rfl).trans (congrArg (s.written s.spine) ?_)
  rw [Dev.palhWrite, h.fw, Dev.extInvalWrite, h.fw]
  rfl
end

/-! ## The order of R253 -/

/-- Only hub firmware's write comes first. -/
theorem ownerRank_fw (r : Nat) (q : Req) : ownerRank r q = 0 ↔ reqFw q = true := by
  unfold ownerRank
  cases reqFw q with
  | true => simp
  | false => cases reqIs q (dispatcherUid r) 0 <;> simp

/-- Of two writes of one cycle to which the order gives different places, it does not matter which is named first. -/
theorem ownerOrder_swap (r : Nat) (x y : Req × Word) (h : ownerRank r x.1 ≠ ownerRank r y.1) :
    ownerOrder r [x, y] = ownerOrder r [y, x] := by
  have hf : ∀ i, [x, y].filter (fun z => ownerRank r z.1 == i) = [y, x].filter fun z => ownerRank r z.1 == i := by
    intro i
    by_cases hx : ownerRank r x.1 = i
    · subst hx
      simp [Ne.symm h]
    · simp [List.filter_cons, hx]
  simp only [ownerOrder, hf]

theorem ownerOrder_fw (r : Nat) (q : Req) (v : Word) (h : reqFw q = true) : ownerOrder r [(q, v)] = [(q, v)] := by
  simp [ownerOrder, (ownerRank_fw r q).mpr h]

theorem handover_swap (s : State) (q q' : Req) (r : Fin 16) (n : Fin 52) (v v' : Word) (h : reqFw q = true)
    (h' : reqFw q' = false) : exec (.handover q' r n v' [(q, v)]) s = exec (.handover q r n v [(q', v')]) s := by
  have hr : ownerRank r q' ≠ ownerRank r q := by
    rw [(ownerRank_fw r q).mpr h, Ne, ownerRank_fw, h']
    exact Bool.false_ne_true
  show wholeCmd s _ = wholeCmd s _
  rw [ownerOrder_swap r (q', v') (q, v) hr]

/-! ## Which write of a bank's registers a command is -/

section
variable (s : State) (q : Req) (r : Fin 16) (n : Fin 52) (v : Word) (h : Fw s q)
  (hd : s.spine.contain.dies.contains (r.val / 4) = false)
include h hd

/-- A write of the register of bank `n` in a row that has one for each bank. -/
theorem regStep_bank (a o : Nat) (e : a = blkBase (.palr r) + o + n * 4) (ho : o < 0x300) (h4 : o % 4 = 0)
    (hf : ∃ x ∈ palrRegs, x.off = o ∧ x.stride = 4 ∧ x.count = 52) :
    wholeCmd s (regStep q a v) = s.written s.spine ((s.dev.given q a v).palrWrite s.spine q r (o + n * 4) a v) :=
  regStep_palr s q v h a r (o + n * 4) (e.trans (Nat.add_assoc _ _ _)) r.isLt (by omega) (by omega)
    (findReg_row _ o n 4 52 hf (by decide) n.isLt) (by omega) hd

theorem handover_write : exec (.handover q r n v []) s =
    s.written s.spine ((s.dev.given q (F.PAL_OWNER_OWNER r n).addr v).handover s.spine q r n v false) := by
  have ha : exec (.handover q r n v []) s = wholeCmd s (regStep q (F.PAL_OWNER_OWNER r n).addr v) := by
    show wholeCmd s _ = _
    rw [ownerOrder_fw r q v h.fw]
    rfl
  refine ha.trans ((regStep_bank s q r n v h hd (F.PAL_OWNER_OWNER r n).addr 0 rfl (by omega) rfl (by decide)).trans
    (congrArg (s.written s.spine) ?_))
  have hn : (0 + n.val * 4) / 4 = n := by omega
  rw [Dev.palrWrite, if_pos (by omega), hn]

theorem delegation_write : exec (.delegation q r n v) s =
    s.written s.spine ((s.dev.given q (F.PAL_DELEG_EN r n).addr v).delegWrite s.spine q r n v) := by
  refine (regStep_bank s q r n v h hd (F.PAL_DELEG_EN r n).addr 0x100 rfl (by omega) rfl (by decide)).trans
    (congrArg (s.written s.spine) ?_)
  have hn : (0x100 + n.val * 4 - 0x100) / 4 = n := by omega
  rw [Dev.palrWrite, if_neg (by omega), if_pos (by omega), hn]

theorem powerRequest_write : exec (.powerRequest q r n v) s =
    s.written s.spine ((s.dev.given q (F.PAL_PWR_REQ r n).addr v).pwrWrite s.spine q r n v) := by
  refine (regStep_bank s q r n v h hd (F.PAL_PWR_REQ r n).addr 0x200 rfl (by omega) rfl (by decide)).trans
    (congrArg (s.written s.spine) ?_)
  have hn : (0x200 + n.val * 4 - 0x200) / 4 = n := by omega
  rw [Dev.palrWrite, if_neg (by omega), if_neg (by omega), if_pos (by omega), hn]

/-- A cluster bank has one no-lend word, a shared bank sixteen (R267). -/
theorem nolendWrite_write (w : Fin 16) (hw : 48 ≤ n.val ∨ w = 0) : exec (.nolendWrite q r n w v) s =
    s.written s.spine ((s.dev.given q (F.PAL_NOLEND_PAGES r (n * 16 + w)).addr v).nolendWrite s.spine q r n w v) := by
  have hw' : 48 ≤ n.val ∨ w.val = 0 := hw.imp_right (congrArg Fin.val)
  have hn : (0x400 + (n.val * 16 + w.val) * 4 - 0x400) / 0x40 = n := by omega
  have hm : (0x400 + (n.val * 16 + w.val) * 4 - 0x400) % 0x40 / 4 = w := by omega
  refine (regStep_palr s q v h (F.PAL_NOLEND_PAGES r (n * 16 + w)).addr r (0x400 + (n.val * 16 + w.val) * 4) (Nat.add_assoc _ _ _)
    r.isLt (by omega) (by omega) (findReg_row _ 0x400 _ 4 832 (by decide) (by omega) (by omega)) (by omega) hd).trans
    (congrArg (s.written s.spine) ?_)
  rw [Dev.palrWrite, if_neg (by omega), if_neg (by omega), if_neg (by omega), if_pos (by omega), hn, hm]
end

/-! ## What the write of a bank's register by hub firmware does -/

theorem given_bank (d : Dev) (q : Req) (a r n : Nat) (v : Word) : (d.given q a v).bank r n = d.bank r n :=
  given_get (fun d => d.bank r n) (fun _ _ => rfl) d q a v
theorem given_washAt (d : Dev) (q : Req) (a key : Nat) (v : Word) : (d.given q a v).washAt key = d.washAt key :=
  given_get (fun d => d.washAt key) (fun _ _ => rfl) d q a v
theorem given_isOwner (d : Dev) (q p : Req) (a r n : Nat) (v : Word) : (d.given q a v).isOwner r n p = d.isOwner r n p :=
  given_get (fun d => d.isOwner r n p) (fun _ _ => rfl) d q a v

theorem palMaster_fw (r : Nat) (q : Req) (h : reqFw q = true) : palMaster r q = true := by rw [palMaster, h]; rfl

section
variable (sp : Spine) (d : Dev) (q : Req) (r n : Nat) (v : Word) (hr : r < 16)
  (hd : sp.contain.dies.contains (r / 4) = false) (hu : sp.contain.units.contains (bankUid r n) = false)
include hr hd hu

/-- The registers of a bank in service, of a die that stands, take a write as what the register says. -/
theorem bankWrite_here (d' : Dev) (a o : Nat) (e : a = blkBase (.palr r) + o) (ho : o < 0x10000) :
    d.bankWrite sp q r n a d' = d' :=
  bankWrite_open _ _ _ _ _ _ _ (e ▸ fencedDie_palr sp r o hr ho hd) hu

section
variable (hn : n < 52)
include hn

/-- A handover to a unit in service that may own the bank, and does not own it, starts the bank's drain (R249). -/
theorem handover_starts (uid ch : Nat) (hq : reqFw q = true) (hui : bitsOf v.toNat 0 12 = uid) (hch : bitsOf v.toNat 12 6 = ch)
    (hp : (d.bank r n).drain.map (·.own) ≠ some true) (hm : mayOwn r uid ch = true) (hg : sp.contain.gone uid ch = false)
    (hne : ¬ (uid = d.f (F.PAL_OWNER_OWNER r n) ∧ ch = d.f (F.PAL_OWNER_OWNER_CH r n))) :
    d.handover sp q r n v false = d.startHandover r n uid ch
      (sp.contain.gone (d.f (F.PAL_OWNER_OWNER r n)) (d.f (F.PAL_OWNER_OWNER_CH r n))) := by
  rw [Dev.handover, bankWrite_here sp d q r n hr hd hu _ _ (4 * n) rfl (by omega), if_neg hp, Dev.ownerWrite,
    palMaster_fw r q hq, hui, hch, hm, hg]
  exact if_neg hne

section
variable (ho : d.isOwner r n q = true) (hp : (d.bank r n).drain = none)
include ho hp

/-- A delegation to a unit that may be the bank's delegate takes effect at once (R254). -/
theorem delegWrite_starts (hv : bitAt v.toNat 18 = true) (hm : mayDelegate r (bitsOf v.toNat 0 12) (bitsOf v.toNat 12 6) = true) :
    d.delegWrite sp q r n v = ((d.setF (F.PAL_DELEG_DEL_UID r n) (bitsOf v.toNat 0 12)).setF (F.PAL_DELEG_DEL_CH r n)
      (bitsOf v.toNat 12 6)).setF (F.PAL_DELEG_EN r n) 1 := by
  rw [Dev.delegWrite, bankWrite_here sp d q r n hr hd hu _ _ (0x100 + 4 * n) (Nat.add_assoc _ _ _) (by omega), ho, hp, hv, hm]
  rfl

/-- The end of a delegation in force starts the bank's drain (R254). -/
theorem delegWrite_ends (hv : bitAt v.toNat 18 = false) (he : d.fb (F.PAL_DELEG_EN r n) = true) :
    d.delegWrite sp q r n v = d.mapBank r n fun b =>
      { b with drain := some { own := false, uid := 0, ch := 0, oldIn := true, delIn := false } } := by
  rw [Dev.delegWrite, bankWrite_here sp d q r n hr hd hu _ _ (0x100 + 4 * n) (Nat.add_assoc _ _ _) (by omega), ho, hp, hv, he]
  show d.endDelegation r n = _
  exact if_pos ⟨he, hp⟩
end

/-- A power request is followed upward at once (R259). -/
theorem pwrWrite_raises (hq : reqFw q = true) : d.pwrWrite sp q r n v =
    ((if d.pwrReq r n = 1 then d else d.mapBank r n fun b => { b with woken := false }).setF
      (F.PAL_PWR_REQ r n) (v.toNat % 4)).pwrRaise r n := by
  rw [Dev.pwrWrite, bankWrite_here sp d q r n hr hd hu _ _ (0x200 + 4 * n) (Nat.add_assoc _ _ _) (by omega),
    palMaster_fw r q hq]
  rfl

section
variable (w : Nat) (hw : w < 16) (hq : reqFw q = true)
include hw hq

/-- No-lend pages are kept where no window of the region is borrowed (R267). -/
theorem nolendWrite_keeps (hf : d.washAt r = none) :
    d.nolendWrite sp q r n w v = d.setF (F.PAL_NOLEND_PAGES r (n * 16 + w)) v.toNat := by
  rw [Dev.nolendWrite, bankWrite_here sp d q r n hr hd hu _ _ (0x400 + 0x40 * n + 4 * w) (by omega) (by omega),
    palMaster_fw r q hq, hf]
  rfl

/-- The borrow of a window in a page that becomes no-lend ends, and the window is tested again (R267). -/
theorem nolendWrite_ends (b : Fin 52) (save : List Byte) (p : BitVec 13) (hb : b.val = n)
    (hf : d.washAt r = some { tgt := .bank (Fin.ofNat 16 r) b p, save := save }) :
    d.nolendWrite sp q r n w v =
      (let e := d.setF (F.PAL_NOLEND_PAGES r (n * 16 + w)) v.toNat
       if p.toNat / 512 = w ∧ bitAt v.toNat (p.toNat / 16 % 32) = true then
         { e.washRelease r with washAgain := d.washAgain ++ [(.bank (Fin.ofNat 16 r) b p, sp.now)] }
       else e) := by
  rw [Dev.nolendWrite, bankWrite_here sp d q r n hr hd hu _ _ (0x400 + 0x40 * n + 4 * w) (by omega) (by omega),
    palMaster_fw r q hq, hf]
  have hpw : p.toNat / 16 / 32 = p.toNat / 512 := Nat.div_div_eq_div_mul _ _ _
  simp only [hb, hpw, true_and]
  rfl
end
end
end

end Sys2Proof.Machine

namespace Sys2Proof.Proofs
open Sys2Proof.Machine Sys2Proof.Laws

/-- Settles O31: each command is the write of one register, and what hub firmware's write of it does is said by its own law. -/
theorem memoryRegisterWrites : Obligations.MemoryRegisterWrites := by
  intro s q v h
  refine ⟨extentInval_queues s q v h, fun r n hd hu => ⟨fun hp hm hg hne => ?handover, fun q' v' => handover_swap s q q' r n v v' h.fw,
    fun ho hp => ⟨fun hv hm => ?starts, fun hv he => ?ends⟩, ?power, fun w hw => ⟨fun hf => ?keeps, fun save p hf => ?lent⟩⟩⟩
  case handover =>
    refine (handover_write s q r n v h hd).trans (congrArg (s.written s.spine) ?_)
    refine (handover_starts s.spine _ q r n v r.isLt hd hu n.isLt _ _ h.fw rfl rfl ?_ hm hg ?_).trans ?_
    · rwa [given_bank]
    · rwa [given_f, given_f]
    · rw [given_f, given_f]
      rfl
  case starts =>
    refine (delegation_write s q r n v h hd).trans (congrArg (s.written s.spine) ?_)
    exact delegWrite_starts s.spine _ q r n v r.isLt hd hu n.isLt (by rwa [given_isOwner]) (by rwa [given_bank]) hv hm
  case ends =>
    refine (delegation_write s q r n v h hd).trans (congrArg (s.written s.spine) ?_)
    exact delegWrite_ends s.spine _ q r n v r.isLt hd hu n.isLt (by rwa [given_isOwner]) (by rwa [given_bank]) hv
      (by rwa [given_fb])
  case power =>
    refine (powerRequest_write s q r n v h hd).trans (congrArg (s.written s.spine) ?_)
    exact pwrWrite_raises s.spine _ q r n v r.isLt hd hu n.isLt h.fw
  case keeps =>
    refine (nolendWrite_write s q r n v h hd w hw).trans (congrArg (s.written s.spine) ?_)
    exact nolendWrite_keeps s.spine _ q r n v r.isLt hd hu n.isLt w w.isLt h.fw (by rwa [given_washAt])
  case lent =>
    refine (nolendWrite_write s q r n v h hd w hw).trans (congrArg (s.written s.spine) ?_)
    have hr : Fin.ofNat 16 r = r := Fin.ofNat_val_eq_self r
    have hl := nolendWrite_ends s.spine (s.dev.given q (F.PAL_NOLEND_PAGES r (n * 16 + w)).addr v) q r n v r.isLt hd hu n.isLt
      w w.isLt h.fw n save p rfl (by rwa [given_washAt, hr])
    rwa [hr] at hl

end Sys2Proof.Proofs

namespace Sys2Proof.Machine
open Sys2Proof.Laws

/-! ## Power of the banks -/

section
variable (sp : Spine) (d : Dev) (r n : Nat) (hl : bankLive sp r n = true)
include hl

/-- A bank on which retention is asked goes to retention when it is idle; if it has just woken, only after its hold (R260). -/
theorem retentionEntry_idle (held : Bool) (ho : (d.bank r n).phase = .on) (hr : d.pwrReq r n = 1) (hi : d.bankIdle r n = true)
    (hw : (d.bank r n).woken = held)
    (hh : held = true → (d.bank r n).used + d.f (F.PAL_RET_HOLD_US r) * 1000 * nsUnit ≤ sp.now) :
    d.retentionEntry sp r n held = d.setBank r n { d.bank r n with phase := .retention, woken := false } := by
  refine if_pos ?_
  cases held with
  | false => simp [hl, ho, hr, hi, hw]
  | true => simp [hl, ho, hr, hi, hw, hh rfl]

theorem wakeDone_waking (hp : (d.bank r n).phase = .waking) :
    d.wakeDone sp r n = (d.mapBank r n fun b => { b with phase := .on, woken := true }).serveWaiting sp r n := by
  rw [Dev.wakeDone]
  exact if_pos (by simp [hl, hp])

theorem powerOnDone_powering (hp : (d.bank r n).phase = .powering) : d.powerOnDone sp r n =
    (d.clearMem (bankBase r n) (bankSize n)).mapBank r n fun b => { b with phase := .on } := by
  rw [Dev.powerOnDone]
  exact if_pos (by simp [hl, hp])

/-- An idle bank of a region without a borrowed window powers off, and its contents are cleared (R262). -/
theorem powerOff_idle (hp : (d.bank r n).phase = .on ∨ (d.bank r n).phase = .retention) (hr : d.pwrReq r n = 2)
    (hi : d.bankIdle r n = true) (hw : d.washAt r = none) : d.powerOff sp r n =
      (d.clearMem (bankBase r n) (bankSize n)).setBank r n { d.bank r n with phase := .off, woken := false } := by
  unfold Dev.powerOff
  rw [hw]
  exact if_pos (by simp [hl, hp, hr, hi])
end

/-! ## Drains (R250, R255) -/

section
variable (sp : Spine) (d : Dev) (r n : Nat) (dr : Drain) (h : (d.bank r n).drain = some dr)
include h

/-- The drain request of a handover reaches the owner. -/
theorem drainArrival_owner (ho : dr.own = true) (hi : dr.oldIn = false) : d.drainArrival r n false =
    (d.mapBank r n fun b => { b with drain := some { dr with oldIn := true } }).drainReaches
      (d.f (F.PAL_OWNER_OWNER r n)) (d.f (F.PAL_OWNER_OWNER_CH r n)) r n := by
  simp [Dev.drainArrival, h, ho, hi]

/-- The drain request of a handover, or of the end of a delegation, reaches the delegate. -/
theorem drainArrival_delegate (he : d.fb (F.PAL_DELEG_EN r n) = true) (hi : dr.delIn = false) : d.drainArrival r n true =
    (d.mapBank r n fun b => { b with drain := some { dr with delIn := true } }).drainReaches
      (d.f (F.PAL_DELEG_DEL_UID r n)) (d.f (F.PAL_DELEG_DEL_CH r n)) r n := by
  simp [Dev.drainArrival, h, he, hi]

theorem handoverDone_drained (ho : dr.own = true) (hd : d.drained sp r n dr = true) :
    d.handoverDone sp r n = (d.finishHandover sp r n dr).captRetry sp := by
  rw [Dev.handoverDone, h]
  exact if_pos (by rw [ho, hd]; rfl)

theorem delegationDone_drained (ho : dr.own = false) (hd : d.drained sp r n dr = true) : d.delegationDone sp r n =
    (((d.setF (F.PAL_DELEG_EN r n) 0).mapBank r n fun b => { b with drain := none }).serveWaiting sp r n).captDrained sp r n := by
  rw [Dev.delegationDone, h]
  exact if_pos (by rw [ho, hd]; rfl)
end

/-! ## Wash (R265, R270) -/

/-- The device in which a sequencer looks for its next window: a pass that is due has begun. -/
def Dev.washTurn (sp : Spine) (d : Dev) : Dev := if d.washRuns sp then d.washBegin sp else d

section
variable (sp : Spine) (d : Dev) (t : WashTgt) (hm : (d.washTurn sp).washMay sp t = true)
include hm

/-- A window or word whose turn it is, and that is sound, is borrowed with a copy of it. -/
theorem washBorrow_sound (hu : ((d.washTurn sp).washTaken t).firstUe (washSpan t).1 (washSpan t).2 = none) :
    d.washBorrow sp t =
      (let e := ((d.washTurn sp).washTaken t).eccRead (washSpan t).1 (washSpan t).2
       { e with wash := SMap.put e.wash (washKey t) { tgt := t, save := e.bytes (washSpan t).1 (washSpan t).2 } }) :=
  (if_pos hm).trans (if_neg (Option.not_isSome_iff_eq_none.mpr hu))

/-- One with an uncorrectable word is passed over. -/
theorem washBorrow_bad (hu : (((d.washTurn sp).washTaken t).firstUe (washSpan t).1 (washSpan t).2).isSome = true) :
    d.washBorrow sp t = (((d.washTurn sp).washTaken t).eccRead (washSpan t).1 (washSpan t).2).washEnded sp :=
  (if_pos hm).trans (if_pos hu)
end

section
variable (t : WashTgt) (w : Whole) (h : (w.2.washAt (washKey t)).map (·.tgt) = some t)
include h

/-- The end of the test of the window or word that a sequencer holds. -/
theorem washEnd_pass : washEnd t false w = (w.1, w.2.washDone w.1 t) := if_pos h
theorem washEnd_fail : washEnd t true w = washFault t (w.1, (w.2.washFail t).washDone w.1 t) := if_pos h
end

/-- A fault of a bank in service quarantines the bank (R256). -/
theorem bankFault_spine (r n : Nat) (w : Whole) (h : w.1.contain.out (bankUid r n) = false) :
    (bankFault r n w).1 = w.1.addUnit (bankUid r n) := by
  rw [bankFault, unitCase_here _ _ _ _ h]

/-! ## The scrub of the HBM (R237) -/

/-- The controller stands at a place of a pass that began at a time. -/
def Dev.scrubAt (place : Nat) (since : Option Nat) (d : Dev) : Dev := { d with scrub := place, scrubSince := since }

section
variable (place : Nat) (since : Option Nat) (d : Dev)

/-- Two ways of which the place of the scrub does not matter to the choice. -/
theorem scrubAt_ite {place : Nat} {since : Option Nat} {c c' : Prop} [Decidable c] [Decidable c'] {x y x' y' : Dev}
    (hc : c' ↔ c) (hx : x' = x.scrubAt place since) (hy : y' = y.scrubAt place since) :
    (if c' then x' else y') = (if c then x else y).scrubAt place since := by
  subst hx hy
  by_cases h : c
  · rw [if_pos h, if_pos (hc.mpr h)]
  · rw [if_neg h, if_neg fun h' => h (hc.mp h')]

theorem scrubAt_setF (x : Fld) (v : Nat) : (d.scrubAt place since).setF x v = (d.setF x v).scrubAt place since := rfl
theorem scrubAt_capture (lo hi v : Fld) (a : Nat) :
    ((d.scrubAt place since).setAddr lo hi a).setF v 1 = ((d.setAddr lo hi a).setF v 1).scrubAt place since := by
  simp only [Dev.setAddr, scrubAt_setF]

theorem eccCe_scrubAt (a : Nat) : (d.scrubAt place since).eccCe a = (d.eccCe a).scrubAt place since := by
  unfold Dev.eccCe
  cases winRegion a with
  | some r => exact scrubAt_ite Iff.rfl rfl rfl
  | none => exact scrubAt_ite Iff.rfl (scrubAt_ite Iff.rfl rfl rfl) rfl
theorem eccUe_scrubAt (a : Nat) : (d.scrubAt place since).eccUe a = (d.eccUe a).scrubAt place since := by
  unfold Dev.eccUe
  cases memUid a with
  | some u =>
    let e := d.raise evPalEccUe u 0 a
    cases winRegion a with
    | some r => exact scrubAt_ite Iff.rfl rfl (scrubAt_capture _ _ e _ _ _ _)
    | none => exact scrubAt_ite Iff.rfl (scrubAt_capture _ _ e _ _ _ _) rfl
  | none =>
    let e := (d.draw 4096).2.raise evPalEccUe (d.draw 4096).1 0 a
    cases winRegion a with
    | some r => exact scrubAt_ite Iff.rfl rfl (scrubAt_capture _ _ e _ _ _ _)
    | none => exact scrubAt_ite Iff.rfl (scrubAt_capture _ _ e _ _ _ _) rfl

/-- Where the scrub stands does not matter to what a read of bad words does. -/
theorem eccRead_scrubAt (a n : Nat) :
    (d.scrubAt place since).eccRead a n = (d.eccRead a n).scrubAt place since := by
  refine List.foldl_hom (Dev.scrubAt place since) fun e x => ?_
  cases x.2 with
  | true => exact eccUe_scrubAt place since e _
  | false => exact eccCe_scrubAt place since (e.mend (x.1 * 8) 1) _
end

/-- May the controller begin a pass: none has begun, or the last is over and began HOURS hours ago? -/
def Dev.scrubDue (sp : Spine) (d : Dev) : Bool :=
  match d.scrubSince with
  | none => true
  | some t => decide (2 ^ 29 ≤ d.scrub) && decide (t + d.f F.PAL_HBM_SCRUB_HOURS * 3600 * 10 ^ 9 * nsUnit ≤ sp.now)

/-- The controller reads the next `n` units of a pass that began at a time, from a place on. -/
def Dev.scrubRead (d : Dev) (n place : Nat) (since : Option Nat) : Dev :=
  let m := min n (2 ^ 29 - place)
  ((d.eccRead (place * 32) (m * 32)).scrubAt (place + m) since).setF F.PAL_HBM_STATUS_SCRUB_ACT
    (b2n (decide (place + m < 2 ^ 29)))

theorem scrubDue_none (sp : Spine) (d : Dev) (h : d.scrubSince = none) : d.scrubDue sp = true := by
  rw [Dev.scrubDue, h]
theorem scrubDue_some (sp : Spine) (d : Dev) (t : Nat) (h : d.scrubSince = some t) : d.scrubDue sp = true ↔
    2 ^ 29 ≤ d.scrub ∧ t + d.f F.PAL_HBM_SCRUB_HOURS * 3600 * 10 ^ 9 * nsUnit ≤ sp.now := by
  rw [Dev.scrubDue, h]
  simp only [Bool.and_eq_true, decide_eq_true_eq]

/-- What the controller reads from where it stands. -/
def Dev.scrubGo (n : Nat) (d : Dev) : Dev :=
  let m := min n (2 ^ 29 - d.scrub)
  ({ d.eccRead (d.scrub * 32) (m * 32) with scrub := d.scrub + m } : Dev).setF F.PAL_HBM_STATUS_SCRUB_ACT
    (b2n (decide (d.scrub + m < 2 ^ 29)))

theorem scrubGo_scrubAt (d : Dev) (n place : Nat) (since : Option Nat) :
    (d.scrubAt place since).scrubGo n = d.scrubRead n place since := by
  have hr := eccRead_scrubAt place since d (place * 32) (min n (2 ^ 29 - place) * 32)
  exact congrArg (fun e : Dev => ({ e with scrub := place + min n (2 ^ 29 - place) } : Dev).setF F.PAL_HBM_STATUS_SCRUB_ACT
    (b2n (decide (place + min n (2 ^ 29 - place) < 2 ^ 29)))) hr

section
variable (sp : Spine) (d : Dev) (n : Nat) (hp : sp.contain.pkg = 0) (hh : d.f F.PAL_HBM_SCRUB_HOURS ≠ 0)
include hp hh

/-- The scrub begins a pass that is due, and otherwise goes on from where it stands. -/
theorem hbmScrub_reads : d.hbmScrub sp n = (if d.scrubDue sp then d.scrubAt 0 (some sp.now) else d).scrubGo n :=
  if_pos ⟨hp, hh⟩
theorem hbmScrub_begins (h : d.scrubDue sp = true) : d.hbmScrub sp n = d.scrubRead n 0 (some sp.now) := by
  rw [hbmScrub_reads sp d n hp hh, if_pos h, scrubGo_scrubAt]
theorem hbmScrub_continues (h : ¬ d.scrubDue sp = true) : d.hbmScrub sp n = d.scrubRead n d.scrub d.scrubSince := by
  rw [hbmScrub_reads sp d n hp hh, if_neg h]
  exact scrubGo_scrubAt d n d.scrub d.scrubSince
end

section
variable (d : Dev) (l : Ecc)

/-- Words that go bad change nothing but the bad words. -/
theorem upset_eq : ∃ b, d.upset l = { d with bad := b } := by
  unfold Dev.upset
  induction l generalizing d with
  | nil => exact ⟨d.bad, rfl⟩
  | cons x t ih =>
    obtain ⟨b, hb⟩ := ih { d with bad := _ }
    exact ⟨b, hb⟩
theorem upset_f (x : Fld) : (d.upset l).f x = d.f x := by
  obtain ⟨b, hb⟩ := upset_eq d l
  rw [hb]
  rfl
theorem upset_scrub : (d.upset l).scrub = d.scrub := by
  obtain ⟨b, hb⟩ := upset_eq d l
  rw [hb]
theorem upset_scrubSince : (d.upset l).scrubSince = d.scrubSince := by
  obtain ⟨b, hb⟩ := upset_eq d l
  rw [hb]
end

/-! ## The extent map (R243) -/

theorem extInvalDone_busy (d : Dev) (h : d.fb F.PAL_EXT_INVAL_BUSY = true) : d.extInvalDone =
    { d.setF F.PAL_EXT_INVAL_BUSY 0 with
      extInval := []
      extCache := if d.extInval.contains (2 ^ 20) then [] else d.extCache.filter fun e => !d.extInval.contains e.1 } :=
  if_pos h

end Sys2Proof.Machine

namespace Sys2Proof.Proofs
open Sys2Proof.Machine Sys2Proof.Laws

/-- A window of a bank in service whose test fails quarantines the bank. -/
theorem washWindowDone_fail (s : State) (r : Fin 16) (n : Fin 52) (w : BitVec 13)
    (h : (s.dev.washAt (washKey (.bank r n w))).map (·.tgt) = some (.bank r n w))
    (ho : s.spine.contain.out (bankUid r n) = false) :
    ∃ u, exec (.washWindowDone (.bank r n w) true) s = .next u ∧ u.spine = s.spine.addUnit (bankUid r n) := by
  refine ⟨_, rfl, ?_⟩
  show (washEnd (.bank r n w) true (s.spine, s.dev)).1 = _
  rw [washEnd_fail _ _ h]
  exact bankFault_spine r n _ ho

/-- The scrub of the HBM, of a device whose words have gone bad meanwhile. -/
theorem hbmScrub_steps (s : State) (m : BitVec 30) (ecc : Ecc) (hp : s.spine.contain.pkg = 0)
    (hh : s.dev.f F.PAL_HBM_SCRUB_HOURS ≠ 0) :
    (((s.dev.upset ecc).scrubDue s.spine = true) →
      exec (.hbmScrub m ecc) s = s.to ((s.dev.upset ecc).scrubRead m.toNat 0 (some s.spine.now))) ∧
    (¬ ((s.dev.upset ecc).scrubDue s.spine = true) →
      exec (.hbmScrub m ecc) s = s.to ((s.dev.upset ecc).scrubRead m.toNat s.dev.scrub s.dev.scrubSince)) := by
  have hu : (s.dev.upset ecc).f F.PAL_HBM_SCRUB_HOURS ≠ 0 := by rwa [upset_f]
  refine ⟨fun h => congrArg s.to (hbmScrub_begins _ _ _ hp hu h), fun h => ?_⟩
  rw [← upset_scrub s.dev ecc, ← upset_scrubSince s.dev ecc]
  exact congrArg s.to (hbmScrub_continues _ _ _ hp hu h)

/-- Settles O41: each step meets the condition under which its own law above says what it does. -/
theorem bankSteps : Obligations.BankSteps := by
  intro s r n
  refine ⟨fun hl ho hr hi => ⟨fun hw => ?entry, fun hw hh => ?hold⟩, fun hl hp => ?wake, fun hl hp hr hi hw => ?off,
    fun hl hp => ?powered, fun dr hd => ⟨fun ho hi => ?owner, fun he hi => ?delegate, fun ho hdr => ?handover,
    fun ho hdr => ?delegation⟩, fun t ecc hm => ⟨fun hu => ?sound, fun hu => ?bad⟩, fun t ht => ⟨?pass, ?fail⟩,
    fun m ecc hp hh => ⟨fun hs => ?first, fun t hs => ⟨fun hdue => ?due, fun hdue => ?goesOn⟩⟩, fun hb => ?inval⟩
  case entry =>
    exact congrArg s.to (retentionEntry_idle _ _ _ _ hl false ho hr hi hw fun h => absurd h Bool.false_ne_true)
  case hold => exact congrArg s.to (retentionEntry_idle _ _ _ _ hl true ho hr hi hw fun _ => hh)
  case wake => exact congrArg s.to (wakeDone_waking _ _ _ _ hl hp)
  case off => exact congrArg s.to (powerOff_idle _ _ _ _ hl hp hr hi hw)
  case powered => exact congrArg s.to (powerOnDone_powering _ _ _ _ hl hp)
  case owner => exact congrArg s.to (drainArrival_owner _ _ _ dr hd ho hi)
  case delegate => exact congrArg s.to (drainArrival_delegate _ _ _ dr hd he hi)
  case handover => exact congrArg s.to (handoverDone_drained _ _ _ _ dr hd ho hdr)
  case delegation => exact congrArg s.to (delegationDone_drained _ _ _ _ dr hd ho hdr)
  case sound => exact congrArg s.to (washBorrow_sound s.spine (s.dev.upset ecc) t hm hu)
  case bad => exact congrArg s.to (washBorrow_bad s.spine (s.dev.upset ecc) t hm hu)
  case pass => exact wholeCmd_to s _ _ (washEnd_pass t (s.spine, s.dev) ht)
  case fail =>
    rintro r' n' w rfl
    exact washWindowDone_fail s r' n' w ht
  case first =>
    exact (hbmScrub_steps s m ecc hp hh).1 (scrubDue_none _ _ (by rwa [upset_scrubSince]))
  case due =>
    refine (hbmScrub_steps s m ecc hp hh).1 ((scrubDue_some _ _ t (by rwa [upset_scrubSince])).mpr ?_)
    rwa [upset_scrub, upset_f]
  case goesOn =>
    have hs' : s.dev.scrubSince = some t := hs
    have hn : ¬ (s.dev.upset ecc).scrubDue s.spine = true := by
      rw [scrubDue_some _ _ t (by rwa [upset_scrubSince]), upset_scrub, upset_f]
      exact hdue
    rw [(hbmScrub_steps s m ecc hp hh).2 hn, hs']
    rfl
  case inval => exact congrArg s.to (extInvalDone_busy s.dev hb)

end Sys2Proof.Proofs

/-! Proofs of the statements about Easel and the Euril fabric (chapters 08 and 16): O26, O43 and O52. -/

namespace Sys2Proof.Machine

/-! ## Acceptance, placement and cancel -/

section
variable (sp : Spine) (d : Dev) (n : Nat)

/-- A slot whose task has been accepted: HELD, with its count of predecessors (R285). -/
def Dev.heldTask : Dev := d.setSlot n { Slot.free with st := 1, dep := d.df n 4 12 8 }

/-- A submission that passes every check has POISON clear (R282). -/
theorem submitCause_poison (inRange : Bool) (h : d.submitCause n inRange = 0) : d.dPoison n = false := by
  have hall : ∀ c ∈ d.submitChecks n inRange, c.2 = true := by
    unfold Dev.submitCause at h
    split at h
    case h_1 c hc =>
      have hm := List.mem_of_find?_eq_some hc
      have hpos : ∀ c ∈ d.submitChecks n inRange, c.1 ≠ 0 := by simp [Dev.submitChecks]
      exact absurd h (hpos c hm)
    case h_2 hc => simpa using hc
  have hfirst := hall _ List.mem_cons_self
  simp only [Bool.and_eq_true, beq_iff_eq] at hfirst
  simp [Dev.dPoison, hfirst]

/-- A task whose region has a free entry is READY there (R289). -/
theorem place_ready (r : Nat) (again : Bool) (hc : d.chooseRegion sp n = some r) (hf : 0 < d.freeEntries r) :
    d.place sp n again = d.mapSlot n fun x => { x with st := 3, region := some r } := by
  simp only [Dev.place, hc, hf, if_true]

/-- Acceptance leaves a task that is not yet to be released HELD; one that is, in time, is placed (R285, R287). -/
theorem accept_held (h : d.releasesNow sp n = false) : d.accept sp n = d.heldTask n :=
  if_neg (by rw [h]; exact Bool.false_ne_true)
theorem accept_placed (h : d.releasesNow sp n = true) (ht : (timeNs sp : Int) ≤ d.dRelease n) (hp : d.dPoison n = false) :
    d.accept sp n = (d.heldTask n).place sp n false := by
  have hpoison : ((d.heldTask n).dPoison n && !(d.heldTask n).dPoisonOk n) = false := Bool.and_eq_false_iff.mpr (.inl hp)
  simp only [Dev.accept, h, if_true, Int.not_lt.mpr ht, if_false]
  exact if_neg fun hc => Bool.false_ne_true (hpoison.symm.trans hc)

section
variable (uid : Nat) (inRange first : Bool) (hs : (d.slot n).st = 0) (hc : d.submitCause n inRange = 0)
include hs hc

/-- A submission of a FREE slot that passes every check is accepted, if it is not released at once. -/
theorem submit_held (hr : d.releasesNow sp n = false) : d.submit sp n uid inRange first = (0, d.heldTask n) := by
  simp only [Dev.submit, hs, hc, hr, ne_eq, not_true_eq_false, Bool.false_eq_true, if_false, accept_held sp d n hr]

/-- One released at once needs room beyond the reserve in its region (R286). -/
theorem submit_ready (hr : d.releasesNow sp n = true) (ht : (timeNs sp : Int) ≤ d.dRelease n)
    (hroom : ∀ r, d.chooseRegion sp n = some r → d.f F.ESL_CTRL_RESERVE < d.freeEntries r) (r : Nat)
    (hch : (d.heldTask n).chooseRegion sp n = some r) (hfree : 0 < (d.heldTask n).freeEntries r) :
    d.submit sp n uid inRange first = (0, (d.heldTask n).mapSlot n fun x => { x with st := 3, region := some r }) := by
  have hacc : d.accept sp n = (d.heldTask n).mapSlot n fun x => { x with st := 3, region := some r } :=
    (accept_placed sp d n hr ht (submitCause_poison d n inRange hc)).trans (place_ready sp _ n r false hch hfree)
  simp only [Dev.submit, hs, hc, hr, ne_eq, not_true_eq_false, if_true, if_false]
  split
  case h_1 q hq => rw [if_neg (Nat.not_le.mpr (hroom q hq)), hacc]
  case h_2 => rw [hacc]

end

theorem signalEnd_first (status : Nat) (hs : (d.slot n).st ≠ 0) (hf : (d.slot n).fin = none) :
    d.signalEnd n status = d.setSlot n { d.slot n with fin := some ((d.slot n).kill.getD status) } :=
  congrArg (d.setSlot n) (if_pos ⟨hf, hs⟩)

/-- CANCEL of a task that does not run yet ends it CANCELLED, unless a kill has set another status (R308, R627). -/
theorem cancel_waiting (id uid : Nat) (hn : id % 2 ^ 16 = n) (hs : (d.slot n).st = 1 ∨ (d.slot n).st = 2 ∨ (d.slot n).st = 3)
    (ht : d.dTag n = id / 2 ^ 16) (hf : (d.slot n).fin = none) (he : d.fb F.ESL_TRC_CTRL_EN = false) :
    d.cancel sp id uid = (0, d.setSlot n { d.slot n with fin := some ((d.slot n).kill.getD 2) }) := by
  have hst : (d.slot n).st ≠ 0 ∧ (d.slot n).st ≠ 4 ∧ (d.slot n).st ≠ 5 := by omega
  have htrace : d.traceSlot sp sp.now uid 3 n = d := by
    simp only [Dev.traceSlot, Dev.trace, he, Bool.false_and, Bool.false_eq_true, if_false]
  unfold Dev.cancel
  simp only [hn, hst, ht, ne_eq, not_true_eq_false, or_self, if_false, hf, if_true, htrace, signalEnd_first d n 2 hst.1 hf]

end

end Sys2Proof.Machine

namespace Sys2Proof.Proofs
open Sys2Proof.Machine Sys2Proof.Laws

/-! ## A lone Easel instruction -/

/-- The device with other slots in its descriptor store. -/
def withSlots (m : SMap Slot) (d : Dev) : Dev := { d with slots := m }

/-- The descriptor store's slots are beside what stands still about a core, and so is the task that it runs. -/
theorem still_withSlots (d : Dev) (k : Nat) (m : SMap Slot) (h : Still d k) : Still (withSlots m d) k := by
  have htries : (withSlots m d).csSeen k = withSlots m (d.csSeen k) := by
    unfold Dev.csSeen
    refine List.foldl_hom (withSlots m) fun e u => ?_
    dsimp only
    rw [apply_ite (withSlots m)]
    rfl
  exact
    { bundle := h.bundle, stall := h.stall, got := h.got, fills := h.fills, emitted := h.emitted, eslDone := h.eslDone
      inflight := h.inflight, ds := h.ds, step := h.step, la := h.la, ra := h.ra
      tries := htries.trans (congrArg (withSlots m) h.tries) }
theorem still_setSlot (d : Dev) (k n : Nat) (x : Slot) (h : Still d k) : Still (d.setSlot n x) k := still_withSlots d k _ h

/-- A core whose task has ended. -/
def taskless (c : Core) : Core := { c with task := none, kill := false }
theorem still_taskless (d : Dev) (k : Nat) (h : Still d k) : Still (d.mapCore k taskless) k := by
  have hc : (d.mapCore k taskless).core k = taskless (d.core k) := core_mapCore_same d k taskless
  exact
    { bundle := hc ▸ h.bundle, stall := hc ▸ h.stall, got := hc ▸ h.got, fills := hc ▸ h.fills, emitted := hc ▸ h.emitted
      eslDone := hc ▸ h.eslDone, inflight := hc ▸ h.inflight, ds := hc ▸ h.ds, step := hc ▸ h.step
      la := (fb_mapCore _ _ _ _).trans h.la, ra := (fb_mapCore _ _ _ _).trans h.ra
      tries := by rw [csSeen_mapCore, h.tries] }

/-- DONE ends its core's task, if it has one, with status 0 or 1 (R297). -/
theorem eslRun_done_idle (sp : Spine) (d : Dev) (k : Nat) (v : Word) (first : Bool) (hn : (d.core k).task = none) :
    eslRun k (.done v) first sp d = (some [], d.mapCore k taskless) := by
  simp only [eslRun, hn]
  rfl
theorem eslRun_done_task (sp : Spine) (d : Dev) (k t : Nat) (v : Word) (first : Bool) (hn : (d.core k).task = some t) :
    eslRun k (.done v) first sp d = (some [], (d.signalEnd t (if v.toNat % 16 = 0 then 0 else 1)).mapCore k taskless) := by
  simp only [eslRun, hn]
  rfl

/-- A core whose Easel instruction has acted, with the results that it is to write. -/
def eslActed (l : List InFlight) (c : Core) : Core := { c with eslDone := some l }

theorem held_acted (d : Dev) (k : Nat) (b : List Instr) (l : List InFlight) :
    (held d k b).mapCore k (eslActed l) = held (d.mapCore k (eslActed l)) k b := by
  simp only [held, mapCore_mapCore]
  rfl
/-- Its results land as they would without that mark, which the bundle's end clears. -/
theorem landed_acted (d : Dev) (k : Nat) (b : List Instr) (l : List (RegWr × Nat × Bool)) (m : List InFlight) :
    landed (d.mapCore k (eslActed m)) k b l = (landed d k b l).mapCore k (eslActed m) := by
  have hwith : d.mapCore k (eslActed m) = d.mapCore k (coreWith (eslActed m (d.core k))) := mapCore_eq _ _ _ _ rfl
  obtain ⟨g, a, p, v, hc⟩ := (applyWrs_issue d k (l.filter fun x => x.2.1 == 1)).core
  simp only [landed]
  rw [hwith, applyWrs_around, core_mapCore_same]
  simp only [mapCore_mapCore]
  exact mapCore_eq _ _ _ _ (by rw [hc]; rfl)
theorem bundleDone_acted (d : Dev) (k n : Nat) (l : List InFlight) :
    ((d.mapCore k (eslActed l)).setPc k n).bundleDone k = (d.setPc k n).bundleDone k := by
  simp only [Dev.setPc, Dev.bundleDone, mapCore_mapCore]
  rfl

/-- What an Easel instruction of a bundle writes, in flight. -/
def eslRes (l : List (RegWr × Nat × Bool)) : List InFlight := l.map fun y => inFlight y.1 y.2.1 y.2.2

section
variable (sp : Spine) (d e : Dev) (k : Nat) (b : List Instr) (op : EslOp)

/-- The end of a lone Easel instruction that has acted: its results go in flight, and the core goes on. -/
theorem commit_esl (l : List (RegWr × Nat × Bool)) (he : Still e k) (hop : op ≠ .wait) (hl : ∀ x ∈ l, 1 ≤ x.2.1) :
    commit k 4 [.esl op] (eslRes l) none (sp, (held e k b).mapCore k (eslActed (eslRes l))) = (sp, e.lone k l) := by
  have htries : ((held e k b).mapCore k (eslActed (eslRes l))).csSeen k = (held e k b).mapCore k (eslActed (eslRes l)) := by
    rw [csSeen_mapCore, held_tries e k b he.tries]
  have hland := land_lone (e.mapCore k (eslActed (eslRes l))) k b l (by rw [core_mapCore_same]; exact he.inflight) hl
  rw [← held_acted, landed_acted] at hland
  have hgo : ∀ (D : Dev) n, D.advance k n [.esl op] = D.goOn k n := fun _ _ => rfl
  have hesl : eslOf [.esl op] = some op := rfl
  have hpc : (((held e k b).mapCore k (eslActed (eslRes l))).core k).pc = (e.core k).pc := by
    rw [core_mapCore_same, held_core]
    rfl
  obtain ⟨c1, c2, c3⟩ := landed_core e k b l he
  simp only [commit, List.foldl_cons, List.foldl_nil, fxStep, fxLate, fxFlag, htries, hgo, hesl, hpc,
    endTrap_quiet _ _ _ _ (.esl op) rfl]
  split
  case h_1 hw => exact absurd (Option.some.inj hw) hop
  case h_2 =>
    refine congrArg (Prod.mk sp) (Eq.trans ?_ (landed_done e k b l he))
    rw [← bundleDone_acted _ _ _ (eslRes l), ← goOn_plain _ _ _ (by rw [core_mapCore_same]; exact c1) (by rw [fb_mapCore]; exact c2)
      (by rw [fb_mapCore]; exact c3)]
    exact congrArg (fun D : Dev => (D.goOn k _).bundleDone k) hland

/-- WAIT leaves its core idle, to go on behind it (R296). -/
theorem commit_wait (hd : Still d k) :
    commit k 4 [.esl .wait] [] none (sp, (held d k b).mapCore k (eslActed [])) =
      (sp, d.mapCore k fun c => { c with mode := .easel, kill := false, resume := BitVec.ofNat 16 (c.pc.toNat + 4) }) := by
  have htries : ((held d k b).mapCore k (eslActed [])).csSeen k = (held d k b).mapCore k (eslActed []) := by
    rw [csSeen_mapCore, held_tries d k b hd.tries]
  have hesl : eslOf [.esl .wait] = some .wait := rfl
  simp only [commit, List.foldl_cons, List.foldl_nil, fxStep, fxLate, fxFlag, htries, hesl, endTrap_quiet _ _ _ _ (.esl .wait) rfl]
  refine congrArg (Prod.mk sp) ?_
  rw [landStep_nil _ _ (by simp [eslActed, hd.inflight])]
  simp only [held, Dev.bundleDone, mapCore_mapCore, core_mapCore_same]
  refine mapCore_eq _ _ _ _ ?_
  simp [eslActed, hd.bundle, hd.stall, hd.got, hd.fills, hd.emitted, hd.eslDone, hd.step, hd.inflight]

/-- A lone Easel instruction reaches no memory of its core, acts once, and then takes effect. -/
theorem issueGo_esl (x : Sem) (l : List InFlight) (hd : Still d k) (he : Still e k) (hx : x.eff = [.esl op])
    (hrun : eslRun k op true sp (held d k b) = (some l, held e k b)) :
    issueGo k 4 [x] none [] (sp, held d k b) = commit k 4 [.esl op] l none (sp, (held e k b).mapCore k (eslActed l)) := by
  have hla : loadAccs [.esl op] [] = [] := rfl
  have hsa : storeAccs [.esl op] = [] := rfl
  have hesl : eslOf [.esl op] = some op := rfl
  have hed : ((held d k b).core k).eslDone = none := by rw [held_core]; exact hd.eslDone
  have hfirst : (((held d k b).core k).stall != .submit) = true := by rw [held_core]; exact hd.stall ▸ rfl
  have hre : ∀ (D : Dev) got, resolve D got 0 [] [] [x] = ([.esl op], none) := fun D got => by
    have hld : loadOf x = none := by rw [loadOf, hx]; rfl
    simp only [resolve, hld, hx, List.nil_append]
  have hput : ∀ lvl, putAll k lvl [.esl op] ((held e k b).mapCore k (eslActed l)) = (true, (held e k b).mapCore k (eslActed l)) :=
    fun lvl => by
      have hf : (((held e k b).mapCore k (eslActed l)).core k).fills = [] := by rw [core_mapCore_same, held_core]; exact he.fills
      simp only [putAll, hf, fillAll, hsa, List.drop_nil, storeAll, Bool.not_true, Bool.false_eq_true, if_false, List.foldl_cons,
        List.foldl_nil]
  have hact : ∀ D : Dev, (D.mapCore k fun c => { c with eslDone := some l }) = D.mapCore k (eslActed l) := fun _ => rfl
  unfold issueGo
  simp only [List.flatMap_singleton, hx, hsa, hla, fetchLines, storeFirst, List.any_nil, Bool.false_and, Bool.false_eq_true,
    if_false, Bool.not_true, Bool.or_self, fetchElems, hre, Core.regWaits, List.map_nil, hed, hesl, Option.isNone_none,
    Bool.and_self, if_true, hfirst, hrun, hact, issueEnd, hput]

end

section
variable {s : State} {i : Instr} {h : Hd} {x : Sem} {op : EslOp} (hr : Ready s h) (hh : headOf i = some h)
  (hs : semOf s.spine (held s.dev h.k [i]) i = some (h, x)) (hx : x.run = true) (ht : x.trap = none) (he : x.eff = [.esl op])
include hr hh hs hx ht he

/-- A lone Easel instruction, up to where it acts; DONE waits for the core's writes (R297). -/
theorem issues_esl (hf : fences [.esl op] = true → s.dev.fabWrites (coreUid h.k) 0 = false) :
    issueInstr i (s.spine, s.dev) = issueGo h.k 4 [x] none [] (s.spine, held s.dev h.k [i]) := by
  have htrap : (held s.dev h.k [i]).trapOf h.k x = none := by rw [trapOf_ready s.spine _ _ _ _ hr.alone, ht, ite_self]
  have hlone := issue_lone s.spine s.dev i h x hh hr.last hr.alone hs htrap
  simp only [hx, if_true, he] at hlone
  exact hlone hf rfl

/-- A lone Easel instruction but WAIT, by what it makes of the device and the results that it writes. -/
theorem esl_of_sem {e : Dev} {l : List (RegWr × Nat × Bool)} (hop : op ≠ .wait)
    (hf : fences [.esl op] = true → s.dev.fabWrites (coreUid h.k) 0 = false)
    (hrun : eslRun h.k op true s.spine (held s.dev h.k [i]) = (some (eslRes l), held e h.k [i])) (hst : Still e h.k)
    (hl : ∀ y ∈ l, 1 ≤ y.2.1) : coreInstr i s = s.to (e.lone h.k l) :=
  issued s i _ ((issues_esl hr hh hs hx ht he hf).trans
    ((issueGo_esl _ _ _ _ _ _ _ _ (still_of _ _ _ hr.alone) hst he hrun).trans (commit_esl _ _ _ _ _ _ hst hop hl)))

end

/-! ## The Easel instructions -/

/-- The status that SUBMIT, SUBMIT.T and CANCEL write for success; SUBMIT.T clears its predicate too (R286). -/
def okG (rd : Reg) : RegWr × Nat × Bool := (.g rd 0, 1, false)
def okP (p : PReg) : RegWr × Nat × Bool := (.p p 0, 1, false)

/-- Above U level the first three raise nothing, nor do WAIT and DONE on a core that is no hub core (R111, R123). -/
theorem eslPriv_none {d : Dev} {h : Hd} (hu : d.level h.k ≠ .u) (b : List Instr) (word : Nat) : eslPriv (held d h.k b) h word = none :=
  if_neg fun hc => hu (eq_of_beq hc)
theorem eslHub_none {h : Hd} (hk : isHubCore h.k = false) (word : Nat) : eslHub h word = none :=
  if_neg (by rw [hk]; exact Bool.false_ne_true)

section
variable {s : State} {h : Hd} (hr : Ready s h) (hu : s.dev.level h.k ≠ .u) (rd rs1 : Reg) (pd : PReg)
include hr hu

/-- SUBMIT and SUBMIT.T of a submission that is accepted. -/
theorem submits_ok {v : Word} {e : Dev} (hst : Still e h.k) (hv : s.dev.g h.k rs1 = v) (hw : v.toNat < 2 ^ 16)
    (hsub : ∀ b, (held s.dev h.k b).submit s.spine (v.toNat % 2 ^ 16) (coreUid h.k) (s.dev.coreSlot (v.toNat % 2 ^ 16)) true =
      (0, held e h.k b)) :
    exec (.submit h rd rs1) s = s.to (e.lone h.k [okG rd]) ∧
    exec (.submitT h rd rs1 pd) s = s.to (e.lone h.k [okG rd, okP (s.dev.pp h.k pd)]) := by
  have hin : decide (v.toNat < 65536) = true := decide_eq_true hw
  have hsub' : ∀ b, (held s.dev h.k b).submit s.spine (v.toNat % 65536) (coreUid h.k)
      (decide (v.toNat < 65536) && (held s.dev h.k b).coreSlot (v.toNat % 65536)) true = (0, held e h.k b) := fun b => by
    rw [hin, Bool.true_and]
    exact hsub b
  refine ⟨esl_of_sem (op := .submit v rd) hr rfl rfl rfl (eslPriv_none hu _ _) ?_ EslOp.noConfusion (fun hc => nomatch hc) ?_ hst
      (by simp [okG]),
    esl_of_sem (op := .submitT v rd (s.dev.pp h.k pd)) hr rfl rfl rfl (eslPriv_none hu _ _) ?_ EslOp.noConfusion (fun hc => nomatch hc)
      ?_ hst (by simp [okG, okP])⟩
  · simp only [semSubmit, held_g, hv]
  · simp only [eslRun, hsub']
    rfl
  · simp only [semSubmitT, held_g, held_pp, hv]
  · simp only [eslRun, hsub']
    rfl

/-- CANCEL of a task that is cancelled. -/
theorem cancels_ok {v : Word} {e : Dev} (hst : Still e h.k) (hv : s.dev.g h.k rs1 = v)
    (hc : ∀ b, (held s.dev h.k b).cancel s.spine v.toNat (coreUid h.k) = (0, held e h.k b)) :
    exec (.cancel h rd rs1) s = s.to (e.lone h.k [okG rd]) := by
  refine esl_of_sem (op := .cancel v rd) hr rfl rfl rfl (eslPriv_none hu _ _) ?_ EslOp.noConfusion (fun hc => nomatch hc) ?_ hst (by simp [okG])
  · simp only [semCancel, held_g, hv]
  · simp only [eslRun, hc]
    rfl

end

section
variable {s : State} {h : Hd} (hr : Ready s h) (hk : isHubCore h.k = false)
include hr hk

theorem waits_ok : exec (.wait h) s = s.to (s.dev.mapCore h.k fun c =>
    { c with mode := .easel, kill := false, resume := BitVec.ofNat 16 (c.pc.toNat + 4) }) := by
  have hst := still_of _ _ _ hr.alone
  exact issued s _ _ ((issues_esl (op := .wait) hr rfl rfl rfl (eslHub_none hk _) rfl (fun hc => nomatch hc)).trans
    ((issueGo_esl _ _ _ _ _ _ _ _ hst hst rfl rfl).trans (commit_wait _ _ _ _ hst)))

/-- DONE ends the task of its core, if it has one, by what that makes of the store. -/
theorem dones_ok {e : Dev} (rs1 : Reg) (hw : s.dev.fabWrites (coreUid h.k) 0 = false) (hst : Still e h.k)
    (hrun : ∀ b, eslRun h.k (.done (s.dev.g h.k rs1)) true s.spine (held s.dev h.k b) =
      (some [], (held e h.k b).mapCore h.k taskless)) :
    exec (.done h rs1) s = s.to ((e.mapCore h.k taskless).lone h.k []) := by
  have hend : ∀ b, (held e h.k b).mapCore h.k taskless = held (e.mapCore h.k taskless) h.k b := fun b => by
    simp only [held, mapCore_mapCore]
    rfl
  refine esl_of_sem (l := []) (op := .done (s.dev.g h.k rs1)) hr rfl rfl rfl (eslHub_none hk _) ?_ EslOp.noConfusion (fun _ => hw)
    ((hrun _).trans (congrArg (Prod.mk _) (hend _))) (still_taskless _ _ hst) (by simp)
  simp only [semDone, held_g]

end

/-- Settles O26: each acts once, by what the store answers to it. -/
theorem easelInstructionResults : Obligations.EaselInstructionResults := by
  intro s h rd rs1 pd hr k sp v n held1 both
  have hst := still_of _ _ _ hr.alone
  refine ⟨fun hu h0 hv hc => ⟨fun hnow => ?held, fun hnow ht _ hroom r hch hfree => ?ready⟩, fun hu hs ht hf he => ?cancel,
    fun hk => ⟨waits_ok hr hk, fun hw => ?done⟩⟩
  case held =>
    exact submits_ok hr hu rd rs1 pd (still_setSlot _ _ _ _ hst) rfl hv fun b => submit_held sp (held s.dev k b) n _ _ _ h0 hc hnow
  case ready =>
    exact submits_ok (e := held1.mapSlot n fun x => { x with st := 3, region := some r }) hr hu rd rs1 pd
      (still_setSlot _ _ _ _ (still_setSlot _ _ _ _ hst)) rfl hv
      fun b => submit_ready sp (held s.dev k b) n _ _ _ h0 hc hnow ht hroom r hch hfree
  case cancel =>
    exact cancels_ok hr hu rd rs1 (still_setSlot _ _ _ _ hst) rfl fun b => cancel_waiting sp (held s.dev k b) n v.toNat _ rfl hs ht hf he
  case done =>
    intro _
    exact ⟨fun hn => dones_ok hr hk rs1 hw hst fun b => eslRun_done_idle _ _ _ _ _ (by rw [held_core]; exact hn),
      fun t hn => dones_ok hr hk rs1 hw (still_setSlot _ _ _ _ hst) fun b =>
        eslRun_done_task _ (held s.dev k b) _ t _ _ (by rw [held_core]; exact hn)⟩

end Sys2Proof.Proofs

namespace Sys2Proof.Machine

/-! ## The steps of the descriptor store -/

/-- A step of the store outside a package fault, after which bundles that stall in SUBMIT try again. -/
theorem wholeCmd_store (s : State) (f : Spine → Dev → Dev) (d : Dev) (hp : s.spine.contain.pkg = 0) (h : f s.spine s.dev = d) :
    wholeCmd s (storeStep f) = s.retried s.spine d := by
  subst h
  unfold wholeCmd State.onWhole State.retried storeStep
  rw [if_pos hp]

/-- A completion outside a package fault. -/
theorem execCompletion_runs (s : State) (i : BitVec 16) (d : Dev) (hp : s.spine.contain.pkg = 0)
    (h : complete i.toNat (s.spine, s.dev) = (s.spine, d)) : execCompletion i s = s.retried s.spine d := by
  unfold execCompletion wholeCmd State.onWhole State.retried
  dsimp only
  rw [if_pos hp, h]

section
variable (sp : Spine) (d : Dev) (n : Nat)

theorem timeRelease_due (hs : (d.slot n).st = 1) (hf : (d.slot n).fin = none) (hr : d.dRel n = 1)
    (ht : d.dRelease n ≤ (timeNs sp : Int)) : d.timeRelease sp n = d.release sp n :=
  if_pos (by simp [hs, hf, hr, ht])

/-- A task that can move does so where none before it in deadline order can (R306). -/
theorem pendingPlace_first (hm : d.canMove sp n = true)
    (hb : ∀ t ∈ d.slots, pendBefore d n t.1 = true → d.canMove sp t.1 = false) : d.pendingPlace sp n = d.place sp n false := by
  have hnone : ((d.slots.map (·.1)).any fun t => pendBefore d n t && d.canMove sp t) = false := by
    refine List.any_eq_false.mpr fun t ht => ?_
    obtain ⟨e, he, rfl⟩ := List.mem_map.mp ht
    rw [Bool.and_eq_true]
    exact fun hc => Bool.false_ne_true ((hb e he hc.1).symm.trans hc.2)
  exact if_pos (by rw [hm, hnone]; rfl)

/-- A READY task that has no longer its WCET before its deadline, by its region's copy of time, is late (R301). -/
theorem lateStart_late (r lag : Nat) (hr : (d.slot n).region = some r) (hi : readyIn r (d.slot n) = true)
    (hl : (d.slot n).late = false) (hw : d.dWcet n ≠ 0)
    (ht : ((d.dDeadline n : Int) - d.dWcet n) * nsUnit < ((d.showCopy sp r lag).disp_ r).copy) :
    d.lateStart sp n lag =
      ((((d.showCopy sp r lag).traceSlot sp ((d.showCopy sp r lag).disp_ r).copy (dispatcherUid r) 5 n).countF
        (F.ESL_RCNT_LATE_COUNT r) 1).raise (evEsl r 0) (dispatcherUid r)).mapSlot n fun x => { x with late := true } := by
  have hc : (readyIn r (d.slot n) && !(d.slot n).late && d.dWcet n != 0 &&
      decide (((d.dDeadline n : Int) - d.dWcet n) * nsUnit < ((d.showCopy sp r lag).disp_ r).copy)) = true := by
    simp [hi, hl, hw, ht]
  unfold Dev.lateStart
  rw [hr]
  exact if_pos hc

/-- A deadline that has passed is missed once, by a task that has not ended (R302). -/
theorem miss_past (lag t uid : Nat) (d1 : Dev) (hj : d.missJudge sp n lag = some (t, true, uid, d1))
    (hm : (d.slot n).missed = false) (hf : (d.slot n).fin = none) :
    d.miss sp n lag =
      (let d2 := (d1.missNote sp n t uid).missSlot n
       if d2.dKillOnMiss n then d2.missKill sp n else d2) := by
  simp only [Dev.miss, hj, hm, hf, Bool.not_false, Option.isNone_none, Bool.and_self, if_true]

/-- A READY task that may spill, for which its region has no unit and time is short, is offered to the peer with the most
room (R311). -/
theorem spillOffer_offers (r k : Nat) (hr : (d.slot n).region = some r) (hk : d.spillPeer sp = some k)
    (hi : readyIn r (d.slot n) = true) (ho : (d.slot n).offered = false) (hs : d.dSpillable n = true)
    (he : d.fb F.ESL_SPILL_CFG_OUT_EN = true) (hu : d.pickUnit sp r n = none) (hz : d.f F.ESL_SPILL_SLACK_NS ≠ 0)
    (ht : (d.dDeadline n : Int) - d.dWcet n - timeNs sp < d.f F.ESL_SPILL_SLACK_NS) :
    d.spillOffer sp n =
      ((((({ d with tag := (d.tag + 1) % 65536 } : Dev).eurSend sp k 5 d.tag (d.bytes (slotAddr n) 64)).mapSlot n fun x =>
        { x with st := 5, spillTo := some (k, d.tag), offered := true }).traceSlot sp sp.now storeUid 2 n).raise (evEsl r 4) storeUid) := by
  have hc : (readyIn r (d.slot n) && !(d.slot n).offered && d.dSpillable n && d.fb F.ESL_SPILL_CFG_OUT_EN && (d.pickUnit sp r n).isNone
      && decide ((d.dDeadline n : Int) - d.dWcet n - timeNs sp < d.f F.ESL_SPILL_SLACK_NS) && d.f F.ESL_SPILL_SLACK_NS != 0) = true := by
    simp [hi, ho, hs, he, hu, hz, ht]
  unfold Dev.spillOffer
  rw [hr, hk]
  exact if_pos hc

/-! ## Completions (R298, R306, R313) -/

/-- A completion whose successor finds no entry is held, and its episode told once (R306). -/
theorem complete_held (status r : Nat) (hf : (d.slot n).fin = some status) (hh : d.completionHeld sp n status = some r)
    (hn : (d.slot n).held = false) :
    complete n (sp, d) = (sp, (d.backpressure sp n r (taskUnit (d.dType n) ((d.slot n).region.getD 0) (d.slot n).unit).1).mapSlot n
      fun x => { x with held := true }) := by
  simp only [complete, hf, hh, hn, Bool.false_eq_true, if_false]

/-- The completion of a task that came from a peer goes back to it (R313). -/
theorem complete_spilled (status k tag : Nat) (hf : (d.slot n).fin = some status) (hh : d.completionHeld sp n status = none)
    (hs : (d.slot n).st = 4) (hp : (d.slot n).spillFrom = some (k, tag)) :
    complete n (sp, d) =
      (let d2 := (((d.returnGrants sp n).eurSend sp k 7 tag (d.cplRecord sp n status)).floorCharge sp n).setSlot n Slot.free
       (sp, (d2.slotProgress sp n (d.bytes (slotAddr n) 64)).carrSettle sp)) := by
  simp only [complete, hf, hh, hs, hp, if_true]

/-- The completion of a task without ring, event and successors returns its grants and frees its slot (R298). -/
theorem complete_plain (status : Nat) (hf : (d.slot n).fin = some status) (hh : d.completionHeld sp n status = none)
    (hs : (d.slot n).st = 4) (hp : (d.slot n).spillFrom = none) (hq : (d.returnGrants sp n).dCqEn n = false)
    (he : (d.returnGrants sp n).dEvtEn n = false) (hl : (d.returnGrants sp n).dSuccs n = []) :
    complete n (sp, d) = (sp, ((((d.returnGrants sp n).floorCharge sp n).setSlot n Slot.free).slotProgress sp n
      (d.bytes (slotAddr n) 64)).carrSettle sp) := by
  simp only [complete, hf, hh, hs, hp, if_true, hq, he, hl, Bool.false_eq_true, if_false, Bool.false_and, List.isEmpty_nil,
    Bool.not_true, Bool.and_false, List.foldl_nil]

/-! ## Dispatch (R291) -/

/-- Without a floor dispatch the first ready task whose pool has an idle unit is dispatched; here the very first. -/
theorem decide_first (r k unit : Nat) (rest : List Nat) (e : Dev) (hp : d.floorPick sp r = none) (ho : d.readyOrder r = k :: rest)
    (hu : d.pickUnit sp r k = some (unit, e)) : d.decide_ sp r = e.dispatchTo sp r k unit := by
  simp only [Dev.decide_, hp, ho, Dev.decideOver, hu, List.foldl_nil]

section
variable (r lag k : Nat) (ho : sp.contain.out (dispatcherUid r) = false)
  (hk : ((d.showCopy sp r lag).readyList r).find? (fun t => (((d.showCopy sp r lag).decide_ sp r).slot t).st == 4) = some k)
include ho hk

/-- The dispatcher reads the descriptor of the task that it has chosen: a sound one goes out, one that is not faults its task
(R231). -/
theorem dispatch_sound (hu : (d.showCopy sp r lag).firstUe (slotAddr k) 64 = none) :
    d.dispatch sp r lag = ((d.showCopy sp r lag).decide_ sp r).eccRead (slotAddr k) 64 := by
  simp only [Dev.dispatch, ho, Bool.false_eq_true, if_false, hk, hu]
theorem dispatch_bad (hu : (d.showCopy sp r lag).firstUe (slotAddr k) 64 ≠ none) :
    d.dispatch sp r lag = ((d.showCopy sp r lag).eccRead (slotAddr k) 64).signalEnd k 4 := by
  obtain ⟨u, hu⟩ := Option.ne_none_iff_exists'.mp hu
  simp only [Dev.dispatch, ho, Bool.false_eq_true, if_false, hk, hu]

end

/-! ## Advertisements (R313) -/

theorem advertise_due (he : d.fb F.ESL_SPILL_CFG_IN_EN = true) (ht : d.advAt + d.f F.ESL_SPILL_CFG_ADV_US * usUnit ≤ sp.now) :
    d.advertise sp = d.enabledPeers.foldl (fun e k =>
      if e.peerUp k then e.eurNote sp k 9 (leBytes 2 e.spillFree.length) else e) { d with advAt := sp.now } :=
  if_pos (by rw [he, decide_eq_true ht]; rfl)
theorem advertise_off (he : d.fb F.ESL_SPILL_CFG_IN_EN = false) : d.advertise sp = d :=
  if_neg (by rw [he]; exact Bool.false_ne_true)

end

/-- The fabric's logic sends outside a package fault. -/
theorem fabric_sends (s : State) (f : Spine → Dev → Dev) (hp : s.spine.contain.pkg = 0) :
    devCmd s (fabricStep f) = s.to (f s.spine s.dev) :=
  congrArg s.to (if_pos hp)

end Sys2Proof.Machine

namespace Sys2Proof.Proofs
open Sys2Proof.Machine Sys2Proof.Laws

/-- Settles O43: each step of the store and of a dispatcher acts, since no package fault holds the device, as its own law above
says. -/
theorem easelSteps : Obligations.EaselSteps := by
  intro s hp sp d
  refine ⟨fun i => ?slot, fun r lag ecc k unit rest ho => ?dispatch, fun he ht => ?due, fun he => ?off⟩
  case slot =>
    intro n x
    exact ⟨fun h1 h2 h3 h4 => wholeCmd_store s _ _ hp (timeRelease_due sp d n h1 h2 h3 h4),
      fun hm hb => wholeCmd_store s _ _ hp (pendingPlace_first sp d n hm hb),
      fun r lag hr hi hl hw ht => wholeCmd_store s _ _ hp (lateStart_late sp d n r lag hr hi hl hw ht),
      fun lag t uid d1 hj hm hf => wholeCmd_store s _ _ hp (miss_past sp d n lag t uid d1 hj hm hf),
      fun r k hr hk hi ho hs he hu hz ht => wholeCmd_store s _ _ hp (spillOffer_offers sp d n r k hr hk hi ho hs he hu hz ht),
      fun status r hf hh hn => execCompletion_runs s i _ hp (complete_held sp d n status r hf hh hn),
      fun status k tag hf hh hs hk => execCompletion_runs s i _ hp (complete_spilled sp d n status k tag hf hh hs hk),
      fun status hf hh hs hk hq he hl => execCompletion_runs s i _ hp (complete_plain sp d n status hf hh hs hk hq he hl)⟩
  case dispatch =>
    intro d0 hk hf hord e hu
    have hdec := decide_first sp d0 r k unit rest e hf hord hu
    exact ⟨fun hs => wholeCmd_store s _ _ hp (hdec ▸ dispatch_sound sp (d.upset ecc) r lag k ho hk hs),
      fun hb => wholeCmd_store s _ _ hp (dispatch_bad sp (d.upset ecc) r lag k ho hk hb)⟩
  case due => exact (fabric_sends s _ hp).trans (congrArg s.to (advertise_due sp d he ht))
  case off => exact (fabric_sends s _ hp).trans (congrArg s.to (advertise_off sp d he))

end Sys2Proof.Proofs

namespace Sys2Proof.Machine

/-! ## Frames that arrive -/

/-- Words that go bad do not bear on a port's link. -/
theorem upset_portLinked (d : Dev) (l : Ecc) (p : Nat) : (d.upset l).portLinked p = d.portLinked p := by
  obtain ⟨b, hb⟩ := upset_eq d l
  rw [hb]
  rfl

section
variable {sp : Spine} {d : Dev} {h : EurIn} (ho : sp.contain.out (portUid h.port) = false) (hl : d.portLinked h.port = true)
include ho hl

/-- A frame arrives at a port in service whose link is up. -/
theorem eurHears_linked : eurHears h.port (sp, d) = true := by
  simp only [eurHears, ho, hl, Bool.not_false, Bool.and_self]

/-- A frame that is to be delivered is handed on with its peer. -/
theorem eurTake_delivers {k : Nat} {d1 : Dev} (hd : d.eurDeliver sp h true = (some k, d1)) (f : Nat → Spine → Dev → Dev) :
    eurTake h f (sp, d) = (sp, f k sp d1) := by
  simp only [eurTake, eurHears_linked ho hl, if_true, hd]
theorem eurTake_drops {d1 : Dev} (hd : d.eurDeliver sp h true = (none, d1)) (f : Nat → Spine → Dev → Dev) :
    eurTake h f (sp, d) = (sp, d1) := by
  simp only [eurTake, eurHears_linked ho hl, if_true, hd]

theorem eurAckFrame_hears : eurAckFrame h (sp, d) = (sp, (d.eurDeliver sp h false).2) := if_pos (eurHears_linked ho hl)
theorem eurHello_hears : eurHello h (sp, d) = (sp, d.helloIn sp h) := if_pos (eurHears_linked ho hl)

/-- A READ of 1 to 1,024 bytes is served, any other refused (R566). -/
theorem eurReadFrame_serves {k : Nat} {d1 : Dev} (hd : d.eurDeliver sp h true = (some k, d1)) (a n : Nat) (hn : 1 ≤ n ∧ n ≤ 1024) :
    eurReadFrame h a n (sp, d) =
      (let r := d1.eurServe h.port h.src a n false []
       (sp, r.2.2.eurSend sp k 4 h.tag (leBytes 1 r.1 ++ List.replicate 7 0 ++ r.2.1))) := by
  have hw : within 1 1024 n = true := by simp only [within, hn.1, hn.2, decide_true, Bool.and_self]
  simp only [eurReadFrame, eurTake_delivers ho hl hd, hw, if_true]
theorem eurReadFrame_refuses {k : Nat} {d1 : Dev} (hd : d.eurDeliver sp h true = (some k, d1)) (a n : Nat)
    (hn : n = 0 ∨ 1024 < n) :
    eurReadFrame h a n (sp, d) =
      (sp, (d1.eurRefuse h.port h.src a false).eurSend sp k 4 h.tag (leBytes 1 1 ++ List.replicate 7 0 ++ [])) := by
  have hw : within 1 1024 n = false := by
    simp only [within, Bool.and_eq_false_iff, decide_eq_false_iff_not]
    omega
  simp only [eurReadFrame, eurTake_delivers ho hl hd, hw, Bool.false_eq_true, if_false]

end

/-! ## The timers of the fabric -/

theorem ackOut_due (d : Dev) (k : Nat) (hu : d.peerUp k = true) (ha : (d.peer k).ackDue = true) : d.ackOut k = d.eurPlain k 0 [] :=
  if_pos (by rw [hu, ha]; rfl)

/-- A peer that has let the last round of retransmission go by is DOWN; before that its frames go out again (R564). -/
theorem retransmit_down (sp : Spine) (d : Dev) (k : Nat) (hu : d.peerUp k = true) (ho : d.eurOverdue sp k = true)
    (hr : d.f F.EUR_CFG_RETRY ≤ (d.peer k).rounds) : d.retransmit sp k = d.peerDown k := by
  simp only [Dev.retransmit, hu, ho, Bool.true_eq_false, or_self, if_false, hr, if_true]
theorem retransmit_again (sp : Spine) (d : Dev) (k : Nat) (hu : d.peerUp k = true) (ho : d.eurOverdue sp k = true)
    (hr : (d.peer k).rounds < d.f F.EUR_CFG_RETRY) : d.retransmit sp k =
      (let p := d.peer k
       let d1 := p.unacked.zipIdx.foldl (fun d x =>
         d.eurWire k x.1.type ((p.tx + 65536 - p.unacked.length + x.2) % 65536) x.1.tag x.1.payload) d
       (d1.mapPeer k fun x =>
         { x with rounds := x.rounds + 1, unacked := x.unacked.map fun f => { f with at_ := sp.now } }).countF (F.EUR_PEER_STAT_RETX k) 1) := by
  simp only [Dev.retransmit, hu, ho, Bool.true_eq_false, or_self, if_false, Nat.not_le.mpr hr]

/-- What a command answers after which the bundles that wait try again. -/
theorem wholeCmd_tried (s : State) (f : Whole → Whole) (sp : Spine) (d : Dev) (h : f (s.spine, s.dev) = (sp, d)) :
    wholeCmd s (fun w => eurRetry (f w)) = s.whole (eurRetry (sp, d)).1 (eurRetry (sp, d)).2 :=
  wholeCmd_whole s _ _ _ (congrArg eurRetry h)

theorem execRetransmitTimeout_runs (s : State) (k : Fin 2048) (d : Dev) (hp : s.spine.contain.pkg = 0)
    (hd : s.dev.retransmit s.spine k = d) :
    execRetransmitTimeout k s = s.whole (eurRetry (s.spine, d)).1 (eurRetry (s.spine, d)).2 :=
  wholeCmd_whole s _ _ _ ((if_pos hp).trans (congrArg (fun e => eurRetry (s.spine, e)) hd))

end Sys2Proof.Machine

namespace Sys2Proof.Proofs
open Sys2Proof.Machine Sys2Proof.Laws

/-- Settles O52: a frame that is heard is delivered by its place in the order, and is then what its own law says; so is each
timer. -/
theorem fabricFrames : Obligations.FabricFrames := by
  intro s h ho hl sp d x w
  have delivers := fun {k d1} (hd : d.eurDeliver sp x true = (some k, d1)) f => eurTake_delivers (h := x) ho hl hd f
  refine ⟨?ack, fun _ _ => wholeCmd_whole s _ _ _ (eurHello_hears (h := x) ho hl),
    fun d1 hd i => wholeCmd_whole s _ _ _ (eurTake_drops (h := x) ho hl hd _), fun ecc k d1 hd => ?served,
    fun k d1 hd => ⟨fun st => wholeCmd_tried s _ _ _ (delivers hd _), fun st data => wholeCmd_whole s _ _ _ (delivers hd _),
      fun desc => wholeCmd_whole s _ _ _ (delivers hd _), fun st => wholeCmd_tried s _ _ _ (delivers hd _),
      fun r => wholeCmd_whole s _ _ _ (delivers hd _), fun id => wholeCmd_tried s _ _ _ (delivers hd _),
      fun free => wholeCmd_whole s _ _ _ (delivers hd _), fun i => ?event⟩,
    fun hp => ⟨fun _ => fabric_sends s _ hp, fun k hu => ⟨fun ha => ?due, fun hv hr => ?down, fun hv hr => ?again⟩⟩⟩
  case ack =>
    rintro r rfl
    exact wholeCmd_whole s _ _ _ (eurAckFrame_hears (h := x) ho hl)
  case served =>
    have hlu : (d.upset ecc).portLinked x.port = true := (upset_portLinked d ecc _).trans hl
    exact ⟨fun a data => wholeCmd_whole s _ _ _ (eurTake_delivers (h := x) ho hlu hd _),
      fun a n => ⟨fun h1 h2 => wholeCmd_whole s _ _ _ (eurReadFrame_serves (h := x) ho hlu hd _ _ ⟨h1, h2⟩),
        fun hn => wholeCmd_whole s _ _ _ (eurReadFrame_refuses (h := x) ho hlu hd _ _ hn)⟩⟩
  case event =>
    refine wholeCmd_whole s _ _ _ ((delivers hd _).trans (congrArg (Prod.mk sp) ?_))
    simp only [Bool.and_eq_true, decide_eq_true_eq]
    rfl
  case due => exact (fabric_sends s _ hp).trans (congrArg s.to (ackOut_due d k hu ha))
  case down => exact execRetransmitTimeout_runs s k _ hp (retransmit_down sp d k hu hv hr)
  case again => exact execRetransmitTimeout_runs s k _ hp (retransmit_again sp d k hu hv hr)

end Sys2Proof.Proofs

/-! Proofs of the statements about Gust (chapter 09) and about the registers that move data: O32 and O44. -/

namespace Sys2Proof.Machine

/-! ## The steps of a Gust engine -/

section
variable (sp : Spine) (d : Dev) (e n : Nat)

section
variable (w w' : Whole) (ext : List Byte)

section
variable {a len kind : Nat} (ha : w.2.gstActs w.1 e n = true) (hs : (w.2.chan e n).stop = 0)
  (hf : w.2.gstFetch e n = some (a, len, kind))
include ha hs hf

/-- A fetch that is read is checked and kept; one that does not succeed ends the program (R330). -/
theorem gstFetchStep_reads (l : List Byte) (hr : busRead (gstReq e n) a len ext w = (.ok l, w')) :
    gstFetchStep e n ext w = (w'.1, w'.2.gstFetched e n a kind l) := by
  simp only [gstFetchStep, ha, hs, hf, hr, beq_self_eq_true, Bool.and_self, if_true]
theorem gstFetchStep_fails
    (hr : busRead (gstReq e n) a len ext w = (.refused, w') ∨ busRead (gstReq e n) a len ext w = (.err, w')) :
    gstFetchStep e n ext w = (w'.1, w'.2.gstEnd e n 7 0) := by
  rcases hr with hr | hr <;> simp only [gstFetchStep, ha, hs, hf, hr, beq_self_eq_true, Bool.and_self, if_true]
end

variable (b : GBurst) (x : GDesc)

/-- A burst of COPY has the bytes that its source held, one of FILL the pattern's (R324, R325). -/
theorem gstCopy_reads (l : List Byte) (hd : w.2.gstDue w.1 e n 0 = some (b, x))
    (hr : busRead (gstReq e n) b.sa b.n ext w = (.ok l, w')) : gstCopy e n ext w = (w'.1, w'.2.gstData e n b l none) := by
  simp only [gstCopy, hd, hr]
theorem gstFill_pattern (hd : d.gstDue sp e n 1 = some (b, x)) :
    d.gstFill sp e n = d.gstData e n b (patBytes x.pat (d.chan e n).pos b.n) none := by
  simp only [Dev.gstFill, hd]

/-- COMPARE reads its destination, and its source unless that is the pattern (R326). -/
theorem gstCompare_source (ext2 l m : List Byte) (w1 : Whole) (hd : w.2.gstDue w.1 e n 2 = some (b, x)) (hp : x.cmpPat = false)
    (hl : busRead (gstReq e n) b.sa b.n ext w = (.ok l, w1)) (hm : busRead (gstReq e n) b.da b.n ext2 w1 = (.ok m, w')) :
    gstCompare e n ext ext2 w = (w'.1, w'.2.gstData e n b m (firstIdx (fun p => p.1 != p.2) (l.zip m))) := by
  simp only [gstCompare, hd, hp, Bool.false_eq_true, if_false, hl, hm]
theorem gstCompare_pattern (ext2 m : List Byte) (hd : w.2.gstDue w.1 e n 2 = some (b, x)) (hp : x.cmpPat = true)
    (hm : busRead (gstReq e n) b.da b.n ext2 w = (.ok m, w')) :
    gstCompare e n ext ext2 w = (w'.1, w'.2.gstData e n b m
      (firstIdx (fun p => p.1 != p.2) ((patBytes x.pat (w.2.chan e n).pos b.n).zip m))) := by
  simp only [gstCompare, hd, hp, if_true, hm]
end

/-! ## FENCE (R327) -/

/-- A FENCE that acts waits for the program's writes, ends the program if one came back refused, and else goes out. -/
theorem gstFence_acts {x : GDesc} (hx : (d.chan e n).desc = some x) (ha : d.gstActs sp e n = true) (ho : x.op = 3)
    (hb : x.bad = false) (hf : (d.chan e n).fenceOut = false) (hs : (d.chan e n).stop = 0) : d.gstFence sp e n =
    (let d1 := d.setF (F.GST_CH_STATUS_STATE (gstBaseOf e) n) 3
     if d.gstPending e n then d1
     else if (d.chan e n).lost || (d.chan e n).refused then d1.gstEnd e n 5 0
     else (d1.gstIssue e n x.fence [] true).mapChan e n fun c => { c with fenceOut := true }) := by
  have hacts : (d.gstActs sp e n && x.op == 3 && !x.bad && !(d.chan e n).fenceOut && (d.chan e n).stop == 0) = true := by
    rw [ha, ho, hb, hf, hs]
    rfl
  simp only [Dev.gstFence, hx, hacts, if_true]

/-! ## The end of a burst (R333, R344) -/

section
variable {b : GBurst} {x : GDesc} {l : List Byte} (hb : (d.chan e n).burst = some b) (hx : (d.chan e n).desc = some x)
  (hl : b.data = some l) (ha : d.gstActs sp e n = true)
include hb hx hl ha

/-- A burst of writes that leaves flight is issued. -/
theorem gstBurstDone_issues (ho : x.op ≠ 2) :
    d.gstBurstDone sp e n = ((d.gstIssue e n b.da l x.delivered).gstBytes e n b.n).gstAfter e n b.n := by
  simp only [Dev.gstBurstDone, hb, hx, hl, ha, ho, Bool.not_true, Bool.false_eq_true, if_false]
/-- A burst of COMPARE goes on while its bytes are equal, and else gives where the first differs. -/
theorem gstBurstDone_equal (ho : x.op = 2) (hd : b.diff = none) : d.gstBurstDone sp e n =
    (let d1 := d.gstBytes e n b.n
     (if d.gstLast e n b.n then d1.gstResult e n (2 ^ 32 - 1) else d1).gstAfter e n b.n) := by
  simp only [Dev.gstBurstDone, hb, hx, hl, ha, ho, hd, Bool.not_true, Bool.false_eq_true, if_false, if_true]
theorem gstBurstDone_differs (i : Nat) (ho : x.op = 2) (hd : b.diff = some i) : d.gstBurstDone sp e n =
    (((d.gstResult e n ((d.chan e n).pos + i)).gstEvent e n 2).gstBytes e n (i + 1)).gstDiffers e n b.n x := by
  simp only [Dev.gstBurstDone, hb, hx, hl, ha, ho, hd, Bool.not_true, Bool.false_eq_true, if_false, if_true]
end

section
variable (k : Nat)

/-- With no end requested the streams move on; an end requested takes effect. -/
theorem gstAfter_moves (hs : (d.chan e n).stop = 0) : d.gstAfter e n k = d.gstMove e n k := by
  unfold Dev.gstAfter
  dsimp only
  split
  case h_1 hx => simp only [Dev.gstMove, hx]
  case h_2 => exact if_pos hs
theorem gstAfter_stops (x : GDesc) (hx : (d.chan e n).desc = some x) (hs : (d.chan e n).stop ≠ 0)
    (hl : d.gstLast e n k = false) : d.gstAfter e n k = d.gstEnd e n (d.chan e n).stop 0 := by
  simp only [Dev.gstAfter, hx, hs, hl, Bool.false_and, Bool.false_eq_true, if_false]
/-- A difference ends a COMPARE that halts at it. -/
theorem gstDiffers_halts (x : GDesc) (hs : (d.chan e n).stop = 0) (hh : x.cmpHalt = true) :
    d.gstDiffers e n k x = d.gstEnd e n 8 0 :=
  (if_neg (not_not.mpr hs)).trans (if_pos hh)
end

/-! ## Writes that land (R332, R334) -/

section
variable (i : Nat) (w w' : Whole) {x : GWrite} (hi : (w.2.gustWrites e)[i]? = some x) (hp : w.1.contain.pkg = 0)
  (hm : ((w.2.gustWrites e).take i).any (fun y => destsMeet y.a y.data.length x.a x.data.length) = false)
include hi hp hm

/-- A write that no earlier one holds back waits at its target, or lands there, and its channel hears of it. -/
theorem gstLand_waits (hr : busAcc (gstReq e x.ch) x.a x.data.length true x.data x.late true [] false w = (.wait, w')) :
    gstLand e i w = w' := by
  simp only [gstLand, hi, hp, hm, hr, ne_eq, not_true_eq_false, Bool.false_eq_true, or_self, if_false]
theorem gstLand_lands (o : AccOut) (ho : o ≠ .wait)
    (hr : busAcc (gstReq e x.ch) x.a x.data.length true x.data x.late true [] false w = (o, w')) :
    gstLand e i w =
      (let d1 : Dev := { w'.2 with gustW := SMap.put w'.2.gustW e ((w'.2.gustWrites e).eraseIdx i) }
       (w'.1, d1.gstHear e x (decide (o = .refused)))) := by
  simp only [gstLand, hi, hp, hm, hr, ne_eq, not_true_eq_false, Bool.false_eq_true, or_self, if_false]
end

end

end Sys2Proof.Machine

namespace Sys2Proof.Proofs
open Sys2Proof.Machine Sys2Proof.Laws

/-- Settles O44: each step of an engine is what its own law above says, where it acts. -/
theorem gustSteps : Obligations.GustSteps := by
  intro s e n sp w d c
  refine ⟨fun a len kind ecc ext ha hs hf => ⟨fun l w' hr => ?_, fun w' hr => ?_⟩, fun b x ecc ext l w' hd hr => ?_,
    fun b x hd => congrArg s.to (gstFill_pattern sp d e n b x hd), fun b x ecc ext ext2 l w1 m w2 hd hp hl hm => ?_,
    fun b x ecc ext ext2 m w2 hd hp hm => ?_, fun x hx ha ho hb hf hs => ?fence, fun hp => congrArg s.to (if_pos hp),
    fun b x l hb hx hl ha => ⟨fun ho => congrArg s.to (gstBurstDone_issues sp d e n hb hx hl ha ho),
      fun ho hd => congrArg s.to (gstBurstDone_equal sp d e n hb hx hl ha ho hd),
      fun i ho hd => congrArg s.to (gstBurstDone_differs sp d e n hb hx hl ha i ho hd)⟩,
    fun hs k => gstAfter_moves d e n k hs, fun x k hx hs hl => gstAfter_stops d e n k x hx hs hl,
    fun x k hs hh => gstDiffers_halts d e n k x hs hh, fun i x ecc hi hp hm => ⟨fun w' hr => ?_, fun o w' ho hr => ?_⟩⟩
  · exact wholeCmd_whole s _ _ _ (gstFetchStep_reads e n (w ecc) w' ext ha hs hf l hr)
  · exact wholeCmd_whole s _ _ _ (gstFetchStep_fails e n (w ecc) w' ext ha hs hf hr)
  · exact wholeCmd_whole s _ _ _ (gstCopy_reads e n (w ecc) w' ext b x l hd hr)
  · exact wholeCmd_whole s _ _ _ (gstCompare_source e n (w ecc) w2 ext b x ext2 l m w1 hd hp hl hm)
  · exact wholeCmd_whole s _ _ _ (gstCompare_pattern e n (w ecc) w2 ext b x ext2 m hd hp hm)
  case fence =>
    have hacts := gstFence_acts sp d e n hx ha ho hb hf hs
    refine ⟨fun hp => congrArg s.to (hacts.trans (if_pos hp)), fun hp hr => congrArg s.to (hacts.trans ?_),
      fun hp hl hr => congrArg s.to (hacts.trans ?_)⟩
    · exact (if_neg (Bool.eq_false_iff.mp hp)).trans (if_pos (Bool.or_eq_true_iff.mpr hr))
    · exact (if_neg (Bool.eq_false_iff.mp hp)).trans (if_neg (Bool.eq_false_iff.mp (Bool.or_eq_false_iff.mpr ⟨hl, hr⟩)))
  · exact wholeCmd_whole s _ _ _ (gstLand_waits e i (w ecc) w' hi hp hm hr)
  · exact wholeCmd_whole s _ _ _ (gstLand_lands e i (w ecc) w' hi hp hm o ho hr)

end Sys2Proof.Proofs

namespace Sys2Proof.Machine
open Sys2Proof.Laws

/-! ## Writes of the `GST` blocks -/

/-- The registers of an engine's block: a region engine has 32 channels. -/
def gstRowsOf (e : Nat) : List RegSpec := if e < 16 then gstrRegs else gstRegs

/-- A row of the channels, of which each engine has as many as it has channels. -/
theorem findReg_gstChan (e n o : Nat) (hn : n < gstChans e) (hr : ∃ r ∈ gstrRegs, r.off = o ∧ r.stride = 0x40 ∧ r.count = 32)
    (hh : ∃ r ∈ gstRegs, r.off = o ∧ r.stride = 0x40 ∧ r.count = 64) : (findReg (gstRowsOf e) (o + n * 0x40)).isSome = true := by
  by_cases he : e < 16
  · rw [gstRowsOf, if_pos he]
    rw [gstChans, if_pos he] at hn
    exact findReg_row _ o n 0x40 32 hr (by decide) hn
  · rw [gstRowsOf, if_neg he]
    rw [gstChans, if_neg he] at hn
    exact findReg_row _ o n 0x40 64 hh (by decide) hn

/-- A write of a register of an engine's block by M-level hub firmware, while the die of a region engine stands. -/
theorem regStep_gst (s : State) (q : Req) (v : Word) (h : Fw s q) (a e o : Nat) (ha : a = gstBaseOf e + o) (he : e < 17)
    (ho : o < if e < 16 then 0x1800 else 0x10000) (h4 : o % 4 = 0) (hf : (findReg (gstRowsOf e) o).isSome = true)
    (hd : e < 16 → s.spine.contain.dies.contains (e / 4) = false) :
    wholeCmd s (regStep q a v) = s.written s.spine ((s.dev.given q a v).gstWrite s.spine q e o a v) := by
  subst ha
  obtain ⟨x, hx⟩ := Option.isSome_iff_exists.mp hf
  by_cases hr : e < 16
  · rw [if_pos hr] at ho
    rw [gstRowsOf, if_pos hr] at hx
    rw [gstBaseOf, if_pos hr]
    have ha : blkBase (.gstr e) + o = 0x01000000000 + e * 0x10000000 + 0x0F000000 + (0x10000 + o) := by
      show 0x01000000000 + e * 0x10000000 + 0x0F010000 + o = _
      omega
    have hb := blkOf_gstr e o hr (by omega)
    have hs : fieldsAt (blkBase (.gstr e) + o) = some x.1.fields := by
      rw [fieldsAt, if_neg (by omega), hb]
      simp only [decide_eq_false (Nat.not_le.mpr ho), Bool.false_eq_true, if_false, blkRegs, hx, Option.map_some]
    exact regStep_fw s q _ v (.gstr e) o _ _ h (by omega) (fencedDie_region _ _ e _ hr (by omega) ha (hd hr))
      (regBad_gen q _ (.gstr e) o hb rfl (by simp [hs])) hb rfl
  · obtain rfl : e = 16 := by omega
    rw [if_neg hr] at ho
    rw [gstBaseOf, if_neg hr]
    rw [gstRowsOf, if_neg hr] at hx
    have ha : blkBase .gsth + o = 0x02010600000 + o := rfl
    have hb := blkOf_gsth o ho
    exact regStep_fw s q _ v .gsth o _ _ h (by omega) (fencedDie_hub _ _ (by omega))
      (regBad_of q _ .gsth o x.1.fields hb (by omega) (congrArg _ hx) rfl).1 hb rfl

section
variable (d : Dev) (sp : Spine) (q : Req) (v : Word) (e n : Nat)

/-- Hub firmware drives every channel's CTRL, and a region engine's SWREQ. -/
theorem gstWrite_ctrl (a : Nat) (hq : reqFw q = true) : d.gstWrite sp q e (0x1004 + n * 0x40) a v = d.gstCtrl sp e n v := by
  have hi : (0x1004 + n * 0x40 - 0x1000) / 0x40 = n := by omega
  have hr : (0x1004 + n * 0x40 - 0x1000) % 0x40 = 4 := by omega
  have hm : d.gstMayDrive e n q = true := by rw [Dev.gstMayDrive, hq, Bool.true_or]
  unfold Dev.gstWrite
  dsimp only
  rw [if_neg (by omega), hi, hr, if_pos rfl, if_pos hm]
theorem gstWrite_swreq (a : Nat) (he : e < 16) (hq : reqFw q = true) :
    d.gstWrite sp q e 0x20 a v = d.setF (F.GST_SWREQ_LINE (gstBaseOf e)) (v.toNat % 2 ^ 16) :=
  (if_pos he).trans (if_pos (by rw [hq, Bool.true_or]))

/-- A write of START alone is a START; one of STOP is a STOP (R345). -/
theorem gstCtrl_start : d.gstCtrl sp e n 1 = d.gstStart sp e n := rfl
theorem gstCtrl_stop : d.gstCtrl sp e n 2 = d.gstStop e n := rfl

/-- START of an idle MODE 1 channel starts the program at PTR (R318). -/
theorem gstStart_idle (hm : d.chMode1 e n = true) (hs : d.chState e n = 0) (hg : sp.contain.gone (gustUid e) n = false) :
    d.gstStart sp e n = d.gstBegin e n 0 none := by
  simp only [Dev.gstStart, hg, hm, hs, Bool.false_eq_true, if_false, beq_self_eq_true, Bool.and_self, if_true]
/-- STOP of a running MODE 1 channel is the requested end 9 (R344). -/
theorem gstStop_running (hm : d.chMode1 e n = true) (hr : d.chRuns e n = true) (hs : (d.chan e n).stop = 0) :
    d.gstStop e n = d.gstHalt e n 9 :=
  if_pos (by rw [hm, hr, hs]; rfl)
end

/-! ## Kills, host rings and cages -/

section
variable (d : Dev) (sp : Spine) (q : Req) (v : Word)

/-- Nothing is recorded while the trace is off (R314). -/
theorem traceSlot_off (t uid code n : Nat) (he : d.fb F.ESL_TRC_CTRL_EN = false) : d.traceSlot sp t uid code n = d := by
  simp only [Dev.traceSlot, Dev.trace, he, Bool.false_and, Bool.false_eq_true, if_false]

/-- A kill ends a task that does not run, CANCELLED unless another status was set (R627). -/
theorem killWrite_waiting (n : Nat) (hn : v.toNat % 2 ^ 16 = n) (hq : reqFw q = true)
    (hs : (d.slot n).st = 1 ∨ (d.slot n).st = 2 ∨ (d.slot n).st = 3) (hf : (d.slot n).fin = none)
    (ht : d.dTag n = v.toNat / 2 ^ 16) (he : d.fb F.ESL_TRC_CTRL_EN = false) :
    d.killWrite sp q v = d.mapSlot n fun x => { x with fin := some (x.kill.getD 2) } := by
  have hst : (d.slot n).st ≠ 0 ∧ (d.slot n).st ≠ 4 ∧ (d.slot n).st ≠ 5 := by omega
  have hkill : d.killTask sp n q.uid.toNat = d.signalEnd n 2 := by
    simp only [Dev.killTask, hst, hf, Option.isSome_none, Bool.false_eq_true, or_self, if_false,
      traceSlot_off d sp sp.now q.uid.toNat 3 n he]
  have hmay : (reqFw q && (d.slot n).st != 0 && d.dTag n == v.toNat / 2 ^ 16) = true := by
    simp only [hq, ht, bne_iff_ne.mpr hst.1, beq_self_eq_true, Bool.and_self]
  subst hn
  exact (if_pos hmay).trans (hkill.trans (signalEnd_first d _ 2 hst.1 hf))

theorem hstWrite_outDq (a k : Nat) (hk : k < 256) (hq : reqFw q = true) :
    d.hstWrite q (0x101C + k * 0x20) a v = d.plainWrite a v := by
  have hr : (0x101C + k * 0x20 - 0x1000) % 0x20 = 0x1C := by omega
  unfold Dev.hstWrite
  dsimp only
  rw [if_neg (by simp [hq]), if_neg (by omega), if_pos (by omega), hr]
  rfl

theorem lcWrite_i2c (a m : Nat) (hm : m < 4) : d.lcWrite q (0x108 + m * 0x10) a v = d.i2cWrite q m v := by
  have hi : (0x108 + m * 0x10 - 0x100) / 0x10 = m := by omega
  unfold Dev.lcWrite
  rw [if_pos (by omega), hi]

/-- A transfer begins with a module that is present; in an empty cage it ends at once with NAK (R585). -/
theorem i2cWrite_go (m : Nat) (hq : reqFw q = true) (hg : bitAt v.toNat 17 = true) (hb : d.fb (F.LC_CAGE_I2C_BUSY m) = false) :
    d.i2cWrite q m v =
      (let x := F.LC_CAGE_I2C_GO m
       if (d.cageAt m).prs then ((d.plainWrite x.addr v).setF x 0).setF (F.LC_CAGE_I2C_BUSY m) 1
       else ((d.plainWrite x.addr v).setF x 0).setF (F.LC_CAGE_I2C_NAK m) 1) := by
  simp only [Dev.i2cWrite, hq, hg, hb, Bool.not_true, Bool.false_eq_true, if_false, if_true]
end

/-! ## The host's writes of the other blocks through BAR0 (R539) -/

/-- The host's write of four bytes at a multiple of 4 is that of the word that they spell. -/
theorem hostWriteBytes_word (f off n : Nat) (w : Whole) (h4 : off % 4 = 0) (hn : n < 2 ^ 32) :
    hostWriteBytes f off (leBytes 4 n) w = hostWriteWord f off (BitVec.ofNat 32 n) w := by
  unfold hostWriteBytes
  rw [if_pos ⟨h4, Nat.le_refl 4⟩, wordsOf_leBytes n hn]
  rfl

section
variable (f off : Nat) (v : Word) (w : Whole) (ht : hostTaken f off w = true) (hh : regHole (bar0Addr off) = false)
  {b : Blk} {o : Nat} (hb : blkOf (bar0Addr off) = some (b, o)) (hx : b ≠ .hst)
include ht hh hb hx

/-- The host's write of a register outside its view: one that it may write is the block's; another is denied. -/
theorem hostWriteWord_may (hm : hostMay b o = true) :
    hostWriteWord f off v w = blkWrite hostReq b o (bar0Addr off) v w := by
  simp only [hostWriteWord, ht, hh, hb, hm, Bool.true_eq_false, Bool.false_eq_true, if_false, if_true]
theorem hostWriteWord_denied (hm : hostMay b o = false) : hostWriteWord f off v w = (w.1, w.2.hostDeny off) := by
  simp only [hostWriteWord, ht, hh, hb, hm, Bool.true_eq_false, Bool.false_eq_true, if_false]
end

/-- What a command leaves that answers as one whose bundles have tried again. -/
theorem whole_of_written (s : State) (f : Whole → Whole) (sp : Spine) (d : Dev) (h : wholeCmd s f = s.written sp d) :
    f (s.spine, s.dev) = retryFences (sp, d) := by
  injection h with h
  exact Prod.ext (congrArg State.spine h) (congrArg State.dev h)

end Sys2Proof.Machine

namespace Sys2Proof.Proofs
open Sys2Proof.Machine Sys2Proof.Laws

/-! ## Register writes that start and stop movers -/

section
variable (s : State) (q : Req) (v : Word) (h : Fw s q)
include h

section
variable (e : Fin 17) (n : Fin 64) (hn : n.val < gstChans e)
  (hd : e.val < 16 → s.spine.contain.dies.contains (e.val / 4) = false)
include hn hd

/-- A write of a channel's CTRL by hub firmware. -/
theorem gstCtrl_written (a : Nat) (ha : a = gstBaseOf e + 0x1004 + n.val * 0x40) :
    wholeCmd s (regStep q a v) = s.written s.spine ((s.dev.given q a v).gstCtrl s.spine e n v) := by
  have ho : 0x1004 + n.val * 0x40 < if e.val < 16 then 0x1800 else 0x10000 := by
    unfold gstChans at hn
    split at hn <;> rename_i he
    · rw [if_pos he]
      omega
    · rw [if_neg he]
      omega
  exact (regStep_gst s q v h a e (0x1004 + n * 0x40) (ha.trans (Nat.add_assoc _ _ _)) e.isLt ho (by omega)
    (findReg_gstChan e n 0x1004 hn (by decide) (by decide)) hd).trans
    (congrArg (s.written s.spine) (gstWrite_ctrl _ s.spine q v e n _ h.fw))

theorem gstStart_written (hm : s.dev.chMode1 e n = true) (hs : s.dev.chState e n = 0)
    (hg : s.spine.contain.gone (gustUid e) n = false) :
    exec (.gstStart q e n) s = s.written s.spine
      ((s.dev.given q (F.GST_CH_CTRL_START (gstBaseOf e) n).addr 1).gstBegin e n 0 none) :=
  (gstCtrl_written s q 1 h e n hn hd _ rfl).trans (congrArg (s.written s.spine)
    ((gstCtrl_start _ _ e n).trans (gstStart_idle _ s.spine e n
    ((given_get (fun d => d.chMode1 e n) (fun _ _ => rfl) _ _ _ _).trans hm)
    ((given_get (fun d => d.chState e n) (fun _ _ => rfl) _ _ _ _).trans hs) hg)))
theorem gstStop_written (hm : s.dev.chMode1 e n = true) (hr : s.dev.chRuns e n = true) (hs : (s.dev.chan e n).stop = 0) :
    exec (.gstStop q e n) s = s.written s.spine
      ((s.dev.given q (F.GST_CH_CTRL_STOP (gstBaseOf e) n).addr 2).gstHalt e n 9) :=
  (gstCtrl_written s q 2 h e n hn hd _ rfl).trans (congrArg (s.written s.spine)
    ((gstCtrl_stop _ _ e n).trans (gstStop_running _ e n
    ((given_get (fun d => d.chMode1 e n) (fun _ _ => rfl) _ _ _ _).trans hm)
    ((given_get (fun d => d.chRuns e n) (fun _ _ => rfl) _ _ _ _).trans hr)
    ((given_get (fun d => (d.chan e n).stop) (fun _ _ => rfl) _ _ _ _).trans hs))))
end

theorem swreqWrite_written (r : Fin 16) (hd : s.spine.contain.dies.contains (r.val / 4) = false) :
    exec (.swreqWrite q r v) s = s.written s.spine ((s.dev.given q (F.GST_SWREQ_LINE (gstBaseOf r)).addr v).setF
      (F.GST_SWREQ_LINE (gstBaseOf r)) (v.toNat % 2 ^ 16)) := by
  have hrow : (findReg (gstRowsOf r) 0x20).isSome = true := by
    rw [gstRowsOf, if_pos r.isLt]
    decide
  exact (regStep_gst s q v h _ r 0x20 rfl (by omega) (by rw [if_pos r.isLt]; decide) rfl hrow fun _ => hd).trans
    (congrArg (s.written s.spine) (gstWrite_swreq _ s.spine q v r _ r.isLt h.fw))

theorem killWrite_written : wholeCmd s (regStep q F.ESL_KILL_TASK_ID.addr v) =
    s.written s.spine ((s.dev.given q F.ESL_KILL_TASK_ID.addr v).killWrite s.spine q v) := by
  have hb : blkOf F.ESL_KILL_TASK_ID.addr = some (.eslh, 0x1C) := blkOf_eslh 0x1C (by decide)
  refine regStep_fw s q _ v .eslh 0x1C _ _ h rfl (fencedDie_hub _ _ (by decide))
    (regBad_of q _ .eslh 0x1C _ hb (by decide) rfl rfl).1 hb (congrArg (Prod.mk s.spine) ?_)
  exact (if_neg (by decide)).trans ((if_neg (by simp [h.fw])).trans (if_pos rfl))

theorem eslKill_waiting (hs : (s.dev.slot (v.toNat % 2 ^ 16)).st = 1 ∨ (s.dev.slot (v.toNat % 2 ^ 16)).st = 2 ∨
      (s.dev.slot (v.toNat % 2 ^ 16)).st = 3) (hf : (s.dev.slot (v.toNat % 2 ^ 16)).fin = none)
    (ht : s.dev.dTag (v.toNat % 2 ^ 16) = v.toNat / 2 ^ 16) (he : s.dev.fb F.ESL_TRC_CTRL_EN = false) :
    exec (.eslKill q v) s = .next (s.onWhole fun w => retrySubmits (retryFences (w.1,
      (s.dev.given q F.ESL_KILL_TASK_ID.addr v).mapSlot (v.toNat % 2 ^ 16) fun x => { x with fin := some (x.kill.getD 2) }))) := by
  have hslot : (s.dev.given q F.ESL_KILL_TASK_ID.addr v).slot (v.toNat % 2 ^ 16) = s.dev.slot (v.toNat % 2 ^ 16) :=
    given_get (fun d => d.slot (v.toNat % 2 ^ 16)) (fun _ _ => rfl) _ _ _ _
  have hkill := whole_of_written s _ _ _ (killWrite_written s q v h)
  rw [killWrite_waiting _ s.spine q v _ rfl h.fw (by rwa [hslot]) (by rwa [hslot])
    ((given_get (fun d => d.dTag (v.toNat % 2 ^ 16)) (fun _ _ => rfl) _ _ _ _).trans ht) ((given_fb _ _ _ _ _).trans he)] at hkill
  show wholeCmd s (fun w => retrySubmits (regStep q F.ESL_KILL_TASK_ID.addr v w)) = _
  unfold wholeCmd State.onWhole
  dsimp only
  rw [hkill]

theorem outWrAdvance_written (k : Fin 256) (u : BitVec 16) :
    exec (.outWrAdvance q k u) s = s.written s.spine ((s.dev.given q (F.HST_RING_DQ_OUT_WR k).addr (u.setWidth 32)).plainWrite
      (F.HST_RING_DQ_OUT_WR k).addr (u.setWidth 32)) := by
  have ha : (F.HST_RING_DQ_OUT_WR k).addr = 0x02010000000 + (0x5101C + k * 0x20) := by
    show 0x02010050000 + 0x101C + k.val * 0x20 = _
    omega
  have hb : blkOf (F.HST_RING_DQ_OUT_WR k).addr = some (.hst, 0x101C + k.val * 0x20) :=
    blkOf_hub_at (0x5101C + k * 0x20) _ .hst _ ha (by omega) (by omega) (by
      rw [show (0x5101C + k.val * 0x20) / 0x10000 = 5 by omega]
      rfl)
  have hl : hstListed (0x101C + k * 0x20) = true := by
    have h1 : 0x1000 ≤ 0x101C + k.val * 0x20 := by omega
    have h2 : 0x101C + k.val * 0x20 < 0x3800 := by omega
    simp [hstListed, h1, h2]
  exact regStep_fw s q _ _ .hst (0x101C + k * 0x20) _ _ h (by omega) (fencedDie_hub _ _ (by omega))
    (regBad_gen q _ .hst _ hb rfl (by simp [hl])) hb (congrArg (Prod.mk s.spine) (hstWrite_outDq _ q _ _ k k.isLt h.fw))

theorem i2cGo_written (m : Fin 4) :
    exec (.i2cGo q m v) s = s.written s.spine ((s.dev.given q (F.LC_CAGE_I2C_GO m).addr v).i2cWrite q m v) := by
  have ha : (F.LC_CAGE_I2C_GO m).addr = 0x02010000000 + (0x40108 + m * 0x10) := by
    show 0x02010040000 + 0x108 + m.val * 0x10 = _
    omega
  have hb : blkOf (F.LC_CAGE_I2C_GO m).addr = some (.lc, 0x108 + m.val * 0x10) :=
    blkOf_hub_at (0x40108 + m * 0x10) _ .lc _ ha (by omega) (by omega) (by
      rw [show (0x40108 + m.val * 0x10) / 0x10000 = 4 by omega]
      rfl)
  obtain ⟨r, hr⟩ := Option.isSome_iff_exists.mp (findReg_row lcRegs 0x108 m 0x10 4 (by decide) (by decide) m.isLt)
  exact regStep_fw s q (F.LC_CAGE_I2C_GO m).addr v .lc (0x108 + m * 0x10) _ _ h (by omega) (fencedDie_hub _ _ (by omega))
    (regBad_of q _ .lc _ r.1.fields hb (by omega) (congrArg _ hr) rfl).1 hb
    (congrArg (Prod.mk s.spine) (lcWrite_i2c _ q v _ m m.isLt))
end

section
variable (s : State) (v : Word) (hf : hostFull (s.spine, s.dev) = true)
include hf

/-- The physical function's write of a word through BAR0, while the device answers the host. -/
theorem hostBarWrite_written (off : BitVec 26) (h4 : off.toNat % 4 = 0) (sp : Spine) (d : Dev)
    (hw : hostTaken 0 off.toNat (s.spine, s.dev) = true → hostWriteWord 0 off.toNat v (s.spine, s.dev) = (sp, d)) :
    exec (.hostBarWrite 0 off (leBytes 4 v.toNat)) s = s.written sp d := by
  have ht : hostTaken 0 off.toNat (s.spine, s.dev) = true := by simp [hostTaken, hf]
  refine wholeCmd_written s (hostWriteBytes 0 off.toNat (leBytes 4 v.toNat)) _ _
    ((hostWriteBytes_word 0 off.toNat v.toNat _ h4 v.isLt).trans ?_)
  rw [BitVec.ofNat_toNat, BitVec.setWidth_eq]
  exact hw ht

/-- The host may write LC_CTRL, and not GSO_MODE. -/
theorem hostBarWrite_lcCtrl : exec (.hostBarWrite 0 0x50004 (leBytes 4 v.toNat)) s =
    s.written s.spine (s.dev.plainWrite F.LC_CTRL_IDENT.addr v) := by
  have hb : blkOf (bar0Addr 0x50004) = some (.lc, 4) := blkOf_hub_at 0x40004 _ .lc 4 rfl (by decide) rfl rfl
  exact hostBarWrite_written s v hf 0x50004 rfl _ _ fun ht => hostWriteWord_may 0 0x50004 v _ ht (by decide) hb (by decide) rfl
theorem hostBarWrite_gsoMode : exec (.hostBarWrite 0 0x10000 (leBytes 4 v.toNat)) s =
    s.written s.spine (s.dev.hostDeny 0x10000) := by
  have hb : blkOf (bar0Addr 0x10000) = some (.gso, 0) := blkOf_hub_at 0 _ .gso 0 rfl (by decide) rfl rfl
  exact hostBarWrite_written s v hf 0x10000 rfl _ _ fun ht =>
    hostWriteWord_denied 0 0x10000 v _ ht (by decide) hb (by decide) rfl
end

/-- Settles O32: each write is the write of its block's register, on the device that the write is given to, of which it
reads nothing that a core's write buffer holds. -/
theorem moverRegisterWrites : Obligations.MoverRegisterWrites := by
  intro s q v sp f with_
  refine ⟨fun h => ⟨fun e n hn hd hm => ⟨fun hs hg => ?start, fun hr hs => ?stop⟩, fun r hd => swreqWrite_written s q v h r hd,
    fun hs hf ht he => eslKill_waiting s q v h hs hf ht he, fun k u => outWrAdvance_written s q h k u, fun m hg hb => ?i2c⟩,
    fun hf => ⟨hostBarWrite_lcCtrl s v hf, hostBarWrite_gsoMode s v hf⟩⟩
  case start =>
    refine (gstStart_written s q h e n hn hd hm hs hg).trans (congrArg (s.written s.spine) ?_)
    simp only [Dev.gstBegin, given_f]
    rfl
  case stop =>
    refine (gstStop_written s q h e n hn hd hm hr hs).trans (congrArg (s.written s.spine) ?_)
    rw [Dev.gstHalt, show (s.dev.given q _ _).chan e n = s.dev.chan e n from
      given_get (fun d => d.chan e n) (fun _ _ => rfl) _ _ _ _]
  case i2c =>
    refine (i2cGo_written s q v h m).trans (congrArg (s.written s.spine)
      ((i2cWrite_go _ q v m h.fw hg ((given_fb _ _ _ _ _).trans hb)).trans ?_))
    rw [show (s.dev.given q (F.LC_CAGE_I2C_GO m).addr v).cageAt m = s.dev.cageAt m from
      given_get (fun d => d.cageAt m) (fun _ _ => rfl) _ _ _ _]

end Sys2Proof.Proofs

/-! Proofs of the statement about the channel engines (chapter 10): O45. -/

namespace Sys2Proof.Machine
open Sys2Proof.Laws

/-! ## Words that go bad do not bear on an engine's queue, nor on a task's descriptor as Easel reads it -/

section
variable (d : Dev) (l : Ecc) (r e s : Nat)

theorem upset_engine : (d.upset l).engine r e = d.engine r e := by
  obtain ⟨b, hb⟩ := upset_eq d l
  rw [hb]
  rfl
theorem upset_unitHeld (type unit : Nat) : (d.upset l).unitHeld r type unit = d.unitHeld r type unit := by
  obtain ⟨b, hb⟩ := upset_eq d l
  rw [hb]
  rfl
theorem upset_df (off lo n : Nat) : (d.upset l).df s off lo n = d.df s off lo n := by
  obtain ⟨b, hb⟩ := upset_eq d l
  rw [hb]
  rfl
end

/-! ## Taking a task, and parking (R350, R356) -/

section
variable (r e : Nat)

/-- The running task as it starts: its operation and its descriptor, and nothing computed. -/
def EngRun.start (slot op : Nat) (l : List Byte) : EngRun :=
  { slot := slot, op := op, desc := l, code := none, undo := [], outs := [], fin := none }

/-- An idle engine whose unit is free takes the front task of its class and operations, once its descriptor is read. -/
theorem engStart_takes (ext : List Byte) {w w' : Whole} {t : Nat} {q : List Nat} {l : List Byte}
    (ha : engActs w.1 r e = true) (hn : (w.2.engine r e).run = none) (hu : w.2.unitHeld r 1 e = false)
    (hq : (w.2.engine r e).queue = t :: q) (hc : bitsOf (w.2.df t 0x20 0 32) 4 4 = engClass e)
    (hz : w.2.df t 0x20 0 32 / 256 = 0) (ho : w.2.df t 0x20 0 32 % 16 < engOps e)
    (hr : busRead (engReq r e) (w.2.dBuf0 t) 64 ext w = (.ok l, w')) :
    engStart r e ext w = (w'.1, w'.2.setEngine r e { w.2.engine r e with
      queue := q, run := some (EngRun.start t (w.2.df t 0x20 0 32 % 16) l) }) := by
  have hmay : (engActs w.1 r e && (w.2.engine r e).run.isNone && !w.2.unitHeld r 1 e) = true := by
    rw [ha, hn, hu]
    rfl
  simp only [engStart, hmay, if_true, hq, hc, ne_eq, not_true_eq_false, if_false, hr, hz, ho, and_self, EngRun.start]

theorem engPark_parks (d : Dev) (hq : (d.engine r e).queue = []) (hn : (d.engine r e).run = none)
    (hp : d.regionParked r = true) : d.engPark r e = d.setEngine r e { d.engine r e with parked := true } :=
  if_pos (by rw [hp, hq, hn]; rfl)
end

/-! ## A task that computes -/

/-- An engine acts on a task whose computing is not done. -/
structure Computes (r e : Nat) (t : EngRun) (w : Whole) : Prop where
  acts : engActs w.1 r e = true
  run : (w.2.engine r e).run = some t
  code : t.code = none
  fin : t.fin = none

section
variable {r e : Nat} {t : EngRun} {w : Whole}

/-- Only the operation that the task names computes. -/
theorem engRun_computes (h : Computes r e t w) {op : Nat} (ho : t.op = op) (k : EngRun → Whole → Whole) :
    engRun r e op k w = k t w := by
  simp only [engRun, h.acts, h.run, ho, h.code, h.fin, and_self, if_true, Option.isSome_none, Bool.false_eq_true, if_false]

/-- A read that succeeds gives the task its bytes. -/
theorem engGot_ok {x : AccOut × Whole} {l : List Byte} {w' : Whole} (h : x = (.ok l, w')) (k : List Byte → Whole → Whole) :
    engGot r e x k = k l w' := by
  rw [h]
  rfl

section
variable (h : Computes r e t w) (he : e < 2) (ext : List Byte)
include h he

/-- The three operations of an FFT engine read their input and write their result (R362, R363, R365). -/
theorem fftTask_forward (ho : t.op = 0) (hk : fftOk 0 t.desc = true) :
    fftTask r e 0 ext w = fftInput r e (bitsOf (dw t.desc 0 4) 4 2) (fftLen (fftParOf t.desc).rs + (fftParOf t.desc).cpLen) t.desc ext w
      fun inp v => fftResult r e t.desc (fftForward (fftParOf t.desc) inp) v :=
  (if_neg (by omega)).trans ((engRun_computes h ho _).trans (if_pos hk))
theorem fftTask_inverse (ho : t.op = 1) (hk : fftOk 1 t.desc = true) :
    fftTask r e 1 ext w = fftInput r e (bitsOf (dw t.desc 0 4) 4 2) (fftParOf t.desc).count t.desc ext w
      fun inp v => fftResult r e t.desc (fftInverse (fftParOf t.desc) inp) v :=
  (if_neg (by omega)).trans ((engRun_computes h ho _).trans (if_pos hk))
theorem fftTask_czt (ho : t.op = 2) (hk : fftOk 2 t.desc = true) {n : Nat} {rs : List Nat}
    (hn : cztLen (bitsOf (dw t.desc 0 4) 0 4) = some (n, rs)) :
    fftTask r e 2 ext w = fftInput r e (bitsOf (dw t.desc 0 4) 4 2) n t.desc ext w fun inp v => fftResult r e t.desc
      (cztRun (bitAt (dw t.desc 0 4) 10) n rs (bitsOf (dw t.desc 4 4) 0 12) (bitsOf (dw t.desc 4 4) 12 12) inp) v := by
  refine (if_neg (by omega)).trans ((engRun_computes h ho _).trans ((if_pos hk).trans ?_))
  simp only [if_true, hn]
/-- A descriptor that is none of the operation ends the task with PARAM. -/
theorem fftTask_param {op : Nat} (ho : t.op = op) (hk : fftOk op t.desc = false) : fftTask r e op ext w = engFail r e 2 3 w :=
  (if_neg (by omega)).trans ((engRun_computes h ho _).trans (if_neg (Bool.eq_false_iff.mp hk)))
end

/-! ## The encoder (R382) -/

/-- The blocks that a task of the encoder makes: those of a transport block, or the one there is. -/
def encBlocks (op : Nat) (c : CodeDesc) : List Nat :=
  if op = 0 ∨ op = 2 then (List.range c.num).map fun i => c.first + i else [0]

/-- The writes of a task of the encoder whose input is `b`: each block, where it belongs. -/
def encOuts (op : Nat) (c : CodeDesc) (b : List Byte) : List EngOut :=
  (encBlocks op c).flatMap fun i => outsAt (if op = 0 ∨ op = 2 then c.out + i * c.stride else c.out)
    (packBits (encoded c.par i c.rnti c.ant (unpackBits (encBits c) b)))

/-- A task of the encoder reads its input and writes its coded blocks, which are counted. -/
theorem encTask_encodes (h : Computes r 3 t w) (ext : List Byte) {op : Nat} (ho : t.op = op) (hk : encOk op t.desc = true)
    {b : List Byte} {w' : Whole}
    (hr : engRead r 3 (codeDesc true op t.desc).inp ((encBits (codeDesc true op t.desc) + 7) / 8) ext w = (.ok b, w')) :
    encTask r op ext w = engFinish r 3 (encOuts op (codeDesc true op t.desc) b) 0
      (w'.1, w'.2.countF (F.ENC_CB_COUNT r) (encBlocks op (codeDesc true op t.desc)).length) := by
  refine (engRun_computes h ho _).trans ((if_pos hk).trans ((engGot_ok hr _).trans ?_))
  simp only [Bool.or_eq_true, beq_iff_eq, encOuts, encBlocks]

/-! ## The decoder (R371, R373) -/

/-- What the index entry `ent` says of a soft buffer: its address and its size (R375). -/
def harqAt (ent : List Byte) : Nat := bitsOf (dw ent 0 8) 8 26 * 256
def harqSize (ent : List Byte) : Nat := bitsOf (dw ent 0 8) 34 20 * 256

section
variable (h : Computes r 2 t w) (ext : List Byte)
include h

/-- A HARQ task whose index entry names a soft buffer in HBM with room for its blocks reads and decodes them. -/
theorem harqTask_decodes {op : Nat} (ho : t.op = op) (hk : decOk op t.desc = true)
    (hen : w.2.fb (F.DEC_HARQ_CTRL_EN r) = true) {ent : List Byte} {w' : Whole}
    (hr : engRead r 2 (w.2.harqBase r + (w.2.dContext t.slot * 16 + (codeDesc false op t.desc).proc) * 8) 8 [] w = (.ok ent, w'))
    (hv : bitAt (dw ent 0 8) 0 = true) (hb : harqAt ent + harqSize ent ≤ 0x400000000)
    (hs : codeBlocks (codeDesc false op t.desc).par * (64 + 2 * softP (codeDesc false op t.desc).par) ≤ harqSize ent) :
    harqTask r op ext w = readBlocks r (codeDesc false op t.desc) (harqAt ent)
      ((List.range (codeDesc false op t.desc).num).map fun i => (codeDesc false op t.desc).first + i)
      (codeDesc false op t.desc).inp ext [] w' fun l v => decodeBlocks r t (codeDesc false op t.desc) (harqAt ent) l v := by
  refine (engRun_computes h ho _).trans ((if_pos hk).trans ((if_pos hen).trans ((engGot_ok hr _).trans (if_pos ?_))))
  simp only [Bool.and_eq_true, decide_eq_true_eq]
  exact ⟨⟨hv, hb⟩, hs⟩

variable {b : List Byte} {w' : Whole}

/-- The tasks of one block read their LLRs and write one payload. -/
theorem polarTask_decodes (ho : t.op = 1) (hk : decOk 1 t.desc = true)
    (hr : engRead r 2 (codeDesc false 1 t.desc).inp (codeDesc false 1 t.desc).par.g ext w = (.ok b, w')) :
    polarTask r ext w = decodeOne r t (codeDesc false 1 t.desc) (uciDecode (codeDesc false 1 t.desc).par (b.map llrIn)).1
      (uciDecode (codeDesc false 1 t.desc).par (b.map llrIn)).2 w' :=
  (engRun_computes h ho _).trans ((if_pos hk).trans (engGot_ok hr _))
theorem smallTask_decodes (ho : t.op = 3) (hk : decOk 3 t.desc = true)
    (hr : engRead r 2 (codeDesc false 3 t.desc).inp (codeDesc false 3 t.desc).par.g ext w = (.ok b, w')) :
    smallTask r ext w = decodeOne r t (codeDesc false 3 t.desc)
      (indexBits (codeDesc false 3 t.desc).par.a (smallDecode (codeDesc false 3 t.desc).par b)) [true] w' :=
  (engRun_computes h ho _).trans ((if_pos hk).trans (engGot_ok hr _))
/-- TB_CRC reads the payloads and writes its record alone. -/
theorem tbCrcTask_checks (ho : t.op = 4) (hk : decOk 4 t.desc = true)
    (hr : busReads (engReq r 2) (tbSpans (codeDesc false 4 t.desc)) ext w = (.ok b, w')) :
    tbCrcTask r ext w =
      (let c := codeDesc false 4 t.desc
       let pass := tbCrcOk c.par (tbBits c (List.range c.num) b)
       engFinish r 2 (outsAt c.result (decRecord (w'.2.dTaskId t.slot) (b2n (!pass)) (if pass then 1 else 2) c.first c.num (b2n pass)
         0 0 0 c.num)) 0 w') :=
  (engRun_computes h ho _).trans ((if_pos hk).trans (engGot_ok hr _))
end

/-! ## Completion (R352) -/

/-- A task that has its code makes no more writes of its computing. -/
theorem engDrain_ended {c : Nat} (ht : (w.2.engine r e).run = some t) (hc : t.code = some c) : engDrain r e w = w := by
  simp only [engDrain, ht, hc]

/-- What became of the running task does not bear on the engine once it runs none. -/
theorem mapEngine_mapRun (d : Dev) (f : EngRun → EngRun) :
    (d.mapRun r e f).mapEngine r e (fun y => { y with run := none }) = d.mapEngine r e fun y => { y with run := none } := by
  simp only [Dev.mapRun, Dev.mapEngine, Dev.setEngine, Dev.engine, smap_get_put_same, smap_put_put]

/-- A task that was not killed, or that a kill left no write and no record to make, is done: at most its running task has
changed. -/
theorem engLast_done {c : Nat} (hc : t.code = some c) (hk : c = 6 → e ≠ 2 ∧ t.outs = []) :
    engLast r e t w = (true, w) ∨ ∃ f, engLast r e t w = (true, w.1, w.2.mapRun r e f) := by
  by_cases h6 : c = 6
  · obtain ⟨he, ho⟩ := hk h6
    refine .inr ⟨fun u => { u with outs := [] }, ?_⟩
    have hcode : t.code = some 6 := hc.trans (congrArg some h6)
    simp only [engLast, hcode, ho, engPut, he, false_and, if_true, if_false, List.isEmpty_nil, Bool.not_true, Bool.and_false,
      Bool.false_eq_true, Dev.engUndo, List.foldl_nil]
  · exact .inl (if_neg fun h => h6 (Option.some.inj (hc.symm.trans h)))

/-- The engine signals the completion of a task whose writes are made, and runs none. -/
theorem engComplete_signals {c : Nat} (ha : engActs w.1 r e = true) (ht : (w.2.engine r e).run = some t)
    (hc : t.code = some c) (hk : c = 6 → e ≠ 2 ∧ t.outs = []) :
    engComplete r e w =
      (w.1, ((w.2.mapEngine r e fun y => { y with run := none }).engEndTask r e t.slot c).delegateDone (regionUid r e) 0) := by
  simp only [engComplete, ha, if_true, engDrain_ended ht hc, ht, hc]
  rcases engLast_done (r := r) (w := w) hc hk with h | ⟨f, h⟩
  · simp only [h, if_true]
  · simp only [h, if_true, mapEngine_mapRun]
end

end Sys2Proof.Machine

namespace Sys2Proof.Proofs
open Sys2Proof.Machine Sys2Proof.Laws

/-- The engine that computes does so still on a device whose words have gone bad meanwhile. -/
theorem computes_upset {s : State} {r e : Nat} {t : EngRun} (ha : engActs s.spine r e = true)
    (ht : (s.dev.engine r e).run = some t) (hc : t.code = none) (hf : t.fin = none) (ecc : Ecc) :
    Computes r e t (s.spine, s.dev.upset ecc) :=
  ⟨ha, by rw [upset_engine, ht], hc, hf⟩

/-- Settles O45: an engine that acts takes a task, computes it and completes it as its own law above says. -/
theorem engineTasks : Obligations.EngineTasks := by
  intro s r e ha d w x out
  refine ⟨fun t q ecc ext l w' hn hu hq hc hz ho hr => ?start, fun hq hn hp => congrArg s.to (engPark_parks r e d hq hn hp),
    fun t ht hc hf => ?tasks, fun t c ht hc hk => wholeCmd_whole s _ _ _ (engComplete_signals ha ht hc hk)⟩
  case start =>
    have htake := engStart_takes r e ext (w := w ecc) ha (by rw [upset_engine]; exact hn) (by rw [upset_unitHeld]; exact hu)
      (by rw [upset_engine]; exact hq) (by rw [upset_df]; exact hc) (by rw [upset_df]; exact hz) (by rw [upset_df]; exact ho) hr
    rw [upset_engine, upset_df] at htake
    exact wholeCmd_whole s _ _ _ htake
  case tasks =>
    have hcomp : ∀ ecc, Computes r e t (w ecc) := computes_upset ha ht hc hf
    refine ⟨fun ecc ext he ho hk => wholeCmd_whole s _ _ _ (fftTask_forward (hcomp ecc) he ext ho hk),
      fun ecc ext he ho hk => wholeCmd_whole s _ _ _ (fftTask_inverse (hcomp ecc) he ext ho hk),
      fun ecc ext n rs he ho hk hn => wholeCmd_whole s _ _ _ (fftTask_czt (hcomp ecc) he ext ho hk hn),
      fun ecc ext he ho hk => wholeCmd_whole s _ _ _ (fftTask_param (hcomp ecc) he ext ho hk),
      fun op ecc ext b w' he ho hk => ?encoder, fun op ecc ext ent w' he ho hop hk hen => ?harq, fun ecc ext b w' he => ?decoder⟩
    case encoder =>
      intro c tb hr
      have h3 : Computes r 3 t (w ecc) := he ▸ hcomp ecc
      have hres := encTask_encodes h3 ext ho hk hr
      refine ⟨?_, ?_, ?_, ?_, ?_⟩ <;> rintro rfl <;> exact wholeCmd_whole s _ _ _ hres
    case harq =>
      intro c buf size hr hv hb hs
      have h2 : Computes r 2 t (w ecc) := he ▸ hcomp ecc
      have hres := harqTask_decodes h2 ext ho hk hen hr hv hb hs
      constructor <;> rintro rfl <;> exact wholeCmd_whole s _ _ _ hres
    case decoder =>
      have h2 : Computes r 2 t (w ecc) := he ▸ hcomp ecc
      exact ⟨fun ho hk hr => wholeCmd_whole s _ _ _ (polarTask_decodes h2 ext ho hk hr),
        fun ho hk hr => wholeCmd_whole s _ _ _ (smallTask_decodes h2 ext ho hk hr),
        fun ho hk hr => wholeCmd_whole s _ _ _ (tbCrcTask_checks h2 ext ho hk hr)⟩

end Sys2Proof.Proofs

/-! Proofs of the statement about the narrowband engine (chapter 11): O46. -/

namespace Sys2Proof.Machine

/-! ## Steps of the engine in service -/

/-- A step of the narrowband engine in service (R432), of which the effect on the device is known. -/
theorem nceActs_to (s : State) (f : Spine → Dev → Dev) (d : Dev) (ho : s.spine.contain.out nceUid = false)
    (h : f s.spine s.dev = d) : devCmd s (nceActs f) = s.to d :=
  congrArg s.to ((if_neg (Bool.eq_false_iff.mp ho)).trans h)

/-- What a command on the whole block answers, by the pair that its effect comes to. -/
theorem wholeCmd_pair (s : State) (f : Whole → Whole) (w : Whole) (h : f (s.spine, s.dev) = w) : wholeCmd s f = s.whole w.1 w.2 :=
  wholeCmd_whole s f w.1 w.2 h

section
variable (d : Dev)

/-! ## Capture and the Lull window (R392, R402) -/

/-- A stall that has not been reported is, and the frames under reception from the stream note it. -/
theorem captureStall_reports (sp : Spine) (k : Nat) (hs : d.capStalled sp k = true) (hf : (d.strm false k).flag = false) :
    d.captureStall sp k =
      (let d1 := (d.mapStrm false k fun x => { x with flag := true }).raise evNceCapStall nceUid
       (d1.nceCh.map (·.1)).foldl (fun e n =>
         if e.fb (F.NCE_CH_CFG_RX_EN n) && e.f (F.NCE_CH_CFG_STREAM n) == k then e.mapNce n fun c =>
           { c with frame := c.frame.map fun (f : NceFrame) => { f with stall := true } } else e) d1) :=
  if_pos (by rw [hs, hf]; rfl)

section
variable (n : Nat)

theorem lullReport_full (h : d.lullLen ≤ d.f (F.NCE_CH_STATE_LULL n)) : d.lullReport n =
    ((d.setF (F.NCE_NOISE_FLOOR_FLOOR n) (wrapInt 12
      (level4 (d.nce n).lullPow (d.f (F.NCE_CH_STATE_LULL n) * d.chSps n)))).setF (F.NCE_CH_STATE_LULL n) 0).mapNce n fun c =>
        { c with lullPow := 0 } := if_pos h

/-! ## Symbols, headers and replays (R399, R412, R415) -/

theorem nceSymbol_arrived (hc : d.chSt n ≠ 0) (ha : d.symArrived n (d.nce n).m = true) :
    d.nceSymbol n = d.nceStep n (d.symSamples n (d.nce n).m) := if_pos ⟨hc, ha⟩

section
variable (f : NceFrame) (hc : d.chSt n = 2) (hf : (d.nce n).frame = some f)
include hc hf

/-- A header whose codeword fails ends its frame as a false sync. -/
theorem headerResult_fails (h : d.headerOf n f = some none) : d.headerResult n = d.falseSync n f none := by
  simp only [Dev.headerResult, hc, hf, h]

/-- A header that decodes discards the candidate and gives the length of the payload (R403, R413). -/
theorem headerResult_decodes (x : List Nat × Nat) (h : d.headerOf n f = some (some x)) : d.headerResult n =
    ((d.setChSt n 3).mapNce n fun c =>
      { c with cand := none, frame := some { f with hdr := some x, pay := d.payLen (d.chProf n) x.1 } }).payCheck n := by
  simp only [Dev.headerResult, hc, hf, h]
end

/-- The replayed sync has ended: the loop has run over its symbols and those before it, the frame begins, and the symbols
behind the sync go on to it. -/
theorem replayEnd_resumes (sync ph : Nat) (ferr : Int) (l : List NceSymb) (hc : d.chSt n = 4)
    (hr : (d.nce n).replay = some (sync, ph, ferr, l)) : d.replayEnd n =
      (let len := d.f (F.NCE_PROF_SYNC_SYNC_LEN (d.chProf n))
       let head := l.take (d.f (F.NCE_PROF_SYNC_ATTACK (d.chProf n)) + len)
       let d1 := (head.foldl (fun d x => d.gainLoop n x) d).mapNce n fun c =>
         { c with replay := none, hist := head, m := sync + len }
       (l.drop (d.f (F.NCE_PROF_SYNC_ATTACK (d.chProf n)) + len)).foldl (fun d x => d.nceStep n x.samp)
         (d1.frameStart n sync ph head ferr true)) := by
  simp only [Dev.replayEnd, hc, hr]

/-! ## Windows (R430) -/

/-- A window opens with the gain that the window before it left (R401), and the schedule goes on to the next one. -/
theorem windowOpen_opens (x : Nat) (hc : d.chSt n = 1) (hb : d.profBurst (d.chProf n) = true)
    (hm : bitAt (d.nce n).mask ((d.nce n).win % 8) = true) (hw : d.winSample n (d.nce n).win = some x)
    (hx : x ≤ d.capCnt (d.f (F.NCE_CH_CFG_STREAM n))) : d.windowOpen n =
      (let c := d.nce n
       let next := ((List.range 8).map fun j => c.win + 1 + j).find? fun i => bitAt c.mask (i % 8)
       (((d.gainStep n c.e).setChSt n 5).mapNce n fun c => { c with base := x, m := 0, hist := [], frame := none }).mapNce n
         fun y => { y with win := next.getD (c.win + 1) }) := by
  unfold Dev.windowOpen
  refine (if_pos ⟨hc, hb, hm⟩).trans ?_
  rw [hw]
  exact if_pos hx
end

/-! ## Service passes (R431) -/

theorem within_iff (lo hi n : Nat) : within lo hi n = true ↔ lo ≤ n ∧ n ≤ hi := by
  rw [within, Bool.and_eq_true, decide_eq_true_eq, decide_eq_true_eq]

/-- A pass visits every group: one that is active makes progress, and one whose work in STOPPING is complete stops. -/
theorem nceService_visits (sp : Spine) : d.nceService sp = (List.range 64).foldl (fun d g =>
    if 2 ≤ d.fnState (fnNce g) ∧ d.fnState (fnNce g) ≤ 4 then
      if (d.progress sp (fnNce g)).fnState (fnNce g) = 4 ∧ (d.progress sp (fnNce g)).nceDrained sp g = true then
        (d.progress sp (fnNce g)).fnStopped sp (fnNce g) else d.progress sp (fnNce g)
    else d) d := by
  simp only [Dev.nceService, within_iff, Bool.and_eq_true, beq_iff_eq]
end

/-! ## Records (R421) -/

section
variable (g : Nat) (j : NceJob) (w : Whole)

/-- Once every write of a record has landed, its pointers advance. -/
theorem nceJobRun_landed (h : (nceWrites j.outs w).1 = []) :
    nceJobRun g j w = ((nceWrites j.outs w).2.1, (nceWrites j.outs w).2.2.nceLanded g j) :=
  if_pos (List.isEmpty_iff.mpr h)

/-- Until then the job keeps the writes that remain. -/
theorem nceJobRun_waits (h : (nceWrites j.outs w).1 ≠ []) : nceJobRun g j w = ((nceWrites j.outs w).2.1,
    (nceWrites j.outs w).2.2.mapGrp g fun y => { y with job := some { j with outs := (nceWrites j.outs w).1 } }) :=
  if_neg (mt List.isEmpty_iff.mp h)

/-- The engine goes on with the record of a group that is under way, or begins the one that waits. -/
theorem nceRecordWrite_runs (ho : w.1.contain.out nceUid = false) (h : ((w.2.nceBegin g).grp g).job = some j) :
    nceRecordWrite g w = nceJobRun g j (w.1, w.2.nceBegin g) := by
  simp only [nceRecordWrite, ho, Bool.false_eq_true, if_false, h]
end

/-! ## Transmit (R424, R425) -/

section
variable (w : Whole) (ho : w.1.contain.out nceUid = false)
include ho

/-- A group with no bits left to read takes the entry that it reads: it reads the bits of a burst that it accepts, and
writes the status of an entry that it does not. -/
theorem nceTxEntry_takes {g idx : Nat} {l : List Byte} {w' : Whole} (hu : w.2.txUnread g = none)
    (hn : w.2.txNext g = some idx) (hr : busRead nceReq (w.2.txEntryAt g idx) 32 [] w = (.ok l, w')) :
    ((w'.2.txTake w'.1 g idx l).1 = none →
      nceTxEntry g w = nceFetchBits g (w'.1, (w'.2.txTake w'.1 g idx l).2)) ∧
    (∀ st, (w'.2.txTake w'.1 g idx l).1 = some st →
      nceTxEntry g w = nceStatusWrite g idx st (w'.1, (w'.2.txTake w'.1 g idx l).2)) := by
  have hfetch : nceFetchBits g w = w := by simp only [nceFetchBits, hu]
  unfold nceTxEntry
  rw [if_neg (Bool.eq_false_iff.mp ho), hfetch]
  simp only [hn]
  -- The read is replaced by its answer alone, before anything compares that answer: the kernel would evaluate the read.
  simp only [hr]
  exact ⟨fun ht => by simp only [reduceCtorEq, if_false, entryBytes, ht],
    fun st ht => by simp only [reduceCtorEq, if_false, entryBytes, ht]⟩

/-- The status of a burst that has been generated is SENT, or READ_ERR where its bits could not be read. -/
theorem nceTxDone_writes {n : Nat} {e : NceEnt} {bad : Bool} (hg : w.2.txGenerated w.1 n = true)
    (hl : w.2.txLive n = some e) (hb : e.got = some bad) :
    nceTxDone n w = nceStatusWrite (n / 24) e.idx (if bad then 6 else 1) (w.1, w.2.txDone n e bad) := by
  simp only [nceTxDone, ho, hg, hl, hb, Bool.not_true, Bool.or_self, Bool.false_eq_true, if_false]
end

end Sys2Proof.Machine

namespace Sys2Proof.Proofs
open Sys2Proof.Machine

/-- Settles O46: each step of the engine acts, since the engine is in service, as its equation above says. -/
theorem nceSteps : Obligations.NceSteps := by
  intro s ho sp d
  refine ⟨fun k hs hf => ?stall, fun n hc ha => ?symbol, fun n f hc hf => ⟨fun h => ?fails, fun x h => ?decodes⟩,
    fun n sync ph ferr l hc hr => ?replay, fun n h => ?lull, fun n x hc hb hm hw hx => ?window,
    fun g j hj => ⟨fun h => ?landed, fun h => ?waits⟩,
    fun g idx ecc l w' hu hn hr => ⟨fun ht => ?accepted, fun st ht => ?decided⟩,
    fun n e ecc bad hg hl hb => ?sent, ?service⟩
  case stall => exact nceActs_to s _ _ ho (captureStall_reports d sp k hs hf)
  case symbol => exact nceActs_to s _ _ ho (nceSymbol_arrived d n hc ha)
  case fails => exact nceActs_to s _ _ ho (headerResult_fails d n f hc hf h)
  case decodes => exact nceActs_to s _ _ ho (headerResult_decodes d n f hc hf x h)
  case replay => exact nceActs_to s _ _ ho (replayEnd_resumes d n sync ph ferr l hc hr)
  case lull => exact nceActs_to s _ _ ho (lullReport_full d n h)
  case window => exact nceActs_to s _ _ ho (windowOpen_opens d n x hc hb hm hw hx)
  case landed =>
    exact wholeCmd_whole s _ _ _ ((nceRecordWrite_runs g j (sp, d) ho hj).trans (nceJobRun_landed g j _ h))
  case waits =>
    exact wholeCmd_whole s _ _ _ ((nceRecordWrite_runs g j (sp, d) ho hj).trans (nceJobRun_waits g j _ h))
  case accepted => exact wholeCmd_pair s _ _ ((nceTxEntry_takes (sp, d.upset ecc) ho hu hn hr).1 ht)
  case decided => exact wholeCmd_pair s _ _ ((nceTxEntry_takes (sp, d.upset ecc) ho hu hn hr).2 st ht)
  case sent => exact wholeCmd_pair s _ _ (nceTxDone_writes (sp, d.upset ecc) ho hg hl hb)
  case service => exact nceActs_to s _ _ ho (nceService_visits d sp)

end Sys2Proof.Proofs

/-! Proofs of the statements about the timebase, the trim outputs, Glaze, SPDM, the line card, events and test access
(chapters 13 to 18): O30, O39, O40, O48, O49, O51, O55 and O59. -/

namespace Sys2Proof.Machine

/-! ## Time -/

/-- The full reset leaves the time as it is. -/
theorem fullReset_now (w : Whole) : (fullReset w).1.now = w.1.now := by
  unfold fullReset
  split <;> rfl

/-- A step that runs the full reset leaves the time as it is. -/
theorem step_fullReset_now (s t : State) (hr : s.pending.head? = some .fullResetExecute) (e : step s = .next t) :
    t.spine.now = s.spine.now := by
  obtain ⟨rest, hl⟩ := List.head?_eq_some_iff.mp hr
  have he : step s = execFullResetExecute { s with pending := rest } := by
    unfold step
    rw [hl]
    rfl
  rw [he] at e
  injection e with e
  exact e ▸ fullReset_now (s.spine, s.dev)

end Sys2Proof.Machine

namespace Sys2Proof.Proofs
open Sys2Proof.Machine Sys2Proof.Laws

/-- Settles O59: the full reset leaves the time, and every other step but the loss of power leads to a later spine. -/
theorem timeNeverDecreases : Obligations.TimeNeverDecreases := by
  intro s t e hp
  by_cases hr : s.pending.head? = some .fullResetExecute
  · exact (step_fullReset_now s t hr e).ge
  · exact (step_later s t e hp hr).now

/-- Settles O55: the step takes the command from the queue; with none it is the tick, which withholds what a backward step
still asks for. -/
theorem stepRunsFrontCommand : Obligations.StepRunsFrontCommand := by
  refine ⟨fun c l s => rfl, fun s h => ?_⟩
  have he : step s = wholeCmd s tick := by
    unfold step
    rw [h]
    rfl
  exact he.trans (wholeCmd_whole s tick _ _ rfl)

end Sys2Proof.Proofs

namespace Sys2Proof.Machine
open Sys2Proof.Laws

/-! ## Fields of one bit -/

theorem fb_setF_ne (d : Dev) (x y : Fld) (v : Nat) (h : y.addr ≠ x.addr) : (d.setF x v).fb y = d.fb y :=
  congrArg (· == 1) (f_setF_ne d x y v h)
/-- A field that reads zero is not 1. -/
theorem fb_of_zero (d : Dev) (x : Fld) (h : d.f x = 0) : d.fb x = false := by
  rw [Dev.fb, h]
  rfl

end Sys2Proof.Machine

namespace Sys2Proof.Machine
open Sys2Proof.Laws

/-! ## Writes of the timebase and of the trim outputs -/

section
variable (s : State) (q : Req) (a o : Nat) (v : Word) (h : Fw s q) (h4 : o % 4 = 0)
include h h4

/-- A write of a register of the `TB` block by M-level hub firmware, whose effect `he` states. -/
theorem regStep_tb (sp' : Spine) (d' : Dev) (e : a = blkBase .tb + o) (ho : o < 0x10000) (hf : (findReg tbRegs o).isSome = true)
    (he : blkWrite q .tb o a v (s.spine, s.dev.given q a v) = (sp', d')) : wholeCmd s (regStep q a v) = s.written sp' d' := by
  obtain ⟨r, hr⟩ := Option.isSome_iff_exists.mp hf
  have ha : a = 0x02010000000 + (0x20000 + o) := e.trans (Nat.add_assoc 0x02010000000 0x20000 o)
  have hb : blkOf a = some (.tb, o) := blkOf_hub_at (0x20000 + o) a .tb o ha (by omega) (by omega)
    (by rw [show (0x20000 + o) / 0x10000 = 2 by omega]; rfl)
  exact regStep_fw s q _ v .tb o _ _ h (by omega) (fencedDie_hub _ _ (by omega))
    (regBad_of q _ .tb o r.1.fields hb (by omega) (by rw [blkRegs, hr]; rfl) rfl).1 hb he

/-- A write of a register of the `TRM` block by M-level hub firmware. -/
theorem regStep_trm (e : a = blkBase .trm + o) (ho : o < 0x10000) (hf : (findReg trmRegs o).isSome = true) :
    wholeCmd s (regStep q a v) = s.written s.spine ((s.dev.given q a v).trmWrite s.spine q o a v) := by
  obtain ⟨r, hr⟩ := Option.isSome_iff_exists.mp hf
  have ha : a = 0x02010000000 + (0x30000 + o) := e.trans (Nat.add_assoc 0x02010000000 0x30000 o)
  have hb : blkOf a = some (.trm, o) := blkOf_hub_at (0x30000 + o) a .trm o ha (by omega) (by omega)
    (by rw [show (0x30000 + o) / 0x10000 = 3 by omega]; rfl)
  exact regStep_fw s q _ v .trm o _ _ h (by omega) (fencedDie_hub _ _ (by omega))
    (regBad_of q _ .trm o r.1.fields hb (by omega) (by rw [blkRegs, hr]; rfl) rfl).1 hb rfl
end

section
variable (sp : Spine) (d : Dev) (q : Req) (v : Word)

/-- A plain write leaves the fields of every other register. -/
theorem f_plainWrite_ne (a : Nat) (y : Fld) (h : y.addr ≠ a) : (d.plainWrite a v).f y = d.f y := by
  unfold Dev.plainWrite
  split
  · rfl
  · exact f_setReg_ne d a _ y h

/-! ### Samples and steps (R474, R484) -/

/-- A sample that is committed while none waits and no step is in progress. -/
theorem commitSample_first (x : Int) (hs : d.fb F.TB_STATUS_STEPPING = false) (hn : d.tb.sample = none) :
    d.commitSample sp x = ({ d with tb := { d.tb with sample := some x, heard := sp.now } } : Dev).clearCause sp 0 := by
  unfold Dev.commitSample
  rw [if_neg (Bool.eq_false_iff.mp hs)]
  simp only [hn, Option.isSome_none, Bool.false_eq_true, if_false]

/-- The traffic functions are numbered below 130. -/
theorem trafficFns_lt (n : Nat) (h : n ∈ trafficFns) : n < 130 := by
  rcases List.mem_append.mp h with h | h
  · have := List.mem_range.mp h
    omega
  · have := List.mem_singleton.mp h
    omega
/-- Whether traffic is active is a matter of the functions' states. -/
theorem traffic_congr (d e : Dev) (h : ∀ n < 130, d.fnState n = e.fnState n) : d.traffic = e.traffic := by
  rw [Bool.eq_iff_iff, Dev.traffic, Dev.traffic, List.any_eq_true, List.any_eq_true]
  refine exists_congr fun n => and_congr_right fun hn => ?_
  rw [Dev.fnActive, Dev.fnActive, h n (trafficFns_lt n hn)]

/-- The relative step that the step registers name, in time units. -/
def stepBy (d : Dev) : Int :=
  nsToUnits (sx 64 (d.f F.TB_STEP_SEC_LO_SEC + d.f F.TB_STEP_SEC_HI_SEC * 2 ^ 32) * 10 ^ 9 + d.fs F.TB_STEP_NS_NS)

/-- GO of a relative step, while no traffic is active and no step in progress, steps the time. -/
theorem stepGoWrite_relative (hq : reqFw q = true) (hg : bitAt v.toNat 0 = true) (hr : bitAt v.toNat 1 = false)
    (ht : d.traffic = false) (hs : d.f F.TB_STATUS_STEPPING = 0) :
    stepGoWrite q v (sp, d) = stepTime sp (d.setF F.TB_STEP_CMD_ABS 0) (stepBy d) := by
  have hf (y : Fld) (hy : y.addr ≠ F.TB_STEP_CMD_ABS.addr) : (d.setF F.TB_STEP_CMD_ABS 0).f y = d.f y := f_setF_ne d _ y 0 hy
  have hfn (n : Nat) (hn : n < 130) : (d.setF F.TB_STEP_CMD_ABS 0).fnState n = d.fnState n :=
    hf _ (by simp only [F.GSO_FUNC_STATE, F.TB_STEP_CMD_ABS, blkBase]; omega)
  have hfree : ((d.setF F.TB_STEP_CMD_ABS 0).traffic || (d.setF F.TB_STEP_CMD_ABS 0).fb F.TB_STATUS_STEPPING) = false := by
    rw [traffic_congr _ d hfn, ht, fb_of_zero _ _ ((hf _ (by decide)).trans hs)]
    rfl
  have habs : b2n false = 0 := rfl
  unfold stepGoWrite
  dsimp only
  rw [if_neg (by simp [hq]), if_neg (by simp [hg]), hr, habs, if_neg (Bool.eq_false_iff.mp hfree),
    if_neg Bool.false_ne_true, Dev.fs, hf _ (by decide), hf _ (by decide), hf _ (by decide)]
  rfl

/-- A backward step withholds its amount; time stands. -/
theorem stepTime_back (y : Int) (h : y < 0) : stepTime sp d y =
    (sp, ({ d with tb := { d.tb with withhold := (-y).toNat } } : Dev).setF F.TB_STATUS_STEPPING 1) := if_pos h
/-- A forward step moves the time at once, and judges the triggers that it passes. -/
theorem stepTime_forward (y : Int) (h : 0 ≤ y) : stepTime sp d y = (sp.goto (sp.now + y.toNat),
    (d.trigStep (sp.goto (sp.now + y.toNat)) sp.now).stepDone (sp.goto (sp.now + y.toNat))) := if_neg (Int.not_lt.mpr h)

/-! ### Writes of the `TB` block, by M-level hub firmware -/

section
variable (hq : reqFw q = true)
include hq

theorem tbWrite_offsetHi (a : Nat) (hs : d.fb F.TB_SERVO_CFG_SRC = false) : d.tbWrite sp q 0x34 a v =
    d.commitSample sp (sx 48 (d.tb.ofsLo + v.toNat % 2 ^ 16 * 2 ^ 32)) := by
  unfold Dev.tbWrite
  rw [if_neg (by simp [hq]), if_neg (by decide), if_neg (by decide), if_pos rfl]
  exact if_neg (Bool.eq_false_iff.mp hs)

/-- A write of a trigger's CTRL. -/
theorem tbWrite_trigCtrl (a n : Nat) : d.tbWrite sp q (0x100C + n * 0x20) a v = d.trigCtrl sp q n v := by
  have hn : (0x100C + n * 0x20 - 0x1000) / 0x20 = n := by omega
  unfold Dev.tbWrite
  rw [if_neg (by simp [hq]), if_pos (by omega)]
  dsimp only
  rw [if_pos (by omega), hn]

/-- EN 1 arms a disarmed trigger: it is judged in this tick. -/
theorem trigCtrl_arms (n : Nat) (hv : bitAt v.toNat 0 = true) (he : d.f (F.TB_TRIG_CTRL_EN n) = 0) : d.trigCtrl sp q n v =
    (let e := d.plainWrite (F.TB_TRIG_CTRL_EN n).addr v; e.trigRun sp n (prevTick sp) (e.trigFuel sp n)) := by
  unfold Dev.trigCtrl
  rw [if_neg (by simp [hq]), if_pos hv, if_neg (by simp [Dev.fb, he])]
  rfl
/-- EN 0 disarms an armed one. -/
theorem trigCtrl_disarms (n : Nat) (hv : bitAt v.toNat 0 = false) (hs : d.f (F.TB_TRIG_STAT_STATE n) = 1) :
    d.trigCtrl sp q n v =
      ((d.plainWrite (F.TB_TRIG_CTRL_EN n).addr (v ||| (d.reg (F.TB_TRIG_CTRL_EN n).addr &&& 1))).setF
        (F.TB_TRIG_CTRL_EN n) 0).setF (F.TB_TRIG_STAT_STATE n) 0 := by
  have hne : (F.TB_TRIG_STAT_STATE n).addr ≠ (F.TB_TRIG_CTRL_EN n).addr := by
    simp only [F.TB_TRIG_STAT_STATE, F.TB_TRIG_CTRL_EN]
    omega
  unfold Dev.trigCtrl
  rw [if_neg (by simp [hq]), if_neg (Bool.eq_false_iff.mp hv)]
  exact if_pos ((f_plainWrite_ne d _ _ _ hne).trans hs)

/-! ### Writes of the `TRM` block, by M-level hub firmware -/

theorem trmWrite_code (a c : Nat) : d.trmWrite sp q (0x104 + c * 0x10) a v = d.trimHand sp c (v.toNat % 2 ^ 16) false := by
  have hc : (0x104 + c * 0x10 - 0x100) / 0x10 = c := by omega
  unfold Dev.trmWrite
  rw [if_neg (by simp [hq]), if_neg (by omega), if_pos (by omega), hc]
theorem trmWrite_wdog (a : Nat) : d.trmWrite sp q 4 a v = d.wdogWrite sp v := (if_neg (by simp [hq])).trans (if_pos rfl)
end

/-- A code for a channel in service that drives and that the servo does not own waits for the boundary. -/
theorem trimHand_accepts (c code : Nat) (hu : d.fnUp (130 + c) = true) (hm : d.mode ≠ 5)
    (hs : bitAt (d.f F.TRM_STATUS_SAFE) c = false) (hp : sp.contain.pkg = 0)
    (ho : c = 0 → d.f F.TB_SERVO_CFG_OUT ≠ 1 ∧ d.f F.TB_SERVO_CFG_OUT ≠ 2) :
    d.trimHand sp c code false = d.mapTrim c fun x => { x with next := some code } := by
  have hown : (c == 0 && (d.f F.TB_SERVO_CFG_OUT == 1 || d.f F.TB_SERVO_CFG_OUT == 2)) = false := by
    by_cases hc : c = 0
    · simp [ho hc]
    · simp [hc]
  unfold Dev.trimHand
  dsimp only
  rw [hown]
  exact if_pos (by simp [hu, hm, hs, hp])

/-- A kick with a timeout runs the watchdog of a device that has reached DORMANT. -/
theorem wdogWrite_kick (hm : v.toNat % 2 ^ 16 ≠ 0) (hk : bitAt v.toNat 16 = true) (hd : d.fb F.HST_STATUS_DORMANT = true) :
    d.wdogWrite sp v =
      (({ d with wdogAt := sp.now } : Dev).setF F.TRM_WDOG_TIMEOUT_MS (v.toNat % 2 ^ 16)).setF F.TRM_WDOG_RUN 1 := by
  unfold Dev.wdogWrite
  dsimp only
  rw [if_neg hm, if_neg hm, if_pos (by simp [hk, hd])]
/-- A timeout without a kick is taken, and 0 stops the watchdog. -/
theorem wdogWrite_timeout (hk : bitAt v.toNat 16 = false) : d.wdogWrite sp v =
    if v.toNat % 2 ^ 16 = 0 then (d.setF F.TRM_WDOG_TIMEOUT_MS 0).setF F.TRM_WDOG_RUN 0
    else ({ d with wdogAt := sp.now } : Dev).setF F.TRM_WDOG_TIMEOUT_MS (v.toNat % 2 ^ 16) := by
  unfold Dev.wdogWrite
  dsimp only
  split
  next h => rw [h]
  next h => rw [if_neg (by simp [hk])]
end

/-! ### The words that the commands write -/

section
variable (v : Word)
theorem bitAt_or_one : bitAt (v ||| 1).toNat 0 = true := by
  rw [← getLsbD_eq_bitAt]
  simp
theorem bitAt_and_not_one : bitAt (v &&& ~~~1).toNat 0 = false := by
  rw [← getLsbD_eq_bitAt]
  simp
theorem bitAt_or_kick : bitAt (v ||| 0x10000).toNat 16 = true := by
  rw [← getLsbD_eq_bitAt, BitVec.getLsbD_or]
  exact Bool.or_eq_true_iff.mpr (.inr rfl)
theorem bitAt_and_not_kick : bitAt (v &&& ~~~0x10000).toNat 16 = false := by
  rw [← getLsbD_eq_bitAt, BitVec.getLsbD_and]
  exact Bool.and_eq_false_iff.mpr (.inr rfl)
/-- The timeout stands below the KICK bit. -/
theorem timeout_or_kick : (v ||| 0x10000).toNat % 2 ^ 16 = v.toNat % 2 ^ 16 := by
  rw [BitVec.toNat_or, Nat.or_mod_two_pow]
  exact Nat.or_zero _
theorem timeout_and_not_kick : (v &&& ~~~0x10000).toNat % 2 ^ 16 = v.toNat % 2 ^ 16 := by
  rw [BitVec.toNat_and, Nat.and_mod_two_pow, show (~~~(0x10000 : Word)).toNat % 2 ^ 16 = 2 ^ 16 - 1 from rfl,
    Nat.and_two_pow_sub_one_eq_mod, Nat.mod_mod]
end

end Sys2Proof.Machine

namespace Sys2Proof.Proofs
open Sys2Proof.Machine Sys2Proof.Laws

section
variable (s : State) (q : Req) (v : Word) (h : Fw s q)
include h

theorem offsetCommit_written (hs : s.dev.f F.TB_SERVO_CFG_SRC = 0) :
    exec (.offsetCommit q v) s = (let d := s.dev.given q F.TB_OFFSET_IN_HI_OFS.addr v
      s.written s.spine (d.commitSample s.spine (sx 48 (d.tb.ofsLo + v.toNat % 2 ^ 16 * 2 ^ 32)))) := by
  refine regStep_tb s q _ 0x34 v h rfl _ _ rfl (by decide) (by decide) (congrArg (Prod.mk s.spine) ?_)
  exact tbWrite_offsetHi s.spine _ q v h.fw _ (fb_of_zero _ _ ((given_f _ _ _ _ _).trans hs))

theorem stepGo_written (hg : v.toNat % 2 = 1) (hr : bitAt v.toNat 1 = false) (ht : s.dev.traffic = false)
    (hs : s.dev.f F.TB_STATUS_STEPPING = 0) (sp' : Spine) (d' : Dev)
    (he : stepTime s.spine ((s.dev.given q F.TB_STEP_CMD_GO.addr v).setF F.TB_STEP_CMD_ABS 0) (stepBy s.dev) = (sp', d')) :
    exec (.stepGo q v) s = s.written sp' d' := by
  refine regStep_tb s q _ 0x2C v h rfl _ _ rfl (by decide) (by decide) ?_
  have hb : stepBy (s.dev.given q F.TB_STEP_CMD_GO.addr v) = stepBy s.dev := given_get stepBy (fun _ _ => rfl) _ _ _ _
  rw [← hb] at he
  exact (stepGoWrite_relative s.spine _ q v h.fw (by simp [bitAt, hg]) hr
    ((given_get Dev.traffic (fun _ _ => rfl) _ _ _ _).trans ht) ((given_f _ _ _ _ _).trans hs)).trans he

/-- A write of a trigger's CTRL. -/
theorem trigCtrl_written (n : Fin 256) :
    wholeCmd s (regStep q (F.TB_TRIG_CTRL_EN n).addr v) = s.written s.spine
      ((s.dev.given q (F.TB_TRIG_CTRL_EN n).addr v).trigCtrl s.spine q n v) := by
  refine regStep_tb s q _ (0x100C + n * 0x20) v h (by omega) _ _ (Nat.add_assoc _ _ _) (by omega)
    (findReg_row _ _ _ 0x20 256 (by decide) (by decide) n.isLt) ((if_neg (by omega)).trans (congrArg (Prod.mk s.spine) ?_))
  exact tbWrite_trigCtrl s.spine _ q v h.fw _ n

theorem codeReq_written (c : Fin 4) : exec (.codeReq q c v) s = s.written s.spine
    ((s.dev.given q (F.TRM_CH_CODE_REQ c).addr v).trimHand s.spine c (v.toNat % 2 ^ 16) false) :=
  (regStep_trm s q _ (0x104 + c * 0x10) v h (by omega) (Nat.add_assoc _ _ _) (by omega)
    (findReg_row _ _ _ 0x10 4 (by decide) (by decide) c.isLt)).trans
    (congrArg (s.written s.spine) (trmWrite_code s.spine _ q v h.fw _ c))

/-- A write of the watchdog's register. -/
theorem wdog_written : wholeCmd s (regStep q F.TRM_WDOG_KICK.addr v) = s.written s.spine
    ((s.dev.given q F.TRM_WDOG_KICK.addr v).wdogWrite s.spine v) :=
  (regStep_trm s q _ 4 v h rfl rfl (by decide) (by decide)).trans
    (congrArg (s.written s.spine) (trmWrite_wdog s.spine _ q v h.fw _))
end

/-- Settles O30: each write is the write of its block's register, on the device that the write is given to, which differs
only in its cores' write buffers. -/
theorem timeRegisterWrites : Obligations.TimeRegisterWrites := by
  intro s q v h
  refine ⟨fun hsrc hs hn => ?offset, fun hg hr ht hs => ⟨fun hb => ?back, fun hb => ?forward⟩,
    fun n => ⟨fun he => ?arm, fun he hs => ?disarm⟩, fun c hu hm hs hp ho => ?code, fun hms hd => ?kick, ?timeout⟩
  case offset =>
    exact (offsetCommit_written s q v h hsrc).trans (congrArg (s.written s.spine) (commitSample_first s.spine _ _
      (fb_of_zero _ _ ((given_f _ _ _ _ _).trans hs))
      ((given_get (fun d => d.tb.sample) (fun _ _ => rfl) _ _ _ _).trans hn)))
  case back => exact stepGo_written s q v h hg hr ht hs _ _ (stepTime_back s.spine _ (stepBy s.dev) hb)
  case forward => exact stepGo_written s q v h hg hr ht hs _ _ (stepTime_forward s.spine _ (stepBy s.dev) hb)
  case arm =>
    exact (trigCtrl_written s q (v ||| 1) h n).trans (congrArg (s.written s.spine)
      (trigCtrl_arms s.spine _ q _ h.fw n (bitAt_or_one v) ((given_f _ _ _ _ _).trans he)))
  case disarm =>
    exact (trigCtrl_written s q (v &&& ~~~1) h n).trans (congrArg (s.written s.spine)
      (trigCtrl_disarms s.spine _ q _ h.fw n (bitAt_and_not_one v) ((given_f _ _ _ _ _).trans hs)))
  case code =>
    refine (codeReq_written s q v h c).trans (congrArg (s.written s.spine) (trimHand_accepts s.spine _ c _
      ((given_fnUp _ q v _ _).trans hu) ?_ (by rwa [given_f]) hp fun hc => ?_))
    · rwa [show (s.dev.given q _ v).mode = s.dev.mode from given_get Dev.mode (fun _ _ => rfl) _ _ _ _]
    · rw [given_f]
      exact ho hc
  case kick =>
    refine (wdog_written s q (v ||| 0x10000) h).trans (congrArg (s.written s.spine) ?_)
    rw [wdogWrite_kick s.spine _ _ (by rwa [timeout_or_kick]) (bitAt_or_kick v) ((given_fb _ _ _ _ _).trans hd),
      timeout_or_kick]
  case timeout =>
    refine (wdog_written s q (v &&& ~~~0x10000) h).trans (congrArg (s.written s.spine) ?_)
    rw [wdogWrite_timeout s.spine _ _ (bitAt_and_not_kick v), timeout_and_not_kick]

end Sys2Proof.Proofs

namespace Sys2Proof.Machine
open Sys2Proof.Laws

/-! ## Steps of the timebase (R473 to R493) -/

section
variable (sp : Spine) (d : Dev)

theorem refMonitor_held (h : bitAt (d.f F.TB_STATUS_HCAUSE) 1 = false) : d.refMonitor = d.refLost :=
  if_neg (Bool.eq_false_iff.mp h)
/-- The PLL locks to a valid reference that is not a squelched recovered clock. -/
theorem refRelock_locks (h : d.fb F.TB_REF_CFG_SEL = false ∨ d.squelch = false) (hv : d.refValid = true) :
    d.refRelock sp = (d.setF F.TB_REF_STAT_LOCK 1).clearCause sp 1 := by
  have hn : (d.fb F.TB_REF_CFG_SEL && d.squelch) = false := Bool.and_eq_false_iff.mpr h
  exact (if_neg (Bool.eq_false_iff.mp hn)).trans (if_pos hv)

/-- The edge that PPS_IN serves is captured, and is a sample where SRC says so. -/
theorem ppsIn_edge (rising : Bool) (he : d.fb F.TB_PPS_IN_CFG_EN = true) (hr : rising ≠ d.fb F.TB_PPS_IN_CFG_EDGE) :
    d.ppsIn sp rising =
      (let x := d.draw (2 * 65536 + 1)
       let t : Int := (frac16 sp.now : Int) + (x.1 : Int) - 65536 - d.fs F.TB_PPS_IN_CFG_DELAY_NS * 65536
       let m := t % (10 ^ 9 * 65536)
       let d1 := ((x.2.setF F.TB_PPS_IN_NS_NS (m / 65536).toNat).setF F.TB_PPS_IN_FRAC_FRAC (m % 65536).toNat).raise evTbPpsIn tbUid
       if d.fb F.TB_SERVO_CFG_SRC then d1.commitSample sp (if m * 2 ≤ 10 ^ 9 * 65536 then m else m - 10 ^ 9 * 65536)
       else d1) :=
  if_pos (Bool.and_eq_true_iff.mpr ⟨he, bne_iff_ne.mpr hr⟩)

section
variable (x : Int) (d1 : Dev) (ha : d.fnActive 128 = true) (hx : d.tb.sample = some x)
include ha hx
theorem servoCycle_applies (h : d.servoSample sp x = (d1, none)) : servoCycle (sp, d) = (sp, d1.servoPass sp) := by
  simp only [servoCycle, ha, if_true, hx, h]
/-- A sample that asks for a step of the servo's own makes the cycle step the time. -/
theorem servoCycle_steps (y : Int) (h : d.servoSample sp x = (d1, some y)) : servoCycle (sp, d) =
    (let v := stepTime sp d1 (y * ((2 ^ 32 : Nat) : Int)); (v.1, v.2.servoPass v.1)) := by
  simp only [servoCycle, ha, if_true, hx, h]
end

theorem noInput_late (hs : d.f F.TB_STATUS_STATE = 1 ∨ d.f F.TB_STATUS_STATE = 2)
    (ht : d.tb.heard + max 1 (d.f F.TB_HOLD_CFG_TIMEOUT_MS) * 1000000 * nsUnit ≤ sp.now) : d.noInput sp = d.setCause 0 :=
  if_pos ⟨hs, ht⟩
theorem stepEnd_withheld (hs : d.fb F.TB_STATUS_STEPPING = true) (hw : d.tb.withhold = 0) : d.stepEnd sp = d.stepDone sp :=
  if_pos (by simp [hs, hw])

section
variable (he : d.fb F.TB_PPS_OUT_CFG_EN = true)
include he
theorem ppsRise_due (h : d.tb.ppsSec < d.ppsSecond sp.now) :
    d.ppsRise sp = { d with tb := { d.tb with pps := true, ppsSec := d.ppsSecond sp.now, ppsAt := sp.now } } :=
  if_pos (Bool.and_eq_true_iff.mpr ⟨he, decide_eq_true h⟩)
theorem ppsFall_due (h : d.tb.ppsAt + max 1 (d.f F.TB_PPS_OUT_CFG_WIDTH_MS) * 1000000 * nsUnit ≤ sp.now) :
    d.ppsFall sp = { d with tb := { d.tb with pps := false } } :=
  if_pos (Bool.and_eq_true_iff.mpr ⟨he, decide_eq_true h⟩)
end

/-- An armed trigger whose time has come fires: it disarms, or its period sets the next time. -/
theorem trigFire_due (n : Nat) (he : d.fb (F.TB_TRIG_CTRL_EN n) = true) (hs : d.f (F.TB_TRIG_STAT_STATE n) = 1)
    (ht : d.trigTime n ≤ sp.now) : d.trigFire sp n =
      (let d1 := d.trigOutcome sp n 2
       let p := d.f (F.TB_TRIG_PERIOD_PERIOD_NS n)
       if p = 0 then d1.setF (F.TB_TRIG_CTRL_EN n) 0
       else (d1.setTrigNs n (d.trigTime n / nsUnit + p)).trigRun sp n (prevTick sp) (d.trigFuel sp n)) :=
  if_pos (by simp [he, hs, ht])

/-! ## Steps of the trim outputs (R523 to R530) -/

theorem deglitchEnd_held (c v : Nat) (h : (d.trimCh c).hold = some v) :
    d.deglitchEnd c = d.mapTrim c fun x => { x with out := v, hold := none } := by
  simp only [Dev.deglitchEnd, h]
theorem wdogExpire_late (hr : d.fb F.TRM_WDOG_RUN = true)
    (ht : d.wdogAt + d.f F.TRM_WDOG_TIMEOUT_MS * 1000000 * nsUnit ≤ sp.now) :
    d.wdogExpire sp = ((d.setF F.TRM_WDOG_RUN 0).raise evTrmWdog trimUid).trimFault 3 :=
  if_pos (Bool.and_eq_true_iff.mpr ⟨hr, decide_eq_true ht⟩)
end

end Sys2Proof.Machine

namespace Sys2Proof.Proofs
open Sys2Proof.Machine

/-- Settles O48: each step acts, since its time has come, as its equation above says; the boundary and the service pass are
those of the model. -/
theorem timeSteps : Obligations.TimeSteps := by
  intro s sp d
  refine ⟨fun h => congrArg s.to (refMonitor_held d h), fun h hv => congrArg s.to (refRelock_locks sp d h hv),
    fun rising he hr => ⟨fun h => ?capture, fun h => ?sample⟩,
    fun x d1 ha hx => ⟨fun h => ?applied, fun y h => ?stepped⟩,
    fun hs ht => congrArg s.to (noInput_late sp d hs ht), fun hs hw => congrArg s.to (stepEnd_withheld sp d hs hw),
    fun he => ⟨fun h => congrArg s.to (ppsRise_due sp d he h), fun h => congrArg s.to (ppsFall_due sp d he h)⟩,
    fun n he hs ht => ⟨fun hp => ?once, fun hp => ?again⟩, rfl,
    fun c v h => congrArg s.to (deglitchEnd_held d c v h), fun hr ht => congrArg s.to (wdogExpire_late sp d hr ht), fun c => rfl⟩
  case capture => exact congrArg s.to ((ppsIn_edge sp d rising he hr).trans (if_neg (Bool.eq_false_iff.mp h)))
  case sample => exact congrArg s.to ((ppsIn_edge sp d rising he hr).trans (if_pos h))
  case applied => exact wholeCmd_whole s servoCycle _ _ (servoCycle_applies sp d x d1 ha hx h)
  case stepped => exact wholeCmd_whole s servoCycle _ _ (servoCycle_steps sp d x d1 ha hx y h)
  case once => exact congrArg s.to ((trigFire_due sp d n he hs ht).trans (if_pos hp))
  case again => exact congrArg s.to ((trigFire_due sp d n he hs ht).trans (if_neg hp))

end Sys2Proof.Proofs

namespace Sys2Proof.Machine
open Sys2Proof.Laws

/-! ## Glaze (R506 to R518) -/

section
variable (sp : Spine) (d : Dev)

/-- The estimate that is ready is written, announced and no longer waits. -/
theorem estimate_ready (c dir : Nat) (clear : Bool) (h : d.estReady = some (c, dir, clear)) : d.estimate =
    (let d1 := (d.estimateSet c dir).setF (if dir = 0 then F.GLZ_CARR_STAT_RDY_TX c else F.GLZ_CARR_STAT_RDY_RX c) 1
     let d2 := if clear then (d.antennas c).foldl (fun d i => d.clearMem (accAddr dir i) 0x140) d1 else d1
     (({ d2 with glz := { d2.glz with est := none } } : Dev).setF F.GLZ_EST_CMD_BUSY 0).raise evGlzSetReady glzUid) := by
  simp only [Dev.estimate, h]

/-- A swap event that waits reaches every carrier whose time has come: it flips where a set is ready, and misses otherwise. -/
theorem swapEvent_waits (hs : d.glz.swap ≠ 0) (hon : d.glzOn = true) : d.swapEvent sp =
    (List.range 48).foldl (fun e c =>
      if e.fb (F.GLZ_CARR_STAT_PEND c) = true ∧ e.nextT c ≤ timeNs sp + e.f F.GLZ_SWAP_CFG_LEAD_US * 1000 then
        (if e.fb (F.GLZ_CARR_STAT_RDY_TX c) = true ∨ e.fb (F.GLZ_CARR_STAT_RDY_RX c) = true then e.flip c else e.swapMiss c)
      else e) { d with glz := { d.glz with swap := d.glz.swap - 1 } } := by
  unfold Dev.swapEvent
  rw [if_neg hs]
  simp only [hon, if_true, Bool.and_eq_true, Bool.or_eq_true, decide_eq_true_eq]

section
variable (c : Nat) (hon : d.glzOn = true)
include hon
theorem swapLate_passed (hp : d.fb (F.GLZ_CARR_STAT_PEND c) = true) (ht : d.nextT c ≤ timeNs sp) :
    d.swapLate sp c = d.swapMiss c := if_pos (by simp [hon, hp, ht])
theorem holdClear_over (hh : d.fb (F.GLZ_CARR_STAT_HOLD c) = true)
    (ht : d.symStart c (d.slotFrom c ((d.swapT c * ns3 : Nat) : Int) + max 2 (d.f F.GLZ_SWAP_CFG_HOLD_SLOTS) * (d.air c).syms) ≤
      now3 sp) : d.holdClear sp c = d.setF (F.GLZ_CARR_STAT_HOLD c) 0 :=
  if_pos (Bool.and_eq_true_iff.mpr ⟨Bool.and_eq_true_iff.mpr ⟨hh, decide_eq_true ht⟩, hon⟩)
theorem stale_aged (hs : d.fb (F.GLZ_CARR_STAT_STALE c) = false) (ha : d.f F.GLZ_MAX_AGE_SEC * 1000 < d.glzAge sp c) :
    d.stale sp c = (d.setF (F.GLZ_CARR_STAT_STALE c) 1).raise evGlzStale glzUid := if_pos (by simp [hon, hs, ha])
end

theorem floorWindow_over (r : Nat) (ho : sp.contain.out (dispatcherUid r) = false)
    (ht : (d.disp_ r).floorAt + d.floorWin ≤ sp.now) :
    d.floorWindow sp r = d.mapDisp r fun x => { x with floorAt := sp.now, floorAcc := 0 } :=
  (if_neg (Bool.eq_false_iff.mp ho)).trans (if_pos ht)

theorem glzService_on (hon : d.glzOn = true) : d.glzService sp =
    (let d1 := d.progress sp 129
     if d1.fnState 129 = 4 ∧ d1.glzDrained = true then d1.fnStopped sp 129 else d1) := by
  refine (if_pos hon).trans ?_
  simp only [Bool.and_eq_true, beq_iff_eq]

/-- The measurement of a port ends by the number of frames that came back, and by the size of the error. -/
theorem loopback_ends (p n : Nat) (med : Int) (hr : d.loopRuns p = true) (hon : d.glzOn = true) : d.loopback sp p med n =
    (let d0 := ({ d with sent := d.sent ++ [.loop p 1024] } : Dev).setF (F.GLZ_LOOP_STAT_FRAMES p) n
     let e := med - ((d.f (F.GLZ_LOOP_DELAY_D_LOOP p) * 256 : Nat) : Int)
     let d1 := d0.setF (F.GLZ_LOOP_RES_E p) (wrapInt 32 (clampInt (-(2 ^ 31)) (2 ^ 31 - 1) e))
     let a := e * ((min 16 (d.f (F.GLZ_LOOP_CFG_SHARE p)) : Nat) : Int) / 16
     let add := fun (d : Dev) (x : Fld) (v : Int) => d.setF x (wrapInt 24 (d.fs x + v))
     if n < 512 then (d0.setF (F.GLZ_LOOP_STAT_STAT p) 2).loopNext sp
     else if e.natAbs ≤ 50 * 65536 then
       ((add (add d1 (F.FH_TS_CAL_RX_C p) a) (F.FH_TS_CAL_TX_C p) (e - a)).setF (F.GLZ_LOOP_STAT_STAT p) 1).loopNext sp
     else (d1.setF (F.GLZ_LOOP_STAT_STAT p) 3).loopNext sp) :=
  if_pos (by simp [hr, hon])

section
variable (c0 i t : Nat) (l : List (Int × Nat)) (hx : d.glz.ocxo = some (c0, i, t, l)) (hs : d.f F.GLZ_STATUS_COMM_STEP = 2)
  (ht : t + d.dwell ≤ sp.now) (hon : d.glzOn = true)
include hx hs ht hon
/-- A dwell that ends while the step may not run ends the step. -/
theorem ocxoDwell_barred (k : Nat) (hb : d.ocxoBar = some k) : d.ocxoDwell sp = d.ocxoEnd sp k := by
  simp only [Dev.ocxoDwell, hx, if_pos (And.intro hs (And.intro ht hon)), hb]
/-- Otherwise the third dwell gives the result, and each one before it hands the next code. -/
theorem ocxoDwell_ends (hb : d.ocxoBar = none) : d.ocxoDwell sp =
    (let l' := l ++ [flogMean (d.tb.flog.getD []) (t + d.dwell * 3 / 4) (t + d.dwell)]
     if i = 2 then d.ocxoResult sp c0 l'
     else
       let d1 := d.trimHand sp 0 (d.ocxoCode c0 (i + 1)) false
       { d1 with glz := { d1.glz with ocxo := some (c0, i + 1, sp.now, l') }
                 tb := { d1.tb with flog := some [(sp.now, d.fs F.TB_FREQ_F)] } }) := by
  simp only [Dev.ocxoDwell, hx, if_pos (And.intro hs (And.intro ht hon)), hb]
end

theorem glzCommEnd_done (hs : d.f F.GLZ_STATUS_COMM_STEP = 3) (hon : d.glzOn = true) (hc : d.calibDone sp = true) :
    d.glzCommEnd sp =
      (((d.setF F.GLZ_STATUS_COMM_STEP 0).setF F.GLZ_STATUS_COMM_DONE 1).raise evGlzCommDone glzUid).commOver sp true := by
  have hd : d.commDone sp = _ := if_pos ⟨hs, hon, hc⟩
  exact (if_pos ⟨hs, hon, hc⟩).trans (congrArg (fun e => Dev.commOver sp e true) hd)
end

end Sys2Proof.Machine

namespace Sys2Proof.Proofs
open Sys2Proof.Machine

/-- A step of Glaze in service, of which the effect on the device is known. -/
theorem glzStep_to (s : State) (f : Spine → Dev → Dev) (d : Dev) (ho : s.spine.contain.out glzUid = false)
    (h : f s.spine s.dev = d) : devCmd s (glzActs f) = s.to d :=
  congrArg s.to ((if_neg (Bool.eq_false_iff.mp ho)).trans h)

/-- Settles O49: each step of Glaze acts, since it is in service, as its equation above says. -/
theorem glazeSteps : Obligations.GlazeSteps := by
  intro s ho sp d
  refine ⟨fun c dir clear h => ?estimate, fun hon hs => ?swap,
    fun c hon => ⟨fun hp ht => ?miss, fun hh ht => ?hold, fun hs ha => ?stale⟩, fun r hr ht => ?floor, fun hon => ?service,
    fun p med n hr hon => ⟨fun hn => ?few, fun hn he => ?far, fun hn he => ?near⟩,
    fun c0 i t l hx hs ht hon => ⟨fun k hb => ?barred, fun hb h2 => ?last, fun hb h2 => ?next⟩, fun hs hon hc => ?done⟩
  case estimate => exact glzStep_to s _ _ ho (estimate_ready d c dir clear h)
  case swap => exact glzStep_to s _ _ ho (swapEvent_waits sp d hs hon)
  case miss => exact glzStep_to s _ _ ho (swapLate_passed sp d c hon hp ht)
  case hold => exact glzStep_to s _ _ ho (holdClear_over sp d c hon hh ht)
  case stale => exact glzStep_to s _ _ ho (stale_aged sp d c hon hs ha)
  case floor => exact congrArg s.to (floorWindow_over sp d r hr ht)
  case service => exact glzStep_to s _ _ ho (glzService_on sp d hon)
  case few => exact glzStep_to s _ _ ho ((loopback_ends sp d p n med.toInt hr hon).trans (if_pos hn))
  case far =>
    exact glzStep_to s _ _ ho ((loopback_ends sp d p n med.toInt hr hon).trans
      ((if_neg (Nat.not_lt.mpr hn)).trans (if_neg (Nat.not_le.mpr he))))
  case near =>
    exact glzStep_to s _ _ ho ((loopback_ends sp d p n med.toInt hr hon).trans
      ((if_neg (Nat.not_lt.mpr hn)).trans (if_pos he)))
  case barred => exact glzStep_to s _ _ ho (ocxoDwell_barred sp d c0 i t l hx hs ht hon k hb)
  case last => exact glzStep_to s _ _ ho ((ocxoDwell_ends sp d c0 i t l hx hs ht hon hb).trans (if_pos h2))
  case next => exact glzStep_to s _ _ ho ((ocxoDwell_ends sp d c0 i t l hx hs ht hon hb).trans (if_neg h2))
  case done => exact glzStep_to s _ _ ho (glzCommEnd_done sp d hs hon hc)

end Sys2Proof.Proofs

namespace Sys2Proof.Machine
open Sys2Proof.Laws

/-! ## SPDM (R557 to R559) -/

section
variable (d : Dev)

/-- The part of the chain that a request names. -/
theorem spdmCertificate_part (off len : Nat) (h : off < Config.certChain.length) : d.spdmCertificate off len =
    (let n := min len (Config.certChain.length - off)
     d.spdmSend 0x12 0x02 0 0
       (leBytes 2 n ++ leBytes 2 (Config.certChain.length - off - n) ++ (Config.certChain.drop off).take n)) :=
  if_neg (Nat.not_le.mpr h)

section
variable (i : Nat) (sign : Bool) (nonce : List Byte) (h0 : i ≠ 0) (h255 : i ≠ 255)
include h0 h255

theorem spdmMeasurements_missing (h : d.measAt i = none) : d.spdmMeasurements i sign nonce = d.spdmError 1 := by
  simp only [Dev.spdmMeasurements, if_neg h0, if_neg h255, h, Option.map_none]
/-- One block, signed where the request asks for it. -/
theorem spdmMeasurements_one (b : List Byte) (h : d.measAt i = some b) : d.spdmMeasurements i sign nonce =
    (let body := leBytes 1 1 ++ leBytes 3 b.length ++ b ++ d.spdmNonce.1 ++ leBytes 2 0
     if sign then d.spdmNonce.2.spdmSigned 0x60 0 0 (fitBytes 32 nonce) body
     else d.spdmNonce.2.spdmSend 0x12 0x60 0 0 body) := by
  simp only [Dev.spdmMeasurements, if_neg h0, if_neg h255, h, Option.map_some, List.length_singleton, List.flatten_singleton]
end
end

/-- A request that the device answers. -/
theorem spdmCmd_on (s : State) (f : Dev → Dev) (d : Dev) (ho : s.dev.spdmOn s.spine = true) (h : f s.dev = d) :
    spdmCmd s f = s.to d := congrArg s.to ((if_pos ho).trans h)

end Sys2Proof.Machine

namespace Sys2Proof.Proofs
open Sys2Proof.Machine

/-- Settles O51: the device is on and answers each request with the message that its equation above gives. -/
theorem spdmAnswers : Obligations.SpdmAnswers := by
  intro s ho
  refine ⟨spdmCmd_on s _ _ ho rfl, spdmCmd_on s _ _ ho rfl, spdmCmd_on s _ _ ho rfl, spdmCmd_on s _ _ ho rfl,
    fun off len => ⟨fun h => ?past, fun h => ?part⟩, fun nonce => spdmCmd_on s _ _ ho rfl,
    fun i nonce => ⟨fun h => ?number, fun h => ?all, fun h h0 h255 sign => ?missing, fun b h h0 h255 => ⟨?plain, ?signed⟩⟩,
    fun code h => ?unknown⟩
  case past => exact spdmCmd_on s _ _ ho (if_pos h)
  case part => exact spdmCmd_on s _ _ ho (spdmCertificate_part s.dev off.toNat len.toNat h)
  case number =>
    refine spdmCmd_on s _ _ ho ?_
    rw [h]
    rfl
  case all =>
    refine spdmCmd_on s _ _ ho ?_
    rw [h]
    rfl
  case missing => exact spdmCmd_on s _ _ ho (spdmMeasurements_missing s.dev _ sign nonce h0 h255 h)
  case plain => exact spdmCmd_on s _ _ ho (spdmMeasurements_one s.dev _ false nonce h0 h255 b h)
  case signed => exact spdmCmd_on s _ _ ho (spdmMeasurements_one s.dev _ true nonce h0 h255 b h)
  case unknown => exact spdmCmd_on s _ _ ho (if_neg (Bool.eq_false_iff.mp h))

end Sys2Proof.Proofs

namespace Sys2Proof.Machine
open Sys2Proof.Laws

/-! ## What keeps the service key's press -/

section
variable (sp : Spine) (d : Dev)
@[simp] theorem servoState_lc (n : Nat) : (d.servoState n).lc = d.lc := by
  unfold Dev.servoState
  dsimp only
  split_ifs <;> rfl
@[simp] theorem setRate_lc (y : Int) : (d.setRate y).lc = d.lc := by
  unfold Dev.setRate
  dsimp only
  split <;> rfl
@[simp] theorem setCause_lc (n : Nat) : (d.setCause n).lc = d.lc := by
  unfold Dev.setCause
  split <;> simp
@[simp] theorem clearCause_lc (n : Nat) : (d.clearCause sp n).lc = d.lc := by
  unfold Dev.clearCause
  dsimp only
  generalize (if bitAt (d.f F.TB_STATUS_HCAUSE) n then _ else _ : Nat) = h
  split
  · exact servoState_lc _ _
  · rfl
@[simp] theorem startReset_lc (cause : Nat) : (d.startReset sp cause).lc = d.lc := by
  unfold Dev.startReset
  split
  · rfl
  · simp
@[simp] theorem keyRecord_lc (ms act : Nat) : (d.keyRecord ms act).lc = d.lc := by
  unfold Dev.keyRecord
  dsimp only
  split <;> rfl
@[simp] theorem keyRecord_boot (ms act : Nat) : (d.keyRecord ms act).boot = d.boot := by
  unfold Dev.keyRecord
  dsimp only
  split <;> rfl

/-! ## Latch and service key (R574 to R578) -/

theorem latchOpen_undrained (hl : d.fb F.LC_STATUS_LATCH = true) (hd : d.f F.GSO_POLICY_LATCH_DRAIN_EN = 0) :
    d.latchOpen sp = (d.setF F.LC_STATUS_LATCH 0).raise evLcLatchOpen lcUid :=
  (if_pos hl).trans (if_neg (by simp [fb_of_zero _ _ hd]))
theorem latchClose_held (hl : d.fb F.LC_STATUS_LATCH = false) (hr : d.fb F.LC_CFG_CLOSE_RESUME = false) :
    d.latchClose sp = ((d.setF F.LC_STATUS_LATCH 1).raise evLcLatchClose lcUid).setF F.GSO_MODE_HOLD_DRAIN 0 :=
  (if_neg (Bool.eq_false_iff.mp hl)).trans (if_neg (by simp [hr]))
theorem keyPress_up (h : d.fb F.LC_STATUS_KEY = false) : d.keyPress sp =
    { d.setF F.LC_STATUS_KEY 1 with lc := { timed := true, acted := false, pressed := sp.now } } :=
  if_neg (Bool.eq_false_iff.mp h)

/-- A press shorter than a second toggles IDENT. -/
theorem keyRelease_short (hk : d.fb F.LC_STATUS_KEY = true) (ht : d.lc.timed = true) (hm : d.heldMs sp < 1000) :
    d.keyRelease sp =
      (let d1 : Dev := { d.setF F.LC_STATUS_KEY 0 with lc := { d.lc with timed := false, acted := false } }
       (((d1.setF F.LC_KEY_LAST_MS (min (d.heldMs sp) 65535)).setF F.LC_KEY_LAST_ACT 1).setF F.LC_CTRL_IDENT
         (1 - d.f F.LC_CTRL_IDENT)).raise evLcKey lcUid) :=
  (if_neg (by simp [hk])).trans ((if_neg (by simp [ht])).trans (if_pos hm))

/-- A hold that has come to its end starts a full reset, where the policy admits it and none has started. -/
theorem keyHold_resets (hk : d.fb F.LC_STATUS_KEY = true) (ht : d.lc.timed = true) (ha : d.lc.acted = false)
    (hm : 12001 ≤ d.heldMs sp) (he : d.fb F.GSO_POLICY_SVC_RESET_EN = true) (hb : d.boot.at_ ≠ .off) (hr : d.boot.rst = none) :
    (d.keyHold sp).boot.rst = some 3 ∧ (d.keyHold sp).lc.acted = true := by
  have hh : d.keyHold sp = Dev.startReset sp _ 3 := if_pos (by simp [hk, ht, ha, hm, he])
  rw [hh]
  constructor
  · rw [startReset_boot]
    · simpa using hb
    · simpa using hr
  · simp

/-! ## Module cages (R581 to R585) -/

section
variable (m : Nat)

/-- A change to a state in which the module's reset is asserted: EMPTY, INSERTED, FAULT or UNSUPPORTED. -/
theorem cageTo_low (v : Nat) (h : within 2 4 v = false) : d.cageTo sp m v =
    ((d.setF (F.LC_CAGE_STAT_STATE m) v).raise (evLcMod m) lcUid).mapCage m fun c => { c with since := sp.now, rst := true } := by
  simp only [Dev.cageTo, h, Bool.not_false, Bool.or_true]
/-- A change to a state that leaves the module's reset as it is. -/
theorem cageTo_go (v : Nat) (h : within 2 4 v = true) : d.cageTo sp m v =
    ((d.setF (F.LC_CAGE_STAT_STATE m) v).raise (evLcMod m) lcUid).mapCage m fun c => { c with since := sp.now } := by
  simp only [Dev.cageTo, h, Bool.not_true, Bool.or_false]
/-- A change of state leaves the fields of every other register. -/
theorem fb_cageTo_ne (v : Nat) (y : Fld) (h : y.addr ≠ (F.LC_CAGE_STAT_STATE m).addr) : (d.cageTo sp m v).fb y = d.fb y :=
  fb_setF_ne d (F.LC_CAGE_STAT_STATE m) y v h

theorem modIn_absent (h : (d.cageAt m).prs = false) : d.modIn sp m =
    (((d.mapCage m fun c => { c with prs := true, apps := [] }).setF (F.LC_CAGE_STAT_PRS m) 1).countF
      (F.LC_CAGE_STAT_INS m) 1).cageTo sp m 1 := if_neg (Bool.eq_false_iff.mp h)
theorem modRelease_held (hs : d.cageSt m = 1) (hr : (d.cageAt m).rst = true) :
    d.modRelease m = d.mapCage m fun c => { c with rst := false } := if_pos ⟨hs, hr⟩

section
variable (ha : d.fb (F.LC_CAGE_CFG_AUTO m) = true)
include ha
theorem modInit_answers (cmis : Bool) (hs : d.cageSt m = 1) (hr : (d.cageAt m).rst = false) : d.modInit sp m cmis =
    if cmis then d.cageTo sp m 2 else (d.cageTo sp m 2).cageTo sp m 6 := if_pos ⟨hs, hr, ha⟩
theorem modReady_applies (apps : List ModApp) (hs : d.cageSt m = 2) :
    d.modReady sp m apps = (d.mapCage m fun c => { c with apps := apps }).modApply sp m := if_pos ⟨hs, ha⟩
theorem modUp_applied (hs : d.cageSt m = 3) : d.modUp sp m = d.cageTo sp m 4 := if_pos ⟨hs, ha⟩

/-- A step of the sequencer, or a READY module, fails with no wait. -/
theorem modFault_failed (h1 : 1 ≤ d.cageSt m) (h4 : d.cageSt m ≤ 4) : d.modFault sp m none = d.cageTo sp m 5 := by
  have hs : (within 1 3 (d.cageSt m) || (d.cageSt m == 4 && true)) = true := by
    simp only [Bool.or_eq_true, within_iff, Bool.and_true, beq_iff_eq]
    omega
  exact if_pos (Bool.and_eq_true_iff.mpr ⟨Bool.and_eq_true_iff.mpr ⟨hs, ha⟩, decide_eq_true (Nat.zero_le _)⟩)
/-- The wait of a step runs out. -/
theorem modFault_late (ms : Nat) (h1 : 1 ≤ d.cageSt m) (h3 : d.cageSt m ≤ 3)
    (ht : (d.cageAt m).since + min ms (1000 * max 1 (d.f (F.LC_CAGE_CFG_TMO_S m))) * (10 ^ 6 * nsUnit) ≤ sp.now) :
    d.modFault sp m (some ms) = d.cageTo sp m 5 := by
  have hs : (within 1 3 (d.cageSt m) || (d.cageSt m == 4 && false)) = true := by
    rw [(within_iff 1 3 _).mpr ⟨h1, h3⟩, Bool.true_or]
  exact if_pos (Bool.and_eq_true_iff.mpr ⟨Bool.and_eq_true_iff.mpr ⟨hs, ha⟩, decide_eq_true ht⟩)
end

theorem modApply_app (a : ModApp) (h : (d.cageTo sp m 3).modApp m = some a) :
    d.modApply sp m = (d.cageTo sp m 3).setF (F.LC_CAGE_STAT_APP m) a.code.toNat := by
  simp only [Dev.modApply, h]
theorem modApply_none (h : (d.cageTo sp m 3).modApp m = none) : d.modApply sp m = (d.cageTo sp m 3).cageTo sp m 6 := by
  simp only [Dev.modApply, h]

/-- A module that leaves while no transfer of firmware's is under way. -/
theorem modOut_idle (hp : (d.cageAt m).prs = true) (hb : d.fb (F.LC_CAGE_I2C_BUSY m) = false) : d.modOut sp m =
    ((d.mapCage m fun c => { c with prs := false, apps := [] }).setF (F.LC_CAGE_STAT_PRS m) 0).cageTo sp m 0 := by
  have hne : (F.LC_CAGE_I2C_BUSY m).addr ≠ (F.LC_CAGE_STAT_STATE m).addr := by
    simp only [F.LC_CAGE_I2C_BUSY, F.LC_CAGE_STAT_STATE]
    omega
  refine (if_pos hp).trans (if_neg (Bool.eq_false_iff.mp ?_))
  exact (fb_cageTo_ne sp _ m 0 _ hne).trans ((fb_setF_ne _ (F.LC_CAGE_STAT_PRS m) _ 0 hne).trans hb)

/-- A transfer of firmware's ends. -/
theorem i2cDone_ends (x : Byte) (nak : Bool) (hb : d.fb (F.LC_CAGE_I2C_BUSY m) = true) (hs : d.modStep m = false) :
    d.i2cDone m x nak =
      (let d1 := d.setF (F.LC_CAGE_I2C_BUSY m) 0
       if nak then d1.setF (F.LC_CAGE_I2C_NAK m) 1
       else if d.fb (F.LC_CAGE_I2C_WRITE m) then d1 else d1.setF (F.LC_CAGE_I2C_RDATA m) x.toNat) :=
  if_pos (by simp [hb, hs])
end
end

end Sys2Proof.Machine

namespace Sys2Proof.Proofs
open Sys2Proof.Machine

/-- A step of a cage's sequencer while the line card is in service, of which the effect on the device is known. -/
theorem cageStep_to (s : State) (f : Spine → Dev → Dev) (d : Dev) (ho : s.spine.contain.out lcUid = false)
    (h : f s.spine s.dev = d) : devCmd s (cageActs f) = s.to d :=
  congrArg s.to ((if_neg (Bool.eq_false_iff.mp ho)).trans h)

/-- Settles O39: each step of the latch, the key, a cage and the two-wire master as its equation above says; a change of a
cage's state asserts the module's reset or leaves it. -/
theorem lineCardSteps : Obligations.LineCardSteps := by
  intro s sp d
  refine ⟨fun hl hd => congrArg s.to (latchOpen_undrained sp d hl hd), fun hl hr => congrArg s.to (latchClose_held sp d hl hr),
    fun h => congrArg s.to (keyPress_up sp d h), ⟨fun hk ht hm => congrArg s.to (keyRelease_short sp d hk ht hm),
      fun hk ht ha hm he hb hr => ⟨_, rfl, keyHold_resets sp d hk ht ha hm he hb hr⟩⟩,
    fun m => ⟨fun h => ?inserted, fun ho => ⟨fun hs hr => cageStep_to s _ _ ho (modRelease_held d m hs hr),
      fun ha => ⟨fun hs hr => ⟨?cmis, ?other⟩, fun apps hs => ⟨fun a h => ?chosen, fun h => ?unsupported⟩, fun hs => ?ready,
        fun h1 h4 => ⟨?failed, fun ms h3 ht => ?late⟩⟩⟩,
      fun hp hb => ?removed, rfl, fun x hb hs => ⟨?nak, fun hw => ?read⟩⟩⟩
  case inserted => exact congrArg s.to ((modIn_absent sp d m h).trans (cageTo_low sp _ m 1 rfl))
  case cmis => exact cageStep_to s _ _ ho ((modInit_answers sp d m ha true hs hr).trans (cageTo_go sp d m 2 rfl))
  case other =>
    refine cageStep_to s _ _ ho ((modInit_answers sp d m ha false hs hr).trans ?_)
    rw [if_neg Bool.false_ne_true, cageTo_low sp _ m 6 rfl, cageTo_go sp d m 2 rfl]
  case chosen =>
    have e := cageTo_go sp (d.mapCage m fun c => { c with apps := apps }) m 3 rfl
    refine cageStep_to s _ _ ho ((modReady_applies sp d m ha apps hs).trans ((modApply_app sp _ m a ?_).trans ?_)) <;> rw [e]
    exact h
  case unsupported =>
    have e := cageTo_go sp (d.mapCage m fun c => { c with apps := apps }) m 3 rfl
    refine cageStep_to s _ _ ho ((modReady_applies sp d m ha apps hs).trans ((modApply_none sp _ m ?_).trans ?_)) <;> rw [e]
    · exact h
    · exact cageTo_low sp _ m 6 rfl
  case ready => exact cageStep_to s _ _ ho ((modUp_applied sp d m ha hs).trans (cageTo_go sp d m 4 rfl))
  case failed => exact cageStep_to s _ _ ho ((modFault_failed sp d m ha h1 h4).trans (cageTo_low sp d m 5 rfl))
  case late => exact cageStep_to s _ _ ho ((modFault_late sp d m ha ms.toNat h1 h3 ht).trans (cageTo_low sp d m 5 rfl))
  case removed => exact congrArg s.to ((modOut_idle sp d m hp hb).trans (cageTo_low sp _ m 0 rfl))
  case nak => exact congrArg s.to (i2cDone_ends d m x true hb hs)
  case read =>
    exact congrArg s.to ((i2cDone_ends d m x false hb hs).trans
      ((if_neg Bool.false_ne_true).trans (if_neg (Bool.eq_false_iff.mp hw))))

end Sys2Proof.Proofs

namespace Sys2Proof.Machine
open Sys2Proof.Laws

/-! ## Events and trace (R590, R600, R621) -/

section
variable (sp : Spine) (d : Dev)

theorem routeStep_runs (n : Nat) (w : Whole) (h : w.1.contain.pkg = 0) : routeStep n w = retrySubmits (w.1,
    (occSort (w.2.evq.take n)).foldl (fun d o => d.applyOcc w.1 o) { w.2 with evq := w.2.evq.drop n }) := by
  have hr : w.2.routeCycle w.1 n = _ := if_pos h
  exact (if_pos h).trans (congrArg (fun e => retrySubmits (w.1, e)) hr)

section
variable (o : Occ) (l : List Occ) (hp : sp.contain.pkg ≠ 0) (hq : d.evq = o :: l)
include hp hq
/-- After a package fault the occurrence of another unit is lost. -/
theorem aonEvent_lost (h : aonEvents.contains o.num = false) : d.aonEvent sp = { d with evq := l } := by
  unfold Dev.aonEvent
  rw [hq]
  dsimp only
  rw [if_neg hp, if_neg (Bool.eq_false_iff.mp h)]
/-- One of the always-on island's own is logged. -/
theorem aonEvent_logged (h : aonEvents.contains o.num = true) (hr : d.f (F.EVT_CFG_ROUTE o.num) ≠ 1) :
    d.aonEvent sp = ({ d with evq := l } : Dev).logAppend sp o := by
  unfold Dev.aonEvent
  rw [hq]
  dsimp only
  rw [if_neg hp, if_pos h, if_neg (fun hc => hr hc.1)]
end

/-- A sample of the pc of a core whose cluster runs, is in service and has gone through its cycles. -/
theorem pcSample_due (he : d.fb F.EVT_TRC_CTRL_PC_EN = true) (hk : d.f F.EVT_TRC_CTRL_PC_CORE < 384)
    (ht : d.pcDue sp (coreCluster (d.f F.EVT_TRC_CTRL_PC_CORE)) = true)
    (hpark : d.parked.contains (coreCluster (d.f F.EVT_TRC_CTRL_PC_CORE)) = false)
    (hdie : sp.contain.dies.contains (d.f F.EVT_TRC_CTRL_PC_CORE / 96) = false)
    (hcl : sp.contain.clusters.contains (coreCluster (d.f F.EVT_TRC_CTRL_PC_CORE)) = false) (hp : sp.contain.pkg = 0) :
    d.pcSample sp =
      (let k := d.f F.EVT_TRC_CTRL_PC_CORE
       let c := d.core k
       ({ d with pcAt := sp.now } : Dev).traceOwn sp (coreUid k) 9 (leBytes 2 c.pc.toNat ++
         leBytes 2 (b2n (c.mode == .wfi || c.mode == .easel) + 2 * d.f (F.CORE_STATUS_LA k) + 4 * d.f (F.CORE_STATUS_RA k)
           + 8 * d.f (F.CORE_STATUS_PRIV k)) ++ leBytes 4 (Config.coreCycle k sp.now))) := by
  unfold Dev.pcSample
  exact if_pos (by simp only [he, hk, hpark, ht, hdie, hcl, hp, decide_true, Bool.not_false, Bool.and_true, beq_self_eq_true])

/-! ## The TAP and the debug port (R601, R602) -/

/-- An instruction that takes the pins. -/
theorem jtagIr_takes (ir : JtagIr) (h : (ir == .extest || ir == .clamp || ir == .highz) = true) :
    d.jtagIr ir = { d with jtag := { ir := ir, pins := true } } := by
  simp only [Dev.jtagIr, Bool.or_assoc] at h ⊢
  rw [h, Bool.or_true]
/-- An instruction that leaves the pins as they are. -/
theorem jtagIr_leaves (ir : JtagIr) (h : (ir == .extest || ir == .clamp || ir == .highz) = false) :
    d.jtagIr ir = { d with jtag := { ir := ir, pins := d.jtag.pins } } := by
  simp only [Dev.jtagIr, Bool.or_assoc] at h ⊢
  rw [h, Bool.or_false]

theorem jtagId_shown : d.jtagId = { d with
    jtag := { ir := .idcode, pins := d.jtag.pins }
    sent := d.sent ++ [.jtag (2 ^ 28 + 0x9416 * 2 ^ 12 + Config.jtagMaker % 2 ^ 11 * 2 + 1)] } :=
  congrArg (fun e : Dev => { e with sent := d.sent ++ [Tx.jtag idCode] }) (jtagIr_leaves d .idcode rfl)

theorem tapReset_open (h : d.fb F.EVT_DBG_OPEN = true) : d.tapReset =
    { (d.setF F.EVT_DBG_OPEN 0).raise evDebug (hubUid 2) with jtag := Jtag.reset } :=
  congrArg (fun e : Dev => { e with jtag := Jtag.reset }) (if_pos h)

/-- A device without a lock, or with a good token, opens the closed port. -/
theorem debugInstr_opens (token : List Byte) (h : d.fb F.EVT_DBG_OPEN = false)
    (ht : Config.dbgLock = false ∨ Config.debugTokenOk token = true) : d.debugInstr token =
      ((({ d with jtag := { ir := .debug, pins := d.jtag.pins } } : Dev).setF F.EVT_DBG_OPEN 1).countF
        F.EVT_DBG_OPENS 1).raise evDebug (hubUid 2) := by
  have hok : (!Config.dbgLock || Config.debugTokenOk token) = true := by
    rcases ht with h | h <;> simp [h]
  unfold Dev.debugInstr
  rw [if_pos hok, jtagIr_leaves d .debug rfl]
  exact if_neg (Bool.eq_false_iff.mp h)

theorem debugHalt_runs (k : Nat) (h : (d.core k).mode ≠ .debug) :
    d.debugHalt k = d.mapCore k fun c => { c with was := c.mode, mode := .debug, step := false } :=
  mapCore_eq d k _ _ (if_neg h)
theorem debugStep_halted (k : Nat) (h : (d.core k).mode = .debug) :
    d.debugStep k = d.mapCore k fun c => { c with mode := c.was, step := true } :=
  mapCore_eq d k _ _ (if_pos h)
theorem debugResume_halted (k : Nat) (h : (d.core k).mode = .debug) :
    d.debugResume k = d.mapCore k fun c => { c with mode := c.was, step := false } :=
  mapCore_eq d k _ _ (if_pos h)
end

end Sys2Proof.Machine

namespace Sys2Proof.Proofs
open Sys2Proof.Machine

/-- Settles O40: each step of the router, the trace, the TAP and the open debug port, as its equation above says. -/
theorem eventAndTestSteps : Obligations.EventAndTestSteps := by
  intro s
  refine ⟨fun hp n => ?route, fun o l hp hq => ⟨fun h => congrArg s.to (aonEvent_lost _ _ o l hp hq h),
      fun h hr => congrArg s.to (aonEvent_logged _ _ o l hp hq h hr)⟩,
    fun he hk ht hpark hdie hcl hp => congrArg s.to (pcSample_due _ _ he hk ht hpark hdie hcl hp),
    congrArg s.to (jtagIr_leaves _ .bypass rfl), congrArg s.to (jtagIr_leaves _ .sample rfl),
    congrArg s.to (jtagIr_takes _ .extest rfl), congrArg s.to (jtagIr_takes _ .clamp rfl),
    congrArg s.to (jtagIr_takes _ .highz rfl), congrArg s.to (jtagIr_leaves _ .pulse rfl),
    congrArg s.to (jtagIr_leaves _ .train rfl), congrArg s.to (jtagId_shown _),
    fun ho => ⟨congrArg s.to (tapReset_open _ ho), fun k => ⟨fun h => ?halt, fun h => ⟨?step, ?resume⟩⟩⟩,
    fun token h ht => congrArg s.to (debugInstr_opens _ token h ht)⟩
  case route =>
    exact wholeCmd_pair s (routeStep n.val) _ (routeStep_runs n (s.spine, s.dev) hp)
  case halt => exact congrArg s.to ((if_pos ho).trans (debugHalt_runs _ k h))
  case step => exact congrArg s.to ((if_pos ho).trans (debugStep_halted _ k h))
  case resume => exact congrArg s.to ((if_pos ho).trans (debugResume_halted _ k h))

end Sys2Proof.Proofs
